-- ==== Sys2Proof/Word.lean ====
section
/-! DEFINITION. The words of the GL16 (00 "Numbers and units"): bytes, the 64-bit register word, identifiers of
the units, and sparse data by key. -/

namespace Sys2Proof

/-- One byte (00, "Words"). -/
abbrev Byte := BitVec 8
/-- The width of the numbered registers of WIN_0 (09 R261). -/
abbrev Word := BitVec 64

/-- Sparse data by key: a list of key and value pairs. The canonical form (keys strictly rising, no entry equal to
what an unlisted key reads as) is `Machine.Table.wf`. -/
abbrev Table (α : Type) := List (Nat × α)

/-- Addressed memory: byte cells by address. -/
abbrev Mem := Table Byte

/-- A sheet (01 R11). -/
abbrev SheetId := Fin 16
/-- A logical parcel index (01, "Hierarchy and parcel indices"). -/
abbrev LogParcel := Fin 16
/-- A physical parcel index (01, "Hierarchy and parcel indices"). -/
abbrev PhysParcel := Fin 18
/-- A Voijo port (10 R294). -/
abbrev PortId := Fin 64
/-- A queue (09 R262). -/
abbrev QueueId := Fin 32768
/-- A partition (09, "Partitions"). -/
abbrev PartId := Fin 16
/-- A context (09, "Contexts"). -/
abbrev CtxId := Fin 4096
/-- A device of a chart (11). -/
abbrev DevId := Fin 4096

/-- An engine: the sheet and the logical parcel that a plan addresses. -/
structure EngId where
  sheet : SheetId
  parcel : LogParcel
deriving DecidableEq, Repr

/-- A scribe core of an engine's parcel (07). -/
structure CoreId where
  eng : EngId
  core : Fin 4
deriving DecidableEq, Repr

/-- What a read of host memory brought: the bytes, or nothing where the read failed or was poisoned (09 R292). -/
abbrev HostRead := Option (List Byte)

end Sys2Proof
end

