-- ==== Sys2Proof/Syntax.lean ====
section
/-! DEFINITION. The commands of the GL16: one constructor of `Instr` for each row of the opcode table, and the operands
the rows carry. Engine words appear resolved (03 R92-R104): `INSTRUCTION_DECODE` makes these operands from the 128-bit
word at the engine's program counter. -/

namespace Sys2Proof

/-- A stream's logical name without its zero bits (05 R149). -/
structure StreamId where
  purpose : BitVec 4
  slot : BitVec 16
  tensor : BitVec 32
deriving DecidableEq, Repr

/-- A check on a unit's own arithmetic that fired in a word: in a lane generator (05 R160), or else a residue check or a
duplicated rounding decision of the unit (03 R114); and the lowest failing row and column (13 R368). -/
structure Upset where
  gen : Bool
  row : Nat
  col : Nat
deriving DecidableEq, Repr

/-- What physics does to one operation: the commands' own operand for upsets that the device detects or corrects.
Each list is empty where nothing happens. -/
structure Disturb where
  /-- DRAM byte upsets: device-local (sheet) address and xor mask; they stay in the cells (08 R237). -/
  dram : List (Nat × Byte) := []
  /-- Pages whose second attribute copy takes another value (08 R236). -/
  attrB : List (Nat × BitVec 2) := []
  /-- Seal-table bytes upset: byte index 32·record + offset, and xor mask. -/
  seals : List (Nat × Byte) := []
  /-- 64-bit words of the parcel store met with a double-bit error (08 R238). -/
  storeDbl : List Nat := []
  /-- 64-bit words of accumulator memory met with a double-bit error (03 R88). -/
  accDbl : List Nat := []
  /-- 64-bit words of the parcel store corrected on a read (08 R238): counted. -/
  storeFix : List Nat := []
  /-- 64-bit words of accumulator memory corrected on a read (03 R88): counted. -/
  accFix : List Nat := []
  /-- Addresses of 128-bit DRAM words that the die corrected on a read (08 R237): counted. -/
  dramFix : List Nat := []
  /-- Partials of a tile product disturbed before the accumulation stage: row, column, added integer numerator in
  units of 2^-512 (03 R110). -/
  partials : List (Nat × Nat × Int) := []
  /-- Values of the check row or check column disturbed: column or row, added residue (03 R112). -/
  checks : List (Bool × Nat × Nat) := []
  /-- A residue or duplication check that fired (03 R114, 05 R160). -/
  residue : Option Upset := none
  /-- Transit upsets of an arriving image or packet: byte offset and xor mask. -/
  transit : List (Nat × Byte) := []
deriving DecidableEq, Repr

/-- Rounding mode RM (02 R58); the reserved value stays visible. -/
abbrev RoundMode := BitVec 2

/-- Tile movement operands (03 R96), the parcel-store address already generated (03 R95). -/
structure MoveOp where
  pc : Nat
  rm : RoundMode
  ps : Int
  td : Fin 32
  handle : BitVec 16
  tileIdx : BitVec 32
  fmt : BitVec 4
  mx : Bool
  src : Bool
deriving DecidableEq, Repr

/-- MMA operands (03 R97) with KLOOP and TDLOOP already resolved. -/
structure MmaOp where
  pc : Nat
  a : Int
  b : Int
  afmt : BitVec 4
  amx : Bool
  bfmt : BitVec 4
  bmx : Bool
  td : Nat
  kblk : Nat
  rows : Nat
  init : Bool
  bkeep : Bool
  roff : Nat
deriving DecidableEq, Repr

/-- ROW_CHAIN operands (03 R99). -/
structure ChainOp where
  pc : Nat
  rm : RoundMode
  src : Fin 32
  dst : Fin 32
  dadr : Int
  dsel : Bool
  dfmt : BitVec 4
  dmx : Bool
  frow : Nat
  nrows : Nat
  scadr : Int
  scmode : BitVec 3
  scexp : BitVec 11
  badr : Int
  bmode : BitVec 2
  fn : BitVec 4
deriving DecidableEq, Repr

/-- Reduction operands (03 R101). -/
structure RedOp where
  pc : Nat
  rm : RoundMode
  src : Fin 32
  dst : Fin 32
  dadr : Int
  dsel : Bool
  dfmt : BitVec 4
  dmx : Bool
  frow : Nat
  nrows : Nat
  dir : Bool
  cont : Bool
  dsh : Nat
  count : Nat
deriving DecidableEq, Repr

/-- CONVERT and REWINDOW operands (03 R102). -/
structure ConvOp where
  pc : Nat
  rm : RoundMode
  src : Fin 32
  dst : Fin 32
  dadr : Int
  dsel : Bool
  dfmt : BitVec 4
  dmx : Bool
  frow : Nat
  nrows : Nat
deriving DecidableEq, Repr

/-- Operands of the four passes of a categorical draw (04 R139); the index buffer's address is already generated. -/
structure PassOp where
  pc : Nat
  slot : Fin 128
  src : Fin 32
  vbase : Nat
  nelem : Nat
  last : Bool
  pchk : Bool
  draw : Nat
  ibuf : Int
  iword : Nat
deriving DecidableEq, Repr

/-- Operands of the binary decisions (04 R147). -/
structure BinOp where
  pc : Nat
  slot : Fin 128
  src : Fin 32
  dst : Fin 32
  frow : Nat
  nrows : Nat
  b2 : Bool
  draw : Nat
deriving DecidableEq, Repr

/-- CPL_FIELDS (06 R210). -/
structure FieldsOp where
  pc : Nat
  slot : Fin 128
  src : Fin 32
  dst : Fin 32
  nch : Nat
  hadr : Int
  mode : Bool
deriving DecidableEq, Repr

/-- CPL_PROPOSE (06 R210). -/
structure ProposeOp where
  pc : Nat
  slot : Fin 128
  src : Fin 32
  aux : BitVec 16
  nch : Nat
  radr : Int
  draw : Nat
  midx : Nat
  heat : Bool
  sync : Bool
  cchk : Bool
deriving DecidableEq, Repr

/-- CPL_SETTLE (06 R210). -/
structure SettleOp where
  pc : Nat
  slot : Fin 128
  src : Fin 32
  nch : Nat
  qadr : Int
  qfmt : BitVec 4
deriving DecidableEq, Repr

/-- CPL_APPLY (06 R210). -/
structure ApplyOp where
  pc : Nat
  slot : Fin 128
  src : Fin 32
  nch : Nat
  radr : Int
deriving DecidableEq, Repr

/-- CPL_GROUP (06 R210). -/
structure GroupOp where
  pc : Nat
  slot : Fin 128
  src : Fin 32
  aux : BitVec 16
  nch : Nat
  radr : Int
  gadr : Int
  gidx : Nat
  ng : Nat
  draw : Nat
  metro : Bool
deriving DecidableEq, Repr

/-- CPL_ENERGY (06 R210). -/
structure EnergyOp where
  pc : Nat
  slot : Fin 128
  src : Fin 32
  aux : BitVec 16
  nch : Nat
  radr : Int
  hadr : Int
  init : Bool
  echk : Bool
  fin : Bool
  prof : Bool
deriving DecidableEq, Repr

/-- CPL_EXCHANGE (06 R210). -/
structure ExchangeOp where
  pc : Nat
  slot : Fin 128
  aux : BitVec 16
  nch : Nat
  par : Bool
  draw : Nat
deriving DecidableEq, Repr

/-- A queued engine word (03 R94): the operation and its operands. -/
inductive Uop where
  | tileLoad (o : MoveOp) | tileStore (o : MoveOp) | accStore (o : MoveOp) | accLoad (o : MoveOp)
  | psToAcc (o : MoveOp) | accToPs (o : MoveOp) | tileSend (o : MoveOp) | tileRecv (o : MoveOp)
  | tileAddMem (o : MoveOp) | tableLoad (o : MoveOp)
  | mma (o : MmaOp)
  | rowChain (o : ChainOp)
  | redSum (o : RedOp) | redMoments (o : RedOp) | redFinish (o : RedOp)
  | convert (o : ConvOp) | rewindow (o : ConvOp)
  | smpMax (o : PassOp) | smpWeigh (o : PassOp) | smpCut (o : PassOp) | smpDraw (o : PassOp)
  | bernoulli (o : BinOp) | heatbath (o : BinOp) | metropolis (o : BinOp)
  | fields (o : FieldsOp) | propose (o : ProposeOp) | settle (o : SettleOp) | apply (o : ApplyOp)
  | group (o : GroupOp) | energy (o : EnergyOp) | exchange (o : ExchangeOp)
deriving DecidableEq, Repr

/-- The predicate of an engine word (03 R92). -/
structure Pred where
  pen : Bool
  pf : Fin 8
  pneg : Bool
deriving DecidableEq, Repr

/-- The four AG strides and the base (03 R104). -/
structure AddrGen where
  base : BitVec 18 := 0
  str0 : BitVec 18 := 0
  str1 : BitVec 18 := 0
  str2 : BitVec 18 := 0
  str3 : BitVec 18 := 0
deriving DecidableEq, Repr

/-- What link training found of the lanes (10 R294). -/
inductive LaneOrder where
  | straight | reversed | other
deriving DecidableEq, Repr

/-- The partner's parameters exchanged in PARAM (10 R319, 11 R327). -/
structure PartnerParams where
  chartId : BitVec 16
  devId : BitVec 12
  port : BitVec 6
  enc : Bool
  precode : Bool
  delayNs : BitVec 16
  keyUnwraps : Bool
  /-- The partner's scrambler seeds of lanes 0 to 3 (10 R297). -/
  seeds : List (BitVec 58)
deriving DecidableEq, Repr

/-- What a port receives (10 R298-R303). -/
inductive GroupUnit where
  /-- The interleave group did not decode. -/
  | uncorrectable
  /-- A 64-byte unit of a group that decoded; `corrected` where a symbol was corrected. -/
  | bytes (b : List Byte) (corrected : Bool)
  /-- A whole group: the 136 symbols that each of lanes 0 to 3 carried, in lane order, with polarity, Gray coding and precoding undone
  by the receiver (R294, R295). -/
  | wire (lanes : List (List (BitVec 10)))
deriving DecidableEq, Repr

/-- A link packet (10 R306): header fields and body. -/
structure Packet where
  ptype : Byte
  poison : Bool
  prov : Bool
  enc : Bool
  src : BitVec 12
  dst : BitVec 12
  ctx : BitVec 12
  gen : Byte
  dsheet : BitVec 4
  route : BitVec 16
  tspec : Word
  body : List Byte
deriving DecidableEq, Repr

/-- A sync message (10 R304). -/
structure SyncMsg where
  stype : Byte
  value : Bool
  src : BitVec 12
  dst : BitVec 12
  num : BitVec 16
  operand : Word
  sentAt : Word
  epoch : BitVec 32
  ctx : BitVec 12
  gen : Byte
deriving DecidableEq, Repr

/-- Telemetry of the power stage (18 R468). -/
structure Telemetry where
  inW : BitVec 16
  va : Byte
  vb : Byte
  ia : Byte
  ib : Byte
deriving DecidableEq, Repr

/-- The 64-byte message a fault travels in (13 R366), MSEQ and DATUM included. -/
structure FaultMsg where
  source : BitVec 16
  kind : BitVec 12
  sev : BitVec 4
  ctx : BitVec 12
  gen : Byte
  scribe : Bool
  overrun : Bool
  again : Bool
  op : BitVec 16
  temp : BitVec 16
  volt : BitVec 16
  mseq : BitVec 32
  datum : Word
  address : Word
  step : Word
  detail : Word
deriving DecidableEq, Repr

/-- The I3C common command codes the target supports (19 R497). -/
inductive I3cCcc where
  | entdaa (addr : BitVec 7) | setdasa (addr : BitVec 7) | setnewda (addr : BitVec 7) | rstdaa
  | getpid | getbcr | getdcr | getstatus
deriving DecidableEq, Repr

/-- JTAG instructions (19 R498). -/
inductive JtagInstr where
  | bypass | idcode | extest | samplePreload | dbgread
deriving DecidableEq, Repr

/-- An access to WIN_0 (09 R261), or to the doorbell page of a queue in WIN_2 (R262), as it was made. -/
structure BadAccess where
  write : Bool
  offset : Nat
  width : Nat
  /-- The doorbell page, where the access is to WIN_2. -/
  page : Option QueueId := none
deriving DecidableEq, Repr

/-- A stream of a sheet whose key the two SHAKE256 cores derive differently (05 R156). -/
structure KeyUpset where
  sheet : SheetId
  ident : StreamId
deriving DecidableEq, Repr

/-- What goes wrong while a step is programmed: keys whose two derivations differ (05 R156), and errors of the staging SRAM that
holds the plan (08 R238). -/
structure ProgUpset where
  keys : List KeyUpset := []
  d : Disturb := {}
deriving DecidableEq, Repr

/-- The partition whose step repeats, and what goes wrong while it is programmed. -/
structure RepeatWork where
  part : PartId
  upset : ProgUpset := {}
deriving DecidableEq, Repr

/-- What scribe code forms for one element from a stream (05 R162-R166); bounds, mean and deviation are dyadics n · 2^t, `c` is a Q24
value. -/
inductive InitKind where
  | dropout (n p : Nat)
  | uniform (lo hi : Int × Int)
  | normal (mu sigma : Int × Int)
  | truncated (mu sigma : Int × Int) (c : Nat)
deriving DecidableEq, Repr

/-- Integer operations of RV64IM (07 R215). -/
inductive AluOp where
  | add | sub | sll | slt | sltu | xor | srl | sra | or | and
  | mul | mulh | mulhsu | mulhu | div | divu | rem | remu
deriving DecidableEq, Repr

/-- Conditions of the RV64I branches. -/
inductive BranchCond where
  | eq | ne | lt | ge | ltu | geu
deriving DecidableEq, Repr

/-- Atomic memory operations of the A extension. -/
inductive AmoKind where
  | swap | add | xor | and | or | min | max | minu | maxu
deriving DecidableEq, Repr

/-- What a CSR instruction does with its source: write it, set its bits, clear its bits. -/
inductive CsrKind where
  | write | set | clear
deriving DecidableEq, Repr

/-- A register of a scribe core. -/
inductive CoreReg where
  | x (n : Fin 32) | f (n : Fin 32) | v (n : Fin 32)
deriving DecidableEq, Repr

/-- An instruction of a scribe core, resolved: register numbers, sign-extended immediates, access sizes in bytes (07 R215, R216;
log 83). -/
inductive CoreOp where
  | int (op : AluOp) (w : Bool) (rd rs1 rs2 : Fin 32)
  | intImm (op : AluOp) (w : Bool) (rd rs1 : Fin 32) (imm : Word)
  | lui (rd : Fin 32) (imm : Word)
  | auipc (rd : Fin 32) (imm : Word)
  | jal (rd : Fin 32) (off : Word)
  | jalr (rd rs1 : Fin 32) (off : Word)
  | branch (c : BranchCond) (rs1 rs2 : Fin 32) (off : Word)
  | load (rd : CoreReg) (rs1 : Fin 32) (off : Word) (n : Nat) (signed : Bool)
  | store (src : CoreReg) (rs1 : Fin 32) (off : Word) (n : Nat)
  /-- A unit-stride vector load of `n` bytes in elements of `ew`, into consecutive registers. -/
  | vload (vd rs1 : Fin 32) (n ew : Nat)
  | vstore (vs rs1 : Fin 32) (n ew : Nat)
  | lr (rd rs1 : Fin 32) (dbl : Bool)
  | sc (rd rs1 rs2 : Fin 32) (dbl : Bool)
  | amo (op : AmoKind) (rd rs1 rs2 : Fin 32) (dbl : Bool)
  /-- `imm`: the source is the number itself, not the register. -/
  | csr (op : CsrKind) (rd : Fin 32) (num : BitVec 12) (imm : Bool) (src : Fin 32)
  | vset (rd : Fin 32) (vl vtype : Word)
  | fence | ecall | ebreak | mret | wfi
  /-- An encoding that the core does not implement, supervisor instructions among them. -/
  | illegal
  /-- A floating-point or vector instruction that makes no access: the value it writes, and the exception flags it raises. -/
  | result (r : CoreReg) (val : BitVec 512) (fflags : BitVec 5)
  /-- The instructions that form element `x` of a descriptor's tile from its stream (05 R162-R166), into an integer register. -/
  | element (rd : Fin 32) (k : InitKind) (x draw : Nat) (td : Fin 32) (fmt : BitVec 4)
deriving DecidableEq, Repr

/-- An instruction and whether it stands in its compressed form. -/
structure CoreInstr where
  op : CoreOp
  half : Bool := false
deriving DecidableEq, Repr

/-- A core that makes an access, the instructions that it runs before it, and what disturbs them. -/
structure CoreWork where
  core : CoreId
  code : List CoreInstr := []
  d : Disturb := {}
deriving DecidableEq, Repr

/-- The slot that a hub works on, and what disturbs the work. -/
structure HubWork where
  slot : Fin 128
  d : Disturb := {}
deriving DecidableEq, Repr

/-- What an item of a kernel or pack gave (15 R405): its output tile images, and the 16-byte value it expects of them. -/
structure ItemOutput where
  tiles : List (List Byte) := []
  expected : List Byte := []
deriving DecidableEq, Repr

/-- Types of MRAM records (16 R443). -/
inductive RecType where
  | svn | officer | keyStore | identity | helper | fence | history | chart | collector | testRing | applied
deriving DecidableEq, Repr

/-- A copy of an MRAM record (16 R442): type, index among the records of the type, and whether it is the second copy. -/
structure RecPlace where
  type : RecType
  index : Nat := 0
  second : Bool := false
deriving DecidableEq, Repr

/-- What BOOT reads (16 R440, R442): whether the key store was reconstructed, and the record copies that fail their tag. -/
structure BootRead where
  pufOk : Bool := true
  bad : List RecPlace := []
deriving DecidableEq, Repr

/-- One command: one row of the opcode table. -/
inductive Instr where
  -- engine control and tile movement (03)
  | instructionDecode (e : EngId)
  | tileLoad (e : EngId) (o : MoveOp) (d : Disturb)
  | tileStore (e : EngId) (o : MoveOp) (d : Disturb)
  | accStore (e : EngId) (o : MoveOp) (d : Disturb)
  | accLoad (e : EngId) (o : MoveOp) (d : Disturb)
  | psToAcc (e : EngId) (o : MoveOp) (d : Disturb)
  | accToPs (e : EngId) (o : MoveOp) (d : Disturb)
  | tileSend (e : EngId) (o : MoveOp) (d : Disturb)
  | tileRecv (e : EngId) (o : MoveOp) (d : Disturb)
  | tileAddMem (e : EngId) (o : MoveOp) (d : Disturb)
  | sliceAdd (s : SheetId) (d : Disturb)
  | tableLoad (e : EngId) (o : MoveOp) (d : Disturb)
  | mma (e : EngId) (o : MmaOp) (d : Disturb)
  | arithmeticCheckVerdict (e : EngId)
  | rowChain (e : EngId) (o : ChainOp) (d : Disturb)
  | redSum (e : EngId) (o : RedOp) (d : Disturb)
  | redMoments (e : EngId) (o : RedOp) (d : Disturb)
  | redFinish (e : EngId) (o : RedOp) (d : Disturb)
  | convert (e : EngId) (o : ConvOp) (d : Disturb)
  | rewindow (e : EngId) (o : ConvOp) (d : Disturb)
  -- sampling (04)
  | smpMax (e : EngId) (o : PassOp) (d : Disturb)
  | smpWeigh (e : EngId) (o : PassOp) (d : Disturb)
  | smpCut (e : EngId) (o : PassOp) (d : Disturb)
  | smpDraw (e : EngId) (o : PassOp) (d : Disturb)
  | hubReduction (s : SheetId) (slot : Fin 128) (d : Disturb)
  | smpBernoulli (e : EngId) (o : BinOp) (d : Disturb)
  | smpHeatbath (e : EngId) (o : BinOp) (d : Disturb)
  | smpMetropolis (e : EngId) (o : BinOp) (d : Disturb)
  -- coupled models (06)
  | cplFields (e : EngId) (o : FieldsOp) (d : Disturb)
  | cplPropose (e : EngId) (o : ProposeOp) (d : Disturb)
  | cplSettle (e : EngId) (o : SettleOp) (d : Disturb)
  | cplApply (e : EngId) (o : ApplyOp) (d : Disturb)
  | cplGroup (e : EngId) (o : GroupOp) (d : Disturb)
  | cplEnergy (e : EngId) (o : EnergyOp) (d : Disturb)
  | hubEnergyCombine (s : SheetId) (slot : HubWork)
  | sweepEnd (s : SheetId) (slot : Fin 128) (d : Disturb)
  | cplExchange (e : EngId) (o : ExchangeOp) (d : Disturb)
  | hubExchangeDecide (s : SheetId) (slot : Fin 128) (d : Disturb)
  -- sync, loop and branch words (03 R104)
  | nop (e : EngId)
  | flagSet (e : EngId) (flag : Fin 64)
  | flagClear (e : EngId) (flag : Fin 64)
  | flagWait (e : EngId) (flag : Fin 64)
  | flagWaitRelease (e : EngId) (flag : Fin 64)
  | scribeRing (e : EngId) (core : Fin 4) (value : BitVec 16)
  | scribeWait (e : EngId) (core : Fin 4)
  | scribeWaitDoorbell (e : EngId) (core : Fin 4)
  | unitDrain (e : EngId)
  | stepEnd (e : EngId)
  | loopBegin (e : EngId) (count : BitVec 24)
  | loopEnd (e : EngId)
  | branch (e : EngId) (p : Pred) (offs : BitVec 13)
  | agSet (e : EngId) (ag : Fin 16) (g : AddrGen)
  | eflagFromTd (e : EngId) (td : Fin 32) (ef : Fin 8) (mask : BitVec 5)
  | eflagSet (e : EngId) (ef : Fin 8) (val : Bool)
  -- step control (01, 13)
  | stepProgram (p : PartId) (prog : Nat) (keyBad : ProgUpset)
  | stepProgramTimeout (s : SheetId)
  | startOfStepBarrier (p : PartId)
  | endOfStepBarrier (p : PartId) (journalBad : List EngId) (histBad : Bool)
  | stepRepeat (p : RepeatWork)
  | parcelMapChange (s : SheetId)
  | runDispatch (q : QueueId) (arg : HostRead)
  -- scribe cores (07)
  | scrRingWrite (c : CoreWork)
  | scrDbInRead (c : CoreWork)
  | scrRecRequest (c : CoreWork) (handle : BitVec 16) (tile : BitVec 32)
  | scrRecordArrive (c : CoreWork) (d : Disturb)
  | scrStreamGo (c : CoreWork) (entry : BitVec 10) (c0 c1 : Word)
  | scrStreamResult (c : CoreWork)
  | scrOut1Read (c : CoreWork)
  | scrFaultSend (c : CoreWork) (addr : Word) (kind : BitVec 12) (sev : BitVec 4)
  | scrDwinWrite (c : CoreWork) (w : Fin 16) (val : Word)
  | scribeWindowLoad (c : CoreWork) (w : Fin 16) (addr : BitVec 28) (len : Nat) (d : Disturb)
  | scribeWindowStore (c : CoreWork) (w : Fin 16) (addr : BitVec 28) (bytes : List Byte) (d : Disturb)
  | scribeException (c : CoreWork) (cause : Word)
  | scribeParityError (c : CoreWork)
  -- memory path (08)
  | refreshStallStart (s : SheetId) (slice : Fin 64)
  | refreshStallEnd (s : SheetId) (slice : Fin 64)
  | win4Access (offset : Nat) (wr : Option (List Byte)) (len : Nat) (d : Disturb)
  -- host registers and queues (09)
  | win0AccessRefused (a : BadAccess)
  | registerWrite (offset : Nat) (val : Word)
  | sqTailDoorbell (func : Fin 16) (q : QueueId) (val : Word)
  | cqHeadDoorbell (func : Fin 16) (q : QueueId) (val : Word)
  | descriptorFetch (q : QueueId) (data : List HostRead)
  | descriptorArrive (q : QueueId)
  | loadPlan (q : QueueId) (img : HostRead) (d : Disturb)
  | run (q : QueueId)
  | copy (q : QueueId) (blk : HostRead) (data : HostRead) (d : Disturb)
  | seed (q : QueueId) (bytes : HostRead)
  | fence (q : QueueId)
  | fenceComplete (q : QueueId)
  | checkpoint (q : QueueId) (d : Disturb)
  | restore (q : QueueId) (img : HostRead) (d : Disturb)
  | snapshot (q : QueueId)
  | query (q : QueueId)
  | sealManifest (q : QueueId)
  | teardown (q : QueueId)
  | deviceSeedServe (q : QueueId)
  | completionWrite (q : QueueId) (ok : Bool)
  | qEnable (q : QueueId)
  | qDisable (q : QueueId)
  | qClear (q : QueueId)
  | queueDrained (q : QueueId)
  | progressTimerExpiry (q : QueueId)
  -- partitions and contexts (09)
  | partCfgWrite (p : PartId) (val : Word)
  | partGo (p : PartId)
  | partStop (p : PartId)
  | partReset (p : PartId)
  | ctxOpen (c : CtxId)
  | ctxKill (c : CtxId)
  | ctxSetgen (c : CtxId) (gen : Byte)
  | quiesceRequestReceive (port : PortId) (dev : DevId) (c : CtxId) (gen : Byte)
  | quiesceAck (c : CtxId) (dev : DevId)
  | quiesceTimeout (c : CtxId)
  | teardownReleaseDone (c : CtxId) (d : Disturb)
  | functionLevelReset (f : Fin 16)
  | pcieTlpIntegrityFail (q : Option QueueId)
  | perstNAssert
  -- links (10)
  | portEnable (p : PortId)
  | portDisable (p : PortId)
  | vjRetrain (p : PortId)
  | detectTimer (p : PortId)
  | signalDetected (p : PortId)
  | equaliseDone (p : PortId) (ok : Bool)
  | alignDone (p : PortId) (ok : Bool) (order : LaneOrder) (pol : BitVec 4)
  | paramDone (p : PortId) (par : PartnerParams)
  | linkSlotSelect (p : PortId)
  | unitReceive (p : PortId) (u : GroupUnit)
  | replayRequestReceive (p : PortId) (fseq sseq : BitVec 16)
  | replayRequestTimeout (p : PortId)
  | ackStallResend (p : PortId)
  | retrainLimitExpiry (p : PortId)
  | packetReceipt (p : PortId) (vl : Fin 4) (d : Disturb)
  | fencedUnitSend (p : PortId)
  | fencedUnitReceive (p : PortId)
  | keyPhaseChange (p : PortId)
  | linkRekey (p : PortId)
  | correctedGroupRate (p : PortId) (groups : Nat)
  | linkCreditTimeout (p : PortId) (vl : Fin 4)
  -- charts (11)
  | chartAlign
  | chartSave
  | datumSend
  | datumReceive (p : PortId) (sentAt : Word) (frac : Byte) (state : BitVec 16) (arrived : Nat)
  | datumTimeout
  | delayProbeSend (p : PortId)
  | delayProbeReceive (p : PortId)
  | delayEchoReceive (p : PortId) (t1 t2 t3 t4 : Nat)
  | barrierArriveReceive (p : PortId) (m : SyncMsg)
  | triggerReceive (p : PortId) (m : SyncMsg)
  | triggerCountReached (c : Option CtxId)
  | syncFlagReceive (p : PortId) (m : SyncMsg)
  | epochCommitArrive (c : CtxId)
  | barrierReleaseReceive (p : PortId) (m : SyncMsg)
  | rollbackDrainComplete (c : CtxId)
  | drainTimeout (c : CtxId)
  -- collectors (13)
  | faultRaise (checkOk : Bool) (regsOk : Bool) (histBad : Bool)
  | sheetCollectorReceive (s : SheetId) (regsOk : Bool)
  | sheetCollectorForward (s : SheetId)
  | faultRingWrite
  | colRingenWrite (val : Word)
  | historyWriteRetry (ok : Bool)
  | serviceHourTick
  | windowExpiry (w : Fin 256)
  | colAckWrite (val : Word)
  -- hangs, resets and dumps (14)
  | watchdogExpiry (p : PartId)
  | haltCaptureDone (p : PartId) (silent : List (BitVec 16))
  | isolationTrialDone (p : PartId)
  | dmaStallTimeout (c : CtxId)
  | hostWriteHoldTimeout (c : CtxId)
  | rstWarm
  | rstCold
  | rstSheet (mask : BitVec 16)
  | rstParcel (mask : BitVec 16) (parcel : BitVec 5)
  | rstFreeall (zero : Bool)
  | resetComplete (p : Option PartId)
  | dumpGo (val : Word)
  | dumpAbort
  | dumpBlockDone (linkUp : Bool) (crcOk : Bool)
  | dumpBlockTimeout
  -- field test (15)
  | ftKakgo (s : SheetId)
  | spareKakTimer (s : SheetId)
  | roundStart (s : SheetId)
  | testItemDone (s : SheetId) (parcel : PhysParcel) (out : ItemOutput) (ckind : BitVec 12) (item : BitVec 16) (histBad : Bool)
  | squallWindowOpen (s : SheetId)
  | squallWindowLapse (s : SheetId)
  | roundPeriodEnd (s : SheetId)
  | rotationAdvance (s : SheetId)
  -- Ecbumos (16)
  | challenge
  | loginOfficer
  | loginUser
  | loginLockoutEnd
  | logout
  | enrollOfficer
  | enrollHwk
  | enrollChartkey
  | config
  | rawEnter
  | rawLeave
  | ecbRawRead
  | rawSampleDiscard (bits : BitVec 32)
  | zeroise
  | selftest
  | fwInstall (img : HostRead)
  | fwCommit
  | packInstall (img : HostRead)
  | recordApply (img : HostRead)
  | random
  | ideKeys
  | getCert
  | signatureDone
  | reservationRetry (ok : Bool)
  | doeGetCert
  | doeQuote (nonce : List Byte)
  | trngHealthFailure (apt : Bool) (src : Fin 3)
  | trngRestart
  | trngStartupDone (fail : Option (Fin 3)) (block : BitVec 256)
  | trngBlockReady (block : BitVec 256)
  | ecbRngDataRead
  | ecbStateMismatch
  | ecbRestartDone
  -- counters (17)
  | cntArm
  | cntUnfreeze
  | countersResume
  | snapshotLatch
  | counterOverflow (bank : Nat) (i : Nat)
  -- power and start-up (18)
  | feedRise (b : Bool)
  | feedLost (b : Bool)
  | feedRestored (b : Bool)
  | feedOvervoltage (b : Bool)
  | feedShareImbalance
  | bothFeedsLow
  | telemetryLost
  | railOutOfRegulation
  | refclk100Lost
  | refclk156Lost
  | refclk156Return
  | capControllerTick (t : Telemetry)
  | thermalTick (s : SheetId) (tmax : BitVec 16) (dramt : Byte)
  | junctionLimit (s : SheetId)
  | thermtrip
  | clockStepDone (s : SheetId)
  | pwrOffreq
  | pwrDisAssert
  | railStart (rail : Nat)
  | ecbumosResetRelease
  | ecbSelftestDone (ok : Bool)
  | ecbBootDone (read : BootRead)
  | pcieConfigReady
  | portGroupEnable (g : Fin 4)
  | dramTrainingDone (s : SheetId) (ok : Bool)
  | memoryTestDone (s : SheetId) (ok : Bool)
  | startupKakDone (s : SheetId) (failed : List PhysParcel)
  -- package (19)
  | i3cPrivateWrite (offset : BitVec 32) (data : Option Word)
  | i3cPrivateRead
  | i3cCcc (c : I3cCcc)
  | jtagDbgread (source : BitVec 16)
  | jtagInstruction (i : JtagInstr)
  | jtagRelock
  | pwrDisDeassert
  | perstNDeassert
  | identityKeyGenerated (ok : Bool)
  | orphanPagesZeroed
  | ideKeySwitch
deriving DecidableEq, Repr

end Sys2Proof
end

