-- ==== Sys2Proof/Decode.lean ====
section
/-! DEFINITION. The opcode table's rows as words: the table gives no row any bits, so no word spells a command. Engine
words of 128 bits are part of what INSTRUCTION_DECODE does (Machine/EngineDecode.lean). -/

namespace Sys2Proof

/-- The command that a word spells by the bits of the opcode table: none, since no row of the table has bits. -/
def decodeTableWord (_nbits _w : Nat) : Option Instr := none

end Sys2Proof
end

