-- ==== Sys2Proof/Machine/Table.lean ====
section
/-! DEFINITION. Sparse data by key in one canonical form: reading, writing, clearing and copying ranges. The default
`d` is what an unlisted key reads as. -/

namespace Sys2Proof.Machine

/-- The value at a key. -/
def tget {α : Type} (d : α) (t : Table α) (k : Nat) : α :=
  match t with
  | [] => d
  | (k', v) :: r => if k' = k then v else tget d r k

/-- Put an entry in key order. -/
def tput {α : Type} (t : Table α) (k : Nat) (v : α) : Table α :=
  match t with
  | [] => [(k, v)]
  | (k', v') :: r =>
    if k < k' then (k, v) :: (k', v') :: r
    else if k' = k then (k, v) :: r
    else (k', v') :: tput r k v

/-- Remove every entry of a key. -/
def tdel {α : Type} (t : Table α) (k : Nat) : Table α := t.filter fun e => !(e.1 == k)

/-- Write a value: the default removes the entry, so that equal tables are equal lists. -/
def tset {α : Type} [DecidableEq α] (d : α) (t : Table α) (k : Nat) (v : α) : Table α :=
  if v = d then tdel t k else tput t k v

/-- Change the value at a key. -/
def tmod {α : Type} [DecidableEq α] (d : α) (t : Table α) (k : Nat) (f : α → α) : Table α :=
  tset d t k (f (tget d t k))

/-- The values at the keys 0 to `n - 1` changed at once; nothing is kept at other keys. -/
def tmap {α : Type} [DecidableEq α] (d : α) (n : Nat) (f : Nat → α → α) (t : Table α) : Table α :=
  (List.range n).filterMap fun k => let v := f k (tget d t k); if v = d then none else some (k, v)

/-- The canonical form: keys strictly rising, no entry equal to the default. -/
def twf {α : Type} [DecidableEq α] (d : α) (t : Table α) : Bool :=
  decide (t.Pairwise fun a b => a.1 < b.1) && t.all fun e => !(decide (e.2 = d))

/-- Remove the keys `a` to `a + n - 1`: they read as the default again. -/
def tclear {α : Type} (t : Table α) (a n : Nat) : Table α := t.filter fun e => !(decide (a ≤ e.1 ∧ e.1 < a + n))

/-- The entries of the keys `a` to `a + n - 1`, moved to start at `b`. -/
def tslice {α : Type} (t : Table α) (a n b : Nat) : Table α :=
  (t.filter fun e => decide (a ≤ e.1 ∧ e.1 < a + n)).map fun e => (e.1 - a + b, e.2)

/-- The keys `a` to `a + n - 1` taken from another table. -/
def tgraft {α : Type} (t src : Table α) (a n : Nat) : Table α :=
  (t.filter fun e => decide (e.1 < a)) ++ (src.filter fun e => decide (a ≤ e.1 ∧ e.1 < a + n)) ++
  t.filter fun e => decide (a + n ≤ e.1)

/-- One byte of a memory whose unlisted bytes read 0. -/
def mget (m : Mem) (a : Nat) : Byte := tget 0 m a

/-- Write one byte. -/
def mset (m : Mem) (a : Nat) (v : Byte) : Mem := tset 0 m a v

/-- `n` bytes from address `a`, lowest address first. -/
def mread (m : Mem) (a : Nat) : Nat → List Byte
  | 0 => []
  | n + 1 => mget m a :: mread m (a + 1) n

/-- Write bytes from address `a` up. -/
def mwrite (m : Mem) (a : Nat) : List Byte → Mem
  | [] => m
  | b :: r => mwrite (mset m a b) (a + 1) r

/-- Zero `n` bytes from address `a`. -/
def mzero (m : Mem) (a n : Nat) : Mem := tclear m a n

/-- Little-endian value of bytes. -/
def leNat : List Byte → Nat
  | [] => 0
  | b :: r => b.toNat + 256 * leNat r

/-- The `n` little-endian bytes of a value. -/
def leBytes : Nat → Nat → List Byte
  | 0, _ => []
  | n + 1, v => BitVec.ofNat 8 v :: leBytes n (v / 256)

/-- Bits `hi:lo` of a number. -/
def bits (v hi lo : Nat) : Nat := (v >>> lo) % 2 ^ (hi + 1 - lo)

/-- Bit `i` of a number. -/
def bit (v i : Nat) : Bool := Nat.testBit v i

/-- An `n`-bit field read as two's complement. -/
def sext (n v : Nat) : Int :=
  let w := v % 2 ^ n
  if w < 2 ^ (n - 1) then (w : Int) else (w : Int) - (2 : Int) ^ n

/-- A signed number as an `n`-bit two's-complement field. -/
def twos (n : Nat) (v : Int) : Nat := (v % (2 : Int) ^ n).toNat

/-- Add with a stop at the largest value of the field (17 R462). -/
def satInc {n : Nat} (v : BitVec n) (k : Nat := 1) : BitVec n :=
  if v.toNat + k < 2 ^ n then BitVec.ofNat n (v.toNat + k) else BitVec.allOnes n

/-- Insert into a list without repeats, in rising order. -/
def sinsert (l : List Nat) (x : Nat) : List Nat :=
  match l with
  | [] => [x]
  | y :: r => if x < y then x :: y :: r else if x = y then y :: r else y :: sinsert r x

/-- Remove from a list. -/
def sremove (l : List Nat) (x : Nat) : List Nat := l.filter (· != x)

/-- Xor masks into memory: what physics did to stored bytes. -/
def mflip (m : Mem) : List (Nat × Byte) → Mem
  | [] => m
  | (a, x) :: r => mflip (mset m a (mget m a ^^^ x)) r

/-- Xor masks into a byte list by offset. -/
def flipBytes (b : List Byte) (l : List (Nat × Byte)) : List Byte :=
  l.foldl (fun b p => match b[p.1]? with | some v => b.set p.1 (v ^^^ p.2) | none => b) b

end Sys2Proof.Machine
end

