-- ==== Sys2Proof/Machine/Hash.lean ====
section
/-! DEFINITION. The bit procedures that name values: SHAKE256 (FIPS 202, as 05 R154 uses it), CRC-64 (08 R242), CRC-32C
(10 R305) and the lane generator (05 R157). Words are naturals below 2^64. -/

namespace Sys2Proof.Machine

/-- 2^64. -/
def w64 : Nat := 2 ^ 64

/-- rotl64 (05 R157). -/
def rotl64 (x n : Nat) : Nat := ((x <<< n) ||| (x >>> (64 - n))) % w64

/-! ### SHAKE256 -/

/-- The rotation offsets of rho, by lane x + 5y. -/
def keccakRot : List Nat :=
  [0, 1, 62, 28, 27, 36, 44, 6, 55, 20, 3, 10, 43, 25, 39, 41, 45, 15, 21, 8, 18, 2, 61, 56, 14]

/-- The round constants of iota. -/
def keccakRc : List Nat :=
  [0x0000000000000001, 0x0000000000008082, 0x800000000000808A, 0x8000000080008000, 0x000000000000808B,
   0x0000000080000001, 0x8000000080008081, 0x8000000000008009] ++
  [0x000000000000008A, 0x0000000000000088, 0x0000000080008009, 0x000000008000000A, 0x000000008000808B,
   0x800000000000008B, 0x8000000000008089, 0x8000000000008003] ++
  [0x8000000000008002, 0x8000000000000080, 0x000000000000800A, 0x800000008000000A, 0x8000000080008081,
   0x8000000000008080, 0x0000000080000001, 0x8000000080008008]

/-- One round of Keccak-f[1600] on 25 lanes. -/
def keccakRound (a : List Nat) (rc : Nat) : List Nat :=
  let c := (List.range 5).map fun x =>
    a.getD x 0 ^^^ a.getD (x + 5) 0 ^^^ a.getD (x + 10) 0 ^^^ a.getD (x + 15) 0 ^^^ a.getD (x + 20) 0
  let d := (List.range 5).map fun x => c.getD ((x + 4) % 5) 0 ^^^ rotl64 (c.getD ((x + 1) % 5) 0) 1
  let r := (List.range 25).map fun i => rotl64 (a.getD i 0 ^^^ d.getD (i % 5) 0) (keccakRot.getD i 0)
  -- pi: new lane (x, y) takes old lane (x + 3y, x)
  let b := (List.range 25).map fun i => r.getD ((i % 5 + 3 * (i / 5)) % 5 + 5 * (i % 5)) 0
  let s := (List.range 25).map fun i =>
    let y := 5 * (i / 5)
    b.getD i 0 ^^^ ((w64 - 1 - b.getD (y + (i + 1) % 5) 0) &&& b.getD (y + (i + 2) % 5) 0)
  match s with
  | [] => []
  | l0 :: rest => (l0 ^^^ rc) :: rest

/-- Keccak-f[1600]. -/
def keccakF (a : List Nat) : List Nat := keccakRc.foldl keccakRound a

/-- Pad a message for SHAKE256 to whole 136-byte blocks. -/
def shakePad (m : List Byte) : List Byte :=
  let fill := 136 - m.length % 136
  if fill = 1 then m ++ [0x9F] else m ++ [0x1F] ++ List.replicate (fill - 2) 0 ++ [0x80]

/-- The 17 lanes of a block, xored into the state. -/
def shakeXor (st : List Nat) (blk : List Byte) : List Nat :=
  (List.range 25).map fun i => if i < 17 then st.getD i 0 ^^^ leNat ((blk.drop (8 * i)).take 8) else st.getD i 0

/-- Absorb `n` blocks. -/
def shakeAbsorb : Nat → List Nat → List Byte → List Nat
  | 0, st, _ => st
  | n + 1, st, m => shakeAbsorb n (keccakF (shakeXor st (m.take 136))) (m.drop 136)

/-- Squeeze `n` blocks of 136 bytes. -/
def shakeSqueeze : Nat → List Nat → List Byte
  | 0, _ => []
  | n + 1, st => ((st.take 17).flatMap fun l => leBytes 8 l) ++ shakeSqueeze n (keccakF st)

/-- The first `n` bytes of SHAKE256 over a message. -/
def shake256 (n : Nat) (m : List Byte) : List Byte :=
  let p := shakePad m
  (shakeSqueeze (n / 136 + 1) (shakeAbsorb (p.length / 136) (List.replicate 25 0) p)).take n

/-! ### CRCs -/

/-- One bit of a reflected CRC. -/
def crcBit (poly c : Nat) : Nat := if c % 2 = 1 then (c >>> 1) ^^^ poly else c >>> 1

/-- `n` bits. -/
def crcBits (poly : Nat) : Nat → Nat → Nat
  | 0, c => c
  | n + 1, c => crcBits poly n (crcBit poly c)

/-- One byte. -/
def crcByte (poly c : Nat) (b : Byte) : Nat := crcBits poly 8 (c ^^^ b.toNat)

/-- The seal's CRC-64 (08 R242); the polynomial reflected. -/
def crc64 (m : List Byte) : Nat := (m.foldl (crcByte 0xC96C5795D7870F42) (w64 - 1)) ^^^ (w64 - 1)

/-- CRC-32C (10 R305); the polynomial reflected. -/
def crc32c (m : List Byte) : Nat := (m.foldl (crcByte 0x82F63B78) (2 ^ 32 - 1)) ^^^ (2 ^ 32 - 1)

/-! ### The lane generator (05 R157) -/

/-- W0. -/
def lgW0 : Nat := 0xC3A59E1D6B27F48D
/-- W1. -/
def lgW1 : Nat := 0x8F4D2B71E6C90A35
/-- MUL. -/
def lgMul (r : Nat) : Nat := if r % 2 = 0 then 0xE2A3C4B596D71F09 else 0xCB5D2F87A1E34C6D
/-- ROT. -/
def lgRot : List Nat := [23, 41, 17, 53, 29, 11, 47, 37, 19, 31]

/-- round_fn. -/
def roundFn (x : Nat × Nat) (a b r : Nat) : Nat × Nat :=
  let t := (x.1 + a) % w64
  let p := t * lgMul r
  ((rotl64 x.2 (lgRot.getD r 0) + ((p >>> 64) ^^^ b)) % w64, p % w64)

/-- Ten rounds from r on. -/
def laneRounds (k0 k1 : Nat) : Nat → Nat → Nat × Nat → Nat × Nat
  | 0, _, x => x
  | n + 1, r, x => laneRounds k0 k1 n (r + 1) (roundFn x ((k0 + r * lgW0) % w64) ((k1 + r * lgW1) % w64) r)

/-- lane_gen: 128 bits for a key and a counter of two words. -/
def laneGen (k0 k1 c0 c1 : Nat) : Nat :=
  let x := laneRounds k0 k1 10 0 (c0, c1)
  ((x.1 ^^^ k1) <<< 64) ||| (x.2 ^^^ k0)

/-- The generator at a counter of step, element and draw (05 R153). -/
def laneAt (k0 k1 step elem draw : Nat) : Nat := laneGen k0 k1 ((elem % 2 ^ 48) * 65536 + draw % 65536) (step % w64)

/-- The 16-bit threshold w_m of an element's rounding stream (02 R48). -/
def roundThreshold (k0 k1 step elem m : Nat) : Nat :=
  let lo := laneAt k0 k1 step elem (m / 128)
  let sh := m % 128
  if sh ≤ 112 then (lo >>> sh) % 65536
  else ((lo >>> sh) ||| (laneAt k0 k1 step elem (m / 128 + 1) <<< (128 - sh))) % 65536

/-- A stream identifier as a 128-bit value (05 R149). -/
def streamNat (i : StreamId) : Nat := i.purpose.toNat * 2 ^ 124 + i.slot.toNat * 2 ^ 108 + i.tensor.toNat * 2 ^ 76

/-- The key of a stream under a job seed (05 R154): k0 and k1. -/
def streamKey (seed : List Byte) (ident : Nat) : Nat × Nat :=
  let h := shake256 16 (seed ++ leBytes 16 ident)
  (leNat (h.take 8), leNat (h.drop 8))

end Sys2Proof.Machine
end

