-- ==== Sys2Proof/Machine/Plan.lean ====
section
/-! DEFINITION. A compiled plan as the plan sequencers hold it after parsing (01 "Control path and data path"): tensor
map, divisions, step programs, stream map, routes, span trees, scan list. The image's byte layout is not given by the
spec, so the parser is a Config constant (log 7). -/

namespace Sys2Proof

/-- A segment of a function table (02 R73). -/
structure FnSeg where
  c0 : BitVec 64
  c1 : BitVec 32
  c2 : BitVec 32
  c3 : BitVec 32
deriving DecidableEq, Repr

/-- A function table (02 R73): base, segment shift, output exponent and 256 segments. -/
structure FnTable where
  base : BitVec 40 := 0
  k : Fin 33 := 0
  eout : BitVec 11 := 0
  segs : List FnSeg := []
deriving DecidableEq, Repr

/-- A run of consecutive tiles of a tensor on one sheet (08, "Tile records and the seal"; 12 R356). -/
structure TensorPart where
  first : Nat
  count : Nat
  sheet : SheetId
  base : Nat
  sealBase : Nat
deriving DecidableEq, Repr

/-- One tensor of a tensor map (05 R152, 08 R241, 09 R270, 12 R356). For a raw tensor the one part holds `bytes` bytes. -/
structure Tensor where
  handle : BitVec 16
  number : BitVec 32
  fmt : BitVec 4
  mx : Bool
  isSealed : Bool
  bytes : Nat
  wexp : BitVec 11
  parts : List TensorPart
  input : Bool
  result : Bool
  kept : Bool
  ckpt : Bool
  /-- Store unit address at which a mask's bit vector stands in each parcel (04 R128). -/
  storeUnit : Nat
deriving DecidableEq, Repr

/-- A tile descriptor (03 R86), words W0 to W3. -/
structure TileDesc where
  tensor : BitVec 32 := 0
  exp : BitVec 11 := 0
  base : BitVec 11 := 0
  f32 : Bool := false
  frm : BitVec 2 := 0
  nanf : Bool := false
  inff : Bool := false
  nflags : BitVec 5 := 0
  xbase : BitVec 48 := 0
  vrows : Byte := 0
  vcols : Byte := 0
  bwlim : BitVec 32 := 0
  xstride : BitVec 32 := 0
  satlim : BitVec 16 := 0
  satcnt : BitVec 16 := 0
  bwcnt : BitVec 32 := 0
  /-- The tile is written to the parcel store (03 R86): the plan's word, no field of W0 to W3. -/
  store : Bool := false
  /-- Elements of a parcel-store tile whose last write saturated: what SATCNT counts there (02 R54). -/
  sats : List (Nat × Nat) := []
deriving DecidableEq, Repr

/-- One descriptor of an engine's set-up: its index, whether it is carried (03 R86), its settings, and the automatic
window exponent terms where the plan asks for it (02 R43, R44): the A tiles and B tiles (handle and tile index) that feed
the output tile, and K. -/
structure TdSetup where
  index : Fin 32
  carried : Bool
  desc : TileDesc
  auto : Option (List (BitVec 16 × Nat) × List (BitVec 16 × Nat) × Nat) := none
deriving DecidableEq, Repr

/-- What the plan sequencer programs into one engine for one step (01, "Control path and data path"; 03 R91). -/
structure EngSetup where
  parcel : LogParcel
  pc : BitVec 13
  progUnit : Nat
  words : List (BitVec 128)
  tds : List TdSetup
  carriedRows : List (Nat × Nat)
  carriedBlocks : List Nat
deriving DecidableEq, Repr

/-- A slot binding of one step (04 R122). -/
structure SlotBind where
  slot : Fin 128
  gslot : BitVec 16
  tensor : BitVec 32
  draws : Bool
  /-- Declared sheets of the slot on this device, and its home sheet (04 R121, 06 R182). Of a slot that is spread over several
  devices, `home` is the sheet whose hub collects the reports of this device. -/
  sheets : List SheetId
  home : SheetId
  /-- Where the home sheet lies on another device, and, on the home device, the collecting sheets of the others (04 R121). -/
  homeDev : Option (DevId × SheetId) := none
  far : List (DevId × SheetId) := []
deriving DecidableEq, Repr

/-- A pass of one device's part of a spread slot, for the hub of its home sheet (04 R133, R144): the pass (0 to 3), the ranges of
the parcels, allowed logits (pass A) or weights (later passes) by global index, slot flags and poison. -/
structure HubReport where
  slot : Fin 128
  pass : Nat
  ranges : List (Nat × Nat)
  logits : List (Nat × Int)
  weights : List (Nat × Nat)
  sflags : BitVec 8
  poison : Bool
deriving DecidableEq, Repr

/-- What the home hub of a spread slot broadcasts after a reduction (04 R133-R136): the pass reduced and the values that later
passes use. -/
structure HubResult where
  slot : Fin 128
  pass : Nat
  lmax : Option Int
  gidx : Nat
  qk : Nat
  tau : Option Nat
  qp : Nat
  empty : Bool
  refine : Nat
  poison : Bool
deriving DecidableEq, Repr

/-- A message between the hubs of a spread slot on several devices (04 R144). -/
inductive HubMsg where
  | report (r : HubReport)
  | result (r : HubResult)
deriving DecidableEq, Repr

/-- Where a contribution comes from (01 R29, 11 R339). -/
inductive RouteSrc where
  | engine (e : EngId)
  | node (sheet : SheetId)
  | device (d : DevId)
deriving DecidableEq, Repr

/-- Where a route handle leads (03 R96, 10 R317, 11 R339): an engine of this device, a node of the tree on another sheet,
or a sheet of another device under a route handle there. -/
inductive RouteDest where
  | engine (e : EngId)
  | node (sheet : SheetId) (route : BitVec 16)
  | device (d : DevId) (sheet : SheetId) (route : BitVec 16)
deriving DecidableEq, Repr

/-- A route: its destinations; as a node of a reduction tree, the children it waits for in the tree node's order and the
rounding of F32 sums (01 R29); as a gather (11 R339); the collective's digest multiplier and the steps of the logical
index from tile to tile and row to row of its tensor (11 R340). -/
structure Route where
  handle : BitVec 16
  dests : List RouteDest
  reduces : Bool
  gathers : Bool
  children : List RouteSrc
  rm : RoundMode
  dmul : Nat
  xtile : Nat
  xstride : Nat
deriving DecidableEq, Repr

/-- An entry of the scan list (06 R180): a coefficient tensor with its energy exponent, a colouring-checked proposal set, a group
batch with the parcel that owns its groups (log 28). -/
inductive ScanItem where
  | tensor (h : BitVec 16) (eexp : BitVec 11)
  | propose (h : BitVec 16) (owner : LogParcel) (block : Nat) (mask : BitVec 16) (midx : Nat)
  | batch (h : BitVec 16) (owner : LogParcel) (gadr : Int) (gidx ng : Nat)
deriving DecidableEq, Repr

/-- What a plan declares of a coupled model (06 R178): its coefficient tensor, N, H_max, and q_max for a BF16 model. -/
structure ModelDecl where
  tensor : BitVec 16
  n : Nat
  hmax : Nat
  qmax : Nat
deriving DecidableEq, Repr

/-- A step program of one division on one sheet (01 R20). -/
structure DivProg where
  sheet : SheetId
  n : Nat
  engines : List EngSetup
  binds : List SlotBind
  streams : List StreamId
  routes : List Route
  scan : List ScanItem
  /-- The plan's own bound on the CPL_ENERGY words with END = 1 of one chain, for programs that branch backwards over such a
  word (06 R207, log 77). -/
  sweeps : Nat
  /-- Vocabulary ranges that the plan sequencer can see: slot, VBASE, NELEM (04 R120). -/
  ranges : List (Nat × Nat × Nat)
  /-- Declared bounds of the coupled models (06 R178). -/
  models : List ModelDecl
deriving DecidableEq, Repr

/-- One step program: one entry for each sheet and in-service count. -/
structure StepProg where
  divs : List DivProg
deriving DecidableEq, Repr

/-- The division of a step program for a sheet's parcels in service (01 R20). -/
def divFor (g : StepProg) (sheet n : Nat) : Option DivProg := g.divs.find? fun d => d.sheet.val == sheet && d.n == n

/-- A span tree on this device (11 R335): parent port and child ports. -/
structure SpanTree where
  num : BitVec 16
  parent : Option PortId
  children : List PortId
  dev : DevId
deriving DecidableEq, Repr

/-- Features that decide the class (12 R350). -/
structure Features where
  f32sums : Bool
  syncMode : Bool
  f32addMem : Bool
deriving DecidableEq, Repr

/-- A parsed plan. -/
structure Plan where
  minInsvc : Nat
  tensors : List Tensor
  progs : List StepProg
  slotParams : BitVec 16
  homeParams : List (Fin 128 × SheetId)
  span : List DevId
  trees : List SpanTree
  epochTree : Option (BitVec 16)
  epochLen : Nat
  /-- Compared tensors (11 R343): handle, DMUL, and the index steps from tile to tile and row to row. -/
  compared : List (BitVec 16 × Nat × Nat × Nat)
  replicated : Bool
  f32sigs : List (List Byte)
  features : Features
  /-- The lint findings of the checks that need the whole program at once: a tensor read or added into before it was
  wholly written in its step (13 R379, 11 R342), a load of a tensor another parcel adds into (08 R252). -/
  orderBroken : Bool
  scribeElf : List Byte
  journalPages : Nat
deriving DecidableEq, Repr

/-- A slot in a checkpoint image: SLOT.STEP, GSLOT, TENSOR and the 32-byte parameter entry (05 R173), and the chain's 56
register bytes (06 R207). -/
structure SlotImage where
  sheet : Nat
  slot : Nat
  step : Word
  gslot : BitVec 16
  tensor : BitVec 32
  params : List Byte
  chain : List Byte
deriving DecidableEq, Repr

/-- A tile in a checkpoint image: tensor number, tile index and tile image (08 R243). -/
structure TileImage where
  tensor : BitVec 32
  tile : Nat
  image : List Byte
deriving DecidableEq, Repr

/-- What a checkpoint image holds (05 R173; 09 R270): the job seed and whether the device drew it, the context step counter, the
slots with their chains, the marked tensors' tiles. -/
structure Checkpoint where
  seed : Option (List Byte × Bool)
  step : Word
  slots : List SlotImage
  tiles : List TileImage
deriving DecidableEq, Repr

/-- A firmware image as its header and verification read (16 R433). -/
structure FwImage where
  svn : BitVec 32
  rootKeyHash : List Byte
  sigsOk : Bool
  bytes : List Byte
deriving DecidableEq, Repr

/-- A Galperno record (16 R444). -/
inductive GalAction where
  | unfence (sheet : SheetId) (parcels : List PhysParcel)
  | fence (sheet : SheetId) (parcels : List PhysParcel)
  | jtagUnlock (hour : BitVec 32)
deriving DecidableEq, Repr

/-- A Galperno record with its SEQ, target and action (16 R444). -/
structure GalRecord where
  seq : Nat
  forKeyHash : List Byte
  sigOk : Bool
  action : GalAction
deriving DecidableEq, Repr

end Sys2Proof
end

