-- ==== Sys2Proof/Config.lean ====
section
/-! DEFINITION. What the spec fixes outside itself, and the free values: functions without a body, so that no proof
can see a value of them. -/

namespace Sys2Proof.Config

/-- The parser of plan images: the byte layout is not in the spec (log 7). -/
opaque parsePlan : List Byte → Option Plan
/-- The parser of firmware images (16 R433): byte layout not in the spec (log 7). -/
opaque parseFirmware : List Byte → Option FwImage
/-- The parser of Galperno records (16 R444): byte layout not in the spec (log 7). -/
opaque parseRecord : List Byte → Option GalRecord
/-- The parser of function tables (02 R73): base B, shift k, output exponent and 256 segments, each inside the range the rule
gives it; their byte layout in the parcel store is not in the spec (log 21). -/
opaque parseTable : List Byte → BitVec 40 × Fin 33 × BitVec 11 × (Fin 256 → BitVec 64 × BitVec 32 × BitVec 32 × BitVec 32)
/-- The body of a HUB packet that carries a message, and the message of a body: their byte layout is not in the spec (04 R144, 10
R307; log 76). -/
opaque hubBytes : HubMsg → List Byte
/-- See `hubBytes`. -/
opaque parseHub : List Byte → Option HubMsg
/-- The hash of the root public key that the mask ROM holds (16 R433). -/
opaque romKeyHash : List Byte
/-- A free value: the n-th value that the spec leaves open in this run, as wide as its use (log 3). -/
opaque freeValue : Nat → Nat
/-- AES-256-GCM encryption under a key and IV with additional data: ciphertext then 16-byte tag (FIPS 197, SP 800-38D;
log 8). -/
opaque gcmSeal : (key iv aad text : List Byte) → List Byte
/-- AES-256-GCM decryption: the text where the tag verifies (log 8). -/
opaque gcmUnseal : (key iv aad text : List Byte) → Option (List Byte)
/-- AES-256-GMAC: the 16-byte tag of a message under a key (log 8). -/
opaque gmac : (key msg : List Byte) → List Byte
/-- AES key wrap KW (SP 800-38F; log 8). -/
opaque keyWrap : (key text : List Byte) → List Byte
/-- AES key unwrap KW: the text where the integrity check holds (log 8). -/
opaque keyUnwrap : (key text : List Byte) → Option (List Byte)
/-- CTR_DRBG (SP 800-90A) instantiation from entropy input, nonce and personalisation: the working state (log 8). -/
opaque drbgInit : (entropy nonce perso : List Byte) → List Byte
/-- CTR_DRBG reseed: a new working state (log 8). -/
opaque drbgReseed : (st entropy : List Byte) → List Byte
/-- CTR_DRBG generate: output bytes and the next working state (log 8). -/
opaque drbgGenerate : (st extra : List Byte) → (n : Nat) → List Byte × List Byte
/-- XMSS-SHAKE256_20_256 verification of a message under a public key (SP 800-208; log 8). -/
opaque xmssVerify : (pub msg sig : List Byte) → Bool
/-- XMSS^MT-SHAKE256_40/4_256: the public key of a seed (log 8). -/
opaque xmssmtPublic : (seed : List Byte) → List Byte
/-- XMSS^MT-SHAKE256_40/4_256: the 9,893-byte signature at an index (log 8). -/
opaque xmssmtSign : (seed : List Byte) → (index : Nat) → (msg : List Byte) → List Byte
/-- The Galperno firmware public key that survey packs and records are verified under (15 R406, 16 R433). -/
opaque galpernoKey : List Byte
/-- The challenge key certificate bytes returned after the identity certificate (16 R436). -/
opaque certifyingKey : List Byte
/-- The nearest-temperature reading of a source in 0.25 degree steps (13 R366): a physical reading, free. -/
opaque sensorTemp : Nat → BitVec 16
/-- Whether the 100 MHz reference is back when a cold reset meets its loss (18 R471): an input that no row reports, free. -/
opaque refBack : Nat → Bool
/-- Straps I3C_ADDR_1 and I3C_ADDR_0 of the board (19 R496). -/
opaque straps : BitVec 2
/-- The core-rail reading of a source in mV (13 R366): a physical reading, free. -/
opaque sensorVolt : Nat → BitVec 16
/-- The identity certificate Galperno signed at manufacture (16 R436). -/
opaque identityCert : List Byte
/-- The seed of the identity key made at manufacture (16 R436). -/
opaque identitySeed : List Byte
/-- The manufacturing transport key (16 R440). -/
opaque transportKey : List Byte
/-- The root secret that the PUF gives at an enrolment (16 R440, R447). -/
opaque pufSecret : (enrolment : Nat) → List Byte
/-- The body of an MRAM record of a type, from its content in bytes (16 R443 names the contents without a layout; log 7). -/
opaque recordImage : (type : Nat) → (content : List Byte) → List Byte
/-- The parser of checkpoint images (09 R270 names the content without a layout; log 7). -/
opaque parseCheckpoint : List Byte → Option Checkpoint
/-- The checkpoint image of a content (log 7). -/
opaque checkpointImage : Checkpoint → List Byte
/-- The QUERY result of code 0x03 (09 R270 names its content, plan handles each with its tensor handles, without a layout;
log 7). -/
opaque handleList : List (BitVec 32 × List (BitVec 16)) → List Byte
/-- The I3C device identification bytes of GETPID, GETBCR, GETDCR and GETSTATUS (19 R497 names the codes alone). -/
opaque i3cReply : Nat → List Byte
/-- A unit's own part of a snapshot set that R461 names without a layout (17 R461): free bytes. -/
opaque snapshotBytes : (source : Nat) → (n : Nat) → List Byte
/-- `WIN.PART` of a window whose source belongs to no partition (13 R376): the spec gives no value, free (log 36). -/
opaque windowPart : Nat → BitVec 4
/-- ENG cycles of a sheet in one cycle of the datum clock: the domains have no fixed relation (01 R25), free (log 88). -/
opaque engCycles : (sheet count : Nat) → Nat
/-- SCR cycles of a sheet in one cycle of the datum clock, free (log 88). -/
opaque scrCycles : (sheet count : Nat) → Nat
/-- Words of set-up traffic that a step's programming sends on a sheet's control network (17 R453 counts them, no rule states how
many), free (log 88). -/
opaque setupWords : (sheet n : Nat) → Nat
/-- Router forwards of each word that a route sends within its sheet (17 R453): routes are the plan's, free (log 88). -/
opaque routeHops : (handle : Nat) → Nat
/-- The identification CSRs of a scribe core (07 names the hart number alone), by CSR number; free (log 83). -/
opaque scribeId : Nat → BitVec 64

end Sys2Proof.Config
end

