-- ==== Sys2Proof/Machine/State.lean ====
section
/-! DEFINITION. Everything the spec gives the GL16, as plain data, and the state after reset. One structure for each
unit; every default is the reset value the spec states (the register's own line), or the value a log entry names
where it states none (log 4). -/

namespace Sys2Proof.Machine

/-- `SHEET.MODE` (01 R23). -/
inductive SheetMode where
  | off | startUp | service | test | recovery | safe
deriving DecidableEq, Repr

/-- `ENG.STATE` (03 R107). -/
inductive EngState where
  | idle | run | wait | halt | fenced
deriving DecidableEq, Repr

/-- What an engine in WAIT waits for (03 R104, R107). -/
inductive Awaited where
  | flag (n : Nat) | scribe (core : Nat) | stepEnd
deriving DecidableEq, Repr

/-- An open loop (03 R104, R502): the word of its LOOP_BEGIN, its count and the index of the iteration in progress. -/
structure LoopFrame where
  start : Nat
  count : Nat
  iter : Nat
deriving DecidableEq, Repr

/-- A B operand in the stationary register (03 R78): its tile bytes, format and shape. -/
structure BOperand where
  bytes : List Byte
  fmt : BitVec 4
  mx : Bool
  vrows : Nat
  vcols : Nat
  poison : Bool
deriving DecidableEq, Repr

/-- A verdict of the arithmetic check that is on its way (03 R112): where the product ran and what differed. -/
structure Verdict where
  td : Nat
  kblk : Nat
  pc : Nat
  bad : Option (Nat × Nat)
deriving DecidableEq, Repr

/-- What the open settlement buffer holds for one chain and one proposed variable (06 R194, R211): the variable's state,
its field as read (none: NaN), its acceptance bound, the proposal decision, and what CPL_SETTLE made of them. -/
structure SettleVar where
  chain : Nat
  j : Nat
  x : Bool
  field : Option Int
  bound : Int
  prop : Bool
  final : Bool := false
  fprime : Int := 0
deriving DecidableEq, Repr

/-- The settlement buffer (06 R211). -/
structure SettleBuf where
  slot : Nat
  nch : Nat
  src : Nat
  heat : Bool
  sync : Bool
  done : Bool
  vars : List SettleVar
  poison : Bool
deriving DecidableEq, Repr

/-- The running energy sums of a parcel for one chain (06 R211): Σ x·H and Σ x·(F − H). -/
structure RunSums where
  xh : Int := 0
  xf : Int := 0
deriving DecidableEq, Repr

/-- A tile that arrived for TILE_RECV (03 R96, 08 R243): route handle, 32-byte record and tile bytes, poison, and what
the route's tree needs (11 R341). -/
structure Arrival where
  route : BitVec 16
  image : List Byte
  poison : Bool
  tspec : Word
  src : RouteSrc
  /-- PROV of the packet that brought it (10 R317). -/
  prov : Bool := false
deriving DecidableEq, Repr

/-- Valid shape and window exponent kept beside a tile in the parcel store (03 R80; log 12). -/
structure TileShape where
  vrows : Nat
  vcols : Nat
  fmt : BitVec 4
  mx : Bool
  wexp : Int
deriving DecidableEq, Repr

/-- The memories of one physical parcel: they stay with the silicon (01 R21, 03 R85, R501, 08 R238). -/
structure ParcelMem where
  store : Mem := []
  acc : Mem := []
  blkPoison : List Nat := []
  /-- The context whose step marked a block last (08 R250). -/
  blkCtx : Table (Option CtxId) := []
  fnTables : Table FnTable := []
  fnPoison : List Nat := []
  shapes : Table (Option TileShape) := []
deriving DecidableEq, Repr

/-- One scribe core (07). -/
structure Scribe where
  fifo : List (BitVec 16) := []
  step : Word := 0
  dwin : Table Word := []
  recHandle : BitVec 16 := 0
  recTile : BitVec 32 := 0
  recBusy : Bool := false
  recErr : Bool := false
  recWords : List Byte := []
  /-- What the outstanding request captured: handle and tile (07 R225). -/
  recAsked : BitVec 16 × BitVec 32 := (0, 0)
  c0 : Word := 0
  c1 : Word := 0
  entry : BitVec 10 := 0
  /-- Requests in flight (entry, c0, c1) and results unread, oldest first (07 R228). -/
  spReqs : List (BitVec 10 × Word × Word) := []
  spOuts : List (BitVec 128) := []
  fltAddr : Word := 0
  fltKind : BitVec 12 := 0
  fltSev : BitVec 4 := 0
  fltBusy : Bool := false
  tainted : Bool := false
  halted : Bool := false
  inReset : Bool := true
  msip : Bool := false
  meip : Bool := false
  mtimecmp : Word := 0
  pc : Word := 0
  xregs : Table Word := []
  fregs : Table Word := []
  vregs : Table (BitVec 512) := []
  csrs : Table Word := []
  /-- Machine mode (07 R216); else user mode. -/
  machine : Bool := true
  /-- The core waits in WFI (07 R221). -/
  wfi : Bool := false
  /-- The reservation of LR: address and bytes (07 R218). -/
  resv : Option (Nat × Nat) := none
deriving DecidableEq, Repr

/-- What a step may have to restore on one parcel (13 R379): the memories and descriptors at its start. -/
structure Journal where
  mem : ParcelMem
  tds : Table TileDesc
  tdPoison : List Nat
deriving DecidableEq, Repr

/-- The engine of a logical parcel (03). -/
structure Engine where
  tds : Table TileDesc := []
  tdPoison : List Nat := []
  /-- The context whose step marked a tile last (08 R250). -/
  tdCtx : Table (Option CtxId) := []
  tdWritten : List Nat := []
  blkWritten : List Nat := []
  raised : List (Nat × Nat) := []
  pc : BitVec 13 := 0
  progUnit : Nat := 0
  progLen : Nat := 0
  ags : Table AddrGen := []
  eflags : BitVec 8 := 0
  loops : List LoopFrame := []
  st : EngState := .idle
  awaits : Option Awaited := none
  stBeforeHalt : EngState := .idle
  seq : Nat := 0
  moverQ : List (Nat × Uop) := []
  arrayQ : List (Nat × Uop) := []
  rowQ : List (Nat × Uop) := []
  bReg : Option BOperand := none
  verdicts : List Verdict := []
  ring : Table (BitVec 8) := []
  settle : Option SettleBuf := none
  /-- Cycles still to pass in which CPL_SETTLE scans a re-decided variable (17 R457). -/
  rescan : Nat := 0
  sums : Table RunSums := []
  inbox : List Arrival := []
  /-- Arrivals from other devices that the step took: a repeat takes them again (11 R346). -/
  taken : List Arrival := []
  cores : Table Scribe := []
  arrived : Bool := false
  journal : Option Journal := none
  watchdogT0 : Option Nat := none
  /-- Active set-up of the step and the shadow set for the next (01 R34). -/
  setup : Option EngSetup := none
  shadow : Option EngSetup := none
deriving DecidableEq, Repr

/-- The pending ledger of a parcel (17 R457): cycles by account, and feed- and drain-bound cycles by blocking unit. -/
structure Ledger where
  productive : Nat := 0
  discarded : Nat := 0
  sync : Nat := 0
  drain : Nat := 0
  feed : Nat := 0
  units : Table Nat := []
deriving DecidableEq, Repr

/-- `SLOT.PHASE` (04 R125). -/
inductive SlotPhase where
  | idle | maxed | weighed | cut | drawn
deriving DecidableEq, Repr

/-- The slot values that a commit replaces (04 R122, R126). -/
structure SlotRegs where
  step : Word := 0
  gslot : BitVec 16 := 0
  tensor : BitVec 32 := 0
  bound : Bool := false
  invt : BitVec 32 := 0x10000
  base2 : Bool := false
  greedy : Bool := false
  topp : BitVec 17 := 0x10000
  mask : BitVec 16 := 0
  topk : BitVec 31 := 0
  index : BitVec 32 := 0xFFFFFFFF
  sflags : BitVec 8 := 0
  kept : Word := 0
  target : Word := 0
deriving DecidableEq, Repr

/-- A sample slot (04). -/
structure Slot where
  reg : SlotRegs := {}
  pend : SlotRegs := {}
  /-- The pending copy at the start of the step: what an abandoned step goes back to (04 R126; in an epoch the steps before
  it stay pending, 11 R342). -/
  start : SlotRegs := {}
  shadow : Option SlotRegs := none
  phase : SlotPhase := .idle
  drew : Bool := false
  started : Bool := false
  poison : Bool := false
  /-- The parameter entry of the set programmed last was read from a poisoned page (08 R248). -/
  cfgPoison : Bool := false
  ctx : Option CtxId := none
  /-- The sheets declared for the slot and its home sheet (04 R121); empty and none: its own sheet. -/
  sheets : List SheetId := []
  home : Option SheetId := none
  /-- The home sheet on another device, and the other devices' collecting sheets on the home device (04 R121, R144). -/
  homeDev : Option (DevId × SheetId) := none
  far : List (DevId × SheetId) := []
deriving DecidableEq, Repr

/-- What one parcel's pass reported to the hub (04 R133): allowed elements by global index with their Q24 logits (pass
A), every element with its weight (passes B and C), and the slot flags raised. -/
structure PassReport where
  eng : EngId
  logits : List (Nat × Int)
  weights : List (Nat × Nat)
  sflags : BitVec 8
  poison : Bool
  /-- A report of another device's part of a spread slot: `eng` then names nothing (04 R144). -/
  far : Option (DevId × SheetId) := none
deriving DecidableEq, Repr

/-- A hub context (04 R141): the phase reached, the fields that opened the draw in each parcel, the reports of the pass
that is being collected, and what the reductions decided (04 R133-R136). -/
structure HubCtx where
  slot : Nat
  stage : SlotPhase := .idle
  opened : List (EngId × PassOp) := []
  arrived : List PassReport := []
  lmax : Option Int := none
  gidx : Nat := 0
  vocab : Nat := 0
  weights : List (Nat × Nat) := []
  sAll : Nat := 0
  qk : Nat := 0
  tau : Option Nat := none
  qp : Nat := 0
  empty : Bool := false
  /-- Refinement passes that the cut needs (04 R135 step 4). -/
  refine : Nat := 0
  kept : List (Nat × Nat) := []
  total : Nat := 0
  /-- Requests of the draw in progress, one for each parcel. -/
  draws : List (EngId × PassOp) := []
  /-- Weights that pass D read again, by global index (04 R133). -/
  scan : List (Nat × Nat) := []
  /-- Ranges of the parcels of other devices, and the pass that this device's part has sent to its home hub (04 R144). -/
  farRanges : List (Nat × Nat) := []
  sentPass : Option Nat := none
  poison : Bool := false
deriving DecidableEq, Repr

/-- The chain values that a commit replaces (06 R207). -/
structure ChainRegs where
  sweep : Word := 0
  energy : Word := 0
  best : Word := 0
  teff : BitVec 32 := 0
  invt : BitVec 32 := 0
  gust : BitVec 32 := 0
  stall : BitVec 16 := 0
  rung : BitVec 8 := 0
  accept : BitVec 24 := 0
  redec : BitVec 24 := 0
  cflags : BitVec 8 := 0
  conflict : BitVec 32 := 0
  eexp : BitVec 11 := 0
  phead : BitVec 21 := 0
  /-- Counts of the sweep in progress (06 R194). -/
  runAccept : BitVec 24 := 0
  runRedec : BitVec 24 := 0
deriving DecidableEq, Repr

/-- A chain (06). -/
structure Chain where
  reg : ChainRegs := {}
  pend : ChainRegs := {}
  /-- The pending copy at the start of the step. -/
  start : ChainRegs := {}
  poison : Bool := false
deriving DecidableEq, Repr

/-- What the hub collects for one chain group (06 R211): flagged energy words, END words and exchange words. -/
structure HubGroup where
  slot : Nat
  nch : Nat
  aux : BitVec 16
  init : Bool
  echk : Bool
  fin : Bool
  prof : Bool
  arrived : List EngId
  sums : Table RunSums
  combined : Bool
  exch : List EngId
  par : Bool
  draw : Nat
  poison : Bool
deriving DecidableEq, Repr

/-- An entry of the key table (05 R155). -/
structure KeyEntry where
  ident : StreamId := ⟨0, 0, 0⟩
  devSeed : Bool := false
  valid : Bool := false
  k0 : Word := 0
  k1 : Word := 0
  seedOf : List Byte := []
  ctx : Option CtxId := none
deriving DecidableEq, Repr

/-- The key unit of a sheet (05). -/
structure KeyUnit where
  tab : Table KeyEntry := []
  shadow : Option (Table KeyEntry) := none
  derived : BitVec 16 := 0
  used : BitVec 11 := 0
  mismatch : Bool := false
  busy : Bool := false
  seedOk : Bool := false
deriving DecidableEq, Repr

/-- A combine-at-memory add that reached the memory path (08 R252). -/
structure AddReq where
  eng : EngId
  ctx : CtxId
  tensor : Tensor
  tile : Nat
  /-- Sheet, address in the rated area, and seal-table record of the destination. -/
  loc : Nat × Nat × Nat
  header : List Byte
  bytes : List Byte
  poison : Bool
  pc : Nat
  /-- Datum count of its arrival, and the request port it came through (08 R234). -/
  time : Nat
  port : Nat
deriving DecidableEq, Repr

/-- The memory path of a sheet (08). -/
structure MemPath where
  dram : Mem := []
  recs : Mem := []
  attrA : Table (BitVec 2) := []
  attrB : Table (BitVec 2) := []
  hashes : Table (List Byte) := []
  adds : List AddReq := []
  stalled : List Nat := []
  hotRef : Bool := false
  sealFail : BitVec 16 := 0
  attrErr : Bool := false
  sbOk : Bool := false
  selfRefresh : Bool := false
  /-- Pages that wait to be zeroed and freed after a function level reset, and orphans of a warm reset (09 R289, 14 R398). -/
  orphans : List Nat := []
  lockedOrphans : List Nat := []
  zeroOrphans : Bool := false
deriving DecidableEq, Repr

/-- One counter (17). -/
structure Counter where
  sel : Word := 0
  filt : Word := 0
  val : BitVec 48 := 0
  latch : BitVec 48 := 0
deriving DecidableEq, Repr

/-- A counter bank (17 R450). -/
structure Bank where
  ctrs : Table Counter := []
  ovf : Word := 0
  sample : Word := 0
deriving DecidableEq, Repr

/-- `FT.STATE` (15). -/
inductive FtState where
  | off | kak | survey | squall | wait | held | sheetKak
deriving DecidableEq, Repr

/-- Field test of a sheet (15). -/
structure FieldTest where
  roten : Bool := true
  sqen : Bool := true
  tmin : BitVec 8 := 90
  period : BitVec 16 := 60
  spareKak : BitVec 16 := 10
  rounds : BitVec 16 := 0
  last : BitVec 4 := 0
  st : FtState := .off
  /-- Test items of the running phase still to be done: pack id, version, squall-eligible. -/
  packsLeft : List (BitVec 16 × BitVec 32 × Bool) := []
  roundPacks : List (BitVec 16 × BitVec 32 × Bool) := []
  windowUp : Bool := false
  failed : Bool := false
  held : List Nat := []
  standingKak : Bool := false
  sheetKakLeft : List Nat := []
deriving DecidableEq, Repr

/-- The sheet collector (13 R372). -/
structure SheetCollector where
  queue : List FaultMsg := []
  overrun : List (BitVec 16) := []
deriving DecidableEq, Repr

/-- Thermal state of a sheet (18 R481). -/
structure Thermal where
  tmax : BitVec 16 := 0
  dramt : BitVec 8 := 0
  step : BitVec 4 := 0xA
  limit : BitVec 4 := 0xA
  throt : Bool := false
  hot : Bool := false
  dramHot : Bool := false
deriving DecidableEq, Repr

/-- Why a parcel-map change waits for the step boundary (01 R21, 13 R384, R386, 15 R410). -/
inductive MapChange where
  | fence (p : Nat)
  | substitute (p : Nat)
  | advance
  /-- A fence removed by a signed record (13 R385): the parcel returns to service. -/
  | unfence (p : Nat)
deriving DecidableEq, Repr

/-- One sheet. -/
structure Sheet where
  mode : SheetMode := .startUp
  pmap : List Nat := [0, 1, 2, 3, 4, 5, 6, 7, 8, 9, 10, 11, 12, 13, 14, 15]
  standing : Option Nat := some 16
  test : Option Nat := some 17
  fenced : BitVec 18 := 0
  changes : List MapChange := []
  /-- A rebinding took this boundary: a due advance waits for the next one (15 R415). -/
  advanceHeld : Bool := false
  flags : BitVec 64 := 0
  engines : Table Engine := []
  parcels : Table ParcelMem := []
  slots : Table Slot := []
  chains : Table Chain := []
  hubs : List HubCtx := []
  groups : List HubGroup := []
  key : KeyUnit := {}
  mem : MemPath := {}
  staging : Mem := []
  stagingPoison : Bool := false
  parcelBanks : Table Bank := []
  bank : Bank := {}
  /-- Pending ledger of the step by logical parcel (17 R457). -/
  ledgers : Table Ledger := []
  ft : FieldTest := {}
  col : SheetCollector := {}
  wire : List FaultMsg := []
  thm : Thermal := {}
  routeTab : List Route := []
  /-- Router tables of the next step (01 R34). -/
  routeShadow : Option (List Route) := none
  /-- Contributions that nodes of reduction trees hold until their children have arrived (01 R29). -/
  collecting : List Arrival := []
  /-- DATA and CONTROL packets delivered to the sheet (10 R317). -/
  inPackets : List Packet := []
  dramTries : Nat := 0
  trained : Bool := false
  tested : Bool := false
deriving DecidableEq, Repr

/-- `Q.STATE` (09 R279). -/
inductive QState where
  | disabled | active | draining | error
deriving DecidableEq, Repr

/-- A descriptor as fetched (09 R266), with what the queue unit decided about it. -/
structure Desc where
  bytes : List Byte
  seq : BitVec 32
  /-- Validated by R267. -/
  checked : Bool
  started : Bool
  status : Option Byte
  kind : BitVec 12
  cflags : Byte
  info : BitVec 32
  digest : Word
  datum : Word
  /-- Waits for a device seed (05 R169), for a signature (16 R438) or for a snapshot's latch (17 R459). -/
  wants : Nat
  seedBytes : Option (List Byte)
  doorbell : Nat
deriving DecidableEq, Repr

/-- A queue (09). -/
structure Queue where
  sqbase : BitVec 52 := 0
  cqbase : BitVec 52 := 0
  sqlog : BitVec 5 := 0
  cqlog : BitVec 5 := 0
  func : BitVec 4 := 0
  prio : BitVec 3 := 0
  vector : BitVec 12 := 0
  irqen : Bool := false
  nextSeq : BitVec 32 := 0
  sqhead : BitVec 16 := 0
  sqtail : BitVec 16 := 0
  cqtail : BitVec 16 := 0
  cqhead : BitVec 16 := 0
  ptlim : BitVec 32 := 1000000
  err : BitVec 8 := 0
  st : QState := .disabled
  phase : Bool := true
  fetched : List Desc := []
  /-- Doorbell arrival order of the ring entries not yet fetched: (tail, stamp) (09 R275). -/
  bells : List (BitVec 16 × Nat) := []
  /-- A doorbell of the same cycle as `Q.DISABLE` was applied first: its descriptors are still fetched (09 R293). -/
  drainFetch : Bool := false
deriving DecidableEq, Repr

/-- `PART.STATE` (09 R282). -/
inductive PartState where
  | unused | setup | running | resetting
deriving DecidableEq, Repr

/-- `HANG.STATE` (14). -/
inductive HangState where
  | normal | halted | isolation
deriving DecidableEq, Repr

/-- Phase of a partition's run machinery (01 R33-R36, 13 R380). -/
inductive StepPhase where
  | none | programmed | running | abandoned
deriving DecidableEq, Repr

/-- A fault recorded against the step in progress (13 R381, R386): kind, address, sheet and physical parcel. -/
structure StepFault where
  kind : BitVec 12
  address : Word
  source : BitVec 16
  sheet : Nat
  phys : Option Nat
  again : Bool
deriving DecidableEq, Repr

/-- A RUN in progress (09 R270, 12 R358, R360). -/
structure RunState where
  queue : Nat
  ctx : CtxId
  plan : BitVec 32
  total : Nat
  committed : Nat
  first : Word
  seed : List Byte
  seedSrc : BitVec 2
  hState : List Byte
  hIn : List Byte
  status : Byte
  kind : BitVec 12
  notseq : Bool
  f32add : Bool
  sat : Bool
  flagged : Bool
  recovered : Bool
  devSeed : Bool
  uncovered : Bool
  clkstep : Bool
  divchg : Bool
  restored : Bool
  division0 : List Nat
  divLast : List Nat
  launch : Word
  lastCommit : Word
  scanned : Bool
  written : List (BitVec 32)
  chart : Bool
  waitLaunch : Bool
  /-- Steps that have ended and wait for their commit, which for a chart plan is that of the epoch (11 R342): their number, their flags,
whether a tile of theirs carries SAT, and the division of the last (12 R360, R362). -/
  provisional : Nat
  provFlags : Bool
  provSat : Bool
  provDiv : List Nat
  /-- DRAM granules written in the open epoch (11 R343). -/
  epochTiles : List (Nat × Nat)
  /-- A COPY, RESTORE or LOAD_PLAN of the context wrote a marked tensor since the dispatch (12 R360). -/
  broken : Bool
  /-- Ledgers of the steps that have ended and wait for their commit (17 R457). -/
  ledgers : List (EngId × Ledger)
deriving DecidableEq, Repr

/-- A partition (09, with the run machinery of 01, 13 and 14). -/
structure Part where
  sheets : BitVec 16 := 0
  ports : BitVec 64 := 0
  contain : Bool := false
  hold : Bool := false
  st : PartState := .unused
  wdog : BitVec 24 := 1000000
  hangCur : BitVec 12 := 0
  hang : HangState := .normal
  suspects : List CtxId := []
  activity : List CtxId := []
  runs : List RunState := []
  /-- Which run owns the step in progress, and its program. -/
  cur : Option CtxId := none
  prog : Nat := 0
  phase : StepPhase := .none
  /-- The next step, programmed in the shadow sets (01 R34): context, program, parcels in service of each sheet, and the
  sheets where a key derivation failed (05 R156). -/
  next : Option (CtxId × Nat × List Nat × List Nat) := none
  /-- Context and program whose sets the units swapped in at the end of the last step (01 R34). -/
  swapped : Option (CtxId × Nat) := none
  /-- Contexts whose RUN took the last steps, latest first (09 R276). -/
  turns : List CtxId := []
  faults : List StepFault := []
  /-- The faults of the first attempt while a repeat runs, and whether the repeat is on the same parcel. -/
  firstFaults : List StepFault := []
  again : Bool := false
  /-- Sheets and parcels: (sheet, suspect, substitute) of the repeat (13 R380). -/
  swaps : List (Nat × Nat × Nat) := []
  /-- Output tiles written in the step carry SAT, and carry SAT, NAN, INF or CLAMP (02 R55). -/
  stepSat : Bool := false
  stepFlagged : Bool := false
  /-- The step must not be committed: a kill or teardown began (09 R289). -/
  noCommit : Bool := false
  halted : Bool := false
  /-- Engines that had not arrived when the partition halted (14 R389, R393). -/
  stuck : List EngId := []
  /-- The context on trial has run its unit of work (14 R393). -/
  trialRan : Bool := false
  /-- A parcel of the step in progress was reset: the step is abandoned and repeated on the same resources (14 R396). -/
  parcelReset : Bool := false
  /-- The sheet resets of a partition reset have begun: its kills are over (14 R396). -/
  sheetsReset : Bool := false
  /-- DRAM granules written in the step: sheet, and 2·record or 2·page + 1 (08 R249). -/
  dramWritten : List (Nat × Nat) := []
deriving DecidableEq, Repr

/-- `CTX.STATE` (09 R286). -/
inductive CtxState where
  | free | opened | tearing | killed
deriving DecidableEq, Repr

/-- A plan loaded in a context (09 R270): its handle, hash, class and parsed form. -/
structure LoadedPlan where
  handle : BitVec 32
  hash : List Byte
  cls : Byte
  plan : Plan
  /-- A double-bit error of the staging SRAM hit the image kept there (08 R238). -/
  poison : Bool := false
deriving DecidableEq, Repr

/-- A run record (12 R360). -/
structure RunRecord where
  run : RunState
  planHash : List Byte
  cls : Byte
  hOut : List Byte
  last : Word
  broken : Bool
deriving DecidableEq, Repr

/-- A context (09). -/
structure Ctx where
  part : BitVec 4 := 0
  func : BitVec 4 := 0
  slotBase : BitVec 7 := 0
  slotCnt : BitVec 8 := 0
  scrub : Bool := false
  cntrd : Bool := false
  quota : BitVec 32 := 0
  gen : BitVec 8 := 0
  st : CtxState := .free
  tphase : BitVec 4 := 0
  cause : BitVec 8 := 0
  drops : BitVec 16 := 0
  step : Word := 0
  seed : Option (List Byte × Bool) := none
  plans : List LoadedPlan := []
  records : List RunRecord := []
  killing : Bool := false
  /-- Status that the kill in progress puts into CAUSE at its end. -/
  pendCause : BitVec 8 := 0
  /-- Kind 0x403 was raised in phase 4. -/
  timedOut : Bool := false
  byFlr : Bool := false
  restored : Bool := false
  /-- Devices whose quiesce acknowledgement is missing (09 R289 phase 4). -/
  acks : List DevId := []
  /-- The queue whose TEARDOWN waits for phase 5. -/
  waiter : Option Nat := none
deriving DecidableEq, Repr

/-- `VJ.LSTATE` (10 R318). -/
inductive LinkState where
  | off | detect | equalise | align | param | up | fenced | down | loopback
deriving DecidableEq, Repr

/-- A flit as numbered: what a replay sends again (10 R311). -/
structure Flit where
  seq : BitVec 16
  vl : Nat
  ctx : BitVec 12
  kph : Bool
  pay : List Byte
deriving DecidableEq, Repr

/-- A sync unit as numbered: its message, encrypted where the link encrypts, and tag (10 R303, R311). -/
structure SentSync where
  seq : BitVec 16
  kph : Bool
  body : List Byte
deriving DecidableEq, Repr

/-- A packet that waits for its flits to be sent (10 R306): whether its first flit has gone, the key phase it was sealed
in, and the payloads still to go, cut when it begins. -/
structure TxPacket where
  pk : Packet
  begun : Bool
  kph : Bool
  pieces : List (List Byte)
deriving DecidableEq, Repr

/-- A key slot of the receive direction, named by KPH (10 R316): key with its salts, and the invocation counters of the packet and
sync streams under it. -/
structure RxSlot where
  key : List Byte := []
  count : Nat := 0
  syncCount : Nat := 0
deriving DecidableEq, Repr

/-- A flit in the receive buffer of a lane (10 R309): its key phase, and of the first flit of a packet the flits that the packet fills
(0 for the others) and its invocation number. -/
structure RxFlit where
  kph : Bool
  need : Nat
  count : Nat
  pay : List Byte
deriving DecidableEq, Repr

/-- A packet put together from its flits (10 R306): flits that it fills, key phase, invocation number and payload bytes so far. -/
structure RxPacket where
  need : Nat := 0
  kph : Bool := false
  count : Nat := 0
  bytes : List Byte := []
deriving DecidableEq, Repr

/-- A Voijo port (10). -/
structure Port where
  en : Bool := false
  enc : Bool := false
  loop : BitVec 2 := 0
  precode : Bool := false
  pdev : BitVec 12 := 0
  pport : BitVec 6 := 0
  delay : BitVec 16 := 0
  long : Bool := false
  precod : Bool := false
  encon : Bool := false
  rev : Bool := false
  pol : BitVec 4 := 0
  lstate : LinkState := .off
  corrgrp : BitVec 32 := 0
  uncorr : BitVec 16 := 0
  replay : BitVec 16 := 0
  cause : BitVec 8 := 0
  tries : BitVec 16 := 0
  authf : BitVec 16 := 0
  krdy : Bool := false
  kphr : Bool := false
  kpht : Bool := false
  quiet : Bool := false
  /-- Retraining from UP: the streams keep their numbers (R313), and the cause to show if it fails. -/
  retraining : Bool := false
  retrainCause : BitVec 8 := 0
  txSeq : BitVec 16 := 0
  rxSeq : BitVec 16 := 0
  txSync : BitVec 16 := 0
  rxSync : BitVec 16 := 0
  replayFlits : List Flit := []
  replaySyncs : List SentSync := []
  /-- Units to resend after a request, sync stream first (R312). -/
  resendFlits : List Flit := []
  resendSyncs : List SentSync := []
  credits : Table Nat := []
  owed : Table Nat := []
  syncQ : List SyncMsg := []
  /-- Packets waiting by virtual lane, and the sub-flits of the flit in progress still to be sent. -/
  flitQ : Table (List TxPacket) := []
  inProgress : List (List Byte) := []
  vl1Run : Nat := 0
  vl2Run : Nat := 0
  /-- Which of the last 63 slots were sync units, the latest in bit 0 (10 R308). -/
  vl0Run : BitVec 63 := 0
  mgmtQ : List (List Byte) := []
  awaiting : Bool := false
  /-- Requests that failed for the flit and the sync unit now expected (10 R313). -/
  reqFlit : Nat := 0
  reqSync : Nat := 0
  badGroups : Nat := 0
  /-- Datum counts of the latest authentication failures (10 R316). -/
  authTimes : List Nat := []
  /-- Sub-flits of the flit arriving; by lane: flits in the receive buffer (R309), flits still to come of the packet whose first flit
  arrived last, the packet being put together, and the whole packet that waits. -/
  rxSub : List (List Byte) := []
  rxFlits : Table (List RxFlit) := []
  rxLeft : Table Nat := []
  rxAsm : Table RxPacket := []
  rxPacket : Table (Option RxPacket) := []
  /-- Invocation counters of the packet and sync streams sent, keys sent under, and the receive key slots by KPH (10 R316). -/
  txCount : Nat := 0
  txSyncCount : Nat := 0
  txKey : List Byte := []
  nextKey : List Byte := []
  rxSlots : Table RxSlot := []
  /-- Key phase of the latest packet and of the latest sync unit received. -/
  phasePkt : Bool := false
  phaseSync : Bool := false
  /-- Units of the interleave group that fills (10 R299), the scramblers of the four lanes in each direction (R297), and whether the
  partner asked for precoding (R295). -/
  txGroup : List (List Byte) := []
  txScr : List Nat := []
  rxScr : List Nat := []
  txPrecode : Bool := false
  groupEnabled : Bool := false
deriving DecidableEq, Repr

/-- `CHART.CSTATE` (11 R326). -/
inductive ChartState where
  | alone | aligning | startUp | service | unlocked
deriving DecidableEq, Repr

/-- `EPOCH.STATE` (11 R345). -/
inductive EpochState where
  | idle | launch | opened | voted | rollback
deriving DecidableEq, Repr

/-- CHART_EPOCH of a context, with what its barriers have collected (11 R343, R345). -/
structure Epoch where
  num : BitVec 32 := 0
  drops : BitVec 16 := 0
  rbcnt : BitVec 8 := 0
  st : EpochState := .idle
  /-- Operands that arrived at this node's barrier from child ports (none: its own), and whether it has forwarded. -/
  votes : List (Option PortId × Word) := []
  tags : List (Option PortId × Word) := []
  drained : List (Option PortId) := []
  sent : Bool := false
  launchAt : Option Nat := none
  failKind : BitVec 12 := 0
  poisoned : Bool := false
deriving DecidableEq, Repr

/-- The chart registers that a chart record stores (11 R325). -/
structure ChartRegs where
  chartId : BitVec 16 := 0
  devId : BitVec 12 := 0
  datumDev : BitVec 12 := 0
  size : BitVec 13 := 1
  upport : BitVec 8 := 0xFF
  lmargin : BitVec 32 := 2000
  down : Word := 0
deriving DecidableEq, Repr

/-- CHART_ROUTE of a device (11 R334). -/
structure RouteEntry where
  valid : Bool := false
  port : BitVec 6 := 0
deriving DecidableEq, Repr

/-- The chart and datum logic (11). -/
structure Chart where
  reg : ChartRegs := {}
  st : ChartState := .alone
  err : BitVec 16 := 0
  depth : BitVec 4 := 0
  members : BitVec 13 := 0
  saved : Option ChartRegs := none
  lock : Bool := false
  lockedBefore : Bool := false
  stepped : Bool := false
  /-- Kind of the latest loss of lock (11 R332). -/
  lossKind : BitVec 12 := 0
  goodRun : Nat := 0
  /-- Datum count in units of 1/256 ns (R328). -/
  datum : Nat := 0
  probes : Table (List Int) := []
  childSums : Table Nat := []
  serviceAt : Option Nat := none
  routes : Table RouteEntry := []
  epochs : Table Epoch := []
deriving DecidableEq, Repr

/-- An entry of the window table (13 R376). -/
structure Window where
  kind : BitVec 12 := 0
  source : BitVec 16 := 0
  rung : BitVec 4 := 0
  joined : BitVec 16 := 0
  part : Option PartId := none
  /-- 0 free, 1 open; whether its timer is held follows from the work that its severity acts on (13 R376). -/
  st : BitVec 2 := 0
  age : Nat := 0
  sev : BitVec 4 := 0
  ctx : BitVec 12 := 0
  /-- Rung whose reset the window's own escalation has under way; 0: none. -/
  acting : BitVec 4 := 0
  /-- The window's end has come and waits for the history record of its parcel (13 R383). -/
  closing : Bool := false
deriving DecidableEq, Repr

/-- A history record (13 R383). -/
structure Hist where
  count : BitVec 16 := 0
  kind : BitVec 12 := 0
  fcause : BitVec 4 := 0
  fenced : Bool := false
  lasth : BitVec 32 := 0
  prevh : BitVec 32 := 0
deriving DecidableEq, Repr

/-- The device collector (13 R373). -/
structure Collector where
  ringen : Bool := false
  histwin : BitVec 16 := 720
  winus : BitVec 20 := 1000
  rbase : BitVec 52 := 0
  rlog : BitVec 5 := 0
  rtail : BitVec 16 := 0
  rvec : BitVec 12 := 0
  rhead : BitVec 16 := 0
  lost : BitVec 16 := 0
  safeKind : BitVec 12 := 0
  safeDatum : Word := 0
  svch : BitVec 32 := 0
  phase : Bool := true
  kept : List FaultMsg := []
  overrun : List (BitVec 16) := []
  windows : Table Window := []
  nextAge : Nat := 0
  hist : Table Hist := []
  /-- History records whose MRAM write failed and is retried (13 R383). -/
  unwritten : List Nat := []
  /-- Sources reset by a rung: source, next rung, and the datum count until which it holds (13 R377). -/
  recentResets : List (BitVec 16 × BitVec 4 × Nat) := []
deriving DecidableEq, Repr

/-- The dump engine (14 R400). -/
structure Dump where
  base : BitVec 52 := 0
  latch : Bool := false
  mram : Bool := false
  smask : BitVec 16 := 0
  len : BitVec 28 := 0
  noresp : BitVec 16 := 0
  blocks : BitVec 16 := 0
  /-- 0 IDLE, 1 RUNNING, 2 DONE, 3 TRUNCATED, 4 ABORTED, 5 BUS_FAIL. -/
  st : BitVec 4 := 0
  todo : List (BitVec 16) := []
  done : List (List Byte) := []
  used : Nat := 0
  start : Word := 0
  downSeen : List (BitVec 16) := []
  stopAsked : Bool := false
  haltArea : List Byte := []
  lastGasp : List Byte := []
  /-- The running dump has scheduled its snapshot (17 R459). -/
  latched : Bool := false
deriving DecidableEq, Repr

/-- Resets (14). -/
structure Resets where
  last : BitVec 8 := 5
  warmcnt : BitVec 8 := 0
  dmatmo : BitVec 32 := 10000
  lnktmo : BitVec 32 := 1000
  /-- Resets in progress (`RST.BUSY`): parcels (sheet and physical parcel), sheets, device warm. A partition's own state
  shows its reset. -/
  parcels : List (Nat × Nat) := []
  sheets : List Nat := []
  warm : Bool := false
deriving DecidableEq, Repr

/-- An installed survey pack (15 R406). -/
structure Pack where
  id : BitVec 16 := 0
  ver : BitVec 32 := 0
  len : BitVec 9 := 0
  valid : Bool := false
  squall : Bool := false
  runNs : BitVec 32 := 0
  items : Nat := 0
deriving DecidableEq, Repr

/-- `ECB.STATE` (16 R419). -/
inductive EcbState where
  | off | selftest | boot | ready | recovery | error | zeroising
deriving DecidableEq, Repr

/-- `ECB.TSTATE` (16 R426). -/
inductive TrngState where
  | off | startUp | run | failed | raw | halted
deriving DecidableEq, Repr

/-- Mailbox roles (16 R417). -/
inductive Role where
  | none | user | officer
deriving DecidableEq, Repr

/-- A signing request (16 R438): a SEAL_MANIFEST body with its queue and buffer, or a quote. -/
structure SignReq where
  queue : Option Nat
  addr : Word
  body : List Byte
  /-- Datum count at which the request arrived. -/
  came : Nat := 0
deriving DecidableEq, Repr

/-- Content of an MRAM record (16 R443). The key store holds the keys and the personalisation string; the identity record's public
key is that of the seed. -/
inductive RecBody where
  | svn (minsvn : BitVec 32) (lastB : Bool)
  | officer (key : Option (List Byte))
  | keyStore (hwk chartKey transport idSeed : Option (List Byte)) (perso : List Byte)
  | identity (resEnd : BitVec 41) (cert : Bool)
  | helper (enrolment : Nat)
  | fence (map : Option (List Nat × Option Nat × Option Nat × BitVec 18))
  | history (h : Hist)
  | chart (reg : Option ChartRegs)
  | collector (svch : BitVec 32) (safeKind : BitVec 12) (safeDatum : Word)
  | testRing (next : BitVec 10) (log : Table (List Byte))
  | applied (seq : Nat) (unlock : Option (BitVec 32))
deriving DecidableEq, Repr

/-- One copy of a record (16 R442); `ok`: its tag verifies. -/
structure RecCopy where
  seq : Word
  body : RecBody
  ok : Bool := true
deriving DecidableEq, Repr

/-- A record's two copies; nothing where a copy was never written. -/
structure RecPair where
  a : Option RecCopy := none
  b : Option RecCopy := none
deriving DecidableEq, Repr

/-- Ecbumos (16). -/
structure Ecb where
  fwsvn : BitVec 32 := 0
  actB : Bool := false
  role : Role := .none
  approved : Bool := false
  cert : Bool := false
  tst : TrngState := .off
  st : EcbState := .off
  reqs : BitVec 48 := 0
  pool : List (BitVec 256) := []
  rslog : BitVec 5 := 20
  stretch : Bool := false
  inst : Bool := false
  drbg : List Byte := []
  rctf : BitVec 16 := 0
  aptf : BitVec 16 := 0
  lastsrc : BitVec 2 := 3
  consec : BitVec 2 := 0
  goodBlocks : Nat := 0
  err : Bool := false
  notrdy : Bool := true
  hostBuf : List Byte := []
  rawv : Bool := false
  rawlost : Bool := false
  rawsrc : BitVec 2 := 0
  rawbits : BitVec 32 := 0
  /-- Samples were discarded since the last raw read (16 R432). -/
  rawMiss : Bool := false
  signext : BitVec 41 := 0
  sigres : BitVec 41 := 0
  cmd : BitVec 8 := 0
  len : BitVec 13 := 0
  busy : Bool := false
  result : BitVec 8 := 0
  arg0 : Word := 0
  arg1 : Word := 0
  buf : Mem := []
  nonce : Option (List Byte) := none
  fails : Nat := 0
  locked : Bool := false
  officer : Option (List Byte) := none
  hwk : Option (List Byte) := none
  chartKey : Option (List Byte) := none
  transport : Option (List Byte) := some Config.transportKey
  perso : List Byte := []
  idSeed : Option (List Byte) := some Config.identitySeed
  idCert : Bool := true
  /-- Enrolments of the PUF since manufacture (16 R447). -/
  enrol : Nat := 0
  genKey : Bool := false
  minsvn : BitVec 32 := 0
  slotA : Option FwImage := none
  slotB : Option FwImage := none
  lastB : Bool := false
  applied : List Nat := []
  unlockHour : Option (BitVec 32) := none
  signing : List SignReq := []
  resWait : Bool := false
  seedWait : List Nat := []
  restarting : Bool := false
  ideKeys : Option (List Byte) := none
  ideNext : Option (List Byte) := none
  pufOk : Bool := true
  packs : Table Pack := []
  logNext : BitVec 10 := 0
  log : Table (List Byte) := []
  fenceRecs : Table (List Nat × Option Nat × Option Nat × BitVec 18) := []
deriving DecidableEq, Repr

/-- Place of a record in the record area: type code and index (16 R443). -/
def recKey (t : RecType) (i : Nat) : Nat :=
  (match t with
    | .svn => 1 | .officer => 2 | .keyStore => 3 | .identity => 4 | .helper => 5 | .fence => 6 | .history => 7 | .chart => 8
    | .collector => 9 | .testRing => 0xA | .applied => 0xB) * 512 + i
/-- The records of a device as manufactured (16 R436, R440, R443): SVN, key store, identity and PUF helper data, each in its first
copy with SEQ 1 (DESIGN CHOICE, log 89). -/
def factoryRecords : Table RecPair :=
  let e : Ecb := {}
  let one (t : RecType) (b : RecBody) : Nat × RecPair := (recKey t 0, { a := some { seq := 1, body := b } })
  [one .svn (.svn e.minsvn e.lastB), one .keyStore (.keyStore e.hwk e.chartKey e.transport e.idSeed e.perso),
    one .identity (.identity e.sigres e.idCert), one .helper (.helper e.enrol)]

/-- Global counter control (17 R459). -/
structure CntCtl where
  frzmode : Bool := false
  pend : Bool := false
  frozen : Bool := false
  vec : BitVec 12 := 0
  snapcnt : BitVec 32 := 0
  snapat : Word := 0
  at0 : Nat := 0
  resumeAt : Option Nat := none
  satf : BitVec 10 := 0
  waiter : Option Nat := none
  latched : List (BitVec 16 × List Byte) := []
  bank : Bank := {}
  portBanks : Table Bank := []
deriving DecidableEq, Repr

/-- Power, clocks and start-up (18). -/
structure Power where
  capw : BitVec 16 := 3600
  fmax : BitVec 4 := 0xA
  capen : Bool := true
  inw : BitVec 16 := 0
  va : BitVec 8 := 0
  vb : BitVec 8 := 0
  ia : BitVec 8 := 0
  ib : BitVec 8 := 0
  aok : Bool := false
  bok : Bool := false
  lost : Bool := false
  capStep : BitVec 4 := 0xA
  overTicks : Nat := 0
  overRaised : Bool := false
  ref100 : Bool := true
  ref156 : Bool := true
  rails : List Nat := []
  /-- The start-up origin was reached: input up and PWR_DIS low (R472). -/
  origin : Bool := false
  trip : Bool := false
  tripped : Bool := false
  down : Bool := false
  pgOut : Bool := false
  thermTrip : Bool := false
  configReady : Bool := false
  /-- Firmware was released at the end of BOOT: PCI Express training follows (R472). -/
  released : Bool := false
deriving DecidableEq, Repr

/-- The package's sideband logic (19). -/
structure Pkg where
  i3cSta : BitVec 7 := 0
  i3cDyn : BitVec 7 := 0
  i3cDv : Bool := false
  i3cOffset : BitVec 32 := 0
  jtag : JtagInstr := .idcode
  dbgRead : Option (BitVec 16) := none
  pwrDis : Bool := false
  perst : Bool := true
deriving DecidableEq, Repr

/-- `GLOB.DSTATE` (09 R263). -/
inductive DevState where
  | startUp | ready | recovery | safe
deriving DecidableEq, Repr

/-- What leaves the device (log 6). -/
inductive Out where
  | dmaWrite (addr : Word) (bytes : List Byte)
  | msix (func : BitVec 4) (vec : BitVec 12)
  | readReply (bytes : List Byte)
  | unsupportedRequest
  | linkUnit (port : PortId) (bytes : List Byte)
  /-- An interleave group as its four lanes carry it (10 R299). -/
  | linkGroup (port : PortId) (lanes : List (List Nat))
  | ibi (kind : BitVec 12)
  | i3cReply (bytes : List Byte)
  | jtagOut (bytes : List Byte)
  | doe (bytes : List Byte)
  | aer
  | flrDone (func : BitVec 4)
  | scribeData (core : CoreId) (bytes : List Byte)
deriving DecidableEq, Repr

/-- The whole block. -/
structure State where
  pending : List Instr := []
  free : Nat := 0
  out : List Out := []
  sheets : Table Sheet := []
  qtmo : BitVec 16 := 0x64
  dstate : DevState := .startUp
  w4base : BitVec 5 := 0
  /-- Size of the resizable BAR of WIN_4: 64 GiB times 2 to this power (09 R255, R260; log 87). -/
  w4size : Fin 6 := 0
  /-- MSI-X vectors masked in the tables of each function, and messages they hold back (09 R255; log 87). -/
  msixMask : List (BitVec 4 × BitVec 12) := []
  msixPend : List (BitVec 4 × BitVec 12) := []
  queues : Table Queue := []
  parts : Table Part := []
  ctxs : Table Ctx := []
  bellStamp : Nat := 0
  /-- Datum count at which the last doorbell arrived: doorbells of one cycle share a stamp (09 R275). -/
  bellAt : Option Nat := none
  /-- The queue of each priority class whose descriptors were fetched last (09 R276). -/
  fetchTurn : Table Nat := []
  /-- The same of the descriptor validated last. -/
  checkTurn : Table Nat := []
  flr : List (BitVec 4) := []
  ports : Table Port := []
  chart : Chart := {}
  col : Collector := {}
  /-- Messages on their way to the device collector over the management links (13 R365). -/
  devWire : List FaultMsg := []
  mseq : Table (BitVec 32) := []
  rst : Resets := {}
  dump : Dump := {}
  ecb : Ecb := {}
  /-- The record area of MRAM (16 R442), by type and index: `recKey`. -/
  mram : Table RecPair := factoryRecords
  cnt : CntCtl := {}
  pwr : Power := {}
  pkg : Pkg := {}
deriving DecidableEq, Repr

/-- Why the block stops with a fault. No row of the opcode table stops it: the kinds of the spec are messages on
State. -/
inductive Fault where
  /-- Raised by nothing: every outcome that the spec names is a next state. Safe. -/
  | none
deriving DecidableEq, Repr

/-- Why a command is turned away by the model. -/
inductive Refusal where
  /-- The model has no meaning yet for the row of this mnemonic; raised by Dispatch alone. Safe. -/
  | notModelled (mnemonic : String)
deriving DecidableEq, Repr

/-- The state after reset: every structure at its reset values; the queue of commands is empty. -/
def State.reset : State := {}

end Sys2Proof.Machine
end

