-- ==== Sys2Proof/Machine/Numerics.lean ====
section
/-! DEFINITION. Number formats and exact accumulation (02): decoding, the A64 window, rounding decisions, conversions,
Q24 operands, the exponential, sigmoid and tabled functions, residues. Values are exact: integers times powers of two,
or quotients of integers. -/

namespace Sys2Proof.Machine

/-- A decoded operand: a dyadic value n · 2^t, an infinity, or NaN (02 R38). -/
inductive Val where
  | fin (n : Int) (t : Int)
  | inf (neg : Bool)
  | nan
deriving DecidableEq, Repr

/-- Multiply by a power of two: exact for k ≥ 0, floor for k < 0. -/
def shl (n : Int) (k : Int) : Int :=
  if 0 ≤ k then n * (2 : Int) ^ k.toNat else n.fdiv ((2 : Int) ^ (-k).toNat)

/-- Whether n · 2^k is an integer. -/
def shlExact (n : Int) (k : Int) : Bool :=
  if 0 ≤ k then true else n.fmod ((2 : Int) ^ (-k).toNat) == 0

/-- Sum of two dyadic values. -/
def dyAdd (a b : Int × Int) : Int × Int :=
  if a.1 = 0 then b else if b.1 = 0 then a
  else if a.2 ≤ b.2 then (a.1 + b.1 * (2 : Int) ^ (b.2 - a.2).toNat, a.2)
  else (a.1 * (2 : Int) ^ (a.2 - b.2).toNat + b.1, b.2)

/-- Width in bits of a format code (03 R81, R82); 0 for a reserved code. -/
def fmtBits (f : BitVec 4) : Nat :=
  match f.toNat with
  | 0 => 4 | 1 => 8 | 2 => 4 | 3 => 6 | 4 => 6 | 5 => 8 | 6 => 8 | 7 => 16 | 8 => 16 | 9 => 32 | 10 => 64 | _ => 0

/-- A format code with its MX bit that the last column of R81 allows. -/
def fmtOk (f : BitVec 4) (mx : Bool) : Bool :=
  if mx then decide (1 ≤ f.toNat ∧ f.toNat ≤ 6) else decide (f.toNat ≤ 10)

/-- A format that a tile multiply takes (02 R41). -/
def fmtMul (f : BitVec 4) (mx : Bool) : Bool := fmtOk f mx && decide (f.toNat ≤ 8)

/-- Row size in bytes (03 R82). -/
def rowBytes (f : BitVec 4) : Nat := 16 * fmtBits f

/-- Element bytes of a whole tile (03 R82). -/
def tileElemBytes (f : BitVec 4) : Nat := 128 * rowBytes f

/-- All bytes of a tile: element data and scale block (03 R82, R83). -/
def tileBytes (f : BitVec 4) (mx : Bool) : Nat := tileElemBytes f + (if mx then 512 else 0)

/-- Exponent and mantissa widths and bias of a floating format (02 R38). -/
def fpShape (f : BitVec 4) : Nat × Nat × Int :=
  match f.toNat with
  | 2 => (2, 1, 1) | 3 => (2, 3, 1) | 4 => (3, 2, 3) | 5 => (4, 3, 7) | 6 => (5, 2, 15)
  | 7 => (8, 7, 127) | 8 => (5, 10, 15) | _ => (8, 23, 127)

/-- Decode one element code (02 R38, R39). A64 codes decode at exponent 0. -/
def decodeElem (f : BitVec 4) (code : Nat) : Val :=
  match f.toNat with
  | 0 => .fin (sext 4 code) 0
  | 1 => .fin (sext 8 code) 0
  | 10 => if code = 2 ^ 63 then .nan else .fin (sext 64 code) 0
  | k =>
    let (eb, mb, bias) := fpShape f
    let m := code % 2 ^ mb
    let e := (code / 2 ^ mb) % 2 ^ eb
    let neg := bit code (eb + mb)
    let sgn : Int := if neg then -1 else 1
    let top := e = 2 ^ eb - 1
    if k = 5 ∧ top ∧ m = 7 then .nan
    else if 6 ≤ k ∧ top then (if m = 0 then .inf neg else .nan)
    else if e = 0 then .fin (sgn * m) (1 - bias - mb)
    else .fin (sgn * ((2 ^ mb + m : Nat) : Int)) ((e : Int) - bias - mb)

/-- Scale a decoded element of an MX block (02 R40): a NaN scale makes it NaN; MXINT8 carries 2^-6. -/
def applyScale (f : BitVec 4) (x : Nat) (v : Val) : Val :=
  if x = 0xFF then .nan else
  match v with
  | .fin n t => .fin n (t + (x : Int) - 127 + (if f.toNat = 1 then -6 else 0))
  | w => w

/-! ### Rounding (02 R48, R58) -/

/-- Floor of num/den · 2^16 less the integer part: the 16-bit g of R48. -/
def fracG (num : Int) (den : Nat) : Nat :=
  ((num.fmod den) * 65536).toNat / den

/-- Round num/den (den > 0) to an integer in a mode; `w` is the SR threshold (02 R48, R58, R61). The flag says f ≠ 0. -/
def roundInt (rm : RoundMode) (w : Nat) (num : Int) (den : Nat) : Int × Bool :=
  let a := num.fdiv den
  let r := num.fmod den
  let inexact := r ≠ 0
  match rm.toNat with
  | 0 => (if w < fracG num den then a + 1 else a, inexact)
  | 1 =>
    let twice := 2 * r
    (if twice < den then a else if twice > den then a + 1 else if a % 2 = 0 then a else a + 1, inexact)
  | _ => (if num < 0 ∧ inexact then a + 1 else a, inexact)

/-- Round n · 2^k to an integer. -/
def roundDy (rm : RoundMode) (w : Nat) (n k : Int) : Int × Bool :=
  if 0 ≤ k then (n * (2 : Int) ^ k.toNat, false) else roundInt rm w n (2 ^ (-k).toNat)

/-- floor(log2) of a positive quotient of naturals. -/
def log2Q (num den : Nat) : Int :=
  let e : Int := (Nat.log2 num : Int) - (Nat.log2 den : Int)
  -- num/den lies in [2^(e-1), 2^(e+1))
  let below : Bool :=
    if 0 ≤ e then decide (num < den * 2 ^ e.toNat) else decide (num * 2 ^ (-e).toNat < den)
  if below then e - 1 else e

/-- Numeric flags (02 R53) as the bits of the byte. -/
abbrev NFlags := Nat
/-- SAT. -/
def fSAT : NFlags := 1
/-- INEXACT. -/
def fINEXACT : NFlags := 2
/-- NAN. -/
def fNAN : NFlags := 4
/-- INF. -/
def fINF : NFlags := 8
/-- CLAMP. -/
def fCLAMP : NFlags := 16

/-- The flag word of a condition. -/
def flagIf (b : Bool) (f : NFlags) : NFlags := if b then f else 0

/-- Largest finite magnitude of a floating format as m · 2^t. -/
def fpMax (f : BitVec 4) : Nat × Int :=
  let (eb, mb, bias) := fpShape f
  match f.toNat with
  | 5 => (2 ^ mb + 6, 15 - bias - mb)
  | k =>
    let etop : Int := if 6 ≤ k then 2 ^ eb - 2 else 2 ^ eb - 1
    (2 ^ (mb + 1) - 1, etop - bias - mb)

/-- The code of a finite grid value q · 2^t of a floating format, sign kept where q is 0 (log 15). -/
def fpEncode (f : BitVec 4) (neg : Bool) (q : Nat) (t : Int) : Nat :=
  let (eb, mb, bias) := fpShape f
  let sgn := if neg then 2 ^ (eb + mb) else 0
  if q = 0 then sgn
  else
    -- normalise: q < 2^mb is a subnormal at t = 1 - bias - mb
    if q < 2 ^ mb then sgn + q
    else
      let (q', t') := if q ≥ 2 ^ (mb + 1) then (q / 2, t + 1) else (q, t)
      sgn + (t' + bias + mb).toNat * 2 ^ mb + (q' - 2 ^ mb)

/-- The code of an infinity of a format that has one. -/
def infCode (f : BitVec 4) (neg : Bool) : Nat :=
  let (eb, mb, _) := fpShape f
  (if neg then 2 ^ (eb + mb) else 0) + (2 ^ eb - 1) * 2 ^ mb

/-- The code of the largest finite value of a sign (02 R59). -/
def maxCode (f : BitVec 4) (neg : Bool) : Nat :=
  match f.toNat with
  | 0 => if neg then 8 else 7
  | 1 => if neg then 128 else 127
  | _ => let (m, t) := fpMax f; fpEncode f neg m t

/-- The code a NaN source takes and its flags (02 R59). -/
def nanCode (f : BitVec 4) : Nat × NFlags :=
  match f.toNat with
  | 5 => (0x7F, fNAN) | 6 => (0x7E, fNAN) | 7 => (0x7FC0, fNAN) | 8 => (0x7E00, fNAN) | 9 => (0x7FC00000, fNAN)
  | 10 => (2 ^ 63, fNAN)
  | _ => (0, fNAN)

/-- The code an infinite source takes and its flags (02 R59). -/
def infResult (f : BitVec 4) (neg : Bool) : Nat × NFlags :=
  if f.toNat = 6 ∨ f.toNat = 7 ∨ f.toNat = 8 ∨ f.toNat = 9 then (infCode f neg, fINF)
  else (maxCode f neg, fINF ||| fSAT)

/-- Whether an out-of-range result becomes Inf in RN-even (02 R59). -/
def hasInf (f : BitVec 4) : Bool := decide (6 ≤ f.toNat ∧ f.toNat ≤ 9)

/-- Round a finite quotient num/den to a narrow or F32 format (02 R59): code, flags, and whether a rounding had f ≠ 0. -/
def roundTo (f : BitVec 4) (rm : RoundMode) (w : Nat) (num : Int) (den : Nat) : Nat × NFlags × Bool :=
  if f.toNat ≤ 1 then
    let (x, ine) := roundInt rm w num den
    let lim : Int := if f.toNat = 0 then 8 else 128
    if x > lim - 1 then (maxCode f false, fSAT ||| flagIf ine fINEXACT, ine)
    else if x < -lim then (maxCode f true, fSAT ||| flagIf ine fINEXACT, ine)
    else (twos (fmtBits f) x, flagIf ine fINEXACT, ine)
  else
    let (_, mb, bias) := fpShape f
    let neg := num < 0
    let emin : Int := 1 - bias
    let e : Int := if num = 0 then emin else max emin (log2Q num.natAbs den)
    let t : Int := e - mb
    -- q = (num/den) / 2^t
    let (qn, qd) := if 0 ≤ t then (num, den * 2 ^ t.toNat) else (num * (2 : Int) ^ (-t).toNat, den)
    let (q, ine) := roundInt rm w qn qd
    let (mm, mt) := fpMax f
    -- compare |q|·2^t with mm·2^mt
    let beyond : Bool :=
      if mt ≤ t then decide (q.natAbs * 2 ^ (t - mt).toNat > mm) else decide (q.natAbs > mm * 2 ^ (mt - t).toNat)
    if beyond then
      if hasInf f ∧ rm.toNat = 1 then (infCode f neg, fINF ||| flagIf ine fINEXACT, ine)
      else (maxCode f neg, fSAT ||| flagIf ine fINEXACT, ine)
    else (fpEncode f neg q.natAbs t, flagIf ine fINEXACT, ine)

/-- Round a dyadic n · 2^t to a format (02 R59). -/
def roundDyTo (f : BitVec 4) (rm : RoundMode) (w : Nat) (n t : Int) : Nat × NFlags × Bool :=
  if 0 ≤ t then roundTo f rm w (n * (2 : Int) ^ t.toNat) 1 else roundTo f rm w n (2 ^ (-t).toNat)

/-- Convert a value to a non-MX, non-A64 format (02 R59). -/
def convertVal (f : BitVec 4) (rm : RoundMode) (w : Nat) : Val → Nat × NFlags × Bool
  | .nan => let (c, fl) := nanCode f; (c, fl, false)
  | .inf neg => let (c, fl) := infResult f neg; (c, fl, false)
  | .fin n t => roundDyTo f rm w n t

/-! ### A64 (02 R42-R47) -/

/-- The largest finite A64 integer. -/
def a64Max : Int := 2 ^ 63 - 1

/-- An A64 element. -/
inductive A64 where
  | int (x : Int)
  | nan
deriving DecidableEq, Repr

/-- Read an A64 code. -/
def a64Of (code : Nat) : A64 := if code % 2 ^ 64 = 2 ^ 63 then .nan else .int (sext 64 code)

/-- The code of an A64 element. -/
def a64Code : A64 → Nat
  | .nan => 2 ^ 63
  | .int x => twos 64 x

/-- Saturate to ±(2^63 − 1) (02 R45). -/
def a64Sat (x : Int) : Int := max (-a64Max) (min a64Max x)

/-- A saturated element (02 R42). -/
def a64IsSat : A64 → Bool
  | .nan => false
  | .int x => x = a64Max ∨ x = -a64Max

/-- What a block brings to an element (02 R46): NaN, an infinity of a sign, or a finite contribution. -/
inductive Contrib where
  | nan
  | inf (neg : Bool)
  | fin (c : Int)
deriving DecidableEq, Repr

/-- Add a contribution to an element by the table of R46 and R45: the element and the flags raised. -/
def a64Add (x : A64) (c : Contrib) : A64 × NFlags :=
  match x, c with
  | .nan, _ => (.nan, fNAN)
  | _, .nan => (.nan, fNAN)
  | .int v, .inf neg =>
    if a64IsSat x ∧ (decide (v < 0) ≠ neg) then (.nan, fNAN ||| fINF)
    else (.int (if neg then -a64Max else a64Max), fSAT ||| fINF)
  | .int v, .fin k =>
    if a64IsSat x then (x, fSAT)
    else
      let y := a64Sat (v + k)
      (.int y, flagIf (a64IsSat (.int y)) fSAT)

/-- Add two A64 elements of one window (02 R47): R45 with d = 0, saturation and NaN sticky. -/
def a64Sum (x y : A64) : A64 × NFlags :=
  match x, y with
  | .nan, _ => (.nan, fNAN)
  | _, .nan => (.nan, fNAN)
  | .int a, .int b =>
    if a64IsSat x ∧ a64IsSat y ∧ (decide (a < 0) ≠ decide (b < 0)) then (.nan, fNAN)
    else if a64IsSat x then (x, fSAT)
    else if a64IsSat y then (y, fSAT)
    else
      let z := a64Sat (a + b)
      (.int z, flagIf (a64IsSat (.int z)) fSAT)

/-- Convert a value to A64 with exponent e (02 R61). -/
def toA64 (rm : RoundMode) (w : Nat) (e : Int) : Val → A64 × NFlags × Bool
  | .nan => (.nan, fNAN, false)
  | .inf neg => (.int (if neg then -a64Max else a64Max), fSAT ||| fINF, false)
  | .fin n t =>
    let (x, ine) := roundDy rm w n (t - e)
    let y := a64Sat x
    (.int y, flagIf (a64IsSat (.int y)) fSAT ||| flagIf ine fINEXACT, ine)

/-- Re-window an A64 element from exponent e1 to e2 (02 R61): special elements stay. -/
def rewindow (rm : RoundMode) (w : Nat) (e1 e2 : Int) (x : A64) : A64 × NFlags × Bool :=
  match x with
  | .nan => (.nan, fNAN, false)
  | .int v =>
    if a64IsSat x then (x, fSAT, false)
    else
      let (y, ine) := roundDy rm w v (e1 - e2)
      let z := a64Sat y
      (.int z, flagIf (a64IsSat (.int z)) fSAT ||| flagIf ine fINEXACT, ine)

/-- The K-block contribution c = floor(v) + d of an exact partial n · 2^t at exponent e (02 R45). -/
def kblockContrib (w : Nat) (e n t : Int) : Int × Bool := roundDy 0 w n (t - e)

/-- An F32 running sum takes a K-block partial (02 R56): |y| above the largest finite value by the mode's rule. -/
def f32Accum (rm : RoundMode) (w : Nat) (acc : Nat) (blk : Val) : Nat × NFlags × Bool :=
  match decodeElem 9 acc, blk with
  | .nan, _ => (0x7FC00000, fNAN, false)
  | _, .nan => (0x7FC00000, fNAN, false)
  | .inf a, .inf b => if a = b then (infCode 9 a, fINF, false) else (0x7FC00000, fNAN ||| fINF, false)
  | .inf a, .fin _ _ => (infCode 9 a, fINF, false)
  | .fin _ _, .inf b => (infCode 9 b, fINF, false)
  | .fin n t, .fin m u =>
    let (y, k) := dyAdd (n, t) (m, u)
    let (mm, mt) := fpMax 9
    let beyond : Bool := if mt ≤ k then decide (y.natAbs * 2 ^ (k - mt).toNat > mm) else decide (y.natAbs > mm * 2 ^ (mt - k).toNat)
    let r := roundDyTo 9 rm w y k
    if beyond then
      (if rm.toNat = 1 then infCode 9 (y < 0) else maxCode 9 (y < 0),
        (if rm.toNat = 1 then fINF else fSAT) ||| flagIf r.2.2 fINEXACT, r.2.2)
    else r

/-! ### MX conversion (02 R60) -/

/-- E_max of an element format (02 R60). -/
def mxEmax (f : BitVec 4) : Int :=
  match f.toNat with
  | 2 => 2 | 3 => 2 | 4 => 4 | 5 => 8 | 6 => 15 | _ => 0

/-- The larger magnitude of two finite dyadics, as a dyadic with natural numerator. -/
def dyMaxAbs (a b : Nat × Int) : Nat × Int :=
  if a.1 = 0 then b else if b.1 = 0 then a
  else if a.2 ≤ b.2 then (if a.1 < b.1 * 2 ^ (b.2 - a.2).toNat then b else a)
  else (if a.1 * 2 ^ (a.2 - b.2).toNat < b.1 then b else a)

/-- The scale field of a group of valid values (02 R60). -/
def mxScale (f : BitVec 4) (vs : List Val) : Nat :=
  if vs.any (· = .nan) then 0xFF
  else
    let amax := vs.foldl (fun a v => match v with | .fin n t => dyMaxAbs a (n.natAbs, t) | _ => a) (0, 0)
    if amax.1 = 0 then 0
    else
      let x : Int := (Nat.log2 amax.1 : Int) + amax.2 - mxEmax f
      (max (-127) (min 127 x) + 127).toNat

/-- Convert one valid element of a group with scale field x (02 R60). -/
def mxElem (f : BitVec 4) (rm : RoundMode) (w : Nat) (x : Nat) (v : Val) : Nat × NFlags × Bool :=
  -- a scale of 0xFF makes every element of the block NaN (02 R40; log 17); an Inf was met all the same (02 R53)
  if x = 0xFF then ((nanCode f).1, fNAN ||| (match v with | .inf _ => fINF | _ => 0), false)
  else
    match v with
    | .nan => let (c, fl) := nanCode f; (c, fl, false)
    | .inf neg => let (c, fl) := infResult f neg; (c, fl, false)
    | .fin n t => roundDyTo f rm w n (t - ((x : Int) - 127) + (if f.toNat = 1 then 6 else 0))

/-! ### Q24 operands and functions (02 R66-R74) -/

/-- Saturate to the Q24 range −2^39 … 2^39 − 1; the flag says it clamped. -/
def q24Sat (z : Int) : Int × Bool :=
  if z < -(2 ^ 39) then (-(2 ^ 39), true) else if z > 2 ^ 39 - 1 then (2 ^ 39 - 1, true) else (z, false)

/-- The Q24 operand of n · 2^t (02 R66). -/
def q24Of (n t : Int) : Int × Bool := q24Sat (shl n (t + 24))

/-- C1 of the polynomial (02 R67). -/
def exp2C1 : Nat := 762123384786
/-- C2. -/
def exp2C2 : Nat := 264131837702
/-- C3. -/
def exp2C3 : Nat := 61027412866
/-- log2(e) · 2^30 (02 R70). -/
def log2e : Int := 1549082005

/-- T[j] = floor(2^62 · 2^(j/64) + 1/2) (02 R67). -/
def exp2Table : List Nat :=
  [0x4000000000000000, 0x40B268F9DE0183BA, 0x4166C34C5615D0EC, 0x421D1461D66F2023, 0x42D561B3E6243D8A, 0x438FB0CB4F468808, 0x444C0740496D4294, 0x450A6ABAA4B77ECD] ++
  [0x45CAE0F1F545EB73, 0x468D6FADBF2DD4F3, 0x47521CC5A2E6A9E0, 0x4818EE218A3358EE, 0x48E1E9B9D588E19B, 0x49AD159789F37496, 0x4A7A77D47F7B84B1, 0x4B4A169B900C2D00] ++
  [0x4C1BF828C6DC54B8, 0x4CF022C9905BFD32, 0x4DC69CDCEAA72A9C, 0x4E9F6CD3967FDBA8, 0x4F7A993048D088D7, 0x50582887DCB8A7E1, 0x513821818624B40C, 0x521A8AD704F3404F] ++
  [0x52FF6B54D8A89C75, 0x53E6C9DA74B29AB5, 0x54D0AD5A753E077C, 0x55BD1CDAD49F699C, 0x56AC1F752150A563, 0x579DBC56B48521BA, 0x5891FAC0E95612C8, 0x5988E20954889245] ++
  [0x5A827999FCEF3242, 0x5B7EC8F19468BBC9, 0x5C7DD7A3B17DCF75, 0x5D7FAD59099F22FE, 0x5E8451CFAC061B5F, 0x5F8BCCDB3D398841, 0x6096266533384A2B, 0x61A3666D124BB204] ++
  [0x62B39508AA836D6F, 0x63C6BA6455DCD8AE, 0x64DCDEC3371793D1, 0x65F60A7F79393E2E, 0x6712460A8FC24072, 0x683199ED779592CA, 0x69540EC8F895722D, 0x6A79AD55E7F6FD10] ++
  [0x6BA27E656B4EB57A, 0x6CCE8AE13C57EBDB, 0x6DFDDBCBED791BAB, 0x6F307A412F074892, 0x70666F76154A7089, 0x719FC4B95F452D29, 0x72DC8373BE41A454, 0x741CB5281E25EE34] ++
  [0x75606373EE921C97, 0x76A7980F6CCA15C2, 0x77F25CCDEE6D7AE6, 0x7940BB9E2CFFD89D, 0x7A92BE8A92436616, 0x7BE86FB985689DDC, 0x7D41D96DB915019D, 0x7E9F06067A4360BA]

/-- exp2_unit (02 R67). -/
def exp2Unit (z0 : Int) : Nat :=
  let z : Int := if z0 > 0 then 0 else z0
  let i : Int := z.fdiv (2 ^ 24)
  let f : Nat := (z.fmod (2 ^ 24)).toNat
  let j := f >>> 18
  let r := f % 2 ^ 18
  let h2 := exp2C2 + ((r * exp2C3) >>> 24)
  let h1 := exp2C1 + ((r * h2) >>> 24)
  let p := 2 ^ 40 + ((r * h1) >>> 24)
  let m := (exp2Table.getD j 0 * p) >>> 40
  let sh : Int := 30 - i
  if sh ≥ 64 then 0 else m >>> sh.toNat

/-- The natural operand as a base-2 one (02 R70): Z = floor(X · LOG2E / 2^30), saturated. -/
def natToBase2 (x : Int) : Int × Bool := q24Sat ((x * log2e).fdiv (2 ^ 30))

/-- The base-2 sigmoid (02 R71). -/
def sigmoid2 (w : Int) : Nat :=
  if 0 ≤ w then 2 ^ 64 / (2 ^ 32 + exp2Unit (-w))
  else
    let v := if w = -(2 ^ 39) then 2 ^ 39 - 1 else -w
    2 ^ 32 - 2 ^ 64 / (2 ^ 32 + exp2Unit (-v))

/-- table_eval (02 R74): the value at exponent e_out and the flags. -/
def tableEval (tb : FnTable) (x : Int) : Int × NFlags :=
  let k := tb.k.val
  let d := x - tb.base.toInt
  let (idx, t, fl) : Nat × Nat × NFlags :=
    if d < 0 then (0, 0, fCLAMP)
    else if d.toNat >>> k > 255 then (255, 2 ^ k - 1, fCLAMP)
    else (d.toNat >>> k, d.toNat - ((d.toNat >>> k) <<< k), 0)
  let g := tb.segs.getD idx { c0 := 0, c1 := 0, c2 := 0, c3 := 0 }
  let den : Int := 2 ^ k
  let a := g.c2.toInt + (g.c3.toInt * t).fdiv den
  let a := g.c1.toInt + (a * t).fdiv den
  let a := g.c0.toInt + (a * t).fdiv den
  let y := a64Sat a
  (y, fl ||| flagIf (y ≠ a) fSAT)

/-! ### Residues (03 R108) -/

/-- P = 2^61 − 1. -/
def resP : Nat := 2 ^ 61 - 1

/-- ρ(n · 2^t) (03 R108). -/
def residue (n t : Int) : Nat :=
  ((n.fmod resP).toNat * 2 ^ (t.fmod 61).toNat) % resP

/-! ### Window exponents (02 R44) -/

/-- Magnitude exponent M of an MX element format (02 R44). -/
def magExp (f : BitVec 4) : Int :=
  match f.toNat with
  | 2 => 3 | 3 => 3 | 4 => 5 | 5 => 9 | 6 => 16 | _ => 1

/-- ceil(log2 K). -/
def ceilLog2 (k : Nat) : Nat := if k ≤ 1 then 0 else Nat.log2 (k - 1) + 1

/-- e of automatic mode (02 R44). -/
def autoExp (xa xb : Int) (fa fb : BitVec 4) (k : Nat) : Int :=
  max (-1024) (min 1023 (xa + xb + magExp fa + magExp fb + ceilLog2 k + 1 - 63))

/-! ### Mean and variance (02 R64) -/

/-- V = N · S2 · 2^D − S1². -/
def varNum (n : Nat) (s1 s2 : Int) (d : Nat) : Int := (n : Int) * s2 * (2 : Int) ^ d - s1 * s1

/-- A quotient num · 2^t / den as integer numerator and denominator. -/
def scaleQ (num : Int) (t : Int) (den : Nat) : Int × Nat :=
  if 0 ≤ t then (num * (2 : Int) ^ t.toNat, den) else (num, den * 2 ^ (-t).toNat)

/-- A saturated element: A64 at ±(2^63 − 1) (02 R42), F32 at the largest finite value of either sign, which is where it
saturates (02 R56; log 71). -/
def codeIsSat (f32 : Bool) (c : Nat) : Bool :=
  if f32 then c == maxCode 9 false || c == maxCode 9 true else a64IsSat (a64Of c)

end Sys2Proof.Machine
end

