-- ==== Sys2Proof/Machine/Ops.lean ====
section
/-! DEFINITION. The named operations over State: reading and writing the units, the free values, what leaves the
device, counting events (17), and sending a fault message (13): the one operation every detecting unit uses. -/

namespace Sys2Proof.Machine

/-- A step's outcome. -/
abbrev Res := Host.Outcome State Fault Refusal

/-! ### Units -/

/-- Sheet i. -/
def State.sheet (s : State) (i : Nat) : Sheet := tget {} s.sheets i
/-- Replace sheet i. -/
def State.setSheet (s : State) (i : Nat) (v : Sheet) : State := { s with sheets := tset {} s.sheets i v }
/-- Change sheet i. -/
def State.modSheet (s : State) (i : Nat) (f : Sheet → Sheet) : State := s.setSheet i (f (s.sheet i))
/-- Engine of a logical parcel of a sheet. -/
def Sheet.engine (h : Sheet) (l : Nat) : Engine := tget {} h.engines l
/-- Change an engine of a sheet. -/
def Sheet.modEngine (h : Sheet) (l : Nat) (f : Engine → Engine) : Sheet := { h with engines := tmod {} h.engines l f }
/-- An engine. -/
def State.eng (s : State) (e : EngId) : Engine := (s.sheet e.sheet.val).engine e.parcel.val
/-- Change an engine. -/
def State.modEng (s : State) (e : EngId) (f : Engine → Engine) : State :=
  s.modSheet e.sheet.val fun h => h.modEngine e.parcel.val f
/-- Physical parcel that a logical index is bound to (01 R24). -/
def Sheet.phys (h : Sheet) (l : Nat) : Option Nat := h.pmap[l]?
/-- Memories of a physical parcel. -/
def Sheet.parcel (h : Sheet) (p : Nat) : ParcelMem := tget {} h.parcels p
/-- Change the memories of a physical parcel. -/
def Sheet.modParcel (h : Sheet) (p : Nat) (f : ParcelMem → ParcelMem) : Sheet :=
  { h with parcels := tmod {} h.parcels p f }
/-- The memories behind an engine: those of the parcel its index is bound to; empty where it is unbound. -/
def State.pmem (s : State) (e : EngId) : ParcelMem :=
  match (s.sheet e.sheet.val).phys e.parcel.val with
  | some p => (s.sheet e.sheet.val).parcel p
  | none => {}
/-- Change the memories behind an engine. -/
def State.modPmem (s : State) (e : EngId) (f : ParcelMem → ParcelMem) : State :=
  s.modSheet e.sheet.val fun h =>
    match h.phys e.parcel.val with
    | some p => h.modParcel p f
    | none => h
/-- A scribe core. -/
def State.core (s : State) (c : CoreId) : Scribe := tget {} (s.eng c.eng).cores c.core.val
/-- Change a scribe core. -/
def State.modCore (s : State) (c : CoreId) (f : Scribe → Scribe) : State :=
  s.modEng c.eng fun e => { e with cores := tmod {} e.cores c.core.val f }
/-- Sample slot n of a sheet. -/
def Sheet.slot (h : Sheet) (n : Nat) : Slot := tget {} h.slots n
/-- Change a slot. -/
def Sheet.modSlot (h : Sheet) (n : Nat) (f : Slot → Slot) : Sheet := { h with slots := tmod {} h.slots n f }
/-- Chain n of a sheet. -/
def Sheet.chain (h : Sheet) (n : Nat) : Chain := tget {} h.chains n
/-- Change a chain. -/
def Sheet.modChain (h : Sheet) (n : Nat) (f : Chain → Chain) : Sheet := { h with chains := tmod {} h.chains n f }
/-- Change the memory path of a sheet. -/
def State.modMem (s : State) (i : Nat) (f : MemPath → MemPath) : State := s.modSheet i fun h => { h with mem := f h.mem }
/-- Queue q. -/
def State.queue (s : State) (q : Nat) : Queue := tget {} s.queues q
/-- Change queue q. -/
def State.modQueue (s : State) (q : Nat) (f : Queue → Queue) : State := { s with queues := tmod {} s.queues q f }
/-- Partition p. -/
def State.part (s : State) (p : Nat) : Part := tget {} s.parts p
/-- Change partition p. -/
def State.modPart (s : State) (p : Nat) (f : Part → Part) : State := { s with parts := tmod {} s.parts p f }
/-- Context c. -/
def State.ctx (s : State) (c : Nat) : Ctx := tget {} s.ctxs c
/-- Change context c. -/
def State.modCtx (s : State) (c : Nat) (f : Ctx → Ctx) : State := { s with ctxs := tmod {} s.ctxs c f }
/-- Port p. -/
def State.port (s : State) (p : Nat) : Port := tget {} s.ports p
/-- Change port p. -/
def State.modPort (s : State) (p : Nat) (f : Port → Port) : State := { s with ports := tmod {} s.ports p f }
/-- Epoch state of a context. -/
def State.epoch (s : State) (c : Nat) : Epoch := tget {} s.chart.epochs c
/-- Change the epoch state of a context. -/
def State.modEpoch (s : State) (c : Nat) (f : Epoch → Epoch) : State :=
  { s with chart := { s.chart with epochs := tmod {} s.chart.epochs c f } }
/-- A window. -/
def State.window (s : State) (i : Nat) : Window := tget {} s.col.windows i
/-- Change a window. -/
def State.modWindow (s : State) (i : Nat) (f : Window → Window) : State :=
  { s with col := { s.col with windows := tmod {} s.col.windows i f } }
/-- Tile descriptor i of an engine. -/
def Engine.td (e : Engine) (i : Nat) : TileDesc := tget {} e.tds i
/-- Change a tile descriptor. -/
def Engine.modTd (e : Engine) (i : Nat) (f : TileDesc → TileDesc) : Engine := { e with tds := tmod {} e.tds i f }
/-- A history record (13 R383): index 18·s + p. -/
def State.hist (s : State) (i : Nat) : Hist := tget {} s.col.hist i

/-- The datum count as software sees it (11 R328). -/
def State.now (s : State) : Nat := s.chart.datum / 256
/-- Put something out of the device. -/
def State.emit (s : State) (o : Out) : State := { s with out := s.out ++ [o] }
/-- An MSI-X message leaves, or pends while its vector is masked (09 R255). -/
def State.msixOut (s : State) (func : BitVec 4) (vec : BitVec 12) : State :=
  if s.msixMask.contains (func, vec) then
    { s with msixPend := if s.msixPend.contains (func, vec) then s.msixPend else s.msixPend ++ [(func, vec)] }
  else s.emit (.msix func vec)
/-- Indices 0 to 15 of the sheets. -/
def sheetIdx : List Nat := List.range 16
/-- The sheets of a partition. -/
def Part.sheetList (p : Part) : List Nat := sheetIdx.filter fun i => p.sheets.getLsbD i
/-- The ports of a partition. -/
def Part.portList (p : Part) : List Nat := (List.range 64).filter fun i => p.ports.getLsbD i
/-- The partition that holds a sheet (09 R282: masks of partitions in use share no bit). -/
def State.partOf (s : State) (sheet : Nat) : Option Nat :=
  (List.range 16).find? fun p => decide ((s.part p).st ≠ .unused) && (s.part p).sheets.getLsbD sheet
/-- The partition that holds a port. -/
def State.partOfPort (s : State) (port : Nat) : Option Nat :=
  (List.range 16).find? fun p => decide ((s.part p).st ≠ .unused) && (s.part p).ports.getLsbD port
/-- The context whose step is in progress on a sheet. -/
def State.curCtx (s : State) (sheet : Nat) : Option CtxId :=
  match s.partOf sheet with
  | some p => (s.part p).cur
  | none => none
/-- Apply a change for each of a list. -/
def State.forEach {α : Type} (s : State) (l : List α) (f : State → α → State) : State := l.foldl f s

/-! ### Counting events (17) -/

/-- An event and its tags (17 R452, R453). -/
structure CntEvent where
  cls : Nat
  code : Nat
  inc : Nat := 1
  priv : Bool := false
  queue : Option Nat := none
  ctx : Option Nat := none
  lparcel : Option Nat := none
  addr : Option Nat := none

/-- Which bank counts (17 R450). -/
inductive BankId where
  | parcel (sheet p : Nat)
  | sheet (s : Nat)
  | port (p : Nat)
  | device
deriving DecidableEq, Repr

/-- Read a bank. -/
def State.bankOf (s : State) : BankId → Bank
  | .parcel h p => tget {} (s.sheet h).parcelBanks p
  | .sheet h => (s.sheet h).bank
  | .port p => tget {} s.cnt.portBanks p
  | .device => s.cnt.bank

/-- Write a bank. -/
def State.setBank (s : State) (b : BankId) (v : Bank) : State :=
  match b with
  | .parcel h p => s.modSheet h fun x => { x with parcelBanks := tset {} x.parcelBanks p v }
  | .sheet h => s.modSheet h fun x => { x with bank := v }
  | .port p => { s with cnt := { s.cnt with portBanks := tset {} s.cnt.portBanks p v } }
  | .device => { s with cnt := { s.cnt with bank := v } }

/-- Counters of a bank. -/
def bankSize : BankId → Nat
  | .parcel _ _ => 16
  | .sheet _ => 32
  | .port _ => 8
  | .device => 64

/-- Whether a counter's SEL and FILT pass an event (17 R452). -/
def Counter.passes (c : Counter) (e : CntEvent) : Bool :=
  let v := c.sel.toNat
  let privOk :=
    match bits v 47 46 with
    | 0 => true
    | 1 => e.priv
    | _ => !e.priv
  let m := bits v 43 28
  let masterOk :=
    match bits v 45 44 with
    | 0 => true
    | 1 => e.queue == some m
    | 2 => e.ctx == some m
    | _ => e.lparcel == some m
  let f := c.filt.toNat
  let addrOk :=
    if bit f 0 then
      match e.addr with
      | some a => decide (bits f 63 35 ≤ bits a 40 12 ∧ bits a 40 12 ≤ bits f 34 6)
      | none => false
    else true
  bit v 63 && !bit v 62 && (bits v 59 56 == e.cls) && (bits v 55 48 == e.code) && privOk && masterOk && addrOk

/-- Counter i of a bank wraps (17 R454): a chained odd neighbour counts the carry, else OVF, MSI-X and SAMPLE (R456). -/
def State.counterWrap (s : State) (b : BankId) (i : Nat) (pc : Nat) (scribe : Option Nat) : State :=
  let k := s.bankOf b
  let c := tget {} k.ctrs i
  let k := { k with ovf := k.ovf ||| BitVec.ofNat 64 (2 ^ i) }
  let parcelBank := match b with | .parcel _ _ => true | _ => false
  let k :=
    if c.sel.getLsbD 60 && parcelBank then
      if k.sample.getLsbD 63 then { k with sample := k.sample ||| BitVec.ofNat 64 (2 ^ 62) }
      else
        let sc := match scribe with | some n => 2 ^ 55 + n * 2 ^ 53 | none => 0
        { k with sample := BitVec.ofNat 64 (2 ^ 63 + (if k.sample.getLsbD 62 then 2 ^ 62 else 0) + i * 2 ^ 56 + sc + pc % 2 ^ 48) }
    else k
  let s := s.setBank b k
  if c.sel.getLsbD 61 then s.msixOut 0 s.cnt.vec else s

/-- Add `n` to counter i of a bank, with its carry (17 R451, R454). The carry of a chained pair whose odd counter is off is lost (log
92). -/
def State.counterAdd (s : State) (b : BankId) (i n : Nat) (pc : Nat) (scribe : Option Nat) : State :=
  let k := s.bankOf b
  let c := tget {} k.ctrs i
  let sum := c.val.toNat + n
  let s := s.setBank b { k with ctrs := tset {} k.ctrs i { c with val := BitVec.ofNat 48 sum } }
  if sum < 2 ^ 48 then s
  else
    let up := tget ({} : Counter) k.ctrs (i + 1)
    if i % 2 = 0 ∧ up.sel.getLsbD 62 then
      if !up.sel.getLsbD 63 then s else
      let k := s.bankOf b
      let s := s.setBank b { k with ctrs := tset {} k.ctrs (i + 1) { up with val := up.val + 1 } }
      if up.val.toNat + 1 < 2 ^ 48 then s else s.counterWrap b (i + 1) pc scribe
    else s.counterWrap b i pc scribe

/-- One bank counts an event (17 R451, R460): nothing while frozen. -/
def State.bankEvent (s : State) (b : BankId) (e : CntEvent) (pc : Nat) (scribe : Option Nat) : State :=
  if s.cnt.frozen then s
  else
    s.forEach ((s.bankOf b).ctrs.map Prod.fst) fun s i =>
      if (tget {} (s.bankOf b).ctrs i).passes e then s.counterAdd b i e.inc pc scribe else s

/-- An event of a physical parcel: its bank counts it unless the parcel is fenced, the sheet's bank where the parcel is in service
(17 R450, R451). -/
def State.physEvent (s : State) (sheet p : Nat) (ev : CntEvent) (pc : Nat) (scribe : Option Nat) : State :=
  let s := if (s.sheet sheet).fenced.getLsbD p then s else s.bankEvent (.parcel sheet p) ev pc scribe
  if (s.sheet sheet).pmap.contains p then s.bankEvent (.sheet sheet) ev pc scribe else s
/-- The context tag of an event: transactions of the memory path and the networks carry the context that issues them, the one that
runs on the sheet where the event names none (17 R452, 09 R285). -/
def State.tagged (s : State) (sheet : Nat) (ev : CntEvent) : CntEvent :=
  if (ev.cls == 3 || ev.cls == 4) && ev.ctx.isNone then { ev with ctx := (s.curCtx sheet).map (·.val) } else ev
/-- A parcel event of an engine: counted in the parcel's bank and the sheet's (17 R450). -/
def State.parcelEvent (s : State) (e : EngId) (ev : CntEvent) (scribe : Option Nat := none) : State :=
  let h := s.sheet e.sheet.val
  let pc := match scribe with
    | some c => (tget ({} : Scribe) (h.engine e.parcel.val).cores c).pc.toNat
    | none => (h.engine e.parcel.val).pc.toNat
  let ev := { s.tagged e.sheet.val ev with lparcel := some e.parcel.val }
  match h.phys e.parcel.val with
  | some p => (s.bankEvent (.parcel e.sheet.val p) ev pc scribe).bankEvent (.sheet e.sheet.val) ev pc scribe
  | none => s
/-- A sheet event. -/
def State.sheetEvent (s : State) (i : Nat) (ev : CntEvent) : State := s.bankEvent (.sheet i) (s.tagged i ev) 0 none
/-- A link event: the port's bank and the device's (17 R450). -/
def State.linkEvent (s : State) (p : Nat) (ev : CntEvent) : State :=
  (s.bankEvent (.port p) ev 0 none).bankEvent .device ev 0 none
/-- A device event. -/
def State.deviceEvent (s : State) (ev : CntEvent) : State := s.bankEvent .device ev 0 none

/-- Set a bit of CNT_SATF (17 R462). -/
def State.satGroup (s : State) (b : Nat) : State :=
  { s with cnt := { s.cnt with satf := s.cnt.satf ||| BitVec.ofNat 10 (2 ^ b) } }
/-- Record that a stopping count reached its maximum by this increment (17 R462). -/
def State.noteSat {n : Nat} (s : State) (old : BitVec n) (grp : Nat) : State :=
  if old.toNat + 1 < 2 ^ n then s else s.satGroup grp

/-- Send an MSI-X message of a function. -/
def State.msix (s : State) (func : BitVec 4) (vec : BitVec 12) : State :=
  if s.msixMask.contains (func, vec) then s.msixOut func vec
  else (s.msixOut func vec).deviceEvent { cls := 8, code := 6 }

/-! ### Small-value reduction of the sync network (01 R31) -/

/-- Its operations over 32-bit integers. -/
inductive SmallOp where
  /-- Sum, wrapping modulo 2^32. -/
  | sum
  /-- Minimum. -/
  | min
  /-- Maximum. -/
  | max
  /-- Bitwise AND. -/
  | and
  /-- Bitwise OR. -/
  | or
deriving DecidableEq, Repr
/-- One step of a reduction. -/
def SmallOp.apply (o : SmallOp) (a b : BitVec 32) : BitVec 32 :=
  match o with
  | .sum => a + b
  | .min => if a.toNat ≤ b.toNat then a else b
  | .max => if a.toNat ≤ b.toNat then b else a
  | .and => a &&& b
  | .or => a ||| b
/-- The reduction of what the members of a barrier bring, `a` the node's own. -/
def smallReduce (o : SmallOp) (a : BitVec 32) (l : List (BitVec 32)) : BitVec 32 := l.foldl o.apply a

/-! ### Fault messages (13) -/

/-- SOURCE (13 R367): level, sheet, parcel field and unit. -/
def sourceId (level sheet parcel unit : Nat) : BitVec 16 :=
  BitVec.ofNat 16 (level * 2 ^ 13 + sheet * 2 ^ 9 + parcel * 2 ^ 4 + unit)
/-- SOURCE of a sheet-level unit. -/
def sheetSource (sheet unit : Nat) : BitVec 16 := sourceId 4 sheet 0x1F unit
/-- SOURCE of a device-level unit. -/
def devSource (unit : Nat) : BitVec 16 := sourceId 5 0 0x1F unit
/-- SOURCE of a link port. -/
def portSource (p : Nat) : BitVec 16 := BitVec.ofNat 16 (6 * 2 ^ 13 + p * 2 ^ 4)
/-- SOURCE of a service-die unit. -/
def svcSource (unit : Nat) : BitVec 16 := sourceId 7 0 0x1F unit
/-- Level of a SOURCE. -/
def srcLevel (v : BitVec 16) : Nat := bits v.toNat 15 13
/-- Sheet of a SOURCE of levels 1 to 4. -/
def srcSheet (v : BitVec 16) : Nat := bits v.toNat 12 9
/-- Whether events of a source are privileged (17 R452): the plan sequencer, the dump engine, and scribe cores, which reach the fault
port in machine mode alone. -/
def privSource (src : BitVec 16) : Bool :=
  let u := src.toNat % 16
  (srcLevel src == 4 && u == 0) || (srcLevel src == 7 && u == 4) || (srcLevel src == 3 && decide (4 ≤ u ∧ u ≤ 7))
/-- Physical parcel of a SOURCE of levels 1 to 3. -/
def srcParcel (v : BitVec 16) : Nat := bits v.toNat 8 4

/-- Severity of a kind (13 R375, 14 R395, 15 R414, 16 R448, 18 R485); none for a kind that no table lists. -/
def kindSeverity (kind : Nat) (contain scribe : Bool) : Option (BitVec 4) :=
  if kind = 0x101 ∧ scribe then some 3
  else if kind = 0x101 ∨ kind = 0x102 ∨ kind = 0x106 ∨ kind = 0x103 ∨ kind = 0x104 ∨ kind = 0x105 then some 1
  else if kind = 0x110 then some (if contain then 6 else 4)
  else if kind = 0x201 ∨ kind = 0x202 ∨ kind = 0x203 then some 2
  else if 0x210 ≤ kind ∧ kind ≤ 0x215 ∨ kind = 0x220 ∨ kind = 0x221 then some 3
  else if kind = 0x230 ∨ kind = 0x231 then some 2
  else if kind = 0x232 ∨ kind = 0x233 then some 3
  else if kind = 0x241 ∨ kind = 0x242 then some 2
  else if 0x2E0 ≤ kind ∧ kind ≤ 0x2E3 then some 0
  else if 0x2F0 ≤ kind ∧ kind ≤ 0x2FF then some 3
  else if kind = 0x301 then some 2
  else if 0x302 ≤ kind ∧ kind ≤ 0x305 then some 1
  else if 0x306 ≤ kind ∧ kind ≤ 0x308 then some 0
  else if kind = 0x320 ∨ kind = 0x321 ∨ kind = 0x323 ∨ kind = 0x330 ∨ kind = 0x331 ∨ kind = 0x332 then some 3
  else if kind = 0x322 ∨ kind = 0x324 ∨ kind = 0x340 then some 0
  else if kind = 0x341 ∨ kind = 0x403 ∨ kind = 0xF03 then some 6
  else if kind = 0x402 then some 3
  else if kind = 0x401 ∨ 0x404 ≤ kind ∧ kind ≤ 0x411 then some 0
  else if kind = 0x520 ∨ kind = 0x521 then some 2
  else if kind = 0x522 then some 3
  else if kind = 0x501 ∨ kind = 0x502 ∨ kind = 0x503 ∨ kind = 0x530 then some 1
  else if kind = 0x531 then some 7
  else if kind = 0x540 ∨ kind = 0x561 then some 5
  else if kind = 0x504 ∨ kind = 0x510 ∨ kind = 0x511 ∨ kind = 0x550 ∨ kind = 0x551 ∨ kind = 0x552 ∨ kind = 0x560
      ∨ kind = 0x570 ∨ kind = 0x580 then some 0
  else if kind = 0x601 ∨ kind = 0x604 then some 1
  else if kind = 0x603 ∨ kind = 0x611 ∨ kind = 0x620 ∨ kind = 0x622 then some 7
  else if kind = 0x621 then some 5
  else if kind = 0x602 ∨ kind = 0x605 ∨ kind = 0x610 ∨ kind = 0x612 ∨ kind = 0x613 ∨ kind = 0x623 ∨ kind = 0x630
      ∨ kind = 0x631 then some 0
  else if kind = 0x701 then some 2
  else if kind = 0x702 ∨ 0x720 ≤ kind ∧ kind ≤ 0x722 then some 4
  else if kind = 0x703 ∨ kind = 0x740 ∨ kind = 0x741 then some 0
  else if kind = 0x710 then some 3
  else if kind = 0x730 then some 5
  else if kind = 0xF01 ∨ kind = 0xF02 then some 7
  else if kind = 0xF04 ∨ kind = 0xF05 ∨ kind = 0xF06 ∨ 0xF10 ≤ kind ∧ kind ≤ 0xF12 then some 0
  else none

/-- Detection kinds (13 R375, 15 R414). -/
def isDetection (kind : Nat) : Bool :=
  kind == 0x103 || kind == 0x105 || kind == 0x201 || kind == 0x202 || kind == 0x203 || kind == 0x230 || kind == 0x241 ||
  kind == 0x242 || kind == 0x521 || kind == 0x2E0 || kind == 0x2E1 || kind == 0x2E2

/-- Kinds repeated on another parcel (13 R375). -/
def repeatsElsewhere (kind : Nat) : Bool :=
  kind == 0x201 || kind == 0x202 || kind == 0x203 || kind == 0x230 || kind == 0x241 || kind == 0x242 || kind == 0x521

/-- Kinds repeated on the same resources (13 R375). -/
def repeatsSame (kind : Nat) : Bool := kind == 0x231 || kind == 0x301 || kind == 0x520

/-- OP of an engine instruction (13 R369). -/
def opEngine (cls op : Nat) : BitVec 16 := BitVec.ofNat 16 (2 ^ 15 + cls * 2 ^ 11 + op * 2 ^ 5)

/-- What a detecting unit knows of a fault. -/
structure FaultInfo where
  source : BitVec 16
  kind : BitVec 12
  ctx : Option CtxId := none
  scribe : Bool := false
  scribeSev : BitVec 4 := 0
  op : BitVec 16 := 0
  address : Word := 0
  detail : Word := 0

/-- Send one fault message (13 R365, R366, R371): numbered by its source, timed by the datum count; sheet units send to
their sheet collector, the others to the device collector. Kinds of family 0x6nn raise an I3C in-band interrupt (19 R497). -/
def State.sendFault (s : State) (f : FaultInfo) : State :=
  let n := tget 0 s.mseq f.source.toNat
  let part := if srcLevel f.source ≤ 4 then s.partOf (srcSheet f.source) else
    match f.ctx with | some c => some (s.ctx c.val).part.toNat | none => none
  let contain := match part with | some p => (s.part p).contain | none => false
  let again := match part with | some p => (s.part p).again | none => false
  let sev := if f.scribe then f.scribeSev else (kindSeverity f.kind.toNat contain false).getD 0
  let m : FaultMsg :=
    { source := f.source, kind := f.kind, sev := sev
      ctx := match f.ctx with | some c => BitVec.ofNat 12 c.val | none => 0
      gen := match f.ctx with | some c => (s.ctx c.val).gen | none => 0
      scribe := f.scribe, overrun := false, again := again, op := f.op
      temp := Config.sensorTemp s.free, volt := Config.sensorVolt s.free
      mseq := n, datum := BitVec.ofNat 64 s.now, address := f.address
      step := match f.ctx with | some c => (s.ctx c.val).step | none => 0
      detail := f.detail }
  let s := { s with mseq := tset 0 s.mseq f.source.toNat (n + 1), free := s.free + 1 }
  let s := if f.kind.toNat / 0x100 = 6 then s.emit (.ibi f.kind) else s
  if srcLevel f.source ≤ 4 then
    let s := s.modSheet (srcSheet f.source) fun h => { h with wire := h.wire ++ [m] }
    if 2 ≤ sev.toNat then s.sheetEvent (srcSheet f.source)
      { cls := 6, code := 0x10, priv := privSource f.source, ctx := f.ctx.map (·.val) } else s
  else { s with devWire := s.devWire ++ [m] }

/-- A host-family fault of the queue unit (09 R292). -/
def State.hostFault (s : State) (kind : BitVec 12) (op : BitVec 16 := 9) : State :=
  s.sendFault { source := devSource 0, kind := kind, op := op }

/-- A host write to a unit that the safe state does not serve is dropped there (14 R399). -/
def State.hostWrite (s : State) (f : State → State) : State := if s.dstate == .safe then s else f s

/-- A host write to a queue, context or partition register: refused with the unit's kind while the device is in START-UP (18 R474). -/
def State.unitWrite (s : State) (kind : BitVec 12) (f : State → State) : State :=
  s.hostWrite fun s => if s.dstate == .startUp then s.hostFault kind else f s

/-- Record a fault against the step in progress of a partition (01 R36, 13 R381): the outcome reads it. -/
def State.noteStepFault (s : State) (sheet : Nat) (phys : Option Nat) (kind : BitVec 12) (source : BitVec 16)
    (address : Word) : State :=
  match s.partOf sheet with
  | none => s
  | some p => s.modPart p fun x =>
      { x with faults := x.faults ++ [{ kind, address, source, sheet, phys, again := x.again }] }

/-- Whether a kind abandons the step it meets (13 R370, R375): STEP or STOP severity, poison apart. -/
def abandons (kind : Nat) (scribe : Bool) : Bool :=
  match kindSeverity kind false scribe with
  | some v => v == 2 || v == 3
  | none => false

/-- A fault found in an engine's parcel: the message, and the step's record of it. -/
def State.engFault (s : State) (e : EngId) (level unit : Nat) (kind : BitVec 12) (op : BitVec 16) (address : Word)
    (scribe : Bool := false) (sev : BitVec 4 := 0) : State :=
  let h := s.sheet e.sheet.val
  let ph := h.phys e.parcel.val
  let src := sourceId level e.sheet.val (ph.getD 0x1F) unit
  let s := s.sendFault
    { source := src, kind := kind, ctx := s.curCtx e.sheet.val, scribe := scribe, scribeSev := sev, op := op
      address := address }
  if abandons kind.toNat scribe then s.noteStepFault e.sheet.val ph kind src address else s

/-- A fault found by a sheet-level unit. -/
def State.sheetFault (s : State) (sheet unit : Nat) (kind : BitVec 12) (op : BitVec 16) (address : Word) : State :=
  let src := sheetSource sheet unit
  let s := s.sendFault { source := src, kind := kind, ctx := s.curCtx sheet, op := op, address := address }
  if abandons kind.toNat false then s.noteStepFault sheet none kind src address else s

end Sys2Proof.Machine
end

