-- ==== Sys2Proof/Machine/Operands.lean ====
section
/-! DEFINITION. The operand forms of engine words (03): which values a word may hold, parcel-store addresses, tiles in
the parcel store and in accumulator memory, stream keys, error correction of the memories, and poison marks. -/

namespace Sys2Proof.Machine

/-! ### Words that LOAD_PLAN accepts (03 R91-R104) -/

/-- RM holds a defined mode (02 R58). -/
def rmOk (r : RoundMode) : Bool := decide (r.toNat ≤ 2)
/-- A tile-movement word that moves between DRAM and the store without rounding (03 R96). -/
def moveOk (o : MoveOp) : Bool := fmtOk o.fmt o.mx && !o.src && o.rm == 0
/-- ACC_LOAD rounds when it re-windows (03 R90). -/
def accLoadOk (o : MoveOp) : Bool := fmtOk o.fmt o.mx && !o.src && rmOk o.rm
/-- TILE_SEND and TILE_RECV use SRC (03 R96). -/
def routeMoveOk (o : MoveOp) : Bool := fmtOk o.fmt o.mx && o.rm == 0
/-- TABLE_LOAD: TD[4:3] is 0 (03 R96). -/
def tableOk (o : MoveOp) : Bool := moveOk o && decide (o.td.val < 8)
/-- MMA (03 R97, R98). -/
def mmaOk (o : MmaOp) : Bool :=
  fmtMul o.afmt o.amx && fmtMul o.bfmt o.bmx && decide (o.td < 32) && decide (o.kblk ≤ 2 ^ 23 - 48) &&
  decide (1 ≤ o.rows ∧ o.rows ≤ 128) && decide (o.roff < 128)
/-- The fields that row operations, reductions and conversions share (03 R99, R101, R102). DFMT holds a defined code, and DMX is
set for a format that has an MX form alone, whatever DSEL (03 R81). -/
def rowFieldsOk (rm : RoundMode) (fmt : BitVec 4) (mx : Bool) (frow nrows : Nat) : Bool :=
  rmOk rm && fmtOk fmt mx && decide (frow < 128) && decide (1 ≤ nrows ∧ nrows ≤ 128)
/-- ROW_CHAIN (03 R99). -/
def chainOk (o : ChainOp) : Bool :=
  rowFieldsOk o.rm o.dfmt o.dmx o.frow o.nrows && decide (o.scmode.toNat ≤ 3) && decide (o.bmode.toNat ≤ 2) &&
  (decide (o.fn.toNat ≤ 4) || decide (8 ≤ o.fn.toNat))
/-- Reductions (03 R101). -/
def redOk (o : RedOp) : Bool :=
  rowFieldsOk o.rm o.dfmt o.dmx o.frow o.nrows && (!o.cont || o.dsel) &&
  decide (o.dsh + ceilLog2 o.count ≤ 64)
/-- RED_FINISH names N (03 R101). -/
def redFinishOk (o : RedOp) : Bool := redOk o && decide (1 ≤ o.count ∧ o.count ≤ 2 ^ 24)
/-- Conversions (03 R102). -/
def convOk (o : ConvOp) : Bool := rowFieldsOk o.rm o.dfmt o.dmx o.frow o.nrows

/-! ### Parcel-store addresses (03 R91, R95, 08 R238) -/

/-- Bytes of a parcel store. -/
def storeBytes : Nat := 12 * 2 ^ 20
/-- Bytes of the program region. -/
def progBytes : Nat := 128 * 2 ^ 10
/-- Whether `n` bytes at a unit address lie in the parcel store. -/
def inStore (u : Int) (n : Nat) : Bool := decide (0 ≤ u) && decide (64 * u.toNat + n ≤ storeBytes)
/-- Whether `n` bytes at a unit address miss the program region of an engine. -/
def missesProg (g : Engine) (u : Int) (n : Nat) : Bool :=
  decide (64 * u.toNat + n ≤ 64 * g.progUnit) || decide (64 * g.progUnit + progBytes ≤ 64 * u.toNat)
/-- Byte address of a unit address. -/
def unitByte (u : Int) : Nat := 64 * u.toNat
/-- Store blocks that `n` bytes at a byte address touch. -/
def storeBlocks (a n : Nat) : List Nat :=
  if n = 0 then [] else (List.range ((a + n - 1) / 65536 + 1 - a / 65536)).map (· + a / 65536)

/-- Device address of a byte of a physical parcel's store (08 R239). -/
def storeDevAddr (sheet p a : Nat) : Nat := 0x18000000000 + sheet * 2 ^ 32 + p * 2 ^ 24 + a
/-- Device address of a byte of accumulator memory (08 R239). -/
def accDevAddr (sheet p a : Nat) : Nat := storeDevAddr sheet p (0xC00000 + a)
/-- Device address of a byte of a sheet's rated DRAM (08 R239). -/
def dramDevAddr (sheet a : Nat) : Nat := sheet * 0x1800000000 + a

/-- Halt an engine with kind 0x220 (03 R91, R107; 13 R500). -/
def State.engHalt (s : State) (e : EngId) (pc : Nat) (op : BitVec 16) : State :=
  (s.engFault e 3 0 0x220 op (BitVec.ofNat 64 (pc % 8192))).modEng e fun g =>
    { g with st := .halt, stBeforeHalt := g.st }

/-! ### Tiles in the parcel store (03 R82, R83) -/

/-- Element code (i, j) of a store tile at byte address `a`. -/
def storeElem (m : Mem) (a : Nat) (f : BitVec 4) (i j : Nat) : Nat :=
  let n := fmtBits f
  let q := j * n
  let b := a + i * rowBytes f + q / 8
  (leNat (mread m b ((q % 8 + n + 7) / 8)) >>> (q % 8)) % 2 ^ n

/-- Write element code (i, j) of a store tile. -/
def putStoreElem (m : Mem) (a : Nat) (f : BitVec 4) (i j code : Nat) : Mem :=
  let n := fmtBits f
  let q := j * n
  let b := a + i * rowBytes f + q / 8
  let k := (q % 8 + n + 7) / 8
  let old := leNat (mread m b k)
  let old' := old - ((old >>> (q % 8)) % 2 ^ n) * 2 ^ (q % 8)
  mwrite m b (leBytes k (old' + (code % 2 ^ n) * 2 ^ (q % 8)))

/-- Byte address of the scale of group q of row r of an MX tile (03 R83). -/
def scaleAddr (a : Nat) (f : BitVec 4) (r q : Nat) : Nat := a + tileElemBytes f + 4 * r + q

/-- The value of an element of a tile held as bytes at address `a` of a memory. -/
def tileVal (m : Mem) (a : Nat) (f : BitVec 4) (mx : Bool) (i j : Nat) : Val :=
  let v := decodeElem f (storeElem m a f i j)
  if mx then applyScale f (mget m (scaleAddr a f i (j / 32))).toNat v else v

/-- The bytes of a tile as a memory that starts at 0. -/
def bytesMem (b : List Byte) : Mem := mwrite [] 0 b

/-- Valid shape of a store tile: what was kept beside it, else the whole tile (03 R80; log 12). -/
def ParcelMem.shape (p : ParcelMem) (u : Nat) (f : BitVec 4) (mx : Bool) : TileShape :=
  (tget none p.shapes u).getD { vrows := 128, vcols := 128, fmt := f, mx := mx, wexp := 0 }

/-- Keep a tile's shape beside it. -/
def ParcelMem.putShape (p : ParcelMem) (u : Nat) (t : TileShape) : ParcelMem :=
  { p with shapes := tset none p.shapes u (some t) }

end Sys2Proof.Machine

namespace Sys2Proof

/-! ### Tiles in accumulator memory (03 R85-R87) -/

/-- A descriptor in use. -/
def TileDesc.used (t : TileDesc) : Bool :=
  decide (1 ≤ t.vrows.toNat ∧ t.vrows.toNat ≤ 128 ∧ 1 ≤ t.vcols.toNat ∧ t.vcols.toNat ≤ 128)
/-- A descriptor of a tile in accumulator memory; BASE and FMT of a parcel-store tile's descriptor mean nothing (R86). -/
def TileDesc.inAcc (t : TileDesc) : Bool := t.used && !t.store
/-- Accumulator rows of a tile of `n` rows (R85). -/
def TileDesc.rowSpan (t : TileDesc) (n : Nat) : Nat := if t.f32 then (n + 1) / 2 else n
/-- First byte and length in accumulator memory of a descriptor's tile. -/
def TileDesc.accRange (t : TileDesc) : Nat × Nat := (1024 * t.base.toNat, 1024 * t.rowSpan t.vrows.toNat)
/-- Byte address of element (i, j). -/
def TileDesc.elemAddr (t : TileDesc) (i j : Nat) : Nat :=
  if t.f32 then 1024 * (t.base.toNat + i / 2) + 512 * (i % 2) + 4 * j else 1024 * (t.base.toNat + i) + 8 * j
/-- Bytes of an element. -/
def TileDesc.elemBytes (t : TileDesc) : Nat := if t.f32 then 4 else 8
/-- Format code of a descriptor's tile. -/
def TileDesc.fmt (t : TileDesc) : BitVec 4 := if t.f32 then 9 else 10
/-- Window exponent as an integer. -/
def TileDesc.wexp (t : TileDesc) : Int := t.exp.toInt
/-- Logical index of element (i, j) (R87). -/
def TileDesc.elemIndex (t : TileDesc) (i j : Nat) : Nat := t.xbase.toNat + i * t.xstride.toNat + j
/-- The valid elements of a descriptor in row order. -/
def TileDesc.elems (t : TileDesc) : List (Nat × Nat) :=
  (List.range t.vrows.toNat).flatMap fun i => (List.range t.vcols.toNat).map fun j => (i, j)
end Sys2Proof

namespace Sys2Proof.Machine

/-- Read element (i, j). -/
def accElem (m : Mem) (t : TileDesc) (i j : Nat) : Nat := leNat (mread m (t.elemAddr i j) t.elemBytes)
/-- Write element (i, j). -/
def putAccElem (m : Mem) (t : TileDesc) (i j code : Nat) : Mem := mwrite m (t.elemAddr i j) (leBytes t.elemBytes code)
/-- Value of element (i, j): a saturated A64 element is taken at its finite value (R100). -/
def accVal (m : Mem) (t : TileDesc) (i j : Nat) : Val :=
  let c := accElem m t i j
  if t.f32 then decodeElem 9 c
  else match a64Of c with
    | .nan => .nan
    | .int x => .fin x t.wexp
/-- Saturated elements of an accumulator tile, stopping at 65,535 (02 R54). -/
def satCount (m : Mem) (t : TileDesc) : Nat :=
  min 65535 (t.elems.filter fun p => codeIsSat t.f32 (accElem m t p.1 p.2)).length

/-! ### Streams (05 R155) -/

/-- The valid key-table entry of an identifier on a sheet. -/
def Sheet.findKey (h : Sheet) (i : StreamId) : Option KeyEntry :=
  (h.key.tab.map Prod.snd).find? fun k => k.valid && k.ident == i
/-- Key of a stream bound on a sheet in the step. -/
def State.streamOn (s : State) (sheet : Nat) (i : StreamId) : Option (Nat × Nat) :=
  ((s.sheet sheet).findKey i).map fun k => (k.k0.toNat, k.k1.toNat)
/-- The rounding stream of a tensor (05 R151). -/
def roundStream (tensor : BitVec 32) : StreamId := { purpose := 2, slot := 0, tensor := tensor }
/-- Steps of a context that ended in its open epoch and wait for the commit (11 R342). -/
def State.waitingSteps (s : State) (c : CtxId) : Nat :=
  match (s.part (s.ctx c.val).part.toNat).runs.find? fun r => r.ctx == c with
  | some r => r.provisional
  | none => 0
/-- The step number that a step of a context draws with: the context step counter (05 R153), past the steps of its open
epoch that wait for their commit (log 30). -/
def State.drawStep (s : State) (c : CtxId) : Nat := (s.ctx c.val).step.toNat + s.waitingSteps c
/-- The step number of the step in progress on a sheet. -/
def State.stepNo (s : State) (sheet : Nat) : Nat :=
  match s.curCtx sheet with
  | some c => s.drawStep c
  | none => 0
/-- A rounding key for a word: nothing where the stream is not bound; (0, 0) for a word that does not round in SR. -/
def State.roundKey (s : State) (e : EngId) (needs : Bool) (tensor : BitVec 32) : Option (Nat × Nat) :=
  if needs then s.streamOn e.sheet.val (roundStream tensor) else some (0, 0)
/-- Kind 0x522: a word met an identifier not bound in the step (05 R155). Its source is the sheet's key unit (DEDUCED,
log 16). -/
def State.unboundStream (s : State) (e : EngId) (op : BitVec 16) : State := s.sheetFault e.sheet.val 1 0x522 op 0

/-- Rounding number of conversions (02 R52). -/
def mConv : Nat := 2 ^ 23 - 16
/-- Rounding number of reduction inputs (02 R52). -/
def mRed : Nat := 2 ^ 23 - 32

/-! ### Error correction and poison on die (03 R88, 08 R238, R247, R248) -/

/-- Descriptors of an engine whose tile holds an accumulator byte. -/
def Engine.tdsAt (g : Engine) (a : Nat) : List Nat :=
  (g.tds.map Prod.fst).filter fun i =>
    let t := g.td i
    t.inAcc && decide (t.accRange.1 ≤ a ∧ a < t.accRange.1 + t.accRange.2)

/-- Mark store blocks of a parcel poisoned, for the context whose step is in progress (08 R247, R250). -/
def State.markBlocks (s : State) (e : EngId) (bl : List Nat) : State :=
  let c := s.curCtx e.sheet.val
  s.modPmem e fun m =>
    { m with blkPoison := bl.foldl sinsert m.blkPoison, blkCtx := bl.foldl (fun t b => tset none t b c) m.blkCtx }
/-- Mark accumulator tiles of an engine poisoned, for the context whose step is in progress. -/
def State.markTds (s : State) (e : EngId) (tds : List Nat) : State :=
  let c := s.curCtx e.sheet.val
  s.modEng e fun g =>
    { g with tdPoison := tds.foldl sinsert g.tdPoison, tdCtx := tds.foldl (fun t i => tset none t i c) g.tdCtx }

/-- A double-bit error in a 64-bit word of the parcel store, met by a read: kind 0x103 and the block poisoned. -/
def State.storeDouble (s : State) (e : EngId) (w : Nat) : State :=
  let p := ((s.sheet e.sheet.val).phys e.parcel.val).getD 0
  (s.engFault e 3 2 0x103 1 (BitVec.ofNat 64 (storeDevAddr e.sheet.val p (8 * w)))).markBlocks e [8 * w / 65536]
/-- A double-bit error in a word of accumulator memory: kind 0x105 and the tiles that hold the word poisoned. -/
def State.accDouble (s : State) (e : EngId) (w : Nat) : State :=
  let p := ((s.sheet e.sheet.val).phys e.parcel.val).getD 0
  (s.engFault e 2 3 0x105 1 (BitVec.ofNat 64 (accDevAddr e.sheet.val p (8 * w)))).markTds e ((s.eng e).tdsAt (8 * w))

/-- What a word met while it read byte ranges of the store and of accumulator memory: corrections counted, double-bit
errors reported, each where it lies in a range read. -/
def State.sramRead (s : State) (e : EngId) (d : Disturb) (st ac : List (Nat × Nat)) : State :=
  let within (l : List (Nat × Nat)) (w : Nat) : Bool := l.any fun r => decide (r.1 < 8 * w + 8 ∧ 8 * w < r.1 + r.2)
  let p := ((s.sheet e.sheet.val).phys e.parcel.val).getD 0
  let s := s.forEach (d.accFix.filter (within ac)) fun s w =>
    s.parcelEvent e { cls := 3, code := 0x03, addr := some (accDevAddr e.sheet.val p (8 * w)) }
  let s := s.forEach (d.storeFix.filter (within st)) fun s w =>
    s.parcelEvent e { cls := 3, code := 0x04, addr := some (storeDevAddr e.sheet.val p (8 * w)) }
  let s := s.forEach (d.storeDbl.filter (within st)) fun s w => s.storeDouble e w
  s.forEach (d.accDbl.filter (within ac)) fun s w => s.accDouble e w

/-- Whether any of the store ranges or descriptors read is poisoned. -/
def State.readPoison (s : State) (e : EngId) (st : List (Nat × Nat)) (tds : List Nat) : Bool :=
  let m := s.pmem e
  (st.any fun r => (storeBlocks r.1 r.2).any fun b => m.blkPoison.contains b) ||
  tds.any fun t => (s.eng e).tdPoison.contains t

/-- Record a write of store bytes in the step, poisoned or not. -/
def State.wroteStore (s : State) (e : EngId) (a n : Nat) (poison : Bool) : State :=
  let bl := storeBlocks a n
  let s := s.modEng e fun g => { g with blkWritten := bl.foldl sinsert g.blkWritten }
  if poison then s.markBlocks e bl else s

/-- Record a write of part of an accumulator tile: it never clears the mark (08 R250). -/
def State.wroteTd (s : State) (e : EngId) (t : Nat) (poison : Bool) : State :=
  let s := s.modEng e fun g => { g with tdWritten := sinsert g.tdWritten t }
  if poison then s.markTds e [t] else s

/-- Record a write of a whole accumulator tile: the mark follows the data (08 R250). -/
def State.wroteTdWhole (s : State) (e : EngId) (t : Nat) (poison : Bool) : State :=
  let s := s.modEng e fun g => { g with tdWritten := sinsert g.tdWritten t }
  if poison then s.markTds e [t] else s.modEng e fun g => { g with tdPoison := sremove g.tdPoison t }

end Sys2Proof.Machine
end

