-- ==== Sys2Proof/Machine/Flags.lean ====
section
/-! DEFINITION. Numeric flags and counts of tile descriptors (02 R53, R54) and the range checks (03 R115, R116). -/

namespace Sys2Proof.Machine

/-- Add to a count that stops at its maximum. -/
def stopAdd (n : Nat) (v k : Nat) : BitVec n := BitVec.ofNat n (min (2 ^ n - 1) (v + k))

end Sys2Proof.Machine

namespace Sys2Proof

open Machine in
/-- A descriptor collects flags and below-window roundings (02 R53, R54). -/
def TileDesc.collect (t : TileDesc) (fl : NFlags) (bw : Nat) : TileDesc :=
  { t with nflags := t.nflags ||| BitVec.ofNat 5 fl, bwcnt := stopAdd 32 t.bwcnt.toNat bw }

open Machine in
/-- A parcel-store tile after elements were written, each with whether it saturated: SATCNT is the number of elements that are
saturated (02 R54). -/
def TileDesc.noteSats (t : TileDesc) (w : List ((Nat × Nat) × Bool)) : TileDesc :=
  let l := (t.sats.filter fun p => !(w.any fun x => x.1 == p)) ++ ((w.filter Prod.snd).map Prod.fst).eraseDups
  { t with sats := l, satcnt := stopAdd 16 0 l.length }

/-- The range kinds that a descriptor meets (03 R115); a limit of all ones is off (03 R86). -/
def TileDesc.rangeKinds (t : TileDesc) : List (BitVec 12) :=
  (if t.bwlim ≠ 0xFFFFFFFF ∧ t.bwlim.toNat < t.bwcnt.toNat then [0x210] else []) ++
  (if t.nflags.getLsbD 2 ∧ t.nanf then [0x211] else []) ++
  (if t.nflags.getLsbD 3 ∧ t.inff then [0x212] else []) ++
  (if t.satlim ≠ 0xFFFF ∧ t.satlim.toNat < t.satcnt.toNat then [0x213] else [])

end Sys2Proof

namespace Sys2Proof.Machine

/-- Flags and saturation count of an A64 tile as it stands in accumulator memory, for words that copy it there unchanged
(02 R53, R54; log 20). -/
def State.retally (s : State) (e : EngId) (td : Nat) : State :=
  let t := (s.eng e).td td
  let m := (s.pmem e).acc
  let vals := t.elems.map fun p => accElem m t p.1 p.2
  let nan := vals.any fun c => if t.f32 then decodeElem 9 c == .nan else a64Of c == .nan
  let inf := t.f32 && vals.any fun c => decodeElem 9 c == .inf true || decodeElem 9 c == .inf false
  let sat := satCount m t
  s.modEng e fun g => g.modTd td fun t =>
    { t.collect (flagIf nan fNAN ||| flagIf inf fINF ||| flagIf (decide (0 < sat)) fSAT) 0 with satcnt := BitVec.ofNat 16 sat }

/-- Range checks once an instruction that writes the tile has made its result visible: each kind at most once per tile
per step (03 R116). -/
def State.rangeCheck (s : State) (e : EngId) (td : Nat) (op : BitVec 16) : State :=
  let t := (s.eng e).td td
  if !t.used then s
  else
    s.forEach t.rangeKinds fun s k =>
      if (s.eng e).raised.contains (td, k.toNat) then s
      else (s.engFault e 3 0 k op (BitVec.ofNat 64 td)).modEng e fun g => { g with raised := g.raised ++ [(td, k.toNat)] }

end Sys2Proof.Machine
end

