-- ==== Sys2Proof/Machine/MemPath.lean ====
section
/-! DEFINITION. The memory path (08): tensors of the plan in force, tile records and seals, page attributes, reading and
writing tiles and raw bytes of a sheet's DRAM, and combine-at-memory. -/

namespace Sys2Proof.Machine

/-! ### The plan in force -/

/-- The RUN in progress of a partition for a context. -/
def Part.runOf (p : Part) (c : CtxId) : Option RunState := p.runs.find? fun r => r.ctx == c
/-- A loaded plan of a context by its handle. -/
def Ctx.planOf (c : Ctx) (h : BitVec 32) : Option LoadedPlan := c.plans.find? fun l => l.handle == h
/-- The loaded plan whose step is in progress on a sheet. -/
def State.curPlan (s : State) (sheet : Nat) : Option LoadedPlan :=
  match s.partOf sheet with
  | none => none
  | some p =>
    match (s.part p).cur with
    | none => none
    | some c =>
      match (s.part p).runOf c with
      | none => none
      | some r => (s.ctx c.val).planOf r.plan
/-- A tensor of a plan by handle. -/
def findTensor (l : Option LoadedPlan) (h : BitVec 16) : Option Tensor :=
  match l with
  | none => none
  | some p => p.plan.tensors.find? fun t => t.handle == h
/-- A tensor of the plan in force on a sheet. -/
def State.tensorAt (s : State) (sheet : Nat) (h : BitVec 16) : Option Tensor := findTensor (s.curPlan sheet) h

/-- Where a tile lies: its sheet, its address in the rated area, and its record in the seal table. -/
structure TileLoc where
  sheet : Nat
  addr : Nat
  sealIx : Nat
deriving DecidableEq, Repr

end Sys2Proof.Machine

namespace Sys2Proof

open Machine in
/-- Tile stride of a tensor: the tile's byte size rounded up to 64 B (08, "Tile records and the seal"). -/
def Tensor.stride (t : Tensor) : Nat := (tileBytes t.fmt t.mx + 63) / 64 * 64

open Machine in
/-- The location of tile `i`: a part on the sheet `own` first (08). -/
def Tensor.tileLoc (t : Tensor) (own : Nat) (i : Nat) : Option TileLoc :=
  let here (p : TensorPart) : Bool := decide (p.first ≤ i ∧ i < p.first + p.count)
  let loc (p : TensorPart) : TileLoc :=
    { sheet := p.sheet.val, addr := p.base + (i - p.first) * t.stride, sealIx := p.sealBase + (i - p.first) }
  match t.parts.find? fun p => p.sheet.val == own && here p with
  | some p => some (loc p)
  | none => (t.parts.find? here).map loc
/-- Where byte `k` of a raw tensor's one byte sequence stands: its sheet and DRAM address there (06 R201). Several parts hold whole
tile lengths of it. -/
def Tensor.rawAt (t : Tensor) (own k : Nat) : Option (Nat × Nat) :=
  match t.parts with
  | [p] => some (p.sheet.val, p.base + k)
  | _ => (t.tileLoc own (k / t.stride)).map fun l => (l.sheet, l.addr + k % t.stride)

end Sys2Proof

namespace Sys2Proof.Machine

/-- Bytes of a part of a tensor. -/
def partBytes (t : Tensor) (x : TensorPart) : Nat := if t.isSealed then x.count * t.stride else if t.parts.length = 1 then t.bytes else x.count * t.stride

/-! ### Tile records (08 R241-R243) -/

/-- Bytes lo to hi of a record as a number. -/
def recField (r : List Byte) (lo n : Nat) : Nat := leNat ((r.drop lo).take n)
/-- TENSOR. -/
def recTensor (r : List Byte) : Nat := recField r 0 4
/-- TILEIDX. -/
def recTile (r : List Byte) : Nat := recField r 4 4
/-- BWCNT. -/
def recBw (r : List Byte) : Nat := recField r 8 4
/-- SATCNT. -/
def recSat (r : List Byte) : Nat := recField r 12 2
/-- NFLAGS. -/
def recFlags (r : List Byte) : Nat := recField r 14 1
/-- FORMAT code. -/
def recFmt (r : List Byte) : BitVec 4 := BitVec.ofNat 4 (recField r 15 1)
/-- FORMAT's MX bit. -/
def recMx (r : List Byte) : Bool := bit (recField r 15 1) 4
/-- VROWS. -/
def recRows (r : List Byte) : Nat := recField r 16 1
/-- VCOLS. -/
def recCols (r : List Byte) : Nat := recField r 17 1
/-- WEXP as an integer. -/
def recExp (r : List Byte) : Int := sext 11 (recField r 18 2)
/-- STATE.POISON. -/
def recPoison (r : List Byte) : Bool := bit (recField r 21 1) 0
/-- STATE.WRITTEN. -/
def recWritten (r : List Byte) : Bool := bit (recField r 21 1) 1
/-- SEAL. -/
def recSeal (r : List Byte) : Nat := recField r 24 8

/-- A tile header: bytes 0 to 23 with STATE 0 (R241). -/
def mkHeader (tensor idx bw sat fl : Nat) (f : BitVec 4) (mx : Bool) (vr vc : Nat) (e : Int) : List Byte :=
  leBytes 4 tensor ++ leBytes 4 idx ++ leBytes 4 bw ++ leBytes 2 sat ++ leBytes 1 fl ++
  leBytes 1 (f.toNat + (if mx then 16 else 0)) ++ leBytes 1 vr ++ leBytes 1 vc ++
  leBytes 2 (if f.toNat = 10 then twos 11 e else 0) ++ [1, 0, 0, 0]

/-- The seal of a header (byte 21 taken as 0) and a tile's bytes (R242). -/
def sealOf (header bytes : List Byte) : Nat := crc64 (header.take 21 ++ [0] ++ (header.drop 22).take 2 ++ bytes)

/-- A record from a header, its state and its seal. -/
def mkRecord (header : List Byte) (poison : Bool) (sl : Nat) : List Byte :=
  header.take 21 ++ [if poison then 3 else 2] ++ (header.drop 22).take 2 ++ leBytes 8 sl

/-- The header check of a record or image (R243): bits 7:5 of the flags byte are zero bits (02 R53). -/
def headerOk (r : List Byte) : Bool :=
  (recField r 20 1 == 1) && (recField r 14 1 < 32) && (recField r 15 1 < 32) && (recField r 18 2 < 2048) && (recField r 21 1 < 4) &&
  (recField r 22 2 == 0) && fmtOk (recFmt r) (recMx r) && decide (1 ≤ recRows r ∧ recRows r ≤ 128) &&
  decide (1 ≤ recCols r ∧ recCols r ≤ 128) && ((recFmt r).toNat == 10 || recField r 18 2 == 0)

/-- What a requester expects of a tile (R245). -/
structure Expect where
  tensor : Nat
  tile : Nat
  fmt : Option (BitVec 4 × Bool)

/-- The check of a record against its bytes and what the requester expects: the kind of the failure (R245). -/
def checkTile (r bytes : List Byte) (x : Expect) : Option (BitVec 12) :=
  let hdr := headerOk r && recWritten r && (recTensor r == x.tensor) && (recTile r == x.tile) &&
    (match x.fmt with | none => true | some (f, m) => recFmt r == f && recMx r == m)
  let sl := recSeal r == sealOf r bytes
  -- a record never written fails with 0x102 (R245)
  if !recWritten r then some 0x102 else if !sl then some 0x101 else if !hdr then some 0x102 else none

/-! ### Pages (08 R236) -/

/-- Pages of a byte range. -/
def pagesOf (a n : Nat) : List Nat := if n = 0 then [] else (List.range ((a + n - 1) / 4096 + 1 - a / 4096)).map (· + a / 4096)
/-- Attribute of a page in both copies. -/
def MemPath.attr (m : MemPath) (p : Nat) : BitVec 2 × BitVec 2 := (tget 0 m.attrA p, tget 0 m.attrB p)
/-- Write both copies. -/
def MemPath.setAttr (m : MemPath) (p : Nat) (v : BitVec 2) : MemPath :=
  { m with attrA := tset 0 m.attrA p v, attrB := tset 0 m.attrB p v }
/-- Whether the copies of a page differ. -/
def MemPath.differs (m : MemPath) (p : Nat) : Bool := (m.attr p).1 != (m.attr p).2
/-- Whether an access to a page delivers its data poisoned: a poisoned raw page, or copies that differ (R236, R246). -/
def MemPath.pageBad (m : MemPath) (p : Nat) : Bool := m.differs p || (m.attr p).1 == 2
/-- Record of a seal-table entry. -/
def MemPath.record (m : MemPath) (i : Nat) : List Byte := mread m.recs (32 * i) 32
/-- Write a record. -/
def MemPath.putRecord (m : MemPath) (i : Nat) (r : List Byte) : MemPath := { m with recs := mwrite m.recs (32 * i) r }
/-- Set POISON in a record. -/
def MemPath.poisonRecord (m : MemPath) (i : Nat) : MemPath :=
  { m with recs := mset m.recs (32 * i + 21) (mget m.recs (32 * i + 21) ||| 1) }

/-- `MEM.POISONED` (08): sealed tiles and raw pages poisoned, with a stop at 0xFFFF. -/
def MemPath.poisoned (m : MemPath) : Nat :=
  min 0xFFFF ((m.recs.filter fun x => x.1 % 32 == 21 && x.2.getLsbD 0).length + (m.attrA.filter fun x => x.2 == 2).length)
/-- A change of a sheet's memory that may poison tiles or pages: `MEM.POISONED` reaching its maximum sets its bit of CNT_SATF
(17 R462). -/
def State.poisonMem (s : State) (i : Nat) (f : MemPath → MemPath) : State :=
  let t := s.modMem i f
  if (s.sheet i).mem.poisoned < 0xFFFF ∧ (t.sheet i).mem.poisoned = 0xFFFF then t.satGroup 1 else t

/-- What physics did to a sheet's stack: cells, second attribute copies and records (08 R236, R237). -/
def State.upset (s : State) (sheet : Nat) (d : Disturb) : State :=
  let s := s.modMem sheet fun m =>
    { m with
      dram := mflip m.dram d.dram
      recs := mflip m.recs d.seals
      attrB := d.attrB.foldl (fun t p => tset 0 t p.1 p.2) m.attrB }
  s.forEach d.dramFix fun s a => s.sheetEvent sheet { cls := 3, code := 0x13, addr := some (dramDevAddr sheet a) }

/-- Look up pages: 0x106 for each whose copies differ (R236). -/
def State.lookPages (s : State) (sheet : Nat) (pages : List Nat) (op : BitVec 16) : State :=
  s.forEach (pages.filter (s.sheet sheet).mem.differs) fun s p =>
    (s.sheetFault sheet 3 0x106 op (BitVec.ofNat 64 (dramDevAddr sheet (4096 * p)))).modMem sheet fun m =>
      { m with attrErr := true }

/-- A failed check: the kind, MEM.SEALFAIL, and POISON in the stored record where there is one (R245). -/
def State.sealFailed (s : State) (sheet : Nat) (kind : BitVec 12) (addr : Nat) (rec? : Option Nat) (op : BitVec 16) : State :=
  let s := s.sheetFault sheet 3 kind op (BitVec.ofNat 64 addr)
  let s := s.noteSat (s.sheet sheet).mem.sealFail 0
  s.poisonMem sheet fun m =>
    let m := { m with sealFail := satInc m.sealFail }
    match rec? with
    | some i => m.poisonRecord i
    | none => m

/-- A read of a tile at the memory path: its record, its bytes, and whether it is delivered poisoned. -/
structure TileRead where
  record : List Byte
  bytes : List Byte
  poison : Bool
deriving DecidableEq, Repr

/-- The header that the tensor map gives a tile (R244). -/
def mapHeader (t : Tensor) (i : Nat) : List Byte :=
  mkHeader t.number.toNat i 0 0 0 t.fmt t.mx 128 128 t.wexp.toInt

/-- Read a tile with its checks (R245, R246): sealed tiles by seal and header, raw ones by page attribute alone. -/
def State.readTile (s : State) (t : Tensor) (l : TileLoc) (i : Nat) (fmt : Option (BitVec 4 × Bool)) (op : BitVec 16)
    (d : Disturb) : State × TileRead :=
  let s := s.upset l.sheet d
  let n := tileBytes t.fmt t.mx
  let pages := pagesOf l.addr n
  let m := (s.sheet l.sheet).mem
  let dif := pages.any m.differs
  let s := s.lookPages l.sheet pages op
  let s := s.sheetEvent l.sheet { cls := 3, code := 0x10, inc := (n + 63) / 64, addr := some (dramDevAddr l.sheet l.addr) }
  let bytes := mread m.dram l.addr n
  if t.isSealed then
    let r := m.record l.sealIx
    let s := s.sheetEvent l.sheet { cls := 3, code := 0x14, addr := some (dramDevAddr l.sheet l.addr) }
    match checkTile r bytes { tensor := t.number.toNat, tile := i, fmt := fmt } with
    | some k =>
      (s.sealFailed l.sheet k (dramDevAddr l.sheet l.addr) (some l.sealIx) op, { record := r, bytes := bytes, poison := true })
    | none => (s, { record := r, bytes := bytes, poison := recPoison r || dif })
  else
    (s, { record := mkRecord (mapHeader t i) false 0, bytes := bytes
          poison := dif || pages.any fun p => (m.attr p).1 == 2 })

/-- Record a DRAM granule written in the step: 2·record for a sealed tile, 2·page + 1 for a raw page. -/
def State.noteGranule (s : State) (sheet g : Nat) : State :=
  match s.partOf sheet with
  | none => s
  | some p =>
    if (s.part p).phase == .running then
      s.modPart p fun x => if x.dramWritten.contains (sheet, g) then x else { x with dramWritten := x.dramWritten ++ [(sheet, g)] }
    else s

/-- A write of raw bytes: `one` for a single write (one COPY, one transfer of a mover). Poisoned data poisons the page;
a single clean write that covers every byte of the page that belongs to its tensor clears it (R236, R248, R250). -/
def State.storeRaw (s : State) (sheet a : Nat) (bytes : List Byte) (poison one : Bool) (tlo thi : Nat) (op : BitVec 16) :
    State :=
  let pages := pagesOf a bytes.length
  let s := s.lookPages sheet pages op
  let s := s.modMem sheet fun m => { m with dram := mwrite m.dram a bytes }
  s.forEach pages fun s p =>
    let m := (s.sheet sheet).mem
    if m.differs p then s
    else if poison then s.poisonMem sheet fun m => m.setAttr p 2
    else
      let lo := max (4096 * p) tlo
      let hi := min (4096 * p + 4096) thi
      if one && (m.attr p).1 == 2 && decide (a ≤ lo) && decide (hi ≤ a + bytes.length) then
        s.modMem sheet fun m => m.setAttr p 1
      else s

/-- A write of raw bytes by a unit of a step: its pages count as written in the step (R249). A host COPY is none. -/
def State.writeRaw (s : State) (sheet a : Nat) (bytes : List Byte) (poison one : Bool) (tlo thi : Nat) (op : BitVec 16) :
    State :=
  (s.forEach (pagesOf a bytes.length) fun s p => s.noteGranule sheet (2 * p + 1)).storeRaw sheet a bytes poison one tlo thi op

/-- Byte range of a tensor on a sheet that holds an address. -/
def partRange (t : Tensor) (sheet a : Nat) : Nat × Nat :=
  match t.parts.find? fun p => p.sheet.val == sheet && decide (p.base ≤ a) && decide (a < p.base + p.count * t.stride) with
  | some p => (p.base, p.base + p.count * t.stride)
  | none => (a, a)

/-- Note that a RUN wrote a tensor (12 R359). -/
def State.noteTensor (s : State) (sheet : Nat) (n : BitVec 32) : State :=
  match s.partOf sheet with
  | none => s
  | some p =>
    match (s.part p).cur with
    | none => s
    | some c => s.modPart p fun x =>
        { x with runs := x.runs.map fun r =>
            if r.ctx == c && !r.written.contains n then { r with written := r.written ++ [n] } else r }

/-- Change the record of the RUN whose step is in progress on a sheet. -/
def State.modRun (s : State) (sheet : Nat) (f : RunState → RunState) : State :=
  match s.partOf sheet with
  | none => s
  | some p =>
    match (s.part p).cur with
    | none => s
    | some c => s.modPart p fun x => { x with runs := x.runs.map fun r => if r.ctx == c then f r else r }

/-- A step reads a tensor: UNCOVERED unless it is a sealed tensor marked input or written in the RUN (12 R359). -/
def State.noteRead (s : State) (sheet : Nat) (t : Tensor) : State :=
  s.modRun sheet fun r =>
    if t.isSealed && (t.input || r.written.contains t.number) then r else { r with uncovered := true }

/-- The tile hash of a marked tensor's tile (12 R357): byte 21 of the image taken as 0. -/
def tileHash (record bytes : List Byte) : List Byte := shake256 24 (record.take 21 ++ [0] ++ record.drop 22 ++ bytes)
/-- Keep the hash of a tile of a marked tensor. -/
def MemPath.keepHash (m : MemPath) (t : Tensor) (i : Nat) (record bytes : List Byte) : MemPath :=
  if t.input || t.result then { m with hashes := tset [] m.hashes i (tileHash record bytes) } else m

/-- Write a tile whole (R244): sealed tiles with a record of the header given. POISON follows the data, and stays set
while the copies of a page attribute differ (R236). -/
def State.writeTile (s : State) (t : Tensor) (l : TileLoc) (header bytes : List Byte) (poison : Bool) (op : BitVec 16)
    (d : Disturb) : State :=
  let s := s.upset l.sheet d
  let s := s.sheetEvent l.sheet
    { cls := 3, code := 0x11, inc := (bytes.length + 63) / 64, addr := some (dramDevAddr l.sheet l.addr) }
  let s := s.noteTensor l.sheet t.number
  if t.isSealed then
    let pages := pagesOf l.addr bytes.length
    let dif := pages.any (s.sheet l.sheet).mem.differs
    let s := s.lookPages l.sheet pages op
    let r := mkRecord header (poison || dif) (sealOf header bytes)
    let s := s.poisonMem l.sheet fun m =>
      ({ m with dram := mwrite m.dram l.addr bytes }.putRecord l.sealIx r).keepHash t l.sealIx r bytes
    s.noteGranule l.sheet (2 * l.sealIx)
  else
    let r := partRange t l.sheet l.addr
    s.writeRaw l.sheet l.addr bytes poison true r.1 r.2 op

/-- A partial write of a sealed tile (R244): read, verify, change, new seal; a tile never written counts as zeros under
the tensor map's header and is not verified. It keeps POISON and never clears it. `change` maps header and bytes. -/
def State.partialWrite (s : State) (t : Tensor) (l : TileLoc) (i : Nat) (poison : Bool) (op : BitVec 16) (d : Disturb)
    (change : List Byte → List Byte → List Byte × List Byte) : State :=
  let s := s.upset l.sheet d
  let n := tileBytes t.fmt t.mx
  let pages := pagesOf l.addr n
  let m := (s.sheet l.sheet).mem
  let dif := pages.any m.differs
  let s := s.lookPages l.sheet pages op
  let r := m.record l.sealIx
  let bytes := mread m.dram l.addr n
  let fresh := !recWritten r
  let bad := if fresh then none else checkTile r bytes { tensor := t.number.toNat, tile := i, fmt := none }
  let s := if fresh then s else
    s.sheetEvent l.sheet { cls := 3, code := 0x14, addr := some (dramDevAddr l.sheet l.addr) }
  let s := match bad with
    | some k => s.sealFailed l.sheet k (dramDevAddr l.sheet l.addr) (some l.sealIx) op
    | none => s
  let (h', b') := if fresh then change (mapHeader t i) (List.replicate n 0) else change r bytes
  let p := poison || dif || bad.isSome || recPoison r
  let r' := mkRecord h' p (sealOf h' b')
  let s := s.poisonMem l.sheet fun m =>
    ({ m with dram := mwrite m.dram l.addr b' }.putRecord l.sealIx r').keepHash t l.sealIx r' b'
  let s := s.sheetEvent l.sheet { cls := 3, code := 0x11, inc := (n + 63) / 64, addr := some (dramDevAddr l.sheet l.addr) }
  (s.noteTensor l.sheet t.number).noteGranule l.sheet (2 * l.sealIx)

/-! ### Refresh stalls (08 R233, R253) -/

/-- The slice of an address of a sheet (08 R233). -/
def sliceOf (a : Nat) : Nat := ((a >>> 9) ^^^ (a >>> 15) ^^^ (a >>> 21)) % 64
/-- A transfer waits while one of its slices is stalled. -/
def State.stalls (s : State) (sheet a n : Nat) : Bool :=
  let st := (s.sheet sheet).mem.stalled
  !st.isEmpty && (List.range ((a + n + 511) / 512 - a / 512)).any fun i => st.contains (sliceOf (a + 512 * i))

/-- Whether an access to a tensor's bytes waits: a slice of one of its parts is in a refresh stall (08 R253; log 82). -/
def State.tensorStalls (s : State) (t : Tensor) : Bool :=
  t.parts.any fun x => s.stalls x.sheet.val x.base (partBytes t x)
/-- Whether an access to a tile waits on one of its slices. -/
def State.tileStalls (s : State) (t : Tensor) (i : Nat) : Bool :=
  t.parts.any fun x => decide (x.first ≤ i ∧ i < x.first + x.count) &&
    s.stalls x.sheet.val (x.base + (i - x.first) * t.stride) (tileBytes t.fmt t.mx)

/-! ### Combine-at-memory (03 R117, 08 R252) -/

/-- Add two A64 tiles element by element (02 R47, 03 R117): the bytes, and the flags the adds raised. -/
def addA64 : Nat → List Byte → List Byte → List Byte × NFlags
  | 0, _, _ => ([], 0)
  | n + 1, x, y =>
    let (z, fl) := a64Sum (a64Of (leNat (x.take 8))) (a64Of (leNat (y.take 8)))
    let (r, f2) := addA64 n (x.drop 8) (y.drop 8)
    (leBytes 8 (a64Code z) ++ r, fl ||| f2)

/-- Add two F32 tiles in a rounding mode; `w` is the threshold of an SR sum. -/
def addF32 (rm : RoundMode) (w : Nat) : Nat → List Byte → List Byte → List Byte × NFlags
  | 0, _, _ => ([], 0)
  | n + 1, x, y =>
    let (z, fl, _) := f32Accum rm w (leNat (x.take 4)) (decodeElem 9 (leNat (y.take 4)))
    let (r, f2) := addF32 rm w n (x.drop 4) (y.drop 4)
    (leBytes 4 z ++ r, fl ||| f2)

/-- Saturated elements of the valid shape in the bytes of an A64 or F32 tile, stopping at 65,535 (02 R54). -/
def satBytes (f32 : Bool) (vr vc : Nat) (b : List Byte) : Nat :=
  let m := bytesMem b
  let k := if f32 then 4 else 8
  min 65535 ((List.range vr).map fun i =>
    ((List.range vc).filter fun j => codeIsSat f32 (leNat (mread m (128 * k * i + k * j) k))).length).sum

/-- The change of one add: element sums, flags of the two tiles ORed, below-window counts added, saturation recounted from the result
(03 R117, R252); F32 in RN-even. -/
def addChange (f : BitVec 4) (header bytes hOld bOld : List Byte) : List Byte × List Byte :=
  let (b, _) := if f.toNat = 10 then addA64 16384 bOld bytes else addF32 1 0 16384 bOld bytes
  let vr := recRows hOld
  let vc := recCols hOld
  (mkHeader (recTensor hOld) (recTile hOld) (min (2 ^ 32 - 1) (recBw hOld + recBw header))
    (satBytes (f.toNat != 10) vr vc b) (recFlags hOld ||| recFlags header) (recFmt hOld) (recMx hOld) vr vc (recExp hOld), b)

end Sys2Proof.Machine
end

