-- ==== Sys2Proof/Machine/Packets.lean ====
section
/-! DEFINITION. Packets and units as bytes (10 R301-R307), and placing packets and sync messages in a port's send queues. -/

namespace Sys2Proof.Machine

/-- Number from a flag. -/
def b2n (b : Bool) : Nat := if b then 1 else 0

/-- Payload bytes of a flit (10 R302). -/
def flitPayload : Nat := 241

/-- The 32-byte header of a packet with a body of `n` bytes (10 R306). -/
def packetHeader (p : Packet) (n : Nat) : List Byte :=
  [p.ptype, BitVec.ofNat 8 (b2n p.poison + 2 * b2n p.prov + 4 * b2n p.enc), 0, 0] ++ leBytes 4 n ++ leBytes 2 p.src.toNat ++
  leBytes 2 p.dst.toNat ++ leBytes 2 p.ctx.toNat ++ [p.gen, BitVec.ofNat 8 p.dsheet.toNat] ++ leBytes 2 p.route.toNat ++
  List.replicate 6 0 ++ leBytes 8 p.tspec.toNat

/-- The virtual lane of a packet type (10 R307). -/
def packetVl (t : Byte) : Option Nat :=
  match t.toNat with
  | 1 => some 3 | 2 => some 3 | 3 => some 2 | 4 => some 2 | 5 => some 1 | _ => none

/-- Read a header: the packet without its body, and LEN; nothing where it is malformed (10 R306). -/
def parseHeader (b : List Byte) : Option (Packet × Nat) :=
  let f := recField b 1 1
  let n := recField b 4 4
  if b.length < 32 ∨ 8 ≤ f ∨ recField b 2 2 ≠ 0 ∨ recField b 18 6 ≠ 0 ∨ n = 0 ∨ 131104 < n ∨ 4096 ≤ recField b 8 2 ∨
      4096 ≤ recField b 10 2 ∨ 4096 ≤ recField b 12 2 ∨ 16 ≤ recField b 15 1 ∨ packetVl (BitVec.ofNat 8 (recField b 0 1)) = none then
    none
  else
    some
      ({ ptype := BitVec.ofNat 8 (recField b 0 1), poison := bit f 0, prov := bit f 1, enc := bit f 2
         src := BitVec.ofNat 12 (recField b 8 2), dst := BitVec.ofNat 12 (recField b 10 2)
         ctx := BitVec.ofNat 12 (recField b 12 2), gen := BitVec.ofNat 8 (recField b 14 1)
         dsheet := BitVec.ofNat 4 (recField b 15 1), route := BitVec.ofNat 16 (recField b 16 2)
         tspec := BitVec.ofNat 64 (recField b 24 8), body := [] }, n)

/-- Flits that the packet of a header fills (10 R306). A header whose LEN is outside its range tells no length: its packet is taken as
one flit (DESIGN CHOICE, log 50). -/
def packetSpan (b : List Byte) : Nat :=
  let n := recField b 4 4
  if n = 0 ∨ 131104 < n then 1 else (32 + n + (if bit (recField b 1 1) 2 then 16 else 0) + flitPayload - 1) / flitPayload

/-- Odd parity over bits 7:1 of a control byte (10 R301). -/
def controlByte (ty pos vl : Nat) (kph : Bool) : Byte :=
  let v := ty * 64 + pos * 16 + vl * 4 + b2n kph * 2
  let ones := ((List.range 7).filter fun i => bit v (i + 1)).length
  BitVec.ofNat 8 (v + (if ones % 2 = 0 then 1 else 0))

/-- Cut bytes into `n` pieces of `k` bytes, the last padded with zeros. -/
def chunks (k : Nat) : Nat → List Byte → List (List Byte)
  | 0, _ => []
  | n + 1, b => (b.take k ++ List.replicate (k - b.length) 0) :: chunks k n (b.drop k)

/-- The four sub-flits of a flit: sequence number, acknowledgements, credits returned and payload (10 R302). -/
def flitUnits (vl : Nat) (seq ack sack : BitVec 16) (cred : Nat) (kph : Bool) (pay : List Byte) : List (List Byte) :=
  let p := pay ++ List.replicate (flitPayload - pay.length) 0
  let c (i : Nat) : Byte := controlByte 1 i vl kph
  let u0 := [c 0] ++ leBytes 2 seq.toNat ++ leBytes 2 ack.toNat ++ leBytes 2 sack.toNat ++ leBytes 1 cred ++ p.take 56
  let u1 := c 1 :: (p.drop 56).take 63
  let u2 := c 2 :: (p.drop 119).take 63
  let u3 := c 3 :: (p.drop 182).take 59
  let crc := crc32c (u0 ++ u1 ++ u2 ++ u3)
  [u0, u1, u2, u3 ++ leBytes 4 crc]

/-- Encoding of STYPE and VALUE and the rest of a sync message (10 R304). -/
def syncBytes (m : SyncMsg) : List Byte :=
  [m.stype, BitVec.ofNat 8 (b2n m.value)] ++ leBytes 2 m.src.toNat ++ leBytes 2 m.dst.toNat ++ leBytes 2 m.num.toNat ++
  leBytes 8 m.operand.toNat ++ leBytes 8 m.sentAt.toNat ++ leBytes 4 m.epoch.toNat ++ leBytes 2 m.ctx.toNat ++ [m.gen, 0]

/-- Read a sync message; nothing for a reserved STYPE. -/
def parseSync (b : List Byte) : Option SyncMsg :=
  if recField b 0 1 = 0 ∨ 9 ≤ recField b 0 1 then none
  else
    some
      { stype := BitVec.ofNat 8 (recField b 0 1), value := bit (recField b 1 1) 0, src := BitVec.ofNat 12 (recField b 2 2)
        dst := BitVec.ofNat 12 (recField b 4 2), num := BitVec.ofNat 16 (recField b 6 2)
        operand := BitVec.ofNat 64 (recField b 8 8), sentAt := BitVec.ofNat 64 (recField b 16 8)
        epoch := BitVec.ofNat 32 (recField b 24 4), ctx := BitVec.ofNat 12 (recField b 28 2)
        gen := BitVec.ofNat 8 (recField b 30 1) }

/-- The initialisation vector of a stream: 32-bit salt and 64-bit invocation counter (10 R316). -/
def gcmIv (salt count : Nat) : List Byte := leBytes 4 salt ++ leBytes 8 count

/-- Place a packet in the send queue of its lane (10 R306, R307). -/
def State.sendPacket (s : State) (port : Nat) (pk : Packet) : State :=
  match packetVl pk.ptype with
  | none => s
  | some vl =>
    s.modPort port fun p =>
      { p with flitQ := tmod [] p.flitQ vl (· ++ [{ pk := pk, begun := false, kph := false, pieces := [] }]) }

/-- Place a sync message in a port's VL0 queue (10 R308). -/
def State.sendSync (s : State) (port : Nat) (m : SyncMsg) : State := s.modPort port fun p => { p with syncQ := p.syncQ ++ [m] }

/-- The port on which packets for a device leave (11 R334). -/
def State.routePort (s : State) (dev : Nat) : Option Nat :=
  let e := tget ({} : RouteEntry) s.chart.routes dev
  if e.valid then some e.port.toNat else none

/-- Send a packet toward its destination device: dropped with kind 0x306, source level 6, where no route entry is valid (10 R323,
11 R334). `port` is the port it came in on; a packet that starts on this device has none, and the message names port 0 (DESIGN CHOICE,
log 50). -/
def State.launchPacket (s : State) (pk : Packet) (port : Nat := 0) : State :=
  match s.routePort pk.dst.toNat with
  | some out => s.sendPacket out pk
  | none => s.sendFault { source := portSource port, kind := 0x306, op := 4 }

/-- Whether a port holds packets of a context that its partner has not acknowledged (10 R321, 11 R345). -/
def Port.owes (p : Port) (c : Nat) : Bool :=
  (p.replayFlits.any fun f => f.ctx.toNat == c) || p.flitQ.any fun q => q.2.any fun k => k.pk.ctx.toNat == c

end Sys2Proof.Machine
end

