-- ==== Sys2Proof/Machine/Route.lean ====
section
/-! DEFINITION. Routes of the bulk network and of the chart (01 R28, R29; 11 R339-R341): delivery to engines, nodes of
reduction trees, digests, and packets to other devices. -/

namespace Sys2Proof.Machine

/-! ### Linear digests (11 R340, R341) -/

/-- Digest of a tile image for a multiplier and the index steps from tile to tile and row to row: nothing where it is
void. -/
def digestOf (dmul xtile xstride : Nat) (img : List Byte) : Option Nat :=
  let f := recFmt img
  let m := bytesMem (img.drop 32)
  let e := recExp img
  let x0 := recTile img * xtile
  let go (acc : Option Nat) (ij : Nat × Nat) : Option Nat :=
    match acc with
    | none => none
    | some d =>
      let x := x0 + ij.1 * xstride + ij.2
      let w := ((x + 1) * dmul) % resP
      if f.toNat = 10 then
        match a64Of (storeElem m 0 f ij.1 ij.2) with
        | .nan => none
        | .int v => if a64IsSat (.int v) then none else some ((d + w * residue v e) % resP)
      else
        match tileVal m 0 f (recMx img) ij.1 ij.2 with
        | .fin n t => some ((d + w * residue n t) % resP)
        | _ => none
  ((List.range (recRows img)).flatMap fun i => (List.range (recCols img)).map fun j => (i, j)).foldl go (some 0)

/-- Digest of a tile image with respect to a collective. -/
def imageDigest (r : Route) (img : List Byte) : Option Nat := digestOf r.dmul r.xtile r.xstride img

/-- TSPEC of a REDUCE packet (R341). -/
def tspecOf (void hop : Bool) (d : Nat) : Word := BitVec.ofNat 64 (b2n void * 2 ^ 62 + b2n hop * 2 ^ 61 + d % 2 ^ 61)
/-- VOID. -/
def tsVoid (t : Word) : Bool := t.getLsbD 62
/-- DVAL. -/
def tsVal (t : Word) : Nat := t.toNat % 2 ^ 61
/-- TSPEC of data sent as a leaf or over one hop. -/
def leafSpec (r : Route) (img : List Byte) (hop : Bool) : Word :=
  match imageDigest r img with
  | some d => tspecOf false hop d
  | none => tspecOf true hop 0

/-- A digest kind found on a sheet: the message, and the step's fault that makes the epoch fail (R341, R343). -/
def State.digestFault (s : State) (sheet : Nat) (kind : BitVec 12) : State := s.sheetFault sheet 6 kind 4 0

/-- The receiver's comparison (R341): kind 0x331 on a difference. -/
def State.checkDigest (s : State) (sheet : Nat) (r : Route) (a : Arrival) : State :=
  if r.dmul = 0 ∨ tsVoid a.tspec then s
  else
    match imageDigest r a.image with
    | some d => if d = tsVal a.tspec then s else s.digestFault sheet 0x331
    | none => s.digestFault sheet 0x331

/-! ### Nodes -/

/-- Sum of two tile images in A64 or F32 (01 R29): the first image's header with flags ORed and counts as R117 joins
them. -/
def addImages (rm : RoundMode) (w : Nat) (a b : List Byte) : List Byte :=
  let f := recFmt a
  let (h, body) :=
    if f.toNat = 10 then addChange f (b.take 24) (b.drop 32) (a.take 24) (a.drop 32)
    else
      let (body, fl) := addF32 rm w 16384 (a.drop 32) (b.drop 32)
      (mkHeader (recTensor a) (recTile a) (min (2 ^ 32 - 1) (recBw a + recBw b)) (min 65535 (recSat a + recSat b))
        (recFlags a ||| recFlags b ||| fl) f (recMx a) (recRows a) (recCols a) (recExp a), body)
  h.take 24 ++ leBytes 8 (sealOf h body) ++ body

/-- The contributions in the order a node adds them: A64 in arrival order, F32 in the tree node's order (R29). -/
def nodeOrder (r : Route) (l : List Arrival) : List Arrival :=
  match l with
  | [] => []
  | a :: _ => if (recFmt a.image).toNat = 10 then l else r.children.filterMap fun c => l.find? fun x => x.src == c

/-- What a node sends once every child has arrived: VOID where an input carried it or the sum gives a void digest, as a saturated one
does (R341, R348); `w` is the threshold of F32 sums in SR, which no rule states (log 18). -/
def nodeSum (r : Route) (w : Nat) (l : List Arrival) (handle : BitVec 16) (src : RouteSrc) : Option Arrival :=
  match nodeOrder r l with
  | [] => none
  | a :: rest =>
    let img := rest.foldl (fun acc x => addImages r.rm w acc x.image) a.image
    let void := l.any fun x => tsVoid x.tspec
    let exact := (recFmt img).toNat = 10
    let d := (l.map fun x => tsVal x.tspec).sum % resP
    let t := if exact then tspecOf (void || (imageDigest r img).isNone) false d
      else match imageDigest r img with
        | some d => tspecOf void true d
        | none => tspecOf true true 0
    some { route := handle, image := img, poison := l.any fun x => x.poison, tspec := t, src := src }

/-! ### Delivery -/

/-- Whether outputs of a context leave provisionally (11 R342): a chart RUN in speculative mode. -/
def State.provisional (s : State) (c : CtxId) : Bool :=
  let p := s.part (s.ctx c.val).part.toNat
  !p.hold && (match p.runOf c with | some r => r.chart | none => false)

/-- Hand an arrival to each destination (R28, R339): the digest travels unchanged. -/
def State.toDest (s : State) (sheet : Nat) (r : Route) (a : Arrival) : RouteDest → State
  | .engine e => (s.checkDigest e.sheet.val r a).modEng e fun g => { g with inbox := g.inbox ++ [{ a with route := r.handle }] }
  | .node h rt => s.modSheet h.val fun x => { x with collecting := x.collecting ++ [{ a with route := rt }] }
  | .device d h rt =>
    match s.curCtx sheet with
    | none => s
    | some c =>
      s.launchPacket
        { ptype := if r.reduces || r.gathers then 3 else 1, poison := a.poison, prov := s.provisional c, enc := false
          src := s.chart.reg.devId, dst := BitVec.ofNat 12 d.val, ctx := BitVec.ofNat 12 c.val, gen := (s.ctx c.val).gen
          dsheet := BitVec.ofNat 4 h.val, route := rt, tspec := a.tspec, body := a.image }

/-- Forward to every destination of a route; the sheet's routers count their 1,024-bit words (17 R453). -/
def State.toDests (s : State) (sheet : Nat) (r : Route) (a : Arrival) : State :=
  let words := (a.image.length + 127) / 128
  let s := s.sheetEvent sheet { cls := 4, code := 1, inc := words * Config.routeHops r.handle.toNat }
  r.dests.foldl (fun s d => s.toDest sheet r a d) s

/-- A route of a sheet's router tables. -/
def Sheet.routeOf (h : Sheet) (rt : BitVec 16) : Option Route := h.routeTab.find? fun r => r.handle == rt

/-- The first contribution of each of some children that passes a test, and what stays behind, both in order of arrival. -/
def takeFirst (k : Arrival → Bool) : List RouteSrc → List Arrival → List Arrival × List Arrival
  | _, [] => ([], [])
  | cs, a :: l =>
    if k a && cs.contains a.src then
      let r := takeFirst k (cs.erase a.src) l
      (a :: r.1, r.2)
    else
      let r := takeFirst k cs l
      (r.1, a :: r.2)
/-- Whether a contribution belongs to one tile at a node: its route, its tensor and its tile index. -/
def sameTile (r : Route) (b a : Arrival) : Bool :=
  a.route == r.handle && recTensor a.image == recTensor b.image && recTile a.image == recTile b.image
/-- A node of a sheet whose children have all contributed to one tile (R29): the node, the contributions, and the others. -/
def Sheet.readyNode (h : Sheet) : Option (Route × List Arrival × List Arrival) :=
  if h.mode != .service then none
  else h.routeTab.findSome? fun r =>
    if !r.reduces then none
    else h.collecting.findSome? fun b =>
      let t := takeFirst (sameTile r b) r.children h.collecting
      if !t.1.isEmpty && t.1.length == r.children.length then some (r, t.1, t.2) else none
/-- Nodes send the sum of a tile once every child has contributed to it (R29, R339); `fuel` bounds the chain of nodes. -/
def State.settleNodes (s : State) : Nat → State
  | 0 => s
  | n + 1 =>
    match sheetIdx.findSome? fun h => (s.sheet h).readyNode.map fun x => (h, x) with
    | none => s
    | some (h, r, l, others) =>
      let s := l.foldl (fun s a => s.checkDigest h r a) s
      let s := s.modSheet h fun x => { x with collecting := others }
      let s := s.sheetEvent h { cls := 4, code := 0x02, inc := l.length - 1 }
      let w := Config.freeValue s.free % 65536
      let s := { s with free := s.free + 1 }
      match nodeSum r w l r.handle (.node (Fin.ofNat 16 h)) with
      | none => s.settleNodes n
      | some a =>
        let s :=
          if (recFmt a.image).toNat = 10 ∧ r.dmul ≠ 0 ∧ !tsVoid a.tspec ∧ imageDigest r a.image ≠ some (tsVal a.tspec) then
            s.digestFault h 0x332
          else s
        (s.toDests h r a).settleNodes n

/-- A route that leads to other devices alone: this router is the receiver that compares the digest (R341). -/
def passesOn (r : Route) : Bool := r.dests.all fun d => match d with | .device _ _ _ => true | _ => false
/-- Put an image on a route from a sheet (03 R96): a node of a tree collects it in SERVICE; otherwise it is forwarded. -/
def State.routeSend (s : State) (sheet : Nat) (rt : BitVec 16) (a : Arrival) : State :=
  match (s.sheet sheet).routeOf rt with
  | none => s
  | some r =>
    if r.reduces && (s.sheet sheet).mode == .service then
      (s.modSheet sheet fun x => { x with collecting := x.collecting ++ [{ a with route := rt }] }).settleNodes 64
    else
      let s := if passesOn r then s.checkDigest sheet r a else s
      (s.toDests sheet r a).settleNodes 64

end Sys2Proof.Machine
end

