-- ==== Sys2Proof/Machine/ArrayOps.lean ====
section
/-! DEFINITION. The tile product (03 R76-R80, R97, R98), its exact partials (02 R45, R46, R56) and the arithmetic check
(03 R108-R114). -/

namespace Sys2Proof.Machine

/-- An operand row of 128 positions, zero outside the valid shape (R80). -/
def operandRow (m : Mem) (a : Nat) (f : BitVec 4) (mx : Bool) (vr vc i : Nat) : List Val :=
  (List.range 128).map fun k => if i < vr ∧ k < vc then tileVal m a f mx i k else .fin 0 0

/-- What an element's products sum to: NaN met or formed, an Inf met with its sign, and the finite partial with special
operands taken as zero (02 R46, 03 R111). -/
structure Partial where
  nan : Bool := false
  pinf : Bool := false
  ninf : Bool := false
  n : Int := 0
  t : Int := 0
deriving DecidableEq, Repr

/-- Sign of a value that is not zero: true negative. -/
def valNeg : Val → Option Bool
  | .fin n _ => if n = 0 then none else some (n < 0)
  | .inf s => some s
  | .nan => none

/-- Add one product to a partial. -/
def mulAdd (p : Partial) (a b : Val) : Partial :=
  match a, b with
  | .nan, _ => { p with nan := true }
  | _, .nan => { p with nan := true }
  | .fin n t, .fin m u => let s := dyAdd (p.n, p.t) (n * m, t + u); { p with n := s.1, t := s.2 }
  | a, b =>
    match valNeg a, valNeg b with
    | some x, some y => if x == y then { p with pinf := true } else { p with ninf := true }
    | _, _ => { p with nan := true, pinf := p.pinf, ninf := p.ninf }

/-- The partial of an output element (02 R45). -/
def partialOf (a b : List Val) : Partial := (a.zip b).foldl (fun p x => mulAdd p x.1 x.2) {}

/-- Whether an operand row holds an Inf. -/
def rowInf (r : List Val) : Bool := r.any fun v => match v with | .inf _ => true | _ => false

/-- What the block brings to an A64 element (02 R46), with the threshold of the rounding; the flag counts a rounding with
f ≠ 0. -/
def blockContrib (w : Nat) (e : Int) (p : Partial) : Contrib × Bool :=
  if p.nan || (p.pinf && p.ninf) then (.nan, false)
  else if p.pinf then (.inf false, false)
  else if p.ninf then (.inf true, false)
  else let c := kblockContrib w e p.n p.t; (.fin c.1, c.2)

/-- What the block brings to an F32 element (02 R56). -/
def blockVal (p : Partial) : Val :=
  if p.nan || (p.pinf && p.ninf) then .nan else if p.pinf then .inf false else if p.ninf then .inf true else .fin p.n p.t

/-- An element takes a block: its new code, flags, and whether a rounding had f ≠ 0. -/
def takeBlock (t : TileDesc) (w : Nat) (old : Nat) (p : Partial) : Nat × NFlags × Bool :=
  if t.f32 then f32Accum t.frm w old (blockVal p)
  else
    let x := a64Of old
    let (c, ine) := blockContrib w t.wexp p
    let (y, fl) := a64Add x c
    let counted := ine && !a64IsSat x && x != .nan
    (a64Code y, fl ||| flagIf counted fINEXACT, counted)

/-- ρ of an operand: special operands take part as zero (03 R111). -/
def valRes : Val → Nat
  | .fin n t => residue n t
  | _ => 0

/-- Σ ρ over rows of an operand, position by position. -/
def resSums (rows : List (List Val)) : List Nat :=
  (List.range 128).map fun k => (rows.map fun r => valRes (r.getD k (.fin 0 0))).sum % resP

/-- Σ ρ(x)·y over the positions. -/
def resDot (r : List Val) (s : List Nat) : Nat := ((r.zip s).map fun x => valRes x.1 * x.2).sum % resP

/-- The check of a tile product (03 R110): the lowest row and the lowest column whose sums differ. `checks` adds to the
check column (true, row, value) and the check row (false, column, value). -/
def checkProduct (as bs : List (List Val)) (ps : List (List Partial)) (checks : List (Bool × Nat × Nat)) :
    Option (Nat × Nat) :=
  let off (c : Bool) (i : Nat) : Nat := (checks.filterMap fun x => if x.1 == c ∧ x.2.1 = i then some x.2.2 else none).sum
  let ra := resSums as
  let cb := resSums bs
  let rowBad := (List.range as.length).find? fun i =>
    (resDot (as.getD i []) cb + off true i) % resP != ((ps.getD i []).map fun p => residue p.n p.t).sum % resP
  let colBad := (List.range bs.length).find? fun j =>
    (resDot (bs.getD j []) ra + off false j) % resP != (ps.map fun r => let p := r.getD j {}; residue p.n p.t).sum % resP
  match rowBad, colBad with
  | none, none => none
  | i, j => some (i.getD 0, j.getD 0)

/-- The address of kinds 0x201 to 0x203 (13 R368). -/
def checkAddr (td kblk row col : Nat) : Word :=
  BitVec.ofNat 64 (td % 32 + kblk % 2 ^ 23 * 2 ^ 5 + row % 128 * 2 ^ 28 + col % 128 * 2 ^ 35)

/-- A residue or duplication check that fired in a word: 0x202 in the accumulation stage (unit 2), 0x203 in the row unit or the
sampling stage, 0x521 in the lane generators (03 R114, 05 R160; 13 R500). `addr` gives the address of a failing row and
column. -/
def State.residueFault (s : State) (e : EngId) (d : Disturb) (unit : Nat) (op : BitVec 16) (addr : Nat → Nat → Word) : State :=
  match d.residue with
  | none => s
  | some u =>
    if u.gen then s.engFault e 2 6 0x521 op 0
    else s.engFault e 2 unit (if unit = 2 then 0x202 else 0x203) op (addr u.row u.col)
/-- The address of a fault of the sampling stage: the slot (13 R500). -/
def slotAddr (slot : Nat) : Nat → Nat → Word := fun _ _ => BitVec.ofNat 64 slot

/-- Element-wise results of a product. -/
structure ProductOut where
  acc : Mem
  fl : NFlags
  bw : Nat

/-- The B operand of a word (03 R78): the stationary register with BKEEP, else the tile at its address. A step starts with
the register empty, and BKEEP before any load of the step reads zeros (log 72). -/
def State.bOperand (s : State) (e : EngId) (o : MmaOp) : BOperand :=
  if o.bkeep then (s.eng e).bReg.getD { bytes := [], fmt := 0, mx := false, vrows := 128, vcols := 128, poison := false }
  else
    let sh := (s.pmem e).shape o.b.toNat o.bfmt o.bmx
    { bytes := mread (s.pmem e).store (unitByte o.b) (tileBytes o.bfmt o.bmx), fmt := o.bfmt, mx := o.bmx, vrows := sh.vrows
      vcols := sh.vcols, poison := s.readPoison e [(unitByte o.b, tileBytes o.bfmt o.bmx)] [] }
/-- The A rows of a word. -/
def State.aRows (s : State) (e : EngId) (o : MmaOp) : List (List Val) :=
  let sh := (s.pmem e).shape o.a.toNat o.afmt o.amx
  (List.range o.rows).map fun i => operandRow (s.pmem e).store (unitByte o.a) o.afmt o.amx sh.vrows sh.vcols i
/-- The first `n` rows of a B operand. -/
def BOperand.rows (b : BOperand) (n : Nat) : List (List Val) :=
  (List.range n).map fun j => operandRow (bytesMem b.bytes) 0 b.fmt b.mx b.vrows b.vcols j
/-- The exact partials of a product (02 R45). -/
def partialsOf (as bs : List (List Val)) : List (List Partial) := as.map fun a => bs.map fun b => partialOf a b
/-- Upsets of partials: each adds a multiple of 2^-512 to the partial of one element. -/
def upsetPartials (ps : List (List Partial)) (l : List (Nat × Nat × Int)) : List (List Partial) :=
  ps.zipIdx.map fun r => r.1.zipIdx.map fun c =>
    l.foldl (fun p x => if x.1 = r.2 ∧ x.2.1 = c.2 then
      let q := dyAdd (p.n, p.t) (x.2.2, -512); { p with n := q.1, t := q.2 } else p) c.1

/-- MMA (03 R97, R98). -/
def State.doMma (s : State) (e : EngId) (o : MmaOp) (d : Disturb) : State :=
  let op := opEngine 2 1
  let g := s.eng e
  let td := g.td o.td
  let na := tileBytes o.afmt o.amx
  let nb := tileBytes o.bfmt o.bmx
  if !inStore o.a na || (!o.bkeep && !inStore o.b nb) || !td.used || decide (td.vrows.toNat < o.roff + o.rows) then
    s.engHalt e o.pc op
  else
    match s.roundKey e (!td.f32 || td.frm == 0) td.tensor with
    | none => s.unboundStream e op
    | some k =>
      let rgs := (unitByte o.a, na) :: (if o.bkeep then [] else [(unitByte o.b, nb)])
      let s := s.sramRead e d rgs [td.accRange]
      let breg := s.bOperand e o
      let pm := s.pmem e
      let as := s.aRows e o
      let bs := breg.rows td.vcols.toNat
      let poison := s.readPoison e [(unitByte o.a, na)] [o.td] || breg.poison
      let s := s.modEng e fun g => { g with bReg := some breg }
      let ps := upsetPartials (partialsOf as bs) d.partials
      let step := s.stepNo e.sheet.val
      let out : ProductOut := ps.zipIdx.foldl (fun r row => row.1.zipIdx.foldl (fun r c =>
        let i := o.roff + row.2
        let j := c.2
        let w := if !td.f32 || td.frm == 0 then roundThreshold k.1 k.2 step (td.elemIndex i j) o.kblk else 0
        let old := if o.init then 0 else accElem r.acc td i j
        let (y, fl, ine) := takeBlock td w old c.1
        { acc := putAccElem r.acc td i j y, fl := r.fl ||| fl, bw := r.bw + b2n ine }) r)
        { acc := pm.acc, fl := 0, bw := 0 }
      let inf := as.any rowInf || bs.any rowInf
      let s := s.modPmem e fun m => { m with acc := out.acc }
      let s := s.modEng e fun g => (g.modTd o.td fun t =>
        { t.collect (out.fl ||| flagIf inf fINF) out.bw with satcnt := BitVec.ofNat 16 (satCount out.acc t) })
      let s := s.wroteTd e o.td poison
      let bad := (checkProduct as bs ps d.checks).map fun x => (o.roff + x.1, x.2)
      let s := s.modEng e fun g => { g with verdicts := g.verdicts ++ [{ td := o.td, kblk := o.kblk, pc := o.pc, bad := bad }] }
      let s := s.parcelEvent e { cls := 1, code := 0x07 }
      let s := s.parcelEvent e { cls := 1, code := 0x08, inc := 16384 * o.rows }
      let s := s.residueFault e d 2 op (checkAddr o.td o.kblk)
      s.rangeCheck e o.td op

/-- ARITHMETIC_CHECK_VERDICT (R112): the next verdict arrives; a mismatch raises kind 0x201. -/
def State.doVerdict (s : State) (e : EngId) : State :=
  match (s.eng e).verdicts with
  | [] => s
  | v :: rest =>
    let s := s.modEng e fun g => { g with verdicts := rest }
    let s := s.parcelEvent e { cls := 6, code := 0x01 }
    match v.bad with
    | none => s
    | some (r, c) => s.engFault e 2 1 0x201 (opEngine 2 1) (checkAddr v.td v.kblk r c)

end Sys2Proof.Machine
end

