-- ==== Sys2Proof/Machine/RowOps.lean ====
section
/-! DEFINITION. The row unit (03 R99-R102): chains, reductions and conversions, each rounded once into its destination
(02 R58-R64). -/

namespace Sys2Proof.Machine

/-- A result before its one rounding: an exact quotient num/den, an Inf, NaN, or a saturated A64 element that stays
saturated between windows (02 R61). -/
inductive RowVal where
  | q (num : Int) (den : Nat)
  | inf (neg : Bool)
  | nan
  | sat (neg : Bool)
deriving DecidableEq, Repr

/-- n · 2^t as a quotient. -/
def rowDy (n t : Int) : RowVal := let x := scaleQ n t 1; .q x.1 x.2

/-- A value as a result. -/
def rowOfVal : Val → RowVal
  | .fin n t => rowDy n t
  | .inf s => .inf s
  | .nan => .nan

/-- Convert into A64 at exponent e (02 R61). -/
def rowToA64 (rm : RoundMode) (w : Nat) (e : Int) : RowVal → A64 × NFlags × Bool
  | .nan => (.nan, fNAN, false)
  | .inf neg => (.int (if neg then -a64Max else a64Max), fSAT ||| fINF, false)
  | .sat neg => (.int (if neg then -a64Max else a64Max), fSAT, false)
  | .q num den =>
    let v := scaleQ num (-e) den
    let (x, ine) := roundInt rm w v.1 v.2
    let y := a64Sat x
    (.int y, flagIf (a64IsSat (.int y)) fSAT ||| flagIf ine fINEXACT, ine)

/-- Convert to a format of 02 R59; a saturated source is taken at `satAt`, its finite value. -/
def rowConvert (f : BitVec 4) (rm : RoundMode) (w : Nat) (satAt : Int × Nat) : RowVal → Nat × NFlags × Bool
  | .nan => let (c, fl) := nanCode f; (c, fl, false)
  | .inf neg => let (c, fl) := infResult f neg; (c, fl, false)
  | .sat neg => roundTo f rm w (if neg then -satAt.1 else satAt.1) satAt.2
  | .q num den => roundTo f rm w num den

/-- Divide a result by 2^k. -/
def rowScale (k : Int) : RowVal → RowVal
  | .q num den => let v := scaleQ num (-k) den; .q v.1 v.2
  | x => x

/-- The scale field of a group (02 R60). -/
def rowMxScale (f : BitVec 4) (vs : List RowVal) : Nat :=
  if vs.any (· == .nan) then 0xFF
  else
    let es := vs.filterMap fun v => match v with | .q n d => if n = 0 then none else some (log2Q n.natAbs d) | _ => none
    match es with
    | [] => 0
    | x :: r => (max (-127) (min 127 (r.foldl max x - mxEmax f)) + 127).toNat

/-- One element of a group with scale field x (02 R60): every element of a NaN group is NaN (log 17), and an Inf in it was met
all the same (02 R53). -/
def rowMxElem (f : BitVec 4) (rm : RoundMode) (w : Nat) (x : Nat) (v : RowVal) : Nat × NFlags × Bool :=
  if x = 0xFF then ((nanCode f).1, fNAN ||| (match v with | .inf _ => fINF | _ => 0), false)
  else rowConvert f rm w (0, 1) (rowScale ((x : Int) - 127 - (if f.toNat = 1 then 6 else 0)) v)

/-- A result at a place of the destination. -/
abbrev RowOut := Nat × Nat × RowVal

/-- What writing a destination gives: its memories, flags, roundings with f ≠ 0, and the elements written with whether each
saturated. -/
structure EmitOut where
  acc : Mem
  store : Mem
  fl : NFlags := 0
  bw : Nat := 0
  sats : List ((Nat × Nat) × Bool) := []

/-- Where a word writes (R99): format, MX, accumulator or store, and the store address. -/
structure RowDest where
  dst : Nat
  dsel : Bool
  dadr : Int
  dfmt : BitVec 4
  dmx : Bool

/-- Whether the destination is A64. -/
def RowDest.a64 (x : RowDest) : Bool := x.dsel || x.dfmt == 10
/-- Format and MX bit written. -/
def RowDest.form (x : RowDest) : BitVec 4 × Bool := if x.a64 then (10, false) else (x.dfmt, x.dmx)
/-- Bytes of the store tile written. -/
def RowDest.bytes (x : RowDest) : Nat := tileBytes x.form.1 x.form.2

/-- Count the conversion of an element. -/
def EmitOut.tally (r : EmitOut) (i j : Nat) (fl : NFlags) (ine : Bool) : EmitOut :=
  { r with fl := r.fl ||| fl, bw := r.bw + b2n ine, sats := r.sats ++ [((i, j), bit fl 0)] }

/-- Write one result that is not part of an MX group. With DSEL = 1 the rows from BASE take A64 elements whatever the
descriptor's FMT (log 73). -/
def emitOne (x : RowDest) (t : TileDesc) (rm : RoundMode) (thr : Nat → Nat → Nat) (satAt : Int × Nat) (r : EmitOut)
    (o : RowOut) : EmitOut :=
  let (i, j, v) := o
  if x.a64 then
    let (y, fl, ine) := rowToA64 rm (thr i j) t.wexp v
    let r := r.tally i j fl ine
    if x.dsel then { r with acc := putAccElem r.acc { t with f32 := false } i j (a64Code y) }
    else { r with store := putStoreElem r.store (unitByte x.dadr) 10 i j (a64Code y) }
  else
    let (c, fl, ine) := rowConvert x.dfmt rm (thr i j) satAt v
    { r.tally i j fl ine with store := putStoreElem r.store (unitByte x.dadr) x.dfmt i j c }

/-- Write one group of 32 of a row of an MX destination (02 R60): code 0 outside the valid columns. A valid position that gets no
result, which a reduction alone leaves, keeps its code and takes no part in the scale (log 74). -/
def emitGroup (x : RowDest) (rm : RoundMode) (thr : Nat → Nat → Nat) (vcols i q : Nat) (vs : List RowOut) (r : EmitOut) :
    EmitOut :=
  let sc := rowMxScale x.dfmt (vs.map fun v => v.2.2)
  let r := { r with store := mset r.store (scaleAddr (unitByte x.dadr) x.dfmt i q) (BitVec.ofNat 8 sc) }
  (List.range 32).foldl (fun (r : EmitOut) k =>
    let j := 32 * q + k
    match vs.find? fun v => v.2.1 == j with
    | none => if j < vcols then r else { r with store := putStoreElem r.store (unitByte x.dadr) x.dfmt i j 0 }
    | some v =>
      let (c, fl, ine) := rowMxElem x.dfmt rm (thr i j) sc v.2.2
      { r.tally i j fl ine with store := putStoreElem r.store (unitByte x.dadr) x.dfmt i j c }) r

/-- The one rounding into the destination (R100 step 5, R102): only elements inside the destination's valid shape are
written (R80), and a row at or beyond its valid rows is left as it is, scales and codes too (log 74); of an MX row, the groups
that get a result and those with no valid element (02 R60). SR uses rounding number `m` of the DST stream with DST's element indices. -/
def emitAll (x : RowDest) (t : TileDesc) (rm : RoundMode) (k : Nat × Nat) (step : Nat) (satAt : Int × Nat)
    (outs : List RowOut) (pm : ParcelMem) : EmitOut :=
  let thr (i j : Nat) : Nat := if rm.toNat = 0 then roundThreshold k.1 k.2 step (t.elemIndex i j) mConv else 0
  let outs := outs.filter fun o => decide (o.1 < t.vrows.toNat ∧ o.2.1 < t.vcols.toNat)
  let r0 : EmitOut := { acc := pm.acc, store := pm.store }
  if x.form.2 then
    let rows := (outs.map fun o => o.1).eraseDups
    rows.foldl (fun r i => (List.range 4).foldl (fun r q =>
      let vs := outs.filter fun o => o.1 == i && o.2.1 / 32 == q
      if vs.isEmpty && decide (32 * q < t.vcols.toNat) then r else emitGroup x rm thr t.vcols.toNat i q vs r) r) r0
  else outs.foldl (emitOne x t rm thr satAt) r0

/-- DST collects what a word raised; poison, shape beside the tile, and the range checks follow (02 R53, 03 R116). -/
def State.finishRow (s : State) (e : EngId) (x : RowDest) (r : EmitOut) (fl : NFlags) (poison : Bool) (op : BitVec 16) : State :=
  let s := s.modPmem e fun m => { m with acc := r.acc, store := r.store }
  let s := s.modEng e fun g => g.modTd x.dst fun t =>
    let t := t.collect (fl ||| r.fl) r.bw
    if x.dsel then { t with satcnt := BitVec.ofNat 16 (satCount r.acc { t with f32 := false }) } else t.noteSats r.sats
  let t := (s.eng e).td x.dst
  let s :=
    if x.dsel then s.wroteTd e x.dst poison
    else
      (s.modPmem e fun m => m.putShape x.dadr.toNat
        { vrows := t.vrows.toNat, vcols := t.vcols.toNat, fmt := x.form.1, mx := x.form.2
          wexp := if x.a64 then t.wexp else 0 }).wroteStore e (unitByte x.dadr) x.bytes poison
  s.rangeCheck e x.dst op

/-- Whether a destination address is one the word may write (R91). -/
def State.destOk (s : State) (e : EngId) (x : RowDest) : Bool :=
  x.dsel || (inStore x.dadr x.bytes && missesProg (s.eng e) x.dadr x.bytes)

/-- A source element: zero outside its valid shape (03 R80; log 22). -/
def srcVal (m : Mem) (t : TileDesc) (i j : Nat) : Val :=
  if i < t.vrows.toNat ∧ j < t.vcols.toNat then accVal m t i j else .fin 0 t.wexp

/-- The 64-bit input of a chain (R100 step 1): Y at exponent e, and the flags it raises; nothing for NaN. -/
def chainIn (t : TileDesc) (v : Val) : Option (Int × NFlags) :=
  match v with
  | .nan => none
  | .inf neg => some (if neg then -a64Max else a64Max, fINF)
  | .fin n k =>
    if t.f32 then
      let y := shl n (k - t.wexp)
      some (a64Sat y, flagIf (!shlExact n (k - t.wexp)) fINEXACT)
    else some (shl n (k - t.wexp), 0)

/-- The function of a chain on Y at exponent e (R100 step 4): a value n · 2^t and flags. -/
def chainFn (fn : BitVec 4) (tab : FnTable) (y e : Int) : Int × Int × NFlags :=
  if fn.toNat = 0 then (y, e, 0)
  else
    let (z, cl) := q24Of y e
    let (z, cl) := if fn.toNat = 1 ∨ fn.toNat = 3 then let n := natToBase2 z; (n.1, cl || n.2) else (z, cl)
    let f := flagIf cl fCLAMP
    if fn.toNat ≤ 2 then ((exp2Unit z : Int), -32, f ||| flagIf (decide (0 < z)) fCLAMP)
    else if fn.toNat ≤ 4 then ((sigmoid2 z : Int), -32, f)
    else let (a, g) := tableEval tab z; (a, tab.eout.toInt, f ||| g)

/-- A signed 32-bit element of a scale vector at a unit address. -/
def scaleElem (m : Mem) (u : Int) (i : Nat) : Int := sext 32 (leNat (mread m (unitByte u + 4 * i) 4))
/-- An A64 element of a bias vector. -/
def biasElem (m : Mem) (u : Int) (i : Nat) : A64 := a64Of (leNat (mread m (unitByte u + 8 * i) 8))

/-- One element of a chain (R100). Without a scale SCEXP is not used (log 75). -/
def chainElem (o : ChainOp) (t : TileDesc) (pm : ParcelMem) (tab : FnTable) (i j : Nat) : RowVal × NFlags :=
  match chainIn t (srcVal pm.acc t i j) with
  | none => (.nan, fNAN)
  | some (y, f0) =>
    let sc := match o.scmode.toNat with
      | 0 => 1
      | 1 => scaleElem pm.store o.scadr 0
      | 2 => scaleElem pm.store o.scadr j
      | _ => scaleElem pm.store o.scadr i
    let e := t.wexp + (if o.scmode.toNat = 0 then 0 else o.scexp.toInt)
    let beta := match o.bmode.toNat with
      | 0 => A64.int 0
      | 1 => biasElem pm.store o.badr j
      | _ => biasElem pm.store o.badr i
    match beta with
    | .nan => (.nan, f0 ||| fNAN)
    | .int b =>
      let (n, k, f) := chainFn o.fn tab (y * sc + b) e
      (rowDy n k, f0 ||| f)

/-- Element places of source rows and the columns of the destination: source row FROW + k goes to destination row FROW + k
(log 73). -/
def rowPlaces (frow nrows cols : Nat) : List (Nat × Nat) :=
  (List.range nrows).flatMap fun i => (List.range cols).map fun j => (frow + i, j)

/-- ROW_CHAIN (R99, R100). -/
def State.doRowChain (s : State) (e : EngId) (o : ChainOp) (d : Disturb) : State :=
  let op := opEngine 3 1
  let x : RowDest := { dst := o.dst.val, dsel := o.dsel, dadr := o.dadr, dfmt := o.dfmt, dmx := o.dmx }
  let src := (s.eng e).td o.src.val
  let dst := (s.eng e).td o.dst.val
  let rg := (if o.scmode.toNat = 0 then [] else [(unitByte o.scadr, 512)]) ++
    (if o.bmode.toNat = 0 then [] else [(unitByte o.badr, 1024)])
  if !s.destOk e x || (o.scmode.toNat != 0 && !inStore o.scadr 512) || (o.bmode.toNat != 0 && !inStore o.badr 1024) then
    s.engHalt e o.pc op
  else
    match s.roundKey e (o.rm == 0) dst.tensor with
    | none => s.unboundStream e op
    | some k =>
      let s := s.sramRead e d rg [src.accRange]
      let pm := s.pmem e
      let poison := s.readPoison e rg [o.src.val] || (decide (8 ≤ o.fn.toNat) && pm.fnPoison.contains (o.fn.toNat - 8))
      let tab := tget {} pm.fnTables (o.fn.toNat - 8)
      let els := (rowPlaces o.frow o.nrows dst.vcols.toNat).map fun p => (p, chainElem o src pm tab p.1 p.2)
      let fl := els.foldl (fun f v => f ||| v.2.2) 0
      let outs : List RowOut := els.map fun v => (v.1.1, v.1.2, v.2.1)
      let r := emitAll x dst o.rm k (s.stepNo e.sheet.val) (0, 1) outs pm
      let s := s.parcelEvent e { cls := 2, code := 0x01, inc := o.nrows }
      let s := s.residueFault e d 4 op (checkAddr o.dst.val 0)
      s.finishRow e x r fl poison op

/-- A source element as A64 at its descriptor's exponent (02 R63): A64 inputs as they stand, F32 ones converted by R61. -/
def redIn (t : TileDesc) (m : Mem) (rm : RoundMode) (thr : Nat → Nat → Nat) (i j : Nat) : A64 × NFlags × Bool :=
  if t.f32 then toA64 rm (thr i j) t.wexp (accVal m t i j)
  else
    let a := a64Of (accElem m t i j)
    (a, flagIf (a == .nan) fNAN, false)

/-- One square q = X² · 2^−D, rounded once and saturated (02 R63). -/
def redSquare (rm : RoundMode) (w d : Nat) : A64 → A64 × Bool
  | .nan => (.nan, false)
  | .int x =>
    let (q, ine) := roundInt rm w (x * x) (2 ^ d)
    (.int (a64Sat q), ine)

/-- Sums of a group of inputs: S1, S2, flags and roundings with f ≠ 0. -/
structure Sums where
  s1 : A64 := .int 0
  s2 : A64 := .int 0
  fl : NFlags := 0
  bw : Nat := 0

/-- Add one input to the sums; `sq` where squares are formed. -/
def Sums.add (r : Sums) (rm : RoundMode) (w d : Nat) (sq : Bool) (x : A64 × NFlags × Bool) : Sums :=
  let (a, f1) := a64Sum r.s1 x.1
  if sq then
    let (q, ine) := redSquare rm w d x.1
    let (b, f2) := a64Sum r.s2 q
    { s1 := a, s2 := b, fl := r.fl ||| f1 ||| f2 ||| x.2.1 ||| flagIf ine fINEXACT, bw := r.bw + b2n x.2.2 + b2n ine }
  else { r with s1 := a, fl := r.fl ||| f1 ||| x.2.1, bw := r.bw + b2n x.2.2 }

/-- The sums of each row (DIR 0) or column (DIR 1) over the source's valid elements among the rows named. -/
def redSums (o : RedOp) (t : TileDesc) (m : Mem) (thr : Nat → Nat → Nat) (sq : Bool) : List (Nat × Sums) :=
  let rows := (List.range o.nrows).map (o.frow + ·) |>.filter (· < t.vrows.toNat)
  let cols := List.range t.vcols.toNat
  let one (l : List (Nat × Nat)) : Sums :=
    l.foldl (fun r p => r.add o.rm (thr p.1 p.2) o.dsh sq (redIn t m o.rm thr p.1 p.2)) {}
  if o.dir then cols.map fun j => (j, one (rows.map fun i => (i, j)))
  else rows.map fun i => (i, one (cols.map fun j => (i, j)))

/-- Place of result n of group g: column n of the row, or row n of the column. -/
def redPlace (dir : Bool) (g n : Nat) : Nat × Nat := if dir then (n, g) else (g, n)

/-- RED_SUM and RED_MOMENTS (R101). -/
def State.doReduce (s : State) (e : EngId) (o : RedOp) (d : Disturb) (sq : Bool) (opc : Nat) : State :=
  let op := opEngine 4 opc
  let x : RowDest := { dst := o.dst.val, dsel := o.dsel, dadr := o.dadr, dfmt := o.dfmt, dmx := o.dmx }
  let src := (s.eng e).td o.src.val
  let dst := (s.eng e).td o.dst.val
  if !s.destOk e x then s.engHalt e o.pc op
  else
    match s.roundKey e (o.rm == 0 && (src.f32 || sq || !o.dsel)) dst.tensor with
    | none => s.unboundStream e op
    | some k =>
      let s := s.sramRead e d [] (src.accRange :: (if o.cont then [{ dst with f32 := false }.accRange] else []))
      let pm := s.pmem e
      let step := s.stepNo e.sheet.val
      let poison := s.readPoison e [] (o.src.val :: (if o.cont then [o.dst.val] else []))
      let thr (i j : Nat) : Nat := if o.rm.toNat = 0 then roundThreshold k.1 k.2 step (src.elemIndex i j) mRed else 0
      let sums := redSums o src pm.acc thr sq
      let d64 := { dst with f32 := false }
      let inside (p : Nat × Nat) : Bool := decide (p.1 < dst.vrows.toNat ∧ p.2 < dst.vcols.toNat)
      let parts : List (Nat × Nat × A64 × Int) := sums.flatMap fun g =>
        let p1 := redPlace o.dir g.1 0
        let p2 := redPlace o.dir g.1 1
        (p1.1, p1.2, g.2.s1, src.wexp) :: (if sq then [(p2.1, p2.2, g.2.s2, 2 * src.wexp + o.dsh)] else [])
      let fl := sums.foldl (fun f g => f ||| g.2.fl) 0
      let bw := (sums.map fun g => g.2.bw).sum
      let r : EmitOut :=
        if o.dsel then
          (parts.filter fun p => inside (p.1, p.2.1)).foldl (fun (r : EmitOut) p =>
            let (v, f) := if o.cont then a64Sum (a64Of (accElem r.acc d64 p.1 p.2.1)) p.2.2.1
              else (p.2.2.1, flagIf (a64IsSat p.2.2.1) fSAT ||| flagIf (p.2.2.1 == .nan) fNAN)
            { r with acc := putAccElem r.acc d64 p.1 p.2.1 (a64Code v), fl := r.fl ||| f })
            { acc := pm.acc, store := pm.store }
        else
          let outs : List RowOut := parts.map fun p =>
            (p.1, p.2.1, match p.2.2.1 with | .nan => .nan | .int v => rowDy v p.2.2.2)
          emitAll x dst o.rm k step (0, 1) outs pm
      let s := s.parcelEvent e { cls := 2, code := 0x01, inc := o.nrows }
      let s := s.residueFault e d 4 op (checkAddr o.dst.val 0)
      s.finishRow e x { r with bw := r.bw + bw } fl poison op

/-- Mean and variance of a group's sums (02 R64), and the flags. -/
def finishSums (e : Int) (dsh n : Nat) (s1 s2 : A64) : RowVal × RowVal × NFlags :=
  match s1, s2 with
  | .int a, .int b =>
    let v := varNum n a b dsh
    let neg := decide (v < 0)
    let v := if neg then 0 else v
    let m := scaleQ a e n
    let q := scaleQ v (2 * e) (n * n)
    (.q m.1 m.2, .q q.1 q.2, flagIf neg fCLAMP ||| flagIf (a64IsSat s1 || a64IsSat s2) fSAT)
  | _, _ => (.nan, .nan, fNAN)

/-- RED_FINISH (R101). -/
def State.doRedFinish (s : State) (e : EngId) (o : RedOp) (d : Disturb) : State :=
  let op := opEngine 4 3
  let x : RowDest := { dst := o.dst.val, dsel := o.dsel, dadr := o.dadr, dfmt := o.dfmt, dmx := o.dmx }
  let src := (s.eng e).td o.src.val
  let dst := (s.eng e).td o.dst.val
  if !s.destOk e x then s.engHalt e o.pc op
  else
    match s.roundKey e (o.rm == 0) dst.tensor with
    | none => s.unboundStream e op
    | some k =>
      let s := s.sramRead e d [] [src.accRange]
      let pm := s.pmem e
      let poison := s.readPoison e [] [o.src.val]
      let t64 := { src with f32 := false }
      let groups := if o.dir then List.range src.vcols.toNat else (List.range o.nrows).map (o.frow + ·)
      let at_ (g n : Nat) : A64 :=
        let p := redPlace o.dir g n
        if p.1 < src.vrows.toNat ∧ p.2 < src.vcols.toNat then a64Of (accElem pm.acc t64 p.1 p.2) else .int 0
      let res := groups.map fun g => (g, finishSums src.wexp o.dsh o.count (at_ g 0) (at_ g 1))
      let outs : List RowOut := res.flatMap fun g =>
        let p1 := redPlace o.dir g.1 0
        let p2 := redPlace o.dir g.1 1
        [(p1.1, p1.2, g.2.1), (p2.1, p2.2, g.2.2.1)]
      let fl := res.foldl (fun f g => f ||| g.2.2.2) 0
      let r := emitAll x dst o.rm k (s.stepNo e.sheet.val) (0, 1) outs pm
      let s := s.parcelEvent e { cls := 2, code := 0x01, inc := o.nrows }
      let s := s.residueFault e d 4 op (checkAddr o.dst.val 0)
      s.finishRow e x r fl poison op

/-- CONVERT and REWINDOW (R102); REWINDOW writes A64 at the DST exponent. -/
def State.doConvert (s : State) (e : EngId) (o : ConvOp) (d : Disturb) (a64 : Bool) (opc : Nat) : State :=
  let op := opEngine 5 opc
  let x : RowDest := { dst := o.dst.val, dsel := o.dsel, dadr := o.dadr, dfmt := if a64 then 10 else o.dfmt, dmx := !a64 && o.dmx }
  let src := (s.eng e).td o.src.val
  let dst := (s.eng e).td o.dst.val
  if !s.destOk e x then s.engHalt e o.pc op
  else
    match s.roundKey e (o.rm == 0) dst.tensor with
    | none => s.unboundStream e op
    | some k =>
      let s := s.sramRead e d [] [src.accRange]
      let pm := s.pmem e
      let poison := s.readPoison e [] [o.src.val]
      let outs : List RowOut := (rowPlaces o.frow o.nrows dst.vcols.toNat).map fun p =>
        let sticky := !src.f32 && x.a64 && decide (p.1 < src.vrows.toNat ∧ p.2 < src.vcols.toNat)
        let a := if sticky then a64Of (accElem pm.acc src p.1 p.2) else .int 0
        if sticky && a64IsSat a then (p.1, p.2, .sat (match a with | .int v => decide (v < 0) | .nan => false))
        else (p.1, p.2, rowOfVal (srcVal pm.acc src p.1 p.2))
      let r := emitAll x dst o.rm k (s.stepNo e.sheet.val) (0, 1) outs pm
      let s := s.parcelEvent e { cls := 2, code := 0x01, inc := o.nrows }
      let s := s.residueFault e d 4 op (checkAddr o.dst.val 0)
      s.finishRow e x r 0 poison op

end Sys2Proof.Machine
end

