-- ==== Sys2Proof/Machine/SampleOps.lean ====
section
/-! DEFINITION. The sampling stage and the sampling hub (04): the four passes of a categorical draw, their reductions, and
the binary decisions. -/

namespace Sys2Proof.Machine

/-- The pass words (04 R139). -/
def passOk (o : PassOp) : Bool := decide (o.vbase < 2 ^ 31) && decide (o.nelem ≤ 524288) && !o.last && !o.pchk && o.draw == 0
/-- SMP_DRAW (04 R139). -/
def drawOk (o : PassOp) : Bool :=
  decide (o.vbase < 2 ^ 31) && decide (o.nelem ≤ 524288) && decide (o.draw < 256) && decide (o.iword < 256)
/-- The binary decisions (04 R147). -/
def binOk (o : BinOp) : Bool := decide (o.frow < 128) && decide (1 ≤ o.nrows ∧ o.nrows ≤ 128) && decide (o.draw < 65536)

/-! ### Slots, their home and participating parcels (04 R121) -/

/-- The home sheet of a slot as a sheet sees it. -/
def State.homeOf (s : State) (sheet slot : Nat) : Nat :=
  match ((s.sheet sheet).slot slot).home with
  | some h => h.val
  | none => sheet
/-- The sheets declared for a slot. -/
def State.slotSheets (s : State) (sheet slot : Nat) : List Nat :=
  match ((s.sheet sheet).slot slot).sheets with
  | [] => [sheet]
  | l => l.map Fin.val
/-- Engines that participate: every in-service logical parcel of the declared sheets. -/
def State.participants (s : State) (sheet slot : Nat) : List EngId :=
  (s.slotSheets sheet slot).flatMap fun h =>
    (List.range (s.sheet h).pmap.length).map fun l => { sheet := Fin.ofNat 16 h, parcel := Fin.ofNat 16 l }
/-- The home parcel: logical parcel n mod m of the home sheet. -/
def State.homeParcel (s : State) (home slot : Nat) : EngId :=
  { sheet := Fin.ofNat 16 home, parcel := Fin.ofNat 16 (slot % max 1 (s.sheet home).pmap.length) }
/-- The hub context of a slot. -/
def Sheet.hubOf (h : Sheet) (slot : Nat) : Option HubCtx := h.hubs.find? fun c => c.slot == slot
/-- Replace or add a hub context. -/
def Sheet.putHub (h : Sheet) (c : HubCtx) : Sheet :=
  if (h.hubs.any fun x => x.slot == c.slot) then { h with hubs := h.hubs.map fun x => if x.slot == c.slot then c else x }
  else { h with hubs := h.hubs ++ [c] }
/-- Close a hub context. -/
def Sheet.closeHub (h : Sheet) (slot : Nat) : Sheet := { h with hubs := h.hubs.filter fun x => x.slot != slot }
/-- Set the live phase of a slot (04 R126). -/
def State.setPhase (s : State) (home slot : Nat) (p : SlotPhase) : State :=
  s.modSheet home fun h => h.modSlot slot fun x => { x with phase := p }
/-- Raise slot flags in the pending copy (04 R124, R126). -/
def State.raiseSlot (s : State) (home slot : Nat) (f : BitVec 8) : State :=
  s.modSheet home fun h => h.modSlot slot fun x => { x with pend := { x.pend with sflags := x.pend.sflags ||| f } }
/-- Kind 0x221 at a parcel's sampling stage (04 R140; 13 R500). -/
def State.passBroken (s : State) (e : EngId) (slot : Nat) (op : BitVec 16) : State :=
  s.engFault e 2 5 0x221 op (BitVec.ofNat 64 slot)
/-- A fault at the hub of a sheet. -/
def State.hubFault (s : State) (home : Nat) (kind : BitVec 12) (addr : Nat) : State :=
  s.sheetFault home 2 kind 0x0E (BitVec.ofNat 64 addr)

/-! ### Logits and weights (04 R119, R128-R130) -/

/-- Byte address of element u of a logit vector. -/
def vecAddr (t : TileDesc) (u : Nat) : Nat :=
  if t.f32 then 1024 * (t.base.toNat + u / 256) + 4 * (u % 256) else 1024 * (t.base.toNat + u / 128) + 8 * (u % 128)
/-- First byte and length of a logit vector. -/
def vecRange (t : TileDesc) (n : Nat) : Nat × Nat := (1024 * t.base.toNat, 1024 * ((n + (if t.f32 then 255 else 127)) / (if t.f32 then 256 else 128)))
/-- Value of element u. -/
def vecVal (m : Mem) (t : TileDesc) (u : Nat) : Val :=
  if t.f32 then decodeElem 9 (leNat (mread m (vecAddr t u) 4))
  else match a64Of (leNat (mread m (vecAddr t u) 8)) with
    | .nan => .nan
    | .int x => .fin x t.wexp
/-- A Q24 operand of a value (02 R66): nothing for NaN; the flag says it clamped. -/
def q24Val : Val → Option (Int × Bool)
  | .nan => none
  | .inf neg => some (if neg then -(2 ^ 39) else 2 ^ 39 - 1, true)
  | .fin n t => some (q24Of n t)
/-- Store unit address of a slot's mask: nothing where all are allowed. -/
def State.maskUnit (s : State) (sheet : Nat) (mask : BitVec 16) : Option Nat :=
  if mask = 0 then none else (s.tensorAt sheet mask).map fun t => t.storeUnit
/-- Mask bit u (04 R128). -/
def maskBit (m : Mem) (unit : Option Nat) (u : Nat) : Bool :=
  match unit with
  | none => true
  | some a => (mget m (64 * a + u / 8)).getLsbD (u % 8)
/-- scale (04 R129): the flag says it clamped. -/
def tempScale (r : SlotRegs) (d : Int) : Int × Bool :=
  q24Sat (if r.base2 then (d * r.invt.toNat).fdiv (2 ^ 16) else (d * log2e * r.invt.toNat).fdiv (2 ^ 46))

/-- Slot flag bits (04 R124). -/
def sTIES : BitVec 8 := 1
/-- NAN. -/
def sNAN : BitVec 8 := 2
/-- CLAMP. -/
def sCLAMP : BitVec 8 := 4
/-- NOSAMPLE. -/
def sNOSAMPLE : BitVec 8 := 8
/-- REFINED. -/
def sREFINED : BitVec 8 := 16

/-- The operand of one element of a vector: its logit where it is allowed, and the slot flags met, whatever its mask bit
(04 R128). -/
def readLogit (pm : ParcelMem) (t : TileDesc) (mask : Option Nat) (u : Nat) : Option Int × BitVec 8 :=
  match q24Val (vecVal pm.acc t u) with
  | none => (none, sNAN)
  | some (l, cl) => (if maskBit pm.store mask u then some l else none, if cl then sCLAMP else 0)

/-- One parcel's reading of its vector. -/
def readVector (pm : ParcelMem) (t : TileDesc) (mask : Option Nat) (vbase n : Nat) : List (Nat × Option Int) × BitVec 8 :=
  let l := (List.range n).map fun u => (u, readLogit pm t mask u)
  (l.map fun x => (vbase + x.1, x.2.1), l.foldl (fun f x => f ||| x.2.2) 0)

/-- The weight of an element (04 R130): and whether its scaled difference clamped. -/
def weightOf (r : SlotRegs) (lmax : Int) : Option Int → Nat × Bool
  | none => (0, false)
  | some l => let (z, cl) := tempScale r (l - lmax); (exp2Unit z, cl)

/-- What a parcel's pass meets before it reports: error correction and poison of the vector's rows and of the mask. -/
def State.passRead (s : State) (e : EngId) (o : PassOp) (mask : Option Nat) (d : Disturb) : State × Bool :=
  let g := s.eng e
  let t := g.td o.src.val
  let vr := vecRange t o.nelem
  let rg := match mask with
    | some u => [(64 * u, max 1 ((o.nelem + 7) / 8))]
    | none => []
  let s := s.sramRead e d rg [vr]
  let tds := (s.eng e).tds.map Prod.fst |>.filter fun i =>
    let x := ((s.eng e).td i)
    x.inAcc && decide (x.accRange.1 < vr.1 + vr.2 ∧ vr.1 < x.accRange.1 + x.accRange.2)
  (s, s.readPoison e rg (o.src.val :: tds))

/-! ### Cut (04 R134, R135) -/

/-- key(q). -/
def binKey (q : Nat) : Nat := if q < 128 then q else let p := Nat.log2 q; 128 * (p - 7) + (q >>> (p - 7))
/-- Width exponent w of the bin of a key: it holds 2^w weights. -/
def binWidth (k : Nat) : Nat := if k < 128 then 0 else k / 128 - 1
/-- Least weight of a bin. -/
def binLo (k : Nat) : Nat := if k < 128 then k else (k % 128 + 128) <<< (k / 128 - 1)

/-- Insert into a descending list. -/
def insertDesc (x : Nat) : List Nat → List Nat
  | [] => [x]
  | y :: r => if y ≤ x then x :: y :: r else y :: insertDesc x r
/-- Sort weights in descending order. -/
def sortDesc (l : List Nat) : List Nat := l.foldl (fun a x => insertDesc x a) []

/-- The first value of a descending list at which the running total of `f` reaches a target. -/
def firstReach (f : Nat → Nat) (target : Nat) : Nat → List Nat → Nat
  | _, [] => 0
  | run, q :: r => if target ≤ run + f q then q else firstReach f target (run + f q) r

/-- Refinement passes that a boundary at weight `v` needs (R135): its bin's members, then its sub-bin's. `edge` says that
the running count ends exactly at the bin or sub-bin (top-k alone). -/
def refinePasses (ws : List Nat) (v : Nat) (edge : List Nat → Bool) : Nat :=
  let k := binKey v
  let members := ws.filter fun q => binKey q == k
  if edge members || members.all (· == v) then 0
  else if binWidth k ≤ 12 then 1
  else
    let w := binWidth k - 12
    let sub := members.filter fun q => (q - binLo k) >>> w == (v - binLo k) >>> w
    if edge sub || sub.all (· == v) then 1 else 2

/-- Top-k (R135 step 2): q_k, τ, and refinement passes. The TOPK-th largest weight resolves it; a count that ends at a bin
edge keeps the same elements. -/
def cutK (ws : List Nat) (topk : Nat) : Nat × Option Nat × Nat :=
  if topk = 0 ∨ ws.length ≤ topk then (0, none, 0)
  else
    let v := ws.getD (topk - 1) 0
    let g := (ws.filter (v < ·)).length
    let ge := (ws.filter (v ≤ ·)).length
    let edge (l : List Nat) : Bool :=
      let lo := l.foldl min v
      (ws.filter (lo ≤ ·)).length == topk
    if ge = topk then (v, none, refinePasses ws v edge) else (v, some (topk - g), refinePasses ws v edge)

/-- Top-p (R135 step 3): q_p and refinement passes. -/
def cutP (ws : List Nat) (sAll topp : Nat) : Nat × Nat :=
  if topp = 65536 then (0, 0)
  else
    let m := (sAll * topp + 65535) / 65536
    let v := firstReach id m 0 ws
    (v, refinePasses ws v fun _ => false)

/-- The kept elements in index order with their weights (R135 step 5): `seen` counts the ties met so far. -/
def keptOf (qk : Nat) (tau : Option Nat) (qp : Nat) : Nat → List (Nat × Nat) → List (Nat × Nat)
  | _, [] => []
  | seen, (i, q) :: r =>
    let tie := q == qk && decide (qp ≤ q)
    let keep := decide (0 < q ∧ qp ≤ q) &&
      (decide (qk < q) || (q == qk && (match tau with | none => true | some t => decide (seen < t))))
    let rest := keptOf qk tau qp (if tie then seen + 1 else seen) r
    if keep then (i, q) :: rest else rest

/-- Elements of a lane for a vector of `n` elements (R120). -/
def laneSpan (n : Nat) : Nat := 4 * ((n + 511) / 512)
/-- The ranges of the lanes of some vectors, by first global index and length (R120). -/
def lanesOf (rs : List (Nat × Nat)) : List (Nat × Nat) :=
  rs.flatMap fun r => (List.range 128).filterMap fun j =>
    let a := j * laneSpan r.2
    let b := min ((j + 1) * laneSpan r.2) r.2
    if a < b then some (r.1 + a, b - a) else none
/-- Elements of a lane among weights by global index. -/
def inLane (ln : Nat × Nat) (l : List (Nat × Nat)) : List (Nat × Nat) := l.filter fun x => decide (ln.1 ≤ x.1 ∧ x.1 < ln.1 + ln.2)
/-- The owning lane's scan (R136): it keeps the first `q` elements of weight `qk` and every other kept element, and returns the
first global index whose running weight exceeds the rest of the target. -/
def scanLane (qk qp t : Nat) : Nat → Nat → List (Nat × Nat) → Option Nat
  | _, _, [] => none
  | q, run, (i, w) :: r =>
    let tie := w == qk
    let keep := decide (0 < w ∧ qp ≤ w) && (decide (qk < w) || (tie && decide (0 < q)))
    let q' := if keep && tie then q - 1 else q
    let run' := if keep then run + w else run
    if keep && decide (t < run') then some i else scanLane qk qp t q' run' r

/-- The least kept index whose running weight exceeds t (R136). -/
def pickIndex (t : Nat) : Nat → List (Nat × Nat) → Nat
  | _, [] => 0xFFFFFFFF
  | run, (i, q) :: r => if t < run + q then i else pickIndex t (run + q) r

/-- Insert by global index. -/
def insertIdx (x : Nat × Nat) : List (Nat × Nat) → List (Nat × Nat)
  | [] => [x]
  | y :: r => if x.1 ≤ y.1 then x :: y :: r else y :: insertIdx x r
/-- Weights in global index order. -/
def sortIdx (l : List (Nat × Nat)) : List (Nat × Nat) := l.foldl (fun a x => insertIdx x a) []

/-- Whether the ranges of the participants are exactly 0 to V − 1 (R120), by rising base. -/
def rangesOk : Nat → List (Nat × Nat) → Bool
  | _, [] => true
  | at_, (b, n) :: r => if n = 0 then rangesOk at_ r else (b == at_) && rangesOk (at_ + n) r

/-! ### Reductions at the hub (04 R133) -/

/-- Whether a report is of a parcel of this device. -/
def PassReport.ofEng (r : PassReport) (e : EngId) : Bool := r.far.isNone && r.eng == e
/-- Ranges of the participants (R120): this device's parcels and those of other devices. -/
def HubCtx.ranges (c : HubCtx) : List (Nat × Nat) := sortIdx ((c.opened.map fun x => (x.2.vbase, x.2.nelem)) ++ c.farRanges)

/-- Pass A reduced: L_max, for greedy the least index that holds it, and the vocabulary (R120). -/
def State.reduceA (s : State) (home slot : Nat) (c : HubCtx) : State :=
  let rs := c.ranges
  if !rangesOk 0 rs then
    ((s.hubFault home 0x221 slot).modSheet home fun h => h.closeHub slot).setPhase home slot .idle
  else
    let ls := c.arrived.flatMap fun r => r.logits
    let lmax := ls.foldl (fun m x => match m with | none => some x.2 | some v => some (max v x.2)) none
    let idx := ls.foldl (fun m x => if some x.2 = lmax then min m x.1 else m) 0xFFFFFFFF
    let fl := c.arrived.foldl (fun f r => f ||| r.sflags) 0
    let s := s.raiseSlot home slot fl
    (s.modSheet home fun h => h.putHub
      { c with stage := .maxed, lmax := lmax, gidx := idx, vocab := (rs.map Prod.snd).sum, arrived := []
               poison := c.poison || c.arrived.any fun r => r.poison }).setPhase home slot .maxed

/-- Pass B reduced and the cut decided (R135). -/
def State.reduceB (s : State) (home slot : Nat) (c : HubCtx) : State :=
  let r := ((s.sheet home).slot slot).pend
  let s := s.raiseSlot home slot (c.arrived.foldl (fun f r => f ||| r.sflags) 0)
  let ws := sortDesc ((c.arrived.flatMap fun r => r.weights).map Prod.snd)
  let sAll := ws.sum
  let empty := if r.greedy then c.lmax == none else sAll == 0
  let s := if empty then s.raiseSlot home slot sNOSAMPLE else s
  let (qk, tau, nk) := if r.greedy || empty then (0, none, 0) else cutK ws r.topk.toNat
  let (qp, np) := if r.greedy || empty then (0, 0) else cutP ws sAll r.topp.toNat
  (s.modSheet home fun h => h.putHub
    { c with stage := .weighed, sAll := sAll, qk := qk, tau := tau, qp := qp, empty := empty, arrived := []
             refine := max nk np, poison := c.poison || c.arrived.any fun r => r.poison }).setPhase home slot .weighed

/-- Pass C reduced (R136), after the refinement passes that the cut needed. TIES: top-k, measured on the whole distribution,
excluded an element of the weight q_k by its index (R135). -/
def State.reduceC (s : State) (home slot : Nat) (c : HubCtx) : State :=
  let ws := sortIdx (c.arrived.flatMap fun r => r.weights)
  let kept := if c.empty then [] else keptOf c.qk c.tau c.qp 0 ws
  let ties : Bool := match c.tau with
    | none => false
    | some t => decide (t < (ws.filter fun x => x.2 == c.qk).length)
  let s := if ties then s.raiseSlot home slot sTIES else s
  let s := if 0 < c.refine then s.raiseSlot home slot sREFINED else s
  let s := s.forEach c.opened fun s x => s.parcelEvent x.1 { cls := 2, code := 0x03, inc := c.refine }
  (s.modSheet home fun h => h.putHub
    { c with stage := .cut, weights := ws, kept := kept, total := (kept.map Prod.snd).sum, arrived := []
             poison := c.poison || c.arrived.any fun r => r.poison }).setPhase home slot .cut

/-- The hub's own path to the weight of an element (R145): the mask bit and the logit are read again and q is formed again; an
element of another device has the weight that its last pass reported. -/
def State.ownWeight (s : State) (c : HubCtx) (r : SlotRegs) (i : Nat) : Nat :=
  match c.opened.find? fun x => decide (x.2.vbase ≤ i ∧ i < x.2.vbase + x.2.nelem) with
  | some (e, o) =>
    let u := i - o.vbase
    (weightOf r (c.lmax.getD 0) (readLogit (s.pmem e) ((s.eng e).td o.src.val) (s.maskUnit e.sheet.val r.mask) u).1).1
  | none => ((c.scan.find? fun x => x.1 == i).map Prod.snd).getD 0
/-- The index check (R145): inside 0 to V − 1, allowed, of a weight that is not 0, and kept by R135. A greedy draw has no cut. -/
def State.indexOk (s : State) (c : HubCtx) (r : SlotRegs) (i : Nat) : Bool :=
  let q := s.ownWeight c r i
  let before := (c.weights.filter fun x => x.2 == c.qk && decide (x.1 < i)).length
  decide (i < c.vocab) && decide (0 < q) && decide (c.qp ≤ q) &&
  (decide (c.qk < q) || (q == c.qk && (match c.tau with | none => true | some t => decide (before < t))))
/-- The index that pass D finds (R136): the owning lane is the one that holds the target's place in pass C, and it scans the
weights that pass D read. Where these no longer reach the target, which the rules do not meet, `w` is the free index
(log 61). -/
def HubCtx.scanIndex (c : HubCtx) (t w : Nat) : Nat :=
  let i0 := pickIndex t 0 c.kept
  match (lanesOf c.ranges).find? fun l => decide (l.1 ≤ i0 ∧ i0 < l.1 + l.2) with
  | none => i0
  | some ln =>
    let p := ((c.kept.filter fun x => decide (x.1 < ln.1)).map Prod.snd).sum
    let quota := ((inLane ln c.kept).filter fun x => x.2 == c.qk).length
    (scanLane c.qk c.qp (t - p) quota 0 (sortIdx (inLane ln c.scan))).getD w
/-- SMP_DRAW has executed for a slot: on each of its sheets its step counter will advance (R127). -/
def State.slotDrew (s : State) (home slot : Nat) : State :=
  s.forEach (s.slotSheets home slot) fun s h => s.modSheet h fun x => x.modSlot slot fun y => { y with drew := true }
/-- Pass D is over at a hub. -/
def State.drawDone (s : State) (home slot : Nat) (c : HubCtx) (last : Bool) : State :=
  if last then (s.modSheet home fun h => h.closeHub slot).setPhase home slot .drawn
  else (s.modSheet home fun h => h.putHub { c with stage := .drawn, draws := [], scan := [], arrived := [], sentPass := none }).setPhase
    home slot .drawn

/-- Pass D reduced: the index is decided, checked and written (R132, R135, R136, R139, R145). -/
def State.reduceD (s : State) (home slot : Nat) (c : HubCtx) (d : Disturb) : State :=
  let hp := s.homeParcel home slot
  match c.draws.find? fun x => x.1 == hp with
  | none => s
  | some (_, o) =>
    let r := ((s.sheet home).slot slot).pend
    let key := s.streamOn home { purpose := 1, slot := r.gslot, tensor := r.tensor }
    match (if r.greedy || c.empty then some (0, 0) else key) with
    | none => s.unboundStream hp (opEngine 6 4)
    | some (k0, k1) =>
      let u := laneAt k0 k1 r.step.toNat (2 ^ 48 - 1) o.draw % 2 ^ 64
      let t := if r.greedy || c.empty then 0 else (u * c.total) >>> 64
      let w := Config.freeValue s.free % 2 ^ 32
      let s := { s with free := s.free + 1 }
      let idx0 := if c.empty then 0xFFFFFFFF else if r.greedy then c.gidx else c.scanIndex t w
      let idx := leNat (flipBytes (leBytes 4 idx0) d.transit)
      let s :=
        if o.pchk && c.empty then s.hubFault home 0x215 slot
        else if o.pchk && !s.indexOk c r idx then s.hubFault home 0x214 (slot + idx * 2 ^ 32)
        else s
      let s := s.modSheet home fun h => h.modSlot slot fun x =>
        { x with
          poison := x.poison || c.poison
          pend := { x.pend with index := BitVec.ofNat 32 idx
                                kept := BitVec.ofNat 64 (if r.greedy || c.empty then 0 else c.total)
                                target := BitVec.ofNat 64 t } }
      let s := s.slotDrew home slot
      let a := 64 * o.ibuf.toNat + 4 * o.iword
      let s :=
        if o.ibuf < 0 ∨ storeBytes < a + 4 ∨ !missesProg (s.eng hp) (o.ibuf + (4 * o.iword / 64 : Nat)) 4 then
          s.engHalt hp o.pc (opEngine 6 4)
        else (s.modPmem hp fun m => { m with store := mwrite m.store a (leBytes 4 idx) }).wroteStore hp a 4 c.poison
      let s := s.parcelEvent hp { cls := 2, code := 0x02 }
      s.drawDone home slot c o.last

/-! ### Slots over several devices (R121, R144) -/

/-- The pass that a hub context collects: 0 to 3. -/
def HubCtx.pass (c : HubCtx) : Nat :=
  if !c.draws.isEmpty then 3 else match c.stage with | .idle => 0 | .maxed => 1 | .weighed => 2 | _ => 3
/-- Whether every participant of this device has reported the pass in progress. -/
def State.allHere (s : State) (home slot : Nat) (c : HubCtx) : Bool :=
  let ps := s.participants home slot
  if c.draws.isEmpty then ps.all fun e => c.arrived.any fun r => r.ofEng e
  else ps.all fun e => c.draws.any fun x => x.1 == e
/-- Whether every participant's report of the pass in progress has arrived, other devices' parts included. -/
def State.allArrived (s : State) (home slot : Nat) (c : HubCtx) : Bool :=
  s.allHere home slot c && (((s.sheet home).slot slot).far.all fun f => c.arrived.any fun r => r.far == some f)
/-- A message of a hub to the hub of another device, on VL2 (R144): its step's context and route handle 0. -/
def State.sendHub (s : State) (home : Nat) (tgt : DevId × SheetId) (m : HubMsg) : State :=
  match s.curCtx home with
  | none => s
  | some c =>
    let spec := match (s.part (s.ctx c.val).part.toNat).runOf c with
      | some r => r.chart && !(s.part (s.ctx c.val).part.toNat).hold
      | none => false
    s.launchPacket
      { ptype := 4, poison := false, prov := spec, enc := false, src := s.chart.reg.devId, dst := BitVec.ofNat 12 tgt.1.val
        ctx := BitVec.ofNat 12 c.val, gen := (s.ctx c.val).gen, dsheet := BitVec.ofNat 4 tgt.2.val, route := 0, tspec := 0
        body := Config.hubBytes m }
/-- This device's part of a pass, joined in one report. -/
def HubCtx.report (c : HubCtx) (slot : Nat) : HubReport :=
  { slot := Fin.ofNat 128 slot, pass := c.pass, ranges := c.opened.map fun x => (x.2.vbase, x.2.nelem)
    logits := c.arrived.flatMap fun r => r.logits
    weights := if c.pass = 3 then c.scan else c.arrived.flatMap fun r => r.weights
    sflags := c.arrived.foldl (fun f r => f ||| r.sflags) 0
    poison := c.poison || c.arrived.any fun r => r.poison }
/-- The collecting hub of a device that is not the slot's home sends its part of the pass, once. -/
def State.sendReport (s : State) (home slot : Nat) (c : HubCtx) (tgt : DevId × SheetId) : State :=
  if c.sentPass == some c.pass then s
  else (s.sendHub home tgt (.report (c.report slot))).modSheet home fun h => h.putHub { c with sentPass := some c.pass }
/-- What a home hub broadcasts to the other devices after a reduction. -/
def State.sendResults (s : State) (home slot pass : Nat) (c : HubCtx) : State :=
  s.forEach ((s.sheet home).slot slot).far fun s f => s.sendHub home f (.result
    { slot := Fin.ofNat 128 slot, pass := pass, lmax := c.lmax, gidx := c.gidx, qk := c.qk, tau := c.tau, qp := c.qp
      empty := c.empty, refine := c.refine, poison := c.poison })
/-- The result of a pass reaches a device that is not the slot's home. -/
def State.takeResult (s : State) (home : Nat) (r : HubResult) : State :=
  match (s.sheet home).hubOf r.slot.val with
  | none => s
  | some c =>
    if c.pass ≠ r.pass then s
    else
      let c := { c with lmax := r.lmax, gidx := r.gidx, qk := r.qk, tau := r.tau, qp := r.qp, empty := r.empty
                        refine := r.refine, poison := c.poison || r.poison, arrived := [], sentPass := none }
      let put (s : State) (st : SlotPhase) : State := (s.modSheet home fun h => h.putHub { c with stage := st }).setPhase home r.slot.val st
      match r.pass with
      | 0 => put s .maxed
      | 1 => put s .weighed
      | 2 => put s .cut
      | _ => (s.slotDrew home r.slot.val).drawDone home r.slot.val c (c.draws.any fun x => x.2.last)
/-- The report of another device's part reaches the home hub. -/
def State.takeReport (s : State) (home : Nat) (src : DevId × SheetId) (r : HubReport) : State :=
  let c := ((s.sheet home).hubOf r.slot.val).getD { slot := r.slot.val }
  if !(((s.sheet home).slot r.slot.val).far.contains src) || (c.arrived.any fun x => x.far == some src) then s
  else
    let rep : PassReport :=
      { eng := { sheet := src.2, parcel := 0 }, logits := r.logits, weights := r.weights, sflags := r.sflags, poison := r.poison
        far := some src }
    s.modSheet home fun h => h.putHub
      { c with arrived := c.arrived ++ [rep], farRanges := if r.pass = 0 then c.farRanges ++ r.ranges else c.farRanges
               scan := if r.pass = 3 then c.scan ++ r.weights else c.scan }
/-- A HUB packet reaches the hub of a sheet (R144). -/
def State.hubArrives (s : State) (sheet : Nat) (src : DevId) (body : List Byte) : State :=
  match Config.parseHub body with
  | none => s
  | some (.result r) => s.takeResult sheet r
  | some (.report r) =>
    match ((s.sheet sheet).slot r.slot.val).far.find? fun f => f.1 == src with
    | some f => s.takeReport sheet f r
    | none => s

/-- The reduction of a pass at the home hub. -/
def State.reduceHome (s : State) (home slot : Nat) (c : HubCtx) (d : Disturb) : State :=
  if !c.draws.isEmpty then s.reduceD home slot c d
  else match c.stage with
    | .idle => s.reduceA home slot c
    | .maxed => s.reduceB home slot c
    | .weighed => s.reduceC home slot c
    | _ => s
/-- The reduction that follows the last participant of the pass in progress: at the slot's home hub; elsewhere this device's part
goes to it. -/
def State.reducePass (s : State) (home slot : Nat) (d : Disturb) : State :=
  match (s.sheet home).hubOf slot with
  | none => s
  | some c =>
    match ((s.sheet home).slot slot).homeDev with
    | some tgt => if s.allHere home slot c then s.sendReport home slot c tgt else s
    | none =>
      if !s.allArrived home slot c then s
      else
        let s := s.reduceHome home slot c d
        s.sendResults home slot c.pass (((s.sheet home).hubOf slot).getD c)

/-- A residue or duplication check that fired at a hub: kind 0x203, or 0x521 where the hub also draws and its generator's copies
differ (03 R114, 05 R160; 13 R500). -/
def State.hubResidue (s : State) (home slot : Nat) (draws : Bool) (d : Disturb) : State :=
  match d.residue with
  | some u => s.hubFault home (if draws && u.gen then 0x521 else 0x203) slot
  | none => s
/-- HUB_REDUCTION (04 R133): with the residue and duplication checks on the hub's arithmetic (R145) and on the generator that
draws u (05 R160). -/
def State.doHubReduction (s : State) (sheet slot : Nat) (d : Disturb) : State :=
  (s.hubResidue sheet slot true d).reducePass sheet slot d

/-- Passes that complete without a reduction of their own: greedy passes B and C, passes C and D of a draw without weight,
and a greedy draw's pass D (R132, R135). -/
def State.reduceNow (s : State) (home slot : Nat) (d : Disturb) : State :=
  match (s.sheet home).hubOf slot with
  | none => s
  | some c =>
    let g := ((s.sheet home).slot slot).pend.greedy
    if ((s.sheet home).slot slot).homeDev.isSome || !((s.sheet home).slot slot).far.isEmpty then s
    else if g && c.stage != .idle || c.empty then s.reducePass home slot d else s

/-! ### The pass words -/

/-- Bytes of the parcel store that a pass reads for its mask (R128). -/
def State.maskUses (s : State) (e : EngId) (o : PassOp) : List (Nat × Nat) :=
  match s.maskUnit e.sheet.val ((s.sheet (s.homeOf e.sheet.val o.slot.val)).slot o.slot.val).pend.mask with
  | some u => [(64 * u, max 1 ((o.nelem + 7) / 8))]
  | none => []
/-- Words of this parcel's store that a draw started here has still to write: those of the draws whose home parcel this is,
until HUB_REDUCTION writes the index (R136, R141). -/
def State.indexPending (s : State) (e : EngId) : List (Nat × Nat) :=
  (s.sheet e.sheet.val).hubs.flatMap fun c =>
    if s.homeParcel e.sheet.val c.slot == e && ((s.sheet e.sheet.val).slot c.slot).homeDev.isNone then
      (c.draws.filter fun x => x.1 == e).map fun x => (unitByte x.2.ibuf + 4 * x.2.iword, 4)
    else []

/-- Whether an engine's previous pass of a slot still waits for its reduction (R141). -/
def State.passOutstanding (s : State) (home slot : Nat) (e : EngId) : Bool :=
  match (s.sheet home).hubOf slot with
  | none => false
  | some c => (c.arrived.any fun r => r.ofEng e) || c.draws.any fun x => x.1 == e
/-- Whether a pass must wait at the hub (R141): its previous pass is not reduced, or no context is free to open. -/
def State.passWaits (s : State) (e : EngId) (o : PassOp) (opens : Bool) : Bool :=
  let home := s.homeOf e.sheet.val o.slot.val
  s.passOutstanding home o.slot.val e ||
  (opens && (((s.sheet home).hubOf o.slot.val).isNone) && decide (16 ≤ (s.sheet home).hubs.length))

/-- Whether a later pass carries the fields of the pass that opened the draw in its parcel (R140). -/
def sameFields (a b : PassOp) : Bool := a.src == b.src && a.vbase == b.vbase && a.nelem == b.nelem

/-- SMP_MAX, pass A. -/
def State.doSmpMax (s : State) (e : EngId) (o : PassOp) (d : Disturb) : State :=
  let op := opEngine 6 1
  let home := s.homeOf e.sheet.val o.slot.val
  let c := ((s.sheet home).hubOf o.slot.val).getD { slot := o.slot.val }
  if c.stage != .idle || (c.opened.any fun x => x.1 == e) || !((s.participants home o.slot.val).contains e) then
    s.passBroken e o.slot.val op
  else
    let reg := ((s.sheet home).slot o.slot.val).pend
    let mask := s.maskUnit e.sheet.val reg.mask
    let (s, poison) := s.passRead e o mask d
    let (els, fl) := readVector (s.pmem e) ((s.eng e).td o.src.val) mask o.vbase o.nelem
    let rep : PassReport :=
      { eng := e, logits := els.filterMap fun x => x.2.map fun l => (x.1, l), weights := [], sflags := fl, poison := poison }
    let s := s.residueFault e d 5 op (slotAddr o.slot.val)
    (s.modSheet home fun h => h.putHub
      { c with opened := c.opened ++ [(e, o)], arrived := c.arrived ++ [rep] })

/-- A later pass over the vector: SMP_WEIGH (from phase MAXED) and SMP_CUT (from WEIGHED). -/
def State.doLaterPass (s : State) (e : EngId) (o : PassOp) (d : Disturb) (need : SlotPhase) (opc : Nat) : State :=
  let op := opEngine 6 opc
  let home := s.homeOf e.sheet.val o.slot.val
  match (s.sheet home).hubOf o.slot.val with
  | none => s.passBroken e o.slot.val op
  | some c =>
    let reg := ((s.sheet home).slot o.slot.val).pend
    if c.stage != need || !(c.opened.any fun x => x.1 == e && sameFields x.2 o) then s.passBroken e o.slot.val op
    else if reg.greedy || c.empty then
      (s.modSheet home fun h => h.putHub
        { c with arrived := c.arrived ++ [{ eng := e, logits := [], weights := [], sflags := 0, poison := false }] }).reduceNow
          home o.slot.val d
    else
      let mask := s.maskUnit e.sheet.val reg.mask
      let (s, poison) := s.passRead e o mask d
      let (els, _) := readVector (s.pmem e) ((s.eng e).td o.src.val) mask o.vbase o.nelem
      let ws := els.map fun x => (x.1, weightOf reg (c.lmax.getD 0) x.2)
      let rep : PassReport :=
        { eng := e, logits := [], weights := ws.map fun x => (x.1, x.2.1), poison := poison
          sflags := if ws.any fun x => x.2.2 then sCLAMP else 0 }
      let s := s.residueFault e d 5 op (slotAddr o.slot.val)
      s.modSheet home fun h => h.putHub { c with arrived := c.arrived ++ [rep] }

/-- SMP_DRAW, pass D. -/
def State.doSmpDraw (s : State) (e : EngId) (o : PassOp) (d : Disturb) : State :=
  let op := opEngine 6 4
  let home := s.homeOf e.sheet.val o.slot.val
  match (s.sheet home).hubOf o.slot.val with
  | none => s.passBroken e o.slot.val op
  | some c =>
    if (c.stage != .cut && c.stage != .drawn) || !(c.opened.any fun x => x.1 == e && sameFields x.2 o) then
      s.passBroken e o.slot.val op
    else
      let reg := ((s.sheet home).slot o.slot.val).pend
      if reg.greedy || c.empty then
        let s := s.residueFault e d 5 op (slotAddr o.slot.val)
        (s.modSheet home fun h => h.putHub { c with draws := c.draws ++ [(e, o)] }).reduceNow home o.slot.val d
      else
        let mask := s.maskUnit e.sheet.val reg.mask
        let (s, poison) := s.passRead e o mask d
        let (els, _) := readVector (s.pmem e) ((s.eng e).td o.src.val) mask o.vbase o.nelem
        let ws := els.map fun x => (x.1, (weightOf reg (c.lmax.getD 0) x.2).1)
        let s := s.residueFault e d 5 op (slotAddr o.slot.val)
        s.modSheet home fun h => h.putHub
          { c with draws := c.draws ++ [(e, o)], scan := c.scan ++ ws, poison := c.poison || poison }

/-! ### Binary decisions (04 R147) -/

/-- Which decision a word makes. -/
inductive BinKind where
  | bernoulli | heatbath | metropolis
deriving DecidableEq, Repr

/-- The 32-bit uniform of element x. -/
def uniform32 (k : Nat × Nat) (step x draw : Nat) : Nat := (laneAt k.1 k.2 step (x / 4) draw >>> (32 * (x % 4))) % 2 ^ 32

/-- One decision: 1 or 0, and whether something clamped. -/
def decide1 (kd : BinKind) (b2 : Bool) (r : SlotRegs) (y : Int) (u : Nat) : Bool × Bool :=
  match kd with
  | .bernoulli => let (w, cl) := if b2 then (y, false) else natToBase2 y; (decide (u < sigmoid2 w), cl)
  | .heatbath =>
    if r.greedy then (decide (y < 0), false)
    else let (z, cl) := tempScale r (-y); (decide (u < sigmoid2 z), cl)
  | .metropolis =>
    if y ≤ 0 then (true, false)
    else if r.greedy then (false, false)
    else let (z, cl) := tempScale r (-y); (decide (u < exp2Unit z), cl)

/-- SMP_BERNOULLI, SMP_HEATBATH and SMP_METROPOLIS. -/
def State.doBinary (s : State) (e : EngId) (o : BinOp) (d : Disturb) (kd : BinKind) (opc : Nat) : State :=
  let op := opEngine 6 opc
  let h := s.sheet e.sheet.val
  let r := (h.slot o.slot.val).pend
  let purpose : BitVec 4 := if kd == .metropolis then 6 else 1
  let needs := kd == .bernoulli || !r.greedy
  match (if needs then s.streamOn e.sheet.val { purpose := purpose, slot := r.gslot, tensor := r.tensor } else some (0, 0)) with
  | none => s.unboundStream e op
  | some k =>
    let src := (s.eng e).td o.src.val
    let s := s.sramRead e d [] [src.accRange]
    let pm := s.pmem e
    let poison := s.readPoison e [] [o.src.val]
    let dst := { (s.eng e).td o.dst.val with f32 := false }
    let places := (rowPlaces o.frow o.nrows src.vcols.toNat).filter fun p =>
      decide (p.1 < dst.vrows.toNat ∧ p.2 < dst.vcols.toNat ∧ p.1 < src.vrows.toNat)
    let res := places.map fun p =>
      match q24Val (accVal pm.acc src p.1 p.2) with
      | none => (p, false, fNAN)
      | some (y, c1) =>
        let (b, c2) := decide1 kd o.b2 r y (uniform32 k r.step.toNat (dst.elemIndex p.1 p.2) o.draw)
        (p, b, flagIf (c1 || c2) fCLAMP)
    let s := s.modPmem e fun m => { m with acc := res.foldl (fun a x => putAccElem a dst x.1.1 x.1.2 (b2n x.2.1)) m.acc }
    let s := s.modEng e fun g => g.modTd o.dst.val fun t => t.collect (res.foldl (fun f x => f ||| x.2.2) 0) 0
    let s := s.wroteTd e o.dst.val poison
    let s := s.modSheet e.sheet.val fun h => h.modSlot o.slot.val fun x => { x with drew := true, poison := x.poison || poison }
    let s := s.parcelEvent e { cls := 2, code := 0x06, inc := places.length }
    let s := s.residueFault e d 5 op (slotAddr o.slot.val)
    s.rangeCheck e o.dst.val op

end Sys2Proof.Machine
end

