-- ==== Sys2Proof/Machine/CoupledOps.lean ====
section
/-! DEFINITION. Coupled models (06): fields, proposals, settlement, groups, energies, schedules, sweep ends and exchange. -/

namespace Sys2Proof.Machine

/-- CPL_FIELDS (06 R210). -/
def fieldsOk (o : FieldsOp) : Bool := decide (1 ≤ o.nch ∧ o.nch ≤ 128)
/-- CPL_PROPOSE: CCHK needs SYNC (06 R197, R210). -/
def proposeOk (o : ProposeOp) : Bool :=
  decide (1 ≤ o.nch ∧ o.nch ≤ 128) && decide (o.draw < 65536) && decide (o.midx < 65536) && (!o.cchk || o.sync)
/-- CPL_SETTLE. -/
def settleOk (o : SettleOp) : Bool := decide (1 ≤ o.nch ∧ o.nch ≤ 128) && (o.qfmt == 0 || o.qfmt == 1 || o.qfmt == 7)
/-- CPL_APPLY. -/
def applyOk (o : ApplyOp) : Bool := decide (1 ≤ o.nch ∧ o.nch ≤ 128)
/-- CPL_GROUP. -/
def groupOk (o : GroupOp) : Bool :=
  decide (1 ≤ o.nch ∧ o.nch ≤ 128) && decide (o.gidx < 16) && decide (1 ≤ o.ng ∧ o.ng ≤ 255) && decide (o.draw < 65536)
/-- CPL_ENERGY. -/
def energyOk (o : EnergyOp) : Bool := decide (1 ≤ o.nch ∧ o.nch ≤ 128)
/-- CPL_EXCHANGE. -/
def exchangeOk (o : ExchangeOp) : Bool := decide (1 ≤ o.nch ∧ o.nch ≤ 128) && decide (o.draw < 65536)

/-! ### Shared checks and chain state -/

/-- The division of the running program on a sheet. -/
def State.curDiv (s : State) (sheet : Nat) : Option DivProg :=
  match s.partOf sheet, s.curPlan sheet with
  | some p, some l =>
    match l.plan.progs[(s.part p).prog]? with
    | none => none
    | some g => g.divs.find? fun d => d.sheet.val == sheet && d.n == (s.sheet sheet).pmap.length
  | _, _ => none

/-- Kind 0x233 at a parcel (06 R211; 13 R500). -/
def State.wordBroken (s : State) (e : EngId) (pc : Nat) (op : BitVec 16) : State :=
  s.engFault e 2 5 0x233 op (BitVec.ofNat 64 (pc % 8192))

/-- Every chain slot of a word is bound, and they lie in the slots of the sheet (R211). -/
def State.slotsOk (s : State) (e : EngId) (slot nch : Nat) : Bool :=
  decide (slot + nch ≤ 128) &&
  (List.range nch).all fun c => ((s.sheet e.sheet.val).slot (slot + c)).pend.bound
/-- A descriptor fit to be a field tile (R211). -/
def fieldTileOk (t : TileDesc) (nch : Nat) : Bool := t.inAcc && !t.f32 && t.xstride == 0 && decide (nch ≤ t.vrows.toNat)

/-- Chain c of a word: its state at the home sheet's hub. -/
def State.chainAt (s : State) (home n : Nat) : Chain := (s.sheet home).chain n
/-- Change the pending copy of a chain. -/
def State.modPend (s : State) (home n : Nat) (f : ChainRegs → ChainRegs) : State :=
  s.modSheet home fun h => h.modChain n fun c => { c with pend := f c.pend }
/-- Raise chain flags (R208); CLAMP and NAN count toward OK_FLAGS. -/
def State.raiseChain (s : State) (home n : Nat) (f : BitVec 8) : State :=
  let s := s.modPend home n fun r => { r with cflags := r.cflags ||| f }
  if f &&& 0xC = 0 then s
  else match s.partOf home with
    | none => s
    | some p => s.modPart p fun x => { x with stepFlagged := true }
/-- Poison the pending state of chains (08 R248). -/
def State.poisonChains (s : State) (home slot nch : Nat) (p : Bool) : State :=
  if p then s.modSheet home fun h => (List.range nch).foldl (fun h c => h.modChain (slot + c) fun x => { x with poison := true }) h
  else s
/-- Mark chain slots as having drawn in the step (R207). -/
def State.drewSlots (s : State) (e : EngId) (slot nch : Nat) : State :=
  s.modSheet e.sheet.val fun h => (List.range nch).foldl (fun h c => h.modSlot (slot + c) fun x => { x with drew := true }) h

/-- CLAMP of CFLAGS. -/
def cCLAMP : BitVec 8 := 8
/-- NAN. -/
def cNAN : BitVec 8 := 4
/-- NEWBEST. -/
def cNEWBEST : BitVec 8 := 2
/-- EXCHANGED. -/
def cEXCHANGED : BitVec 8 := 1
/-- SYNC. -/
def cSYNC : BitVec 8 := 16

/-- q24 of an integer energy (R187). -/
def chainQ24 (r : ChainRegs) (x : Int) : Int × Bool := q24Of x r.eexp.toInt
/-- scale with the chain's inverse temperature and the slot's base (R187). -/
def chainScale (r : ChainRegs) (b2 : Bool) (z : Int) : Int := (tempScale { invt := r.invt, base2 := b2 } z).1

/-- The Metropolis and heat-bath rules on an operand X (R189). -/
def chainAccepts (r : ChainRegs) (b2 heat : Bool) (u : Nat) (x : Int) : Bool :=
  let z := (chainQ24 r x).1
  if r.teff = 0 then (if heat then decide (z < 0) else decide (z ≤ 0))
  else if heat then decide (u < sigmoid2 (chainScale r b2 (-z)))
  else decide (z ≤ 0) || decide (u < exp2Unit (chainScale r b2 (-z)))

/-- Bisection for the largest accepted X in [lo, hi), lo accepted and hi not. -/
def boundSearch (acc : Int → Bool) : Nat → Int → Int → Int
  | 0, lo, _ => lo
  | n + 1, lo, hi =>
    let mid := (lo + hi).fdiv 2
    if acc mid then boundSearch acc n mid hi else boundSearch acc n lo mid

/-- The acceptance bound β (R190). -/
def acceptBound (acc : Int → Bool) : Int :=
  if acc a64Max then a64Max else if !acc (-a64Max) then -(2 ^ 63) else boundSearch acc 64 (-a64Max) a64Max

/-- A state bit of a chain in a block record (R181). -/
def stateBit (m : Mem) (radr : Int) (c j : Nat) : Bool := storeElem m (unitByte radr) 0 c j != 0
/-- Write a state bit. -/
def putStateBit (m : Mem) (radr : Int) (c j : Nat) (x : Bool) : Mem := putStoreElem m (unitByte radr) 0 c j (b2n x)
/-- Write a δ element: the δ tile follows the state tile's NCH rows. -/
def putDelta (m : Mem) (radr : Int) (nch c j : Nat) (v : Int) : Mem :=
  putStoreElem m (unitByte (radr + nch)) 0 c j (twos 4 v)
/-- Bytes of a block record. -/
def recordBytes (nch : Nat) : Nat := 128 * nch
/-- Linear term of column j. -/
def hElem (m : Mem) (hadr : Int) (j : Nat) : A64 := biasElem m hadr j
/-- Field of chain c and column j: nothing for NaN. -/
def fieldAt (m : Mem) (t : TileDesc) (c j : Nat) : Option Int :=
  match a64Of (accElem m t c j) with
  | .nan => none
  | .int x => some x

/-- The key of a chain slot's stream and the slot's step counter. -/
def State.slotKey (s : State) (e : EngId) (purpose : BitVec 4) (n : Nat) : Option ((Nat × Nat) × Nat) :=
  let r := ((s.sheet e.sheet.val).slot n).pend
  (s.streamOn e.sheet.val { purpose := purpose, slot := r.gslot, tensor := r.tensor }).map fun k => (k, r.step.toNat)

/-! ### Fields (R185, R186) -/

/-- CPL_FIELDS. -/
def State.doFields (s : State) (e : EngId) (o : FieldsOp) (d : Disturb) : State :=
  let op := opEngine 7 1
  let src := (s.eng e).td o.src.val
  let dst := (s.eng e).td o.dst.val
  if !s.slotsOk e o.slot.val o.nch || !fieldTileOk src o.nch || !fieldTileOk dst o.nch then s.wordBroken e o.pc op
  else if !o.mode then
    if !inStore o.hadr 1024 then s.engHalt e o.pc op
    else
      let rg := [(unitByte o.hadr, 1024)]
      let s := s.sramRead e d rg []
      let poison := s.readPoison e rg []
      let pm := s.pmem e
      let places := (List.range o.nch).flatMap fun c => (List.range dst.vcols.toNat).map fun j => (c, j)
      let s := s.modPmem e fun m =>
        { m with acc := places.foldl (fun a p => putAccElem a dst p.1 p.2 (a64Code (hElem pm.store o.hadr p.2))) m.acc }
      let s := ((s.wroteTd e o.dst.val poison).retally e o.dst.val).residueFault e d 4 op (checkAddr o.dst.val 0)
      s.rangeCheck e o.dst.val op
  else
    let s := s.sramRead e d [] [src.accRange, dst.accRange]
    let m := (s.pmem e).acc
    let differ := (List.range o.nch).any fun c =>
      (List.range (min src.vcols.toNat dst.vcols.toNat)).any fun j => accElem m src c j != accElem m dst c j
    let s := s.residueFault e d 4 op (checkAddr o.dst.val 0)
    if differ then s.engFault e 2 4 0x230 op (BitVec.ofNat 64 o.dst.val) else s

/-! ### Proposals, settlement and application (R193-R197) -/

/-- Proposal mask bit of column j (R193): AUX 0 proposes every variable. -/
def State.maskBytes (s : State) (e : EngId) (o : ProposeOp) : Option Nat :=
  if o.aux = 0 then none else (s.tensorAt e.sheet.val o.aux).map fun t => 64 * t.storeUnit + 16 * o.midx
/-- Whether column j is proposed. -/
def proposedBit (m : Mem) (mask : Option Nat) (j : Nat) : Bool :=
  match mask with
  | none => true
  | some a => (mget m (a + j / 8)).getLsbD (j % 8)

/-- One proposed variable (R189, R190, R194 step 1). -/
def proposeVar (r : ChainRegs) (b2 heat : Bool) (u : Nat) (c j : Nat) (x : Bool) (f : Option Int) : SettleVar :=
  match f with
  | none => { chain := c, j := j, x := x, field := none, bound := 0, prop := x }
  | some fv =>
    let acc := chainAccepts r b2 heat u
    let opd := if heat then fv else if x then -fv else fv
    let y := acc opd
    { chain := c, j := j, x := x, field := some fv, bound := acceptBound acc, prop := if heat then y else (x != y) }

/-- Whether a proposal set is in the scan list of the running division (R180, R211). -/
def State.proposalListed (s : State) (e : EngId) (o : ProposeOp) : Bool :=
  match s.curDiv e.sheet.val with
  | none => false
  | some v => v.scan.any fun i => match i with
    | .propose _ l b m x => l == e.parcel && decide (128 * b = ((s.eng e).td o.src.val).xbase.toNat) && m == o.aux && x == o.midx
    | _ => false

/-- CPL_PROPOSE. -/
def State.doPropose (s : State) (e : EngId) (o : ProposeOp) (d : Disturb) : State :=
  let op := opEngine 7 2
  let src := (s.eng e).td o.src.val
  let slot := o.slot.val
  let home := s.homeOf e.sheet.val slot
  if (s.eng e).settle.isSome || !s.slotsOk e slot o.nch || !fieldTileOk src o.nch || (o.cchk && !s.proposalListed e o) then
    s.wordBroken e o.pc op
  else if !inStore o.radr (recordBytes o.nch) || (o.aux != 0 && (s.maskBytes e o).isNone) then s.engHalt e o.pc op
  else
    let keys := (List.range o.nch).map fun c => s.slotKey e 6 (slot + c)
    if keys.any Option.isNone then s.unboundStream e op
    else
      let mask := s.maskBytes e o
      let rg := (unitByte o.radr, 64 * o.nch) :: (match mask with | some a => [(a, 16)] | none => [])
      let s := s.sramRead e d rg [src.accRange]
      let pm := s.pmem e
      let poison := s.readPoison e rg [o.src.val]
      let js := (List.range src.vcols.toNat).filter (proposedBit pm.store mask)
      let vars := keys.zipIdx.flatMap fun kc =>
        match kc.1 with
        | none => []
        | some (k, step) =>
          let r := (s.chainAt home (slot + kc.2)).pend
          let b2 := ((s.sheet e.sheet.val).slot (slot + kc.2)).pend.base2
          js.map fun j =>
            proposeVar r b2 o.heat (uniform32 k step (src.elemIndex kc.2 j) o.draw) kc.2 j (stateBit pm.store o.radr kc.2 j)
              (fieldAt pm.acc src kc.2 j)
      let s := s.forEach (List.range o.nch) fun s c =>
        let vs := vars.filter fun v => v.chain == c
        let r := (s.chainAt home (slot + c)).pend
        let nan := vs.any fun v => v.field == none
        let cl := vs.any fun v => match v.field with
          | none => false
          | some f => (chainQ24 r (if o.heat then f else if v.x then -f else f)).2
        s.raiseChain home (slot + c)
          ((if nan then cNAN else 0) ||| (if cl then cCLAMP else 0) ||| (if o.sync then cSYNC else 0))
      let s := s.modEng e fun g =>
        { g with settle := some { slot := slot, nch := o.nch, src := o.src.val, heat := o.heat, sync := o.sync, done := false
                                  vars := vars, poison := poison } }
      let s := if o.sync then s.modRun e.sheet.val fun r => { r with notseq := true } else s
      (s.drewSlots e slot o.nch).residueFault e d 5 op (slotAddr slot)

/-- A coefficient q_ij of the diagonal tile (R176): or the range kind that its element meets (R179). -/
def coefAt (m : Mem) (qadr : Int) (f : BitVec 4) (eexp : Int) (i j : Nat) : Except (BitVec 12) Int :=
  match decodeElem f (storeElem m (unitByte qadr) f i j) with
  | .nan => .error 0x211
  | .inf _ => .error 0x212
  | .fin n t =>
    let k := if f == 7 then t - eexp else t
    if shlExact n k then .ok (shl n k) else .error 0x210

/-- Places (i, j), i > j, of the proposed columns: the coefficients that F′ takes (R194 step 2). -/
def columnPairs (js : List Nat) : List (Nat × Nat) := js.flatMap fun i => (js.filter (· < i)).map fun j => (i, j)
/-- Places (i, j), i < j, of the proposed columns: the coefficients whose conflicts a synchronous block counts (R196). -/
def conflictPairs (js : List Nat) : List (Nat × Nat) := js.flatMap fun i => (js.filter (i < ·)).map fun j => (i, j)
/-- The range kinds that coefficients at some places meet, each once (R179). -/
def coefKinds (m : Mem) (qadr : Int) (f : BitVec 4) (eexp : Int) (ps : List (Nat × Nat)) : List (BitVec 12) :=
  (ps.filterMap fun p => match coefAt m qadr f eexp p.1 p.2 with
    | .error k => some k
    | .ok _ => none).eraseDups
/-- Raises range kinds of a tile, each at most once per tile and step (03 R116). -/
def State.raiseKinds (s : State) (e : EngId) (td : Nat) (op : BitVec 16) (ks : List (BitVec 12)) : State :=
  s.forEach ks fun s k =>
    if (s.eng e).raised.contains (td, k.toNat) then s
    else (s.engFault e 3 0 k op (BitVec.ofNat 64 td)).modEng e fun g => { g with raised := g.raised ++ [(td, k.toNat)] }

/-- Settle the variables of one chain in rising index (R194 step 2): `chg` holds the changed ones with their δ. -/
def settleVars (q : Nat → Nat → Int) (heat sync : Bool) : List (Nat × Int) → List SettleVar → List SettleVar
  | _, [] => []
  | chg, v :: r =>
    match v.field with
    | none => { v with final := v.x } :: settleVars q heat sync chg r
    | some f =>
      let fp := a64Sat (f + (chg.map fun c => q v.j c.1 * c.2).sum)
      let fin :=
        if sync then v.prop
        else if heat then decide (fp ≤ v.bound)
        else if decide ((if v.x then -fp else fp) ≤ v.bound) then !v.x else v.x
      let dl : Int := (b2n fin : Int) - b2n v.x
      { v with final := fin, fprime := fp } :: settleVars q heat sync (if dl = 0 then chg else chg ++ [(v.j, dl)]) r

/-- CPL_SETTLE. Nothing is formed from a coefficient that meets a range kind: it adds nothing to F′ (R179; the step is abandoned). -/
def State.doSettle (s : State) (e : EngId) (o : SettleOp) (d : Disturb) : State :=
  let op := opEngine 7 3
  let src := (s.eng e).td o.src.val
  match (s.eng e).settle with
  | none => s.wordBroken e o.pc op
  | some b =>
    if b.done || b.slot != o.slot.val || b.nch != o.nch || b.src != o.src.val || !s.slotsOk e o.slot.val o.nch ||
        !fieldTileOk src o.nch then s.wordBroken e o.pc op
    else
      let n := tileBytes o.qfmt false
      if !inStore o.qadr n then s.engHalt e o.pc op
      else
        let rg := [(unitByte o.qadr, n)]
        let s := s.sramRead e d rg []
        let poison := s.readPoison e rg []
        let m := (s.pmem e).store
        let js := (b.vars.map fun v => v.j).eraseDups
        let clash := if b.sync then conflictPairs js else []
        let s := s.raiseKinds e o.src.val op (coefKinds m o.qadr o.qfmt src.wexp (columnPairs js ++ clash))
        let q (i j : Nat) : Int := match coefAt m o.qadr o.qfmt src.wexp i j with | .ok v => v | .error _ => 0
        let vars := (List.range o.nch).flatMap fun c => settleVars q b.heat b.sync [] (b.vars.filter fun v => v.chain == c)
        let conf := (clash.filter fun p => q p.1 p.2 != 0).length
        let home := s.homeOf e.sheet.val o.slot.val
        let s := s.forEach (if conf = 0 then [] else List.range o.nch) fun s c =>
          let old := (s.chainAt home (o.slot.val + c)).pend.conflict
          let s := if old.toNat + conf < 2 ^ 32 - 1 then s else s.satGroup 7
          s.modPend home (o.slot.val + c) fun r => { r with conflict := satInc r.conflict conf }
        let red := (vars.filter fun v => v.final != v.prop).length
        let s := s.modEng e fun g =>
          { g with settle := some { b with done := true, vars := vars, poison := b.poison || poison }, rescan := g.rescan + red }
        s.residueFault e d 5 op (slotAddr o.slot.val)

/-- Add to a chain's running energy. -/
def addEnergy (r : ChainRegs) (v : Int) : ChainRegs := { r with energy := BitVec.ofInt 64 (r.energy.toInt + v) }

/-- CPL_APPLY (R194 step 3). -/
def State.doApply (s : State) (e : EngId) (o : ApplyOp) (d : Disturb) : State :=
  let op := opEngine 7 4
  let src := (s.eng e).td o.src.val
  match (s.eng e).settle with
  | none => s.wordBroken e o.pc op
  | some b =>
    if !b.done || b.slot != o.slot.val || b.nch != o.nch || b.src != o.src.val || !s.slotsOk e o.slot.val o.nch ||
        !fieldTileOk src o.nch then s.wordBroken e o.pc op
    else if !inStore o.radr (recordBytes o.nch) || !missesProg (s.eng e) o.radr (recordBytes o.nch) then s.engHalt e o.pc op
    else
      let rg := [(unitByte o.radr, recordBytes o.nch)]
      let s := s.sramRead e d rg []
      let poison := b.poison || s.readPoison e rg []
      let home := s.homeOf e.sheet.val o.slot.val
      let delta (v : SettleVar) : Int := (b2n v.final : Int) - b2n v.x
      let s := s.modPmem e fun m =>
        let st := mzero m.store (unitByte (o.radr + o.nch)) (64 * o.nch)
        { m with store := b.vars.foldl (fun st v =>
            putDelta (putStateBit st o.radr v.chain v.j v.final) o.radr o.nch v.chain v.j (delta v)) st }
      let s := s.forEach (List.range o.nch) fun s c =>
        let vs := b.vars.filter fun v => v.chain == c
        let acc := (vs.filter fun v => v.final != v.x).length
        let red := (vs.filter fun v => v.final != v.prop).length
        s.modPend home (o.slot.val + c) fun r =>
          { addEnergy r ((vs.map fun v => delta v * v.fprime).sum) with
            runAccept := r.runAccept + BitVec.ofNat 24 acc, runRedec := r.runRedec + BitVec.ofNat 24 red }
      let red := (b.vars.filter fun v => v.final != v.prop).length
      let s := s.parcelEvent e { cls := 2, code := 0x05, inc := red }
      let s := (s.wroteStore e (unitByte o.radr) (recordBytes o.nch) poison).poisonChains home o.slot.val o.nch poison
      (s.modEng e fun g => { g with settle := none }).residueFault e d 5 op (slotAddr o.slot.val)

/-! ### Groups (R198-R200) -/

/-- A group table entry: first variable and size. -/
def groupEntry (m : Mem) (gadr : Int) (i : Nat) : Nat × Nat :=
  let w := leNat (mread m (unitByte gadr + 4 * i) 4)
  (w % 2 ^ 20, w / 2 ^ 24 + 1)

/-- Where a member lies: its spanned block 0 to 2 and its column; nothing outside the blocks. -/
def memberAt (base v : Nat) : Option (Nat × Nat) :=
  if v < base ∨ base + 384 ≤ v then none else some ((v - base) / 128, (v - base) % 128)

/-- One member of a group in one chain: its variable, block, column, state and field. -/
structure Member where
  v : Nat
  blk : Nat
  col : Nat
  x : Bool
  field : Option Int

/-- The least element of a list of integers, `a` among them. -/
def leastInt (a : Int) (l : List Int) : Int := l.foldl min a

/-- The new hot member of a group (R200): its place among the members, and whether an operand saturated. `u5` is the
64-bit uniform of purpose 5, `u6` the 32-bit one of purpose 6. -/
def groupMove (r : ChainRegs) (b2 metro : Bool) (fs : List Int) (hot u5 u6 : Nat) : Nat × Bool :=
  let greedy := r.teff == 0
  let fmin := match fs with | [] => 0 | a :: l => leastInt a l
  if !metro then
    if greedy then ((fs.findIdx? fun f => f == fmin).getD hot, false)
    else
      let zs := fs.map fun f => chainQ24 r (fmin - f)
      let ws := zs.map fun z => exp2Unit (chainScale r b2 z.1)
      let t := (u5 * ws.sum) >>> 64
      let k := pickIndex t 0 (ws.zipIdx.map fun w => (w.2, w.1))
      (if k < fs.length then k else hot, zs.any fun z => z.2)
  else
    let others := (List.range fs.length).filter (· != hot)
    let cand := others.getD ((u5 * (fs.length - 1)) >>> 64) hot
    let x := fs.getD cand 0 - fs.getD hot 0
    (if chainAccepts r b2 false u6 x then cand else hot, (chainQ24 r x).2)

/-- The groups of a batch: first variable and size of each. -/
def State.groupsOf (s : State) (e : EngId) (o : GroupOp) : List (Nat × Nat) :=
  (List.range o.ng).map fun i => groupEntry (s.pmem e).store o.gadr (o.gidx + i)
/-- The variables of a batch. -/
def State.groupVars (s : State) (e : EngId) (o : GroupOp) : List Nat :=
  (s.groupsOf e o).flatMap fun x => (List.range x.2).map fun k => x.1 + k
/-- First variable of a batch's first block. -/
def State.groupBase (s : State) (e : EngId) (o : GroupOp) : Nat := ((s.eng e).td o.src.val).xbase.toNat
/-- The blocks that a batch spans. -/
def State.groupBlocks (s : State) (e : EngId) (o : GroupOp) : List Nat :=
  (((s.groupVars e o).filterMap (memberAt (s.groupBase e o))).map Prod.fst).eraseDups
/-- Record of the k-th spanned block. -/
def recordOf (o : GroupOp) (k : Nat) : Int := o.radr + 2 * o.nch * k
/-- Bytes of the records that a batch rewrites. -/
def State.groupBytes (s : State) (e : EngId) (o : GroupOp) : Nat := recordBytes o.nch * ((s.groupBlocks e o).foldl max 0 + 1)
/-- Whether a batch is in the scan list of the running division (R180, R211). -/
def State.batchListed (s : State) (e : EngId) (o : GroupOp) : Bool :=
  match s.curDiv e.sheet.val with
  | none => false
  | some v => v.scan.any fun i => match i with
    | .batch _ l a x n => l == e.parcel && a == o.gadr && x == o.gidx && n == o.ng
    | _ => false
/-- The checks of CPL_GROUP that do not read the table (R211). -/
def State.groupFits (s : State) (e : EngId) (o : GroupOp) : Bool :=
  s.slotsOk e o.slot.val o.nch && fieldTileOk ((s.eng e).td o.src.val) o.nch && s.batchListed e o
/-- Every member lies in a spanned block whose field tile is fit. -/
def State.groupSpans (s : State) (e : EngId) (o : GroupOp) : Bool :=
  ((s.groupVars e o).all fun v => (memberAt (s.groupBase e o) v).isSome) &&
  (s.groupBlocks e o).all fun k => fieldTileOk ((s.eng e).td (o.src.val + k)) o.nch && decide (o.src.val + k < 32)
/-- The members of one group in one chain. -/
def State.membersOf (s : State) (e : EngId) (o : GroupOp) (c : Nat) (x : Nat × Nat) : List Member :=
  let pm := s.pmem e
  (List.range x.2).filterMap fun i => (memberAt (s.groupBase e o) (x.1 + i)).map fun p =>
    { v := x.1 + i, blk := p.1, col := p.2, x := stateBit pm.store (recordOf o p.1) c p.2
      field := fieldAt pm.acc ((s.eng e).td (o.src.val + p.1)) c p.2 }

/-- The outcome of one group in one chain (R200): hot member before and after, whether a field is NaN, whether an operand
saturated, and the energy difference. -/
structure GroupOut where
  hot : Nat
  new : Nat
  nan : Bool
  clamp : Bool
  dE : Int
/-- Decide one group in one chain: a NaN field leaves the group as it is (R208). -/
def State.groupOut (s : State) (e : EngId) (o : GroupOp) (c v : Nat) (ms : List Member) : GroupOut :=
  let n := o.slot.val + c
  let r := (s.chainAt (s.homeOf e.sheet.val o.slot.val) n).pend
  let b2 := ((s.sheet e.sheet.val).slot n).pend.base2
  let fs := ms.filterMap fun m => m.field
  let hot := (ms.findIdx? fun m => m.x).getD 0
  let u5 := match s.slotKey e 5 n with
    | some (k, st) => laneAt k.1 k.2 st v o.draw % 2 ^ 64
    | none => 0
  let u6 := match s.slotKey e 6 n with
    | some (k, st) => uniform32 k st v o.draw
    | none => 0
  if fs.length = ms.length then
    let m := groupMove r b2 o.metro fs hot u5 u6
    { hot := hot, new := m.1, nan := false, clamp := m.2, dE := fs.getD m.1 0 - fs.getD hot 0 }
  else { hot := hot, new := hot, nan := true, clamp := false, dE := 0 }
/-- Whether the streams that a batch draws from are bound (05 R151). -/
def State.groupBound (s : State) (e : EngId) (o : GroupOp) : Bool :=
  (List.range o.nch).all fun c =>
    let n := o.slot.val + c
    let cold := (s.chainAt (s.homeOf e.sheet.val o.slot.val) n).pend.teff == 0
    ((!o.metro && cold) || (s.slotKey e 5 n).isSome) && (!o.metro || cold || (s.slotKey e 6 n).isSome)
/-- The hot member of a group moves in the state and δ tiles (R200). -/
def moveHot (o : GroupOp) (c : Nat) (ms : List Member) (g : GroupOut) (st : Mem) : Mem :=
  if g.hot = g.new then st
  else match ms[g.hot]?, ms[g.new]? with
    | some a, some b =>
      let st := putDelta (putStateBit st (recordOf o a.blk) c a.col false) (recordOf o a.blk) o.nch c a.col (-1)
      putDelta (putStateBit st (recordOf o b.blk) c b.col true) (recordOf o b.blk) o.nch c b.col 1
    | _, _ => st

/-- CPL_GROUP. -/
def State.doGroup (s : State) (e : EngId) (o : GroupOp) (d : Disturb) : State :=
  let op := opEngine 7 5
  let slot := o.slot.val
  let home := s.homeOf e.sheet.val slot
  let n := s.groupBytes e o
  let blks := s.groupBlocks e o
  if !s.groupFits e o then s.wordBroken e o.pc op
  else if !inStore o.gadr (4 * (o.gidx + o.ng)) then s.engHalt e o.pc op
  else if !s.groupSpans e o then s.wordBroken e o.pc op
  else if !inStore o.radr n || !missesProg (s.eng e) o.radr n then s.engHalt e o.pc op
  else
    let rg := [(unitByte o.gadr, 4 * (o.gidx + o.ng)), (unitByte o.radr, n)]
    let s := s.sramRead e d rg (blks.map fun k => ((s.eng e).td (o.src.val + k)).accRange)
    let poison := s.readPoison e rg (blks.map fun k => o.src.val + k)
    let all := (List.range o.nch).flatMap fun c => (s.groupsOf e o).map fun x => (c, x.1, s.membersOf e o c x)
    match all.find? fun m => (m.2.2.filter fun v => v.x).length != 1 with
    | some m => s.engFault e 2 5 0x232 op (BitVec.ofNat 64 (m.2.1 + (slot + m.1) * 2 ^ 20))
    | none =>
      if !s.groupBound e o then s.unboundStream e op
      else
        let moves := all.map fun m => (m.1, m.2.2, s.groupOut e o m.1 m.2.1 m.2.2)
        let s := s.modPmem e fun p =>
          let st := (List.range (blks.foldl max 0 + 1)).foldl
            (fun st k => mzero st (unitByte (recordOf o k + o.nch)) (64 * o.nch)) p.store
          { p with store := moves.foldl (fun st m => moveHot o m.1 m.2.1 m.2.2 st) st }
        let s := s.forEach moves fun s m =>
          let g := m.2.2
          let s := s.raiseChain home (slot + m.1) ((if g.nan then cNAN else 0) ||| (if g.clamp then cCLAMP else 0))
          if g.hot = g.new then s
          else s.modPend home (slot + m.1) fun r => { addEnergy r g.dE with runAccept := r.runAccept + 1 }
        let s := (s.wroteStore e (unitByte o.radr) n poison).poisonChains home slot o.nch poison
        (s.drewSlots e slot o.nch).residueFault e d 5 op (slotAddr slot)

/-! ### The schedule tensor (R201) -/

/-- Read bytes of a schedule tensor at the home sheet's memory path: a sealed tensor's element data in tile order, each
tile checked (08 R245); a raw one's bytes from its first. A byte outside the tensor reads 0, poisoned. -/
def State.schedRead (s : State) (home : Nat) (t : Tensor) (off n : Nat) (d : Disturb) : State × List Byte × Bool :=
  let s := s.noteRead home t
  if t.isSealed then
    let k := tileElemBytes t.fmt
    let i0 := off / k
    let tiles := (List.range ((off + n - 1) / k + 1 - i0)).map (· + i0)
    let (s, b, p) := tiles.foldl (fun (x : State × List Byte × Bool) i =>
      match t.tileLoc home i with
      | none => (x.1, x.2.1 ++ List.replicate k 0, true)
      | some l =>
        let (s, r) := x.1.readTile t l i none 0x0E d
        (s, x.2.1 ++ r.bytes.take k, x.2.2 || r.poison)) (s, [], false)
    (s, (b.drop (off - i0 * k)).take n, p)
  else
    let at_ := (List.range n).map fun k => t.rawAt home (off + k)
    let s := match at_.head?.join with
      | some x => s.upset x.1 d
      | none => s
    let pages := (at_.filterMap fun x => x.map fun y => (y.1, y.2 / 4096)).eraseDups
    let bad := at_.any Option.isNone || pages.any fun g => (s.sheet g.1).mem.pageBad g.2
    let bytes := at_.map fun x => match x with
      | some y => mget (s.sheet y.1).mem.dram y.2
      | none => 0
    (s.forEach pages fun s g => s.lookPages g.1 [g.2] 0x0E, bytes, bad)

/-- The schedule header. -/
structure SchedHeader where
  nsched : Nat
  nrung : Nat
  stallmax : Nat
  gstep : Nat
  gcap : Nat
  profh : BitVec 16
  eexp : BitVec 11
  plen : Nat

/-- Read a header; nothing where it breaks R201. -/
def parseSched (b : List Byte) : Option SchedHeader :=
  let ns := recField b 0 4
  let nr := recField b 4 1
  let pl := recField b 20 4
  if ns = 0 ∨ nr = 0 ∨ 128 < nr ∨ recField b 5 1 ≠ 0 ∨ 2048 ≤ recField b 18 2 ∨ pl = 0 ∨ 2 ^ 21 < pl ∨ recField b 24 8 ≠ 0 then none
  else some
    { nsched := ns, nrung := nr, stallmax := recField b 6 2, gstep := recField b 8 4, gcap := recField b 12 4
      profh := BitVec.ofNat 16 (recField b 16 2), eexp := BitVec.ofNat 11 (recField b 18 2), plen := pl }

/-- Whether the hub waits on a slice in a refresh stall: of a slot's schedule tensor or, with `prof`, of its profile ring (08 R253;
log 82). -/
def State.auxStalls (s : State) (home : Nat) (aux : BitVec 16) (prof : Bool) : Bool :=
  match s.tensorAt home aux with
  | none => false
  | some t => s.tensorStalls t ||
      (prof && match parseSched (s.schedRead home t 0 32 {}).2.1 with
        | some h => (s.tensorAt home h.profh).any s.tensorStalls
        | none => false)

/-- TEFF and INVT for a sweep, rung and gust offset (R203). -/
def tempOf (t gust : Nat) : BitVec 32 × BitVec 32 :=
  let te := min (t + gust) (2 ^ 32 - 1)
  (BitVec.ofNat 32 te, BitVec.ofNat 32 (if te = 0 then 0 else min (2 ^ 32 / te) (2 ^ 32 - 1)))

/-- Set TEFF and INVT of a chain from the schedule. -/
def State.setTemp (s : State) (home n : Nat) (t : Tensor) (h : SchedHeader) (d : Disturb) : State × Bool :=
  let r := (s.chainAt home n).pend
  let i := min r.sweep.toNat (h.nsched - 1)
  let p := min r.rung.toNat (h.nrung - 1)
  let (s, b, bad) := s.schedRead home t (32 + 4 * (i * h.nrung + p)) 4 d
  let (te, iv) := tempOf (leNat b) r.gust.toNat
  (s.modPend home n fun r => { r with teff := te, invt := iv }, bad)

/-! ### Energies and sweep ends (R202, R203, R209, R211) -/

/-- The hub's group of energy words of a slot. -/
def Sheet.energyGroup (h : Sheet) (slot : Nat) : Option HubGroup := h.groups.find? fun g => g.slot == slot && g.exch.isEmpty
/-- The hub's group of exchange words of a slot. -/
def Sheet.exchGroup (h : Sheet) (slot : Nat) : Option HubGroup := h.groups.find? fun g => g.slot == slot && !g.exch.isEmpty
/-- Remove the energy group. -/
def Sheet.dropEnergy (h : Sheet) (slot : Nat) : Sheet :=
  { h with groups := h.groups.filter fun g => !(g.slot == slot && g.exch.isEmpty) }
/-- Remove the exchange group. -/
def Sheet.dropExch (h : Sheet) (slot : Nat) : Sheet :=
  { h with groups := h.groups.filter fun g => !(g.slot == slot && !g.exch.isEmpty) }
/-- Kind 0x233 at the hub (13 R500). -/
def State.hubBroken (s : State) (home : Nat) : State := s.hubFault home 0x233 0

/-- The contribution of a parcel over chain c (R202). -/
def chainSums (pm : ParcelMem) (t : TileDesc) (radr hadr : Int) (c : Nat) : RunSums × Bool :=
  (List.range t.vcols.toNat).foldl (fun (r : RunSums × Bool) j =>
    if !stateBit pm.store radr c j then r
    else match hElem pm.store hadr j, fieldAt pm.acc t c j with
      | .int h, some f => ({ xh := r.1.xh + h, xf := r.1.xf + (f - h) }, r.2)
      | _, _ => (r.1, true)) ({}, false)

/-- CPL_ENERGY. -/
def State.doEnergy (s : State) (e : EngId) (o : EnergyOp) (d : Disturb) : State :=
  let op := opEngine 7 6
  let slot := o.slot.val
  let src := (s.eng e).td o.src.val
  let home := s.homeOf e.sheet.val slot
  let flagged := o.init || o.echk || o.fin
  let owns := src.vrows != 0
  if !s.slotsOk e slot o.nch || (owns && !fieldTileOk src o.nch) || (o.init && !o.echk) then s.wordBroken e o.pc op
  else
    let counts := owns && (o.echk || !flagged)
    if counts && (!inStore o.radr (64 * o.nch) || !inStore o.hadr 1024) then s.engHalt e o.pc op
    else
      let rg := if counts then [(unitByte o.radr, 64 * o.nch), (unitByte o.hadr, 1024)] else []
      let s := s.sramRead e d rg (if counts then [src.accRange] else [])
      let pm := s.pmem e
      let poison := counts && s.readPoison e rg [o.src.val]
      let own (c : Nat) : RunSums × Bool := if counts then chainSums pm src o.radr o.hadr c else ({}, false)
      let s := s.forEach (List.range o.nch) fun s c => if (own c).2 then s.raiseChain home (slot + c) cNAN else s
      let s := s.modEng e fun g =>
        { g with sums := (List.range o.nch).foldl (fun t c =>
            tmod {} t (slot + c) fun r => { xh := r.xh + (own c).1.xh, xf := r.xf + (own c).1.xf }) g.sums }
      let s := s.poisonChains home slot o.nch poison
      let hit (s : State) : State := s.residueFault e d 4 op (checkAddr o.src.val 0)
      if !flagged then hit s
      else
        let g0 := ((s.sheet home).energyGroup slot).getD
          { slot := slot, nch := o.nch, aux := o.aux, init := o.init, echk := o.echk, fin := o.fin, prof := o.prof, arrived := []
            sums := [], combined := false, exch := [], par := false, draw := 0, poison := false }
        if g0.nch != o.nch || g0.aux != o.aux || g0.init != o.init || g0.echk != o.echk || g0.fin != o.fin || g0.prof != o.prof
            || g0.arrived.contains e then s.wordBroken e o.pc op
        else
          let mine := (s.eng e).sums
          let sums := (List.range o.nch).foldl (fun t c =>
            let m := tget ({} : RunSums) mine (slot + c)
            tmod {} t (slot + c) fun r => { xh := r.xh + m.xh, xf := r.xf + m.xf }) g0.sums
          let s := s.modEng e fun g => { g with sums := (List.range o.nch).foldl (fun t c => tdel t (slot + c)) g.sums }
          hit (s.modSheet home fun h =>
            { h.dropEnergy slot with groups := (h.dropEnergy slot).groups ++
                [{ g0 with arrived := g0.arrived ++ [e], sums := sums, poison := g0.poison || poison }] })

/-- The recomputed energy of a chain (R202). -/
def recomputed (r : RunSums) : Int := r.xh + r.xf.fdiv 2

/-- Whether every participating parcel's flagged word has arrived. -/
def State.groupFull (s : State) (home slot : Nat) (l : List EngId) : Bool := (s.participants home slot).all fun e => l.contains e

/-- HUB_ENERGY_COMBINE (R202, R203, R211): the running sums are combined and used where ECHK = 1; INIT sets the chains. -/
def State.doCombine (s : State) (home slot : Nat) (d : Disturb) : State :=
  match (s.sheet home).energyGroup slot with
  | none => s
  | some g =>
    if g.combined || !s.groupFull home slot g.arrived || (g.init && s.auxStalls home g.aux false) then s
    else
      let keep (s : State) : State := s.modSheet home fun h =>
        if g.fin then { h with groups := h.groups.map fun x => if x.slot == slot && x.exch.isEmpty then { x with combined := true } else x }
        else h.dropEnergy slot
      let en (c : Nat) : Int := recomputed (tget {} g.sums (slot + c))
      let s := (s.poisonChains home slot g.nch g.poison).hubResidue home slot false d
      if g.init then
        match s.tensorAt home g.aux with
        | none => keep (s.hubBroken home)
        | some t =>
          let (s, b, bad) := s.schedRead home t 0 32 d
          match parseSched b with
          | none => keep (s.hubBroken home)
          | some h =>
            let s := s.forEach (List.range g.nch) fun s c =>
              let s := s.modPend home (slot + c) fun r =>
                { r with eexp := h.eexp, sweep := 0, rung := BitVec.ofNat 8 c, energy := BitVec.ofInt 64 (en c)
                         best := BitVec.ofInt 64 (en c), gust := 0, stall := 0, phead := 0, cflags := 0, conflict := 0
                         runAccept := 0, runRedec := 0 }
              let (s, b2) := s.setTemp home (slot + c) t h d
              s.poisonChains home (slot + c) 1 (bad || b2)
            keep s
      else if g.echk then
        let low := (List.range g.nch).find? fun c => en c != (s.chainAt home (slot + c)).pend.energy.toInt
        let s := match low with
          | some c => s.hubFault home 0x231 (slot + c)
          | none => s
        keep s
      else keep s

/-- The 32 bytes of a profile entry (R209). -/
def profBytes (r : ChainRegs) (best : Word) : List Byte :=
  leBytes 8 r.energy.toNat ++ leBytes 8 best.toNat ++ leBytes 4 r.teff.toNat ++ leBytes 4 r.gust.toNat ++
  leBytes 5 r.sweep.toNat ++ leBytes 3 r.runAccept.toNat

/-- Replace bytes of a list from an offset. -/
def spliceBytes (b : List Byte) (off : Nat) (v : List Byte) : List Byte := b.take off ++ v ++ b.drop (off + v.length)

/-- Write one entry into the profile ring (R209): the tile that holds it is read, changed and sealed again (08 R244). -/
def State.writeProfile (s : State) (home : Nat) (t : Tensor) (off : Nat) (v : List Byte) (poison : Bool) (d : Disturb) : State :=
  if t.isSealed then
    let k := tileElemBytes t.fmt
    match t.tileLoc home (off / k) with
    | none => s
    | some l => s.partialWrite t l (off / k) poison 0x03 d fun h b => (h.take 24, spliceBytes b (off % k) v)
  else
    match t.rawAt home off with
    | none => s
    | some x => (s.upset x.1 d).writeRaw x.1 x.2 v poison false 0 0 0x03

/-- sweep_end of one chain (R203). -/
def State.sweepChain (s : State) (home slot c : Nat) (t : Tensor) (h : SchedHeader) (prof : Bool) (d : Disturb) : State :=
  let n := slot + c
  let r := (s.chainAt home n).pend
  let better := decide (r.energy.toInt < r.best.toInt)
  let best := if better then r.energy else r.best
  let s :=
    if prof && h.profh != 0 then
      match s.tensorAt home h.profh with
      | none => s
      | some ring =>
        (s.writeProfile home ring (32 * (c * h.plen + r.phead.toNat)) (profBytes r best) (s.chainAt home n).poison d).modPend home n
          fun r => { r with phead := BitVec.ofNat 21 ((r.phead.toNat + 1) % h.plen) }
    else s
  let s := s.modPend home n fun r =>
    let r := { r with accept := r.runAccept, redec := r.runRedec, runAccept := 0, runRedec := 0 }
    let r :=
      if better then { r with best := r.energy, gust := 0, stall := 0, cflags := r.cflags ||| cNEWBEST }
      else
        let r := { r with cflags := r.cflags &&& ~~~cNEWBEST }
        if h.stallmax = 0 then { r with stall := satInc r.stall }
        else if h.stallmax ≤ r.stall.toNat + 1 then
          { r with gust := BitVec.ofNat 32 (min (r.gust.toNat + h.gstep) h.gcap), stall := 0 }
        else { r with stall := r.stall + 1 }
    { r with sweep := r.sweep + 1 }
  let (s, bad) := s.setTemp home n t h d
  s.poisonChains home n 1 bad

/-- SWEEP_END (R203, R211): the hub runs sweep_end once for every chain when the last END word has arrived. -/
def State.doSweepEnd (s : State) (home slot : Nat) (d : Disturb) : State :=
  match (s.sheet home).energyGroup slot with
  | none => s
  | some g =>
    if !g.fin || !g.combined || s.auxStalls home g.aux g.prof then s
    else
      let s := (s.modSheet home fun h => h.dropEnergy slot).hubResidue home slot false d
      match s.tensorAt home g.aux with
      | none => s.hubBroken home
      | some t =>
        let (s, b, bad) := s.schedRead home t 0 32 d
        match parseSched b with
        | none => s.hubBroken home
        | some h =>
          (s.poisonChains home slot g.nch bad).forEach (List.range g.nch) fun s c => s.sweepChain home slot c t h g.prof d

/-! ### Exchange (R205) -/

/-- CPL_EXCHANGE: the word goes to the hub. -/
def State.doExchange (s : State) (e : EngId) (o : ExchangeOp) (d : Disturb) : State :=
  let op := opEngine 7 7
  let slot := o.slot.val
  let home := s.homeOf e.sheet.val slot
  if !s.slotsOk e slot o.nch then s.wordBroken e o.pc op
  else
    let g0 := ((s.sheet home).exchGroup slot).getD
      { slot := slot, nch := o.nch, aux := o.aux, init := false, echk := false, fin := false, prof := false, arrived := []
        sums := [], combined := false, exch := [], par := o.par, draw := o.draw, poison := false }
    if g0.nch != o.nch || g0.aux != o.aux || g0.par != o.par || g0.draw != o.draw || g0.exch.contains e then s.wordBroken e o.pc op
    else
      let s := s.modSheet home fun h =>
        { h.dropExch slot with groups := (h.dropExch slot).groups ++ [{ g0 with exch := g0.exch ++ [e] }] }
      (s.drewSlots e slot o.nch).residueFault e d 5 op (slotAddr slot)

/-- Zx of a pair (R205). -/
def exchZ (b2 : Bool) (eexp : Int) (dv : Int) : Int :=
  if b2 then (q24Sat (shl dv (eexp + 8))).1 else (q24Sat (shl (dv * log2e) (eexp - 22))).1

/-- The effective inverse temperature of a chain in an exchange: a greedy one takes 2^32 − 1. -/
def exchInvt (r : ChainRegs) : Nat := if r.teff = 0 then 2 ^ 32 - 1 else r.invt.toNat

/-- Whether the pair of chains a (lower rung) and b swaps. -/
def exchSwaps (ra rb : ChainRegs) (b2 : Bool) (u : Nat) : Bool :=
  let dv : Int := ((exchInvt ra : Int) - exchInvt rb) * (ra.energy.toInt - rb.energy.toInt)
  decide (0 ≤ dv) || decide (u < exp2Unit (exchZ b2 ra.eexp.toInt dv))

/-- HUB_EXCHANGE_DECIDE (R205, R211): once every participating parcel's word has arrived and no earlier energy group of the
chains is open. -/
def State.doExchDecide (s : State) (home slot : Nat) (d : Disturb) : State :=
  match (s.sheet home).exchGroup slot with
  | none => s
  | some g =>
    if !s.groupFull home slot g.exch || ((s.sheet home).energyGroup slot).isSome || s.auxStalls home g.aux false then s
    else
      let s := (s.modSheet home fun h => h.dropExch slot).hubResidue home slot true d
      let sl := ((s.sheet home).slot slot).pend
      match s.tensorAt home g.aux, s.streamOn home { purpose := 7, slot := sl.gslot, tensor := sl.tensor } with
      | none, _ => s.hubBroken home
      | _, none => s.sheetFault home 1 0x522 0x0E 0
      | some t, some k =>
        let (s, b, bad) := s.schedRead home t 0 32 d
        match parseSched b with
        | none => s.hubBroken home
        | some h =>
          let s := s.poisonChains home slot g.nch bad
          let s := s.forEach (List.range g.nch) fun s c =>
            s.modPend home (slot + c) fun r => { r with cflags := r.cflags &&& ~~~cEXCHANGED }
          let off := b2n g.par
          let js := (List.range g.nch).filter fun j => decide (2 * j + 1 + off < g.nch)
          let rungs := (List.range g.nch).map fun c => ((s.chainAt home (slot + c)).pend.rung.toNat, c)
          let chainOn (r : Nat) : Option Nat := (rungs.find? fun x => x.1 == r).map Prod.snd
          s.forEach js fun s j =>
            let a := 2 * j + off
            match chainOn a, chainOn (a + 1) with
            | some ca, some cb =>
              let ra := (s.chainAt home (slot + ca)).pend
              let rb := (s.chainAt home (slot + cb)).pend
              let u := uniform32 k sl.step.toNat a g.draw
              if exchSwaps ra rb sl.base2 u then
                let s := s.modPend home (slot + ca) fun r => { r with rung := rb.rung, cflags := r.cflags ||| cEXCHANGED }
                let s := s.modPend home (slot + cb) fun r => { r with rung := ra.rung, cflags := r.cflags ||| cEXCHANGED }
                let (s, p1) := s.setTemp home (slot + ca) t h d
                let (s, p2) := s.setTemp home (slot + cb) t h d
                s.poisonChains home slot g.nch (p1 || p2)
              else s
            | _, _ => s

end Sys2Proof.Machine
end

