-- ==== Sys2Proof/Machine/MoverOps.lean ====
section
/-! DEFINITION. What the mover does for each tile-movement word (03 R90, R96, R117): the effect of one word that starts. -/

namespace Sys2Proof.Machine

/-- Outcome flags of a sum in a raw tile, which carries no flags byte, count toward the step's status (02 R55). The tiles that
carry one are read when the step ends. -/
def State.noteOutput (s : State) (sheet : Nat) (fl : Nat) : State :=
  match s.partOf sheet with
  | none => s
  | some p => s.modPart p fun x =>
      { x with stepSat := x.stepSat || bit fl 0, stepFlagged := x.stepFlagged || bit fl 0 || bit fl 2 || bit fl 3 || bit fl 4 }

/-- The tile that a word names: its tensor and location. -/
def State.wordTile (s : State) (e : EngId) (o : MoveOp) : Option (Tensor × TileLoc) :=
  match s.tensorAt e.sheet.val o.handle with
  | none => none
  | some t => (t.tileLoc e.sheet.val o.tileIdx.toNat).map fun l => (t, l)

/-- Whether a DRAM word must wait: a stalled slice, or an add of its own engine into the tile not yet applied (03 R118). -/
def State.moveWaits (s : State) (e : EngId) (o : MoveOp) : Bool :=
  match s.wordTile e o with
  | none => false
  | some (t, l) =>
    s.stalls l.sheet l.addr (tileBytes t.fmt t.mx) ||
    (s.sheet l.sheet).mem.adds.any fun a => a.eng == e && a.tensor.number == t.number && a.tile == o.tileIdx.toNat

/-- Header that a descriptor gives a stored tile (R90, 08 R244). -/
def tdHeader (t : TileDesc) (tensor : BitVec 32) (idx : Nat) (f : BitVec 4) (mx : Bool) : List Byte :=
  mkHeader tensor.toNat idx t.bwcnt.toNat t.satcnt.toNat t.nflags.toNat f mx t.vrows.toNat t.vcols.toNat t.wexp

/-- The bytes of a descriptor's tile as a DRAM tile: its accumulator rows, zeros beyond them (03 R80, R85; log 19). -/
def tdBytes (m : Mem) (t : TileDesc) : List Byte :=
  let r := t.accRange
  mread m r.1 r.2 ++ List.replicate (tileElemBytes t.fmt - r.2) 0

/-- TILE_LOAD. -/
def State.doTileLoad (s : State) (e : EngId) (o : MoveOp) (d : Disturb) : State :=
  let op := opEngine 1 1
  let n := tileBytes o.fmt o.mx
  match s.wordTile e o with
  | none => s.engHalt e o.pc op
  | some (t, l) =>
    if !inStore o.ps n || !missesProg (s.eng e) o.ps n then s.engHalt e o.pc op
    else
      let (s, r) := (s.noteRead e.sheet.val t).readTile t l o.tileIdx.toNat (some (o.fmt, o.mx)) op d
      let s := s.parcelEvent e { cls := 3, code := 0x01, inc := (r.bytes.length + 63) / 64, addr := some (dramDevAddr l.sheet l.addr) }
      let s := s.modPmem e fun m =>
        { m with store := mwrite m.store (unitByte o.ps) (r.bytes.take n) }.putShape o.ps.toNat
          { vrows := recRows r.record, vcols := recCols r.record, fmt := o.fmt, mx := o.mx, wexp := recExp r.record }
      s.wroteStore e (unitByte o.ps) n r.poison

/-- TILE_STORE. -/
def State.doTileStore (s : State) (e : EngId) (o : MoveOp) (d : Disturb) : State :=
  let op := opEngine 1 2
  let n := tileBytes o.fmt o.mx
  match s.wordTile e o with
  | none => s.engHalt e o.pc op
  | some (t, l) =>
    if !inStore o.ps n || t.fmt != o.fmt || t.mx != o.mx then s.engHalt e o.pc op
    else
      let rg := [(unitByte o.ps, n)]
      let s := s.sramRead e d rg []
      let poison := s.readPoison e rg [o.td.val]
      let td := (s.eng e).td o.td.val
      let bytes := mread (s.pmem e).store (unitByte o.ps) n
      let s := s.parcelEvent e { cls := 3, code := 0x02, inc := (n + 63) / 64, addr := some (dramDevAddr l.sheet l.addr) }
      s.writeTile t l (tdHeader td t.number o.tileIdx.toNat o.fmt o.mx) bytes poison op d

/-- ACC_STORE (R90). -/
def State.doAccStore (s : State) (e : EngId) (o : MoveOp) (d : Disturb) : State :=
  let op := opEngine 1 3
  let td := (s.eng e).td o.td.val
  match s.wordTile e o with
  | none => s.engHalt e o.pc op
  | some (t, l) =>
    if t.fmt != td.fmt || t.mx then s.engHalt e o.pc op
    else
      let s := s.sramRead e d [] [td.accRange]
      let poison := s.readPoison e [] [o.td.val]
      let bytes := tdBytes (s.pmem e).acc td
      let s := s.parcelEvent e
        { cls := 3, code := 0x02, inc := (bytes.length + 63) / 64, addr := some (dramDevAddr l.sheet l.addr) }
      s.writeTile t l (tdHeader td t.number o.tileIdx.toNat td.fmt false) bytes poison op d

/-- Write a tile's bytes into a descriptor's rows; elements outside `vr` by `vc` become 0 (R90). -/
def putTd (m : Mem) (t : TileDesc) (src : Mem) (vr vc : Nat) : Mem :=
  let m := mzero m t.accRange.1 t.accRange.2
  (List.range (min vr t.vrows.toNat)).foldl (fun m i =>
    (List.range (min vc t.vcols.toNat)).foldl (fun m j => putAccElem m t i j (storeElem src 0 t.fmt i j)) m) m

/-- Re-window one element of a tile into another exponent, with its rounding threshold (02 R61). -/
def rewindowTile (k : Nat × Nat) (step : Nat) (rm : RoundMode) (t : TileDesc) (src : Mem) (e0 : Int) (vr vc : Nat) :
    List (Nat × Nat × Nat) × NFlags × Nat :=
  let ps := (List.range (min vr t.vrows.toNat)).flatMap fun i => (List.range (min vc t.vcols.toNat)).map fun j => (i, j)
  ps.foldl (fun (acc : List (Nat × Nat × Nat) × NFlags × Nat) p =>
    let w := if rm.toNat = 0 then roundThreshold k.1 k.2 step (t.elemIndex p.1 p.2) mConv else 0
    let (x, fl, ine) := rewindow rm w e0 t.wexp (a64Of (storeElem src 0 10 p.1 p.2))
    (acc.1 ++ [(p.1, p.2, a64Code x)], acc.2.1 ||| fl, acc.2.2 + b2n ine)) ([], 0, 0)

/-- ACC_LOAD (R90). An F32 tile has no window of integers: it is copied exactly whatever the header's exponent (log 70). -/
def State.doAccLoad (s : State) (e : EngId) (o : MoveOp) (d : Disturb) : State :=
  let op := opEngine 1 4
  let td := (s.eng e).td o.td.val
  match s.wordTile e o with
  | none => s.engHalt e o.pc op
  | some (t, l) =>
    let (s, r) := (s.noteRead e.sheet.val t).readTile t l o.tileIdx.toNat (some (td.fmt, false)) op d
    let s := s.parcelEvent e { cls := 3, code := 0x01, inc := (r.bytes.length + 63) / 64, addr := some (dramDevAddr l.sheet l.addr) }
    let src := bytesMem r.bytes
    let vr := recRows r.record
    let vc := recCols r.record
    let same := td.f32 || recExp r.record == td.wexp
    if same then
      let s := s.modPmem e fun m => { m with acc := putTd m.acc td src vr vc }
      let s := s.modEng e fun g => g.modTd o.td.val fun t =>
        { t with nflags := BitVec.ofNat 5 (recFlags r.record), bwcnt := BitVec.ofNat 32 (recBw r.record)
                 satcnt := BitVec.ofNat 16 (recSat r.record) }
      (s.wroteTdWhole e o.td.val r.poison).rangeCheck e o.td.val op
    else
      match s.roundKey e (o.rm == 0) td.tensor with
      | none => s.unboundStream e op
      | some k =>
        let (els, fl, bw) := rewindowTile k (s.stepNo e.sheet.val) o.rm td src (recExp r.record) vr vc
        let s := s.modPmem e fun m =>
          { m with acc := els.foldl (fun a p => putAccElem a td p.1 p.2.1 p.2.2) (mzero m.acc td.accRange.1 td.accRange.2) }
        let sat := satCount (s.pmem e).acc td
        let s := s.modEng e fun g => g.modTd o.td.val fun t =>
          { t with nflags := BitVec.ofNat 5 (recFlags r.record ||| fl), bwcnt := stopAdd 32 (recBw r.record) bw
                   satcnt := BitVec.ofNat 16 sat }
        (s.wroteTdWhole e o.td.val r.poison).rangeCheck e o.td.val op

/-- PS_TO_ACC. -/
def State.doPsToAcc (s : State) (e : EngId) (o : MoveOp) (d : Disturb) : State :=
  let op := opEngine 1 5
  let td := (s.eng e).td o.td.val
  let n := tileElemBytes td.fmt
  if !inStore o.ps n then s.engHalt e o.pc op
  else
    let rg := [(unitByte o.ps, n)]
    let s := s.sramRead e d rg []
    let poison := s.readPoison e rg []
    let s := s.modPmem e fun m =>
      let r := td.accRange
      { m with acc := mwrite (mzero m.acc r.1 r.2) r.1 (mread m.store (unitByte o.ps) r.2) }
    ((s.wroteTdWhole e o.td.val poison).retally e o.td.val).rangeCheck e o.td.val op

/-- ACC_TO_PS: unchanged. -/
def State.doAccToPs (s : State) (e : EngId) (o : MoveOp) (d : Disturb) : State :=
  let op := opEngine 1 6
  let td := (s.eng e).td o.td.val
  let n := tileElemBytes td.fmt
  if !inStore o.ps n || !missesProg (s.eng e) o.ps n then s.engHalt e o.pc op
  else
    let s := s.sramRead e d [] [td.accRange]
    let poison := s.readPoison e [] [o.td.val]
    let s := s.modPmem e fun m =>
      { m with store := mwrite m.store (unitByte o.ps) (tdBytes m.acc td) }.putShape o.ps.toNat
        { vrows := td.vrows.toNat, vcols := td.vcols.toNat, fmt := td.fmt, mx := false, wexp := td.wexp }
    s.wroteStore e (unitByte o.ps) n poison

/-- TILE_SEND: a tile image on a route, with the sender's leaf digest (08 R243, 11 R341). -/
def State.doTileSend (s : State) (e : EngId) (o : MoveOp) (d : Disturb) : State :=
  let op := opEngine 1 7
  let td := (s.eng e).td o.td.val
  let f := if o.src then td.fmt else o.fmt
  let mx := !o.src && o.mx
  let n := tileBytes f mx
  if !o.src && !inStore o.ps n then s.engHalt e o.pc op
  else
    let rg := if o.src then [] else [(unitByte o.ps, n)]
    let s := s.sramRead e d rg (if o.src then [td.accRange] else [])
    let poison := s.readPoison e rg [o.td.val]
    let bytes := if o.src then tdBytes (s.pmem e).acc td else mread (s.pmem e).store (unitByte o.ps) n
    let hdr := tdHeader td td.tensor o.tileIdx.toNat f mx
    let img := mkRecord hdr poison (sealOf hdr bytes) ++ bytes
    let spec := match (s.sheet e.sheet.val).routeOf o.handle with
      | some r => if r.dmul = 0 then 0 else leafSpec r img false
      | none => 0
    s.routeSend e.sheet.val o.handle { route := o.handle, image := img, poison := poison, tspec := spec, src := .engine e }

/-- The first arrival of a route at an engine. -/
def Engine.firstArrival (g : Engine) (rt : BitVec 16) : Option Arrival := g.inbox.find? fun a => a.route == rt

/-- Take the first arrival of a route out of an inbox. -/
def takeArrival (rt : BitVec 16) : List Arrival → List Arrival
  | [] => []
  | a :: r => if a.route == rt then r else a :: takeArrival rt r

/-- TILE_RECV: the receiving mover checks the image against its descriptor's tensor, the word's tile index and format, and places it
(08 R245); the address of a failure is where the tile is placed (R246). -/
def State.doTileRecv (s : State) (e : EngId) (o : MoveOp) (d : Disturb) : State :=
  let op := opEngine 1 8
  let g := s.eng e
  let td := g.td o.td.val
  let f := if o.src then td.fmt else o.fmt
  let mx := !o.src && o.mx
  let n := tileBytes f mx
  match g.firstArrival o.handle with
  | none => s
  | some a =>
    if !o.src && (!inStore o.ps n || !missesProg g o.ps n) then s.engHalt e o.pc op
    else
      let img := flipBytes a.image d.transit
      let rec0 := img.take 32
      let bytes := img.drop 32
      let far := match a.src with | .device _ => true | _ => false
      let s := s.modEng e fun g =>
        { g with inbox := takeArrival o.handle g.inbox, taken := if far then g.taken ++ [a] else g.taken }
      let bad := checkTile rec0 bytes { tensor := td.tensor.toNat, tile := o.tileIdx.toNat, fmt := some (f, mx) }
      let s := match bad with
        | none => s
        | some k =>
          let q := ((s.sheet e.sheet.val).phys e.parcel.val).getD 0
          let s := s.engFault e 3 1 k op
            (BitVec.ofNat 64 (if o.src then accDevAddr e.sheet.val q td.accRange.1 else storeDevAddr e.sheet.val q (unitByte o.ps)))
          let s := s.noteSat (s.sheet e.sheet.val).mem.sealFail 0
          s.modMem e.sheet.val fun m => { m with sealFail := satInc m.sealFail }
      let poison := a.poison || recPoison rec0 || bad.isSome
      if o.src then
        let src := bytesMem bytes
        let s := s.modPmem e fun m => { m with acc := putTd m.acc td src (recRows rec0) (recCols rec0) }
        let s := s.modEng e fun g => g.modTd o.td.val fun t =>
          { t with nflags := BitVec.ofNat 5 (recFlags rec0), bwcnt := BitVec.ofNat 32 (recBw rec0)
                   satcnt := BitVec.ofNat 16 (recSat rec0) }
        (s.wroteTdWhole e o.td.val poison).rangeCheck e o.td.val op
      else
        let s := s.modPmem e fun m =>
          { m with store := mwrite m.store (unitByte o.ps) (bytes.take n) }.putShape o.ps.toNat
            { vrows := recRows rec0, vcols := recCols rec0, fmt := f, mx := mx, wexp := recExp rec0 }
        s.wroteStore e (unitByte o.ps) n poison

/-- The request port of a sheet's memory path that serves an engine (08 R234): its physical parcel's own port there, the I/O channel's
port on another sheet. -/
def State.memPort (s : State) (e : EngId) (sheet : Nat) : Nat :=
  if e.sheet.val = sheet then ((s.sheet sheet).phys e.parcel.val).getD 19 else 19
/-- TILE_ADD_MEM: the add goes to the memory path of the tile's sheet (R117). -/
def State.doTileAddMem (s : State) (e : EngId) (o : MoveOp) (d : Disturb) : State :=
  let op := opEngine 1 9
  let td := (s.eng e).td o.td.val
  match s.wordTile e o with
  | none => s.engHalt e o.pc op
  | some (t, l) =>
    if t.fmt != td.fmt || t.mx then s.engHalt e o.pc op
    else
      let s := s.sramRead e d [] [td.accRange]
      let poison := s.readPoison e [] [o.td.val]
      let s := if td.f32 then s.modRun e.sheet.val fun r => { r with f32add := true } else s
      s.modMem l.sheet fun m =>
        { m with adds := m.adds ++ [{
            eng := e, ctx := (s.curCtx e.sheet.val).getD 0, tensor := t, tile := o.tileIdx.toNat
            loc := (l.sheet, l.addr, l.sealIx)
            header := tdHeader td t.number o.tileIdx.toNat td.fmt false, bytes := tdBytes (s.pmem e).acc td
            poison := poison, pc := o.pc, time := s.now, port := s.memPort e l.sheet }] }

/-- An incoming tile's bytes with the elements outside its valid shape taken as zero (03 R80). -/
def clipBytes (f : BitVec 4) (vr vc : Nat) (b : List Byte) : List Byte :=
  let w := rowBytes f
  let k := fmtBits f / 8
  (List.range 128).flatMap fun i =>
    if i < vr then (b.drop (w * i)).take (k * vc) ++ List.replicate (w - k * vc) 0 else List.replicate w 0

/-- Whether an add is applied before another: it arrived earlier, or at one datum count through a lower port (R118, 08 R234). -/
def AddReq.before (a b : AddReq) : Bool := decide (a.time < b.time) || (a.time == b.time && decide (a.port < b.port))
/-- The next add of a memory path. -/
def nextAdd : List AddReq → Option AddReq
  | [] => none
  | a :: l => match nextAdd l with
    | none => some a
    | some b => if b.before a then some b else some a
/-- SLICE_ADD: the slice's adder applies the next add that reached the memory path (R118, 08 R252). -/
def State.doSliceAdd (s : State) (sheet : Nat) (d : Disturb) : State :=
  match nextAdd (s.sheet sheet).mem.adds with
  | none => s
  | some a =>
    let l : TileLoc := { sheet := a.loc.1, addr := a.loc.2.1, sealIx := a.loc.2.2 }
    if s.stalls sheet l.addr (tileBytes a.tensor.fmt a.tensor.mx) then s else
    let s := s.modMem sheet fun m => { m with adds := m.adds.erase a }
    let op := opEngine 1 9
    let bytes := clipBytes a.tensor.fmt (recRows a.header) (recCols a.header) a.bytes
    let s := s.sheetEvent sheet { cls := 3, code := 0x15, addr := some (dramDevAddr sheet l.addr) }
    if a.tensor.isSealed then
      s.partialWrite a.tensor l a.tile a.poison op d (addChange a.tensor.fmt a.header bytes)
    else
      let s := s.upset sheet d
      let n := tileBytes a.tensor.fmt a.tensor.mx
      let m := (s.sheet sheet).mem
      let pages := pagesOf l.addr n
      let old := mread m.dram l.addr n
      let p := a.poison || pages.any fun p => (m.attr p).1 == 2 || m.differs p
      let (h, b) := addChange a.tensor.fmt a.header bytes (mapHeader a.tensor a.tile) old
      ((s.noteTensor sheet a.tensor.number).writeRaw sheet l.addr b p false l.addr (l.addr + n) op).noteOutput sheet (recFlags h)

/-- Bytes of a function table in the parcel store: 5,120 of coefficients and a unit of parameters (02 R73; log 21). -/
def tableBytes : Nat := 5184

/-- Read a function table (02 R73): 256 segments; a parameter outside its range has no reading of its own (log 21). -/
def readTable (m : Mem) (a : Nat) : FnTable :=
  let (b, k, eo, sg) := Config.parseTable (mread m a tableBytes)
  { base := b, k := k, eout := eo
    segs := List.ofFn fun i : Fin 256 => let c := sg i; { c0 := c.1, c1 := c.2.1, c2 := c.2.2.1, c3 := c.2.2.2 } }

/-- TABLE_LOAD. -/
def State.doTableLoad (s : State) (e : EngId) (o : MoveOp) (d : Disturb) : State :=
  let op := opEngine 1 0xA
  if !inStore o.ps tableBytes then s.engHalt e o.pc op
  else
    let rg := [(unitByte o.ps, tableBytes)]
    let s := s.sramRead e d rg []
    let poison := s.readPoison e rg []
    let i := o.td.val % 8
    s.modPmem e fun m =>
      { m with
        fnTables := tset {} m.fnTables i (readTable m.store (unitByte o.ps))
        fnPoison := if poison then sinsert m.fnPoison i else sremove m.fnPoison i }

end Sys2Proof.Machine
end

