-- ==== Sys2Proof/Machine/Units.lean ====
section
/-! DEFINITION. The three unit queues of an engine (03 R94, 04 R141): what a queued word reads and writes, when it may
start, and the one operation that starts a word. -/

namespace Sys2Proof.Machine

/-- What a word reads and writes: tile descriptors, and byte ranges of the parcel store. Beyond TD31 the list also names
what orders words without a descriptor: 32 + n function-table slot n, 64 the settlement buffer (06 R211), 100 + n the
passes of sample slot n (04 R141), 300 + n the chain of slot n (06 R211). -/
structure Uses where
  rtd : List Nat := []
  wtd : List Nat := []
  rst : List (Nat × Nat) := []
  wst : List (Nat × Nat) := []

/-- The store blocks of byte ranges. -/
def rangeBlocks (l : List (Nat × Nat)) : List Nat := l.flatMap fun r => storeBlocks r.1 r.2

/-- Whether a later word must wait for an earlier one (R94): it reads or writes what the earlier one writes, or writes
what the earlier one reads. -/
def Uses.meets (a b : Uses) : Bool :=
  (a.wtd.any fun x => b.rtd.contains x || b.wtd.contains x) || (a.rtd.any fun x => b.wtd.contains x) ||
  ((rangeBlocks a.wst).any fun x => (rangeBlocks b.rst).contains x || (rangeBlocks b.wst).contains x) ||
  ((rangeBlocks a.rst).any fun x => (rangeBlocks b.wst).contains x)

/-- Which queue a word enters: 0 mover, 1 array, 2 row unit (R94). -/
def uopUnit : Uop → Nat
  | .tileLoad _ | .tileStore _ | .accStore _ | .accLoad _ | .psToAcc _ | .accToPs _ | .tileSend _ | .tileRecv _
  | .tileAddMem _ | .tableLoad _ => 0
  | .mma _ => 1
  | .rowChain _ | .redSum _ | .redMoments _ | .redFinish _ | .convert _ | .rewindow _
  | .smpMax _ | .smpWeigh _ | .smpCut _ | .smpDraw _ | .bernoulli _ | .heatbath _ | .metropolis _
  | .fields _ | .propose _ | .settle _ | .apply _ | .group _ | .energy _ | .exchange _ => 2

/-- Whether LOAD_PLAN accepts a word's operands. -/
def uopOk : Uop → Bool
  | .tileLoad o | .tileStore o | .accStore o | .psToAcc o | .accToPs o | .tileAddMem o => moveOk o
  | .accLoad o => accLoadOk o
  | .tileSend o | .tileRecv o => routeMoveOk o
  | .tableLoad o => tableOk o
  | .mma o => mmaOk o
  | .rowChain o => chainOk o
  | .redSum o | .redMoments o => redOk o
  | .redFinish o => redFinishOk o
  | .convert o | .rewindow o => convOk o
  | .smpMax o | .smpWeigh o | .smpCut o => passOk o
  | .smpDraw o => drawOk o
  | .bernoulli o => binOk o
  | .heatbath o | .metropolis o => binOk o && !o.b2
  | .fields o => fieldsOk o
  | .propose o => proposeOk o
  | .settle o => settleOk o
  | .apply o => applyOk o
  | .group o => groupOk o
  | .energy o => energyOk o
  | .exchange o => exchangeOk o

/-- Queue entries that name chains. -/
def chainIds (slot nch : Nat) : List Nat := (List.range nch).map fun c => 300 + slot + c

/-- Uses of a row-unit destination. -/
def destUses (dst : Nat) (dsel : Bool) (dadr : Int) (f : BitVec 4) (mx : Bool) : Uses :=
  { wtd := [dst], wst := if dsel then [] else [(unitByte dadr, tileBytes f mx)] }

/-- Uses of a pass of a draw: its logit vector may run on into other descriptors (04 R119). -/
def passUses (g : Engine) (o : PassOp) : Uses :=
  let vr := vecRange (g.td o.src.val) o.nelem
  let tds := (g.tds.map Prod.fst).filter fun i =>
    let t := g.td i
    t.inAcc && decide (t.accRange.1 < vr.1 + vr.2 ∧ vr.1 < t.accRange.1 + t.accRange.2)
  { rtd := o.src.val :: tds, wtd := [100 + o.slot.val] }

/-- What a word reads and writes. -/
def uopUses (g : Engine) : Uop → Uses
  | .tileLoad o => { wst := [(unitByte o.ps, tileBytes o.fmt o.mx)] }
  | .tileStore o => { rtd := [o.td.val], rst := [(unitByte o.ps, tileBytes o.fmt o.mx)] }
  | .accStore o => { rtd := [o.td.val] }
  | .accLoad o => { wtd := [o.td.val] }
  | .psToAcc o => { wtd := [o.td.val], rst := [(unitByte o.ps, tileElemBytes (g.td o.td.val).fmt)] }
  | .accToPs o => { rtd := [o.td.val], wst := [(unitByte o.ps, tileElemBytes (g.td o.td.val).fmt)] }
  | .tileSend o => { rtd := [o.td.val], rst := if o.src then [] else [(unitByte o.ps, tileBytes o.fmt o.mx)] }
  | .tileRecv o => if o.src then { wtd := [o.td.val] } else { wst := [(unitByte o.ps, tileBytes o.fmt o.mx)] }
  | .tileAddMem o => { rtd := [o.td.val] }
  | .tableLoad o => { wtd := [32 + o.td.val % 8], rst := [(unitByte o.ps, tableBytes)] }
  | .mma o =>
    { wtd := [o.td], rst := (unitByte o.a, tileBytes o.afmt o.amx) ::
        (if o.bkeep then [] else [(unitByte o.b, tileBytes o.bfmt o.bmx)]) }
  | .rowChain o =>
    { destUses o.dst.val o.dsel o.dadr o.dfmt o.dmx with
      rtd := o.src.val :: (if o.fn.toNat < 8 then [] else [32 + (o.fn.toNat - 8)])
      rst := (if o.scmode.toNat = 0 then [] else [(unitByte o.scadr, 512)]) ++
        (if o.bmode.toNat = 0 then [] else [(unitByte o.badr, 1024)]) }
  | .redSum o | .redMoments o | .redFinish o => { destUses o.dst.val o.dsel o.dadr o.dfmt o.dmx with rtd := [o.src.val] }
  | .convert o => { destUses o.dst.val o.dsel o.dadr o.dfmt o.dmx with rtd := [o.src.val] }
  | .rewindow o => { destUses o.dst.val o.dsel o.dadr 10 false with rtd := [o.src.val] }
  | .smpMax o | .smpWeigh o | .smpCut o => passUses g o
  | .smpDraw o => { passUses g o with wst := [(unitByte o.ibuf + 4 * o.iword, 4)] }
  | .bernoulli o | .heatbath o | .metropolis o => { rtd := [o.src.val], wtd := [o.dst.val] }
  | .fields o =>
    { rtd := o.src.val :: (if o.mode then [o.dst.val] else []), rst := if o.mode then [] else [(unitByte o.hadr, 1024)]
      wtd := (if o.mode then [] else [o.dst.val]) ++ chainIds o.slot.val o.nch }
  | .propose o => { rtd := [o.src.val], rst := [(unitByte o.radr, 64 * o.nch)], wtd := 64 :: chainIds o.slot.val o.nch }
  | .settle o =>
    { rtd := [o.src.val], rst := [(unitByte o.qadr, tileBytes o.qfmt false)], wtd := 64 :: chainIds o.slot.val o.nch }
  | .apply o => { rtd := [o.src.val], wst := [(unitByte o.radr, recordBytes o.nch)], wtd := 64 :: chainIds o.slot.val o.nch }
  | .group o =>
    { rtd := (List.range 3).map (o.src.val + ·), rst := [(unitByte o.gadr, 4 * (o.gidx + o.ng))]
      wst := [(unitByte o.radr, recordBytes o.nch * 3)], wtd := chainIds o.slot.val o.nch }
  | .energy o =>
    { rtd := [o.src.val], rst := [(unitByte o.radr, 64 * o.nch), (unitByte o.hadr, 1024)]
      wtd := chainIds o.slot.val o.nch }
  | .exchange o => { wtd := chainIds o.slot.val o.nch }

/-- What a word reads and writes on this machine: a pass of a draw reads its mask's store blocks too (04 R128, R141). -/
def State.uses (s : State) (e : EngId) (u : Uop) : Uses :=
  let x := uopUses (s.eng e) u
  match u with
  | .smpMax o | .smpWeigh o | .smpCut o | .smpDraw o => { x with rst := x.rst ++ s.maskUses e o }
  | _ => x
/-- What the draws started in this parcel have still to write (04 R141): a later word that meets it waits. -/
def State.drawUses (s : State) (e : EngId) : Uses := { wst := s.indexPending e }

/-- The words in the queues, with their places in program order. -/
def Engine.queued (g : Engine) : List (Nat × Uop) := g.moverQ ++ g.arrayQ ++ g.rowQ
/-- The queue of a unit. -/
def Engine.queueOf (g : Engine) (n : Nat) : List (Nat × Uop) :=
  if n = 0 then g.moverQ else if n = 1 then g.arrayQ else g.rowQ
/-- Replace the queue of a unit. -/
def Engine.setQueueOf (g : Engine) (n : Nat) (q : List (Nat × Uop)) : Engine :=
  if n = 0 then { g with moverQ := q } else if n = 1 then { g with arrayQ := q } else { g with rowQ := q }
/-- Entries of each queue (R94). -/
def queueDepth (n : Nat) : Nat := if n = 1 then 32 else 16

/-- Whether the hub still holds a class 0x7 word of this engine on one of the chains of a word (06 R211). -/
def State.chainHeld (s : State) (e : EngId) (slot nch : Nat) : Bool :=
  (s.sheet (s.homeOf e.sheet.val slot)).groups.any fun g =>
    (g.arrived.contains e || g.exch.contains e) && decide (g.slot < slot + nch ∧ slot < g.slot + g.nch)

/-- What holds a word beyond the order of R94: the hub (04 R141, 06 R211), a stalled slice or an add of its own engine
(03 R118, 08 R253), a tile that has not arrived. -/
def State.held (s : State) (e : EngId) : Uop → Bool
  | .tileLoad o | .tileStore o | .accStore o | .accLoad o => s.moveWaits e o
  | .tileRecv o => ((s.eng e).firstArrival o.handle).isNone
  | .smpMax o => s.passWaits e o true
  | .smpWeigh o | .smpCut o | .smpDraw o => s.passWaits e o false
  | .fields o => s.chainHeld e o.slot.val o.nch
  | .propose o => s.chainHeld e o.slot.val o.nch
  | .settle o => s.chainHeld e o.slot.val o.nch
  | .apply o => s.chainHeld e o.slot.val o.nch
  | .group o => s.chainHeld e o.slot.val o.nch
  | .energy o => s.chainHeld e o.slot.val o.nch
  | .exchange o => s.chainHeld e o.slot.val o.nch
  | _ => false

/-- Whether a word at a place in program order has all it waits for (R94, 04 R141). -/
def State.ready (s : State) (e : EngId) (n : Nat) (u : Uop) : Bool :=
  let g := s.eng e
  !((g.queued.filter fun x => decide (x.1 < n)).any fun x => (s.uses e x.2).meets (s.uses e u)) &&
  !(s.drawUses e).meets (s.uses e u) && !s.held e u

/-- Whether an engine runs a step: it has not halted, is bound and has not arrived at the end-of-step barrier. -/
def State.running (s : State) (e : EngId) : Bool :=
  let g := s.eng e
  (g.st == .run || g.st == .wait) && !g.arrived && ((s.sheet e.sheet.val).phys e.parcel.val).isSome

/-- Place in program order of a word: that of its queue entry, else after every queued word. -/
def Engine.seqOf (g : Engine) (u : Uop) : Nat :=
  match (g.queueOf (uopUnit u)).find? fun x => x.2 == u with
  | some x => x.1
  | none => g.seq

/-- Whether a word starts now (R94): its engine runs; mover and array take their queues in order, the row unit the oldest
ready word (04 R141). -/
def State.starts (s : State) (e : EngId) (u : Uop) : Bool :=
  let g := s.eng e
  let n := g.seqOf u
  s.running e && uopOk u && s.ready e n u &&
  !((g.queueOf (uopUnit u)).any fun x => decide (x.1 < n) && (decide ((uopUnit u) ≠ 2) || s.ready e x.1 x.2))

/-- Take a word out of its queue. -/
def State.popUop (s : State) (e : EngId) (u : Uop) : State :=
  s.modEng e fun g => g.setQueueOf (uopUnit u) ((g.queueOf (uopUnit u)).eraseP fun x => x.2 == u)

/-- Start a word and carry out its effect; a word that may not start yet stays where it is. -/
def State.runUop (s : State) (e : EngId) (u : Uop) (f : State → State) : State :=
  if s.starts e u then f (s.popUop e u) else s

end Sys2Proof.Machine
end

