-- ==== Sys2Proof/Machine/Array.lean ====
section
/-! DEFINITION. The rows of the array (03 "Tile multiply-accumulate", "The arithmetic check"). -/

namespace Sys2Proof.Machine

/-- MMA (03 R97, R98): a tile product added into its output descriptor; its check verdict follows. -/
def execMma (e : EngId) (o : MmaOp) (d : Disturb) (s : State) : Res :=
  .next (s.runUop e (.mma o) fun s => s.doMma e o d)

/-- ARITHMETIC_CHECK_VERDICT (03 R112): the next verdict of an engine arrives; a mismatch raises kind 0x201. -/
def execArithmeticCheckVerdict (e : EngId) (s : State) : Res := .next (s.doVerdict e)

end Sys2Proof.Machine
end

