-- ==== Sys2Proof/Machine/Mram.lean ====
section
/-! DEFINITION. The record area of MRAM (16 R442, R443): two copies of each record, which one is in force, writing one, what BOOT
makes of copies that fail their tag, and the bytes of a record. -/

namespace Sys2Proof.Machine

/-! ### Copies (R442) -/

/-- A copy whose tag verifies. -/
def RecPair.valid (c : Option RecCopy) : Option RecCopy := c.filter fun x => x.ok
/-- Whether the second copy is in force: it is valid, and the first is not or has the lower SEQ. -/
def RecPair.usesB (p : RecPair) : Bool :=
  match RecPair.valid p.a, RecPair.valid p.b with
  | some a, some b => decide (a.seq.toNat < b.seq.toNat)
  | none, some _ => true
  | _, none => false
/-- The copy in force: the valid one with the higher SEQ; nothing where both fail, so that the record is absent. -/
def RecPair.current (p : RecPair) : Option RecCopy := if p.usesB then RecPair.valid p.b else RecPair.valid p.a
/-- A write goes to the copy that is not in force, with a SEQ one higher. -/
def RecPair.write (p : RecPair) (body : RecBody) : RecPair :=
  match p.current with
  | none => { p with a := some { seq := 1, body := body } }
  | some c =>
    let n : RecCopy := { seq := c.seq + 1, body := body }
    if p.usesB then { p with a := some n } else { p with b := some n }
/-- A copy fails its tag. -/
def RecPair.spoil (p : RecPair) (second : Bool) : RecPair :=
  let bad (c : Option RecCopy) := c.map fun x => { x with ok := false }
  if second then { p with b := bad p.b } else { p with a := bad p.a }
/-- Copies that fail their tag. -/
def RecPair.failures (p : RecPair) : Nat := ([p.a, p.b].filter fun c => c.any fun x => !x.ok).length

/-! ### Content (R443) -/

/-- The copies of a record. -/
def State.records (s : State) (t : RecType) (i : Nat) : RecPair := tget {} s.mram (recKey t i)
/-- The content of a record that is not of the type `applied`, as the device holds it now. -/
def State.recBody (s : State) (t : RecType) (i : Nat) : RecBody :=
  let e := s.ecb
  match t with
  | .svn => .svn e.minsvn e.lastB
  | .officer => .officer e.officer
  | .keyStore => .keyStore e.hwk e.chartKey e.transport e.idSeed e.perso
  | .identity => .identity e.sigres e.idCert
  | .helper => .helper e.enrol
  | .fence => .fence ((e.fenceRecs.find? fun x => x.1 == i).map Prod.snd)
  | .history => .history (s.hist i)
  | .chart => .chart s.chart.saved
  | .collector => .collector s.col.svch s.col.safeKind s.col.safeDatum
  | .testRing => .testRing e.logNext e.log
  | .applied => .applied 0 none
/-- Write a record with a content. -/
def State.storeRecord (s : State) (t : RecType) (i : Nat) (b : RecBody) : State :=
  { s with mram := tmod {} s.mram (recKey t i) fun p => p.write b }
/-- Write a record as the device holds it now. -/
def State.keep (s : State) (t : RecType) (i : Nat := 0) : State := s.storeRecord t i (s.recBody t i)
/-- Write a history record, where it does not wait for a write that failed (13 R383). -/
def State.keepHist (s : State) (i : Nat) : State := if s.col.unwritten.contains i then s else s.keep .history i
/-- The history record of a parcel in MRAM. -/
def State.storedHist (s : State) (i : Nat) : Hist :=
  match (s.records .history i).current with
  | some { body := .history h, .. } => h
  | _ => {}
/-- A place for a Galperno record that is applied: the lowest of 64 with none in force. -/
def State.appliedPlace (s : State) : Nat :=
  ((List.range 64).find? fun i => (s.records .applied i).current.isNone).getD 63

/-! ### Reading at BOOT -/

/-- Applied Galperno records in force: SEQ and the hour that a JTAG unlock names (R444). -/
def State.appliedRecords (s : State) : List (Nat × Option (BitVec 32)) :=
  (List.range 64).filterMap fun i => match (s.records .applied i).current with
    | some { body := .applied q u, .. } => some (q, u)
    | _ => none
/-- The later of two hours. -/
def laterHour (a b : Option (BitVec 32)) : Option (BitVec 32) :=
  match a, b with
  | some x, some y => some (if x.toNat < y.toNat then y else x)
  | some x, none => some x
  | none, y => y
/-- Take a content from MRAM. History and the collector record are loaded in a start-up alone: a warm reset keeps the registers
(14 R396). -/
def State.takeBody (s : State) (i : Nat) (start : Bool) (b : RecBody) : State :=
  let e := s.ecb
  match b with
  | .svn m l => { s with ecb := { e with minsvn := m, lastB := l } }
  | .officer k => { s with ecb := { e with officer := k } }
  | .keyStore w c t k p => { s with ecb := { e with hwk := w, chartKey := c, transport := t, idSeed := k, perso := p } }
  | .identity r c => { s with ecb := { e with sigres := r, idCert := c } }
  | .helper _ => s
  | .fence none => { s with ecb := { e with fenceRecs := tdel e.fenceRecs i } }
  | .fence (some m) => { s with ecb := { e with fenceRecs := tput e.fenceRecs i m } }
  | .history h => if start then { s with col := { s.col with hist := tset {} s.col.hist i h } } else s
  | .chart r => { s with chart := { s.chart with saved := r } }
  | .collector v k d => if start then { s with col := { s.col with svch := v, safeKind := k, safeDatum := d } } else s
  | .testRing n l => { s with ecb := { e with logNext := n, log := l } }
  | .applied _ _ =>
    let l := s.appliedRecords
    { s with ecb := { e with applied := l.map Prod.fst, unlockHour := l.foldl (fun u x => laterHour u x.2) none } }
/-- What an absent record leaves. The SVN and identity records have no absence: Ecbumos goes to ERROR (R442). -/
def State.absentBody (s : State) (t : RecType) (i : Nat) : RecBody :=
  match t with
  | .officer => .officer none
  | .keyStore => .keyStore none none none none []
  | .fence => .fence none
  | .history => .history {}
  | .chart => .chart none
  | .collector => .collector 0 0 0
  | .testRing => .testRing 0 []
  | t => s.recBody t i
/-- The records that BOOT read a failing copy of. -/
def spoiledRecords (r : BootRead) : List (RecType × Nat) := (r.bad.map fun p => (p.type, p.index)).eraseDups
/-- BOOT reads the record area: copies that fail are marked, and each record with one is taken from the copy in force, or is
absent. -/
def State.readRecords (s : State) (r : BootRead) (start : Bool) : State :=
  let s := s.forEach r.bad fun s p => { s with mram := tmod {} s.mram (recKey p.type p.index) fun x => x.spoil p.second }
  s.forEach (spoiledRecords r) fun s p =>
    match (s.records p.1 p.2).current with
    | some c => s.takeBody p.2 start c.body
    | none => s.takeBody p.2 start (s.absentBody p.1 p.2)
/-- Copies of the record area that fail their tag: kind 0x560 for each (R442). -/
def State.recordFailures (s : State) : Nat := s.mram.foldl (fun n x => n + x.2.failures) 0
/-- Both copies of a record were written, or one, and none verifies. -/
def State.recordLost (s : State) (t : RecType) : Bool :=
  let p := s.records t 0
  decide (0 < p.failures) && p.current.isNone

/-! ### Bytes -/

/-- The record key: the first 32 bytes of SHAKE256 over the root secret and "REC" (R440). -/
def Ecb.recordKey (e : Ecb) : List Byte := shake256 32 (Config.pufSecret e.enrol ++ [0x52, 0x45, 0x43])
/-- Content as the bytes that the body's layout is a function of (log 7); keys go in as they are. -/
def RecBody.content (b : RecBody) : List Byte :=
  let key (o : Option (List Byte)) : List Byte := match o with | some k => leBytes 1 1 ++ leBytes 4 k.length ++ k | none => leBytes 1 0
  match b with
  | .svn m l => leBytes 4 m.toNat ++ leBytes 1 (if l then 1 else 0)
  | .officer k => key k
  | .keyStore w c t k p => key w ++ key c ++ key t ++ key k ++ p
  | .identity r c => leBytes 6 r.toNat ++ leBytes 1 (if c then 1 else 0)
  | .helper n => leBytes 8 n
  | .fence none => []
  | .fence (some m) =>
    leBytes 1 m.1.length ++ m.1.map (BitVec.ofNat 8) ++ leBytes 1 ((m.2.1).getD 0x1F) ++ leBytes 1 ((m.2.2.1).getD 0x1F) ++
      leBytes 3 m.2.2.2.toNat
  | .history h => leBytes 2 h.count.toNat ++ leBytes 2 h.kind.toNat ++ leBytes 1 h.fcause.toNat ++
      leBytes 1 (if h.fenced then 1 else 0) ++ leBytes 4 h.lasth.toNat ++ leBytes 4 h.prevh.toNat
  | .chart none => []
  | .chart (some r) => leBytes 2 r.chartId.toNat ++ leBytes 2 r.devId.toNat ++ leBytes 2 r.datumDev.toNat ++ leBytes 2 r.size.toNat ++
      leBytes 1 r.upport.toNat ++ leBytes 4 r.lmargin.toNat ++ leBytes 8 r.down.toNat
  | .collector v k d => leBytes 4 v.toNat ++ leBytes 2 k.toNat ++ leBytes 8 d.toNat
  | .testRing n l => leBytes 2 n.toNat ++ l.flatMap fun x => leBytes 2 x.1 ++ x.2
  | .applied q u => leBytes 8 q ++ (match u with | some h => leBytes 1 1 ++ leBytes 4 h.toNat | none => leBytes 1 0)
/-- A copy as stored (R442): the 32-byte header, the body, and the GMAC tag under the record key over both. LENGTH is that of the
body (DEDUCED, log 89). -/
def RecCopy.bytes (c : RecCopy) (e : Ecb) (t : RecType) : List Byte :=
  let code := recKey t 0 / 512
  let body := Config.recordImage code c.body.content
  let hd := leBytes 2 code ++ leBytes 1 1 ++ leBytes 5 0 ++ leBytes 4 body.length ++ leBytes 8 c.seq.toNat ++ leBytes 12 0
  hd ++ body ++ Config.gmac e.recordKey (hd ++ body)
/-- The record in force as stored; nothing where it is absent. -/
def State.recordBytes (s : State) (t : RecType) (i : Nat) : List Byte :=
  match (s.records t i).current with
  | some c => c.bytes s.ecb t
  | none => []
/-- A new PUF enrolment (R447): the records of types 0x0005 to 0x000B and 0x0001 are tagged under the new record key, which their
bytes show; key store, identity, officer record and the old helper data are erased. -/
def State.enrolPuf (s : State) : State :=
  let s : State := { s with ecb := { s.ecb with enrol := s.ecb.enrol + 1 } }
  let gone := [recKey .officer 0, recKey .keyStore 0, recKey .identity 0, recKey .helper 0]
  ({ s with mram := s.mram.filter fun x => !gone.contains x.1 } : State).keep .helper

end Sys2Proof.Machine
end

