-- ==== Sys2Proof/Machine/Ledger.lean ====
section
/-! DEFINITION. The five cycle accounts of a parcel (17 R457): charging a pending ledger, and what the outcome of the step or of its
epoch makes of it. -/

namespace Sys2Proof.Machine

/-- The account of a cycle. Drain-bound and feed-bound name a blocking unit: 0 mover, 1 array and accumulation stage, 2 row unit and
sampling stage, 3 hub, 4 network and link. -/
inductive Account where
  | discarded
  | productive
  | sync
  | drain (unit : Fin 5)
  | feed (unit : Fin 5)
deriving DecidableEq, Repr

/-- Charge `n` cycles to an account. -/
def Ledger.charge (l : Ledger) (n : Nat) : Account → Ledger
  | .discarded => { l with discarded := l.discarded + n }
  | .productive => { l with productive := l.productive + n }
  | .sync => { l with sync := l.sync + n }
  | .drain u => { l with drain := l.drain + n, units := tmod 0 l.units u.val (· + n) }
  | .feed u => { l with feed := l.feed + n, units := tmod 0 l.units u.val (· + n) }
/-- Cycles of a ledger. -/
def Ledger.total (l : Ledger) : Nat := l.productive + l.discarded + l.sync + l.drain + l.feed

/-- An ENGINE event of `n` cycles of a parcel. -/
def State.cycleEvent (s : State) (e : EngId) (code n : Nat) : State :=
  if n = 0 then s else s.parcelEvent e { cls := 1, code := code, inc := n }
/-- At commit each cycle goes to its account, and the blocking units are counted. -/
def State.bookLedger (s : State) (e : EngId) (l : Ledger) : State :=
  let s := (((s.cycleEvent e 0x02 l.productive).cycleEvent e 0x03 l.discarded).cycleEvent e 0x04 l.feed).cycleEvent e 0x05 l.drain
  (s.cycleEvent e 0x0A l.sync).forEach (List.range 5) fun s u => s.cycleEvent e (0x0B + u) (tget 0 l.units u)
/-- Otherwise the whole ledger goes to Discarded. -/
def State.discardLedger (s : State) (e : EngId) (l : Ledger) : State := s.cycleEvent e 0x03 l.total
/-- The ledgers of the step in progress on some sheets, by engine. -/
def State.stepLedgers (s : State) (sheets : List Nat) : List (EngId × Ledger) :=
  sheets.flatMap fun h => (s.sheet h).ledgers.map fun x => ({ sheet := Fin.ofNat 16 h, parcel := Fin.ofNat 16 x.1 }, x.2)
/-- The ledgers of some sheets start again. -/
def State.clearLedgers (s : State) (sheets : List Nat) : State := s.forEach sheets fun s h => s.modSheet h fun x => { x with ledgers := [] }
/-- The step in progress on some sheets does not commit. -/
def State.loseLedgers (s : State) (sheets : List Nat) : State :=
  ((s.stepLedgers sheets).foldl (fun s x => s.discardLedger x.1 x.2) s).clearLedgers sheets

end Sys2Proof.Machine
end

