-- ==== Sys2Proof/Machine/QueueOps.lean ====
section
/-! DEFINITION. Descriptors as queues hold them (09 R266-R274), statuses, the hashes of a RUN (12 R357, R358) and its end
(09 R273, 12 R360). -/

namespace Sys2Proof.Machine

/-! ### Statuses (09 R272) -/

/-- OK. -/
def stOk : Byte := 0x00
/-- OK_FLAGS. -/
def stOkFlags : Byte := 0x01
/-- POISON_CONSUMED. -/
def stPoison : Byte := 0x10
/-- CHECK_FAILED_RECOVERED. -/
def stRecovered : Byte := 0x11
/-- CHECK_FAILED. -/
def stCheckFailed : Byte := 0x12
/-- HANG_SUSPECT. -/
def stHang : Byte := 0x20
/-- CONTEXT_KILLED. -/
def stKilled : Byte := 0x21
/-- RNG_NOT_READY. -/
def stRngNotReady : Byte := 0x30
/-- RNG_FAILED. -/
def stRngFailed : Byte := 0x31
/-- EPOCH_ROLLBACK. -/
def stRollback : Byte := 0x40
/-- BAD_DESCRIPTOR. -/
def stBad : Byte := 0x50
/-- PLAN_REJECTED. -/
def stRejected : Byte := 0x51
/-- TORN_DOWN. -/
def stTorn : Byte := 0x60

/-! ### Completion flags (09 R268) -/

/-- SEEDWR. -/
def cfSeedWr : Byte := 1
/-- NOTSEQ. -/
def cfNotSeq : Byte := 2
/-- NONREPRO. -/
def cfNonRepro : Byte := 4
/-- DIGESTV. -/
def cfDigestV : Byte := 8
/-- PARTIAL. -/
def cfPartial : Byte := 16

/-! ### Descriptor fields (09 R266) -/

/-- OPCODE. -/
def dOp (d : Desc) : Nat := recField d.bytes 0 1
/-- SEEDSEL. -/
def dSeedSel (d : Desc) : Nat := recField d.bytes 1 1 % 4
/-- FAILFAST. -/
def dFailFast (d : Desc) : Bool := bit (recField d.bytes 2 2) 0
/-- NOIRQ. -/
def dNoIrq (d : Desc) : Bool := bit (recField d.bytes 2 2) 1
/-- CONTEXT. -/
def dCtx (d : Desc) : CtxId := Fin.ofNat 4096 (recField d.bytes 4 2)
/-- GEN. -/
def dGen (d : Desc) : BitVec 8 := BitVec.ofNat 8 (recField d.bytes 6 1)
/-- SEQ. -/
def dSeq (d : Desc) : BitVec 32 := BitVec.ofNat 32 (recField d.bytes 8 4)
/-- PLAN. -/
def dPlan (d : Desc) : BitVec 32 := BitVec.ofNat 32 (recField d.bytes 12 4)
/-- SEEDPTR. -/
def dSeedPtr (d : Desc) : Nat := recField d.bytes 16 8
/-- ARGPTR. -/
def dArgPtr (d : Desc) : Nat := recField d.bytes 24 8
/-- ARG0. -/
def dArg0 (d : Desc) : Nat := recField d.bytes 32 8
/-- ARG1. -/
def dArg1 (d : Desc) : Nat := recField d.bytes 40 8

/-- The descriptor in execution of a queue: the oldest one fetched and not completed (R274). -/
def State.head (s : State) (q : Nat) : Option Desc := (s.queue q).fetched.head?
/-- Change it. -/
def State.modHead (s : State) (q : Nat) (f : Desc → Desc) : State :=
  s.modQueue q fun x => { x with fetched := match x.fetched with | [] => [] | d :: r => f d :: r }
/-- The descriptor in execution where it is valid, has the opcode and waits to start. -/
def State.headReady (s : State) (q : Nat) (op : Nat) : Option Desc :=
  match s.head q with
  | some d => if d.checked && !d.started && d.status == none && dOp d == op then some d else none
  | none => none
/-- Decide a descriptor's status, once (R268, R277). -/
def settleDesc (now : Nat) (st : Byte) (kind : BitVec 12) (info : Nat) (flags : Byte) (digest : Nat) (d : Desc) : Desc :=
  if d.status == none then
    { d with status := some st, kind := kind, info := BitVec.ofNat 32 info, cflags := d.cflags ||| flags
             digest := BitVec.ofNat 64 digest, datum := BitVec.ofNat 64 now, wants := 0 }
  else d
/-- Decide the status of the descriptor in execution. -/
def State.decideHead (s : State) (q : Nat) (st : Byte) (kind : BitVec 12 := 0) (info : Nat := 0) (flags : Byte := 0)
    (digest : Nat := 0) : State :=
  s.modHead q (settleDesc s.now st kind info flags digest)
/-- A host memory access that failed (R292). -/
def State.hostReadFailed (s : State) (q : Nat) : State :=
  let c := match s.head q with | some d => some (dCtx d) | none => none
  (s.sendFault { source := devSource 0, kind := 0x402, ctx := c, op := 7 }).decideHead q stBad 0x402
/-- Queues, by number. -/
def State.queueIds (s : State) : List Nat := s.queues.map Prod.fst
/-- End descriptors of a context that `p` selects: those fetched, in every queue, with no status yet. -/
def State.endDescs (s : State) (c : CtxId) (st : Byte) (flags : Byte) (p : Nat → Desc → Bool) : State :=
  s.forEach s.queueIds fun s q =>
    s.modQueue q fun x =>
      { x with fetched := x.fetched.map fun d =>
          if dCtx d == c && d.bytes.length == 64 && p q d then settleDesc s.now st 0 0 flags 0 d else d }
/-- CTX.INFLT: descriptors fetched and not completed. An entry whose fetch failed names no context. -/
def State.inflight (s : State) (c : Nat) : Nat :=
  ((s.queues.map fun q => (q.2.fetched.filter fun d => (dCtx d).val == c && d.bytes.length == 64).length)).sum

/-- DMA write to host memory, counted in 64-byte units (17 R453). -/
def State.dmaWrite (s : State) (addr : Nat) (b : List Byte) : State :=
  (s.emit (.dmaWrite (BitVec.ofNat 64 addr) b)).deviceEvent
    { cls := 8, code := 5, inc := (b.length + 63) / 64, addr := some addr }
/-- DMA read from host memory. -/
def State.dmaRead (s : State) (addr n : Nat) : State :=
  s.deviceEvent { cls := 8, code := 4, inc := (n + 63) / 64, addr := some addr }

/-! ### Hashes of a RUN (12 R357, R358) -/

/-- Hash of tile `i` of a tensor as the hash table holds it; 24 zero bytes for a tile never written (log 5). -/
def State.tileHashAt (s : State) (t : Tensor) (i : Nat) : List Byte :=
  match t.tileLoc 0 i with
  | none => List.replicate 24 0
  | some l =>
    match tget [] (s.sheet l.sheet).mem.hashes l.sealIx with
    | [] => List.replicate 24 0
    | h => h
/-- Tiles of a tensor. -/
def tileCount (t : Tensor) : Nat := (t.parts.map TensorPart.count).sum
/-- Chunk hash. -/
def State.chunkHash (s : State) (t : Tensor) (k : Nat) : List Byte :=
  shake256 32 ((List.range (min 4096 (tileCount t - 4096 * k))).flatMap fun i => s.tileHashAt t (4096 * k + i))
/-- Tensor hash. -/
def State.tensorHash (s : State) (t : Tensor) : List Byte :=
  shake256 32 (leBytes 4 t.number.toNat ++ leBytes 4 (tileCount t) ++
    (List.range ((tileCount t + 4095) / 4096)).flatMap fun k => s.chunkHash t k)
/-- Insert a tensor by rising number. -/
def insertTensor (t : Tensor) : List Tensor → List Tensor
  | [] => [t]
  | y :: r => if t.number.toNat ≤ y.number.toNat then t :: y :: r else y :: insertTensor t r
/-- Set hash: 32 zero bytes for an empty set. -/
def State.setHash (s : State) (l : List Tensor) : List Byte :=
  if l.isEmpty then List.replicate 32 0
  else shake256 32 ((l.foldl (fun a t => insertTensor t a) []).flatMap s.tensorHash)

/-- Words of a slot's parameter entry (04 R122). -/
def slotParamBytes (r : SlotRegs) : List Byte :=
  leBytes 8 (r.invt.toNat * 2 ^ 32 + (if r.base2 then 2 ^ 31 else 0) + (if r.greedy then 2 ^ 30 else 0) + r.topp.toNat) ++
  leBytes 8 (r.mask.toNat * 2 ^ 48 + r.topk.toNat) ++ List.replicate 16 0
/-- The chain registers at offsets 0x00 to 0x30 (06 R207). -/
def chainWords (r : ChainRegs) : List Word :=
  [r.sweep, r.energy, r.best, BitVec.ofNat 64 (r.teff.toNat * 2 ^ 32 + r.invt.toNat),
   BitVec.ofNat 64 (r.gust.toNat * 2 ^ 32 + r.stall.toNat * 2 ^ 16 + r.rung.toNat * 2 ^ 8),
   BitVec.ofNat 64 (r.accept.toNat * 2 ^ 40 + r.redec.toNat * 2 ^ 16 + r.cflags.toNat * 2 ^ 8),
   BitVec.ofNat 64 (r.conflict.toNat * 2 ^ 32 + r.eexp.toNat * 2 ^ 21 + r.phead.toNat)]
/-- Chain registers as bytes. -/
def chainBytes (r : ChainRegs) : List Byte := (chainWords r).flatMap fun w => leBytes 8 w.toNat

/-- The slot bindings of a plan on a set of sheets, each slot once, by rising GSLOT; a slot stands on its home sheet. -/
def planBinds (p : Plan) : List SlotBind :=
  let all := (p.progs.flatMap StepProg.divs).flatMap DivProg.binds
  let once := all.foldl (fun a b =>
    if a.any fun x => x.slot == b.slot && x.home == b.home && x.gslot == b.gslot then a else a ++ [b]) ([] : List SlotBind)
  once.foldl (fun a b =>
    let lo := a.filter fun x => decide (x.gslot.toNat ≤ b.gslot.toNat)
    lo ++ [b] ++ a.filter fun x => decide (b.gslot.toNat < x.gslot.toNat)) ([] : List SlotBind)

/-- The entry state hash H_state (12 R358). -/
def State.entryHash (s : State) (c : CtxId) (p : Plan) : List Byte :=
  let bs := planBinds p
  let slots := bs.flatMap fun b =>
    let r := ((s.sheet b.home.val).slot b.slot.val).reg
    leBytes 8 r.step.toNat ++ leBytes 2 b.gslot.toNat ++ leBytes 4 b.tensor.toNat ++ slotParamBytes r
  let chains := bs.flatMap fun b => chainBytes ((s.sheet b.home.val).chain b.slot.val).reg
  shake256 32 (leBytes 8 (s.ctx c.val).step.toNat ++ slots ++ chains)

/-- Parcels in service of each sheet of a partition, 0 elsewhere (12 R362). -/
def State.division (s : State) (p : Nat) : List Nat :=
  sheetIdx.map fun h => if (s.part p).sheets.getLsbD h then (s.sheet h).pmap.length else 0

/-! ### The end of a RUN -/

/-- Completion flags of a RUN (09 R268, 12 R352, R358). -/
def runFlags (r : RunState) (cls : Byte) (digest : Bool) : Byte :=
  (if r.seedSrc = 2 then cfSeedWr else 0) ||| (if r.notseq then cfNotSeq else 0) |||
  (if cls ≠ 0 then cfNonRepro else 0) ||| (if digest then cfDigestV else 0)

/-- End the RUN of a context on a partition: its descriptor's status, its run record, and the partition free for other
work (09 R273, 12 R360). -/
def State.finishRun (s : State) (p : Nat) (c : CtxId) (st : Byte) (kind : BitVec 12 := 0) (flags : Byte := 0) : State :=
  match (s.part p).runOf c with
  | none => s
  | some r =>
    let lp := (s.ctx c.val).planOf r.plan
    let cls := match lp with | some l => l.cls | none => 0
    let res := match lp with | some l => l.plan.tensors.filter fun t => t.result | none => []
    let hOut := if res.isEmpty then List.replicate 32 0 else s.setHash res
    let dig := !res.isEmpty && decide (0 < r.committed)
    let last := if r.committed = 0 then r.first else r.first + BitVec.ofNat 64 (r.committed - 1)
    let s := r.ledgers.foldl (fun s x => s.discardLedger x.1 x.2) s
    let done := { r with
      ledgers := [], divchg := r.divchg || decide (r.division0 ≠ r.divLast) && decide (0 < r.committed), status := st, kind := kind }
    let rcd : RunRecord :=
      { run := done, planHash := match lp with | some l => l.hash | none => [], cls := cls, hOut := hOut, last := last
        broken := r.broken }
    let s := s.modPart p fun x =>
      { x with
        runs := x.runs.filter fun y => y.ctx != c
        cur := if x.cur == some c then none else x.cur
        phase := if x.cur == some c then .none else x.phase
        next := match x.next with | some n => if n.1 == c then none else some n | none => none
        turns := x.turns.filter fun y => y != c }
    let s := s.modCtx c.val fun x =>
      { x with records := if lp.isSome then (x.records ++ [rcd]).drop (x.records.length - 15) else x.records }
    s.modQueue r.queue fun x =>
      { x with fetched := x.fetched.map fun d =>
          if d.started && dOp d == 2 && dCtx d == c then
            settleDesc s.now st kind r.committed (flags ||| runFlags done cls dig) (if dig then leNat (hOut.take 8) else 0) d
          else d }

/-- The highest of the statuses that a RUN goes on through (09 R273). -/
def higherStatus (a b : Byte) : Byte := if a.toNat ≤ b.toNat then b else a

end Sys2Proof.Machine
end

