-- ==== Sys2Proof/Machine/Collect.lean ====
section
/-! DEFINITION. Suspect history, fencing and windows (13 R376-R384): what a detection does to a parcel's record and role,
and how windows open, join and close. -/

namespace Sys2Proof.Machine

/-! ### Roles and fences (01 R17-R19, 13 R384) -/

/-- Keep a sheet's MRAM fencing record (13 R384): map, spares and fences. -/
def State.saveFence (s : State) (sheet : Nat) : State :=
  let h := s.sheet sheet
  let s : State := { s with ecb := { s.ecb with fenceRecs := tput s.ecb.fenceRecs sheet (h.pmap, h.standing, h.test, h.fenced) } }
  s.keep .fence sheet
/-- Fence bit of a parcel. -/
def fenceBit (p : Nat) : BitVec 18 := BitVec.ofNat 18 (2 ^ p)
/-- A fenced spare leaves its role at once; the standing spare becomes the test spare (R19). -/
def Sheet.fenceSpare (h : Sheet) (p : Nat) : Sheet :=
  if h.standing == some p then { h with standing := none, fenced := h.fenced ||| fenceBit p }
  else if h.test == some p then
    { h with test := h.standing, standing := none, fenced := h.fenced ||| fenceBit p
             ft := { h.ft with windowUp := false, failed := false } }
  else h
/-- The new map when an in-service parcel is fenced (R19): the standing spare takes its index, else the test spare, else n
falls by one, and the parcels above it move down by one index (log 69). -/
def Sheet.fenceInService (h : Sheet) (p : Nat) : Sheet :=
  let put (q : Nat) : List Nat := h.pmap.map fun x => if x = p then q else x
  let h := { h with fenced := h.fenced ||| fenceBit p }
  match h.standing, h.test with
  | some q, _ => { h with pmap := put q, standing := none }
  | none, some q => { h with pmap := put q, test := none, ft := { h.ft with windowUp := false } }
  | none, none => { h with pmap := h.pmap.filter (· ≠ p) }
/-- Fence a parcel with a cause (R384): an in-service parcel at the next step boundary, a spare at once. -/
def State.fenceParcel (s : State) (sheet p : Nat) (cause : BitVec 4) : State :=
  let i := 18 * sheet + p
  let s : State := { s with col := { s.col with hist := tmod {} s.col.hist i (fun r => { r with fcause := cause, fenced := true }) } }
  let s := s.keepHist i
  let h := s.sheet sheet
  if h.pmap.contains p then
    if h.changes.contains (.fence p) then s
    else s.modSheet sheet fun h => { h with changes := h.changes ++ [.fence p] }
  else (s.modSheet sheet fun h => h.fenceSpare p).saveFence sheet

/-! ### Detections (13 R383, R384) -/

/-- The MRAM write of a history record failed: kind 0xF06, and the record waits for the retry (R383). -/
def State.unwrittenRecord (s : State) (i : Nat) : State :=
  ({ s with col := { s.col with unwritten := sinsert s.col.unwritten i } } : State).sendFault
    { source := svcSource 0, kind := 0xF06 }
/-- One detection on a parcel; `bad` says that the MRAM write of its record fails. -/
def State.detect (s : State) (sheet p : Nat) (kind : BitVec 12) (bad : Bool) : State :=
  let i := 18 * sheet + p
  let r := s.hist i
  let s := s.noteSat r.count 6
  let r' := { r with count := satInc r.count, kind := kind, prevh := r.lasth, lasth := s.col.svch }
  let s := { s with col := { s.col with hist := tset {} s.col.hist i r' } }
  let s := if bad then s.unwrittenRecord i else s.keepHist i
  if r'.lasth.toNat - r'.prevh.toNat ≤ s.col.histwin.toNat ∧ 2 ≤ r'.count.toNat ∧ !r'.fenced then s.fenceParcel sheet p 1
  else s

/-! ### Windows (13 R376, R377) -/

/-- The partition of a source. -/
def State.sourcePart (s : State) (src : BitVec 16) : Option Nat :=
  if srcLevel src ≤ 4 ∧ 1 ≤ srcLevel src then s.partOf (srcSheet src)
  else if srcLevel src = 6 then s.partOfPort (bits src.toNat 12 4 % 64)
  else none
/-- The partition of a message: its source's; for the kinds of a context that the queue unit and the chart logic raise at
PARTITION severity, the context's (14 R396). -/
def State.msgPart (s : State) (m : FaultMsg) : Option Nat :=
  match s.sourcePart m.source with
  | some p => some p
  | none => if m.kind = 0x403 ∨ m.kind = 0x341 then some (s.ctx m.ctx.toNat).part.toNat else none
/-- The rung that takes something: a rung that names nothing to reset is skipped. -/
def effectiveRung (src : BitVec 16) (part : Option Nat) (r : Nat) : Nat :=
  let r := if r ≤ 1 ∧ ¬ (1 ≤ srcLevel src ∧ srcLevel src ≤ 3) then 2 else r
  if r = 2 ∧ part.isNone then 3 else max 1 r
/-- Open windows by index. -/
def State.openWindows (s : State) : List (Nat × Window) := s.col.windows.filter fun w => w.2.st != 0
/-- The lowest free window, 1 to 255. -/
def State.freeWindow (s : State) : Option Nat := ((List.range 255).map (· + 1)).find? fun i => (s.window i).st == 0
/-- The oldest of some windows. -/
def oldestWindow (l : List (Nat × Window)) : Option (Nat × Window) :=
  l.foldl (fun a w => match a with
    | none => some w
    | some v => if w.2.age < v.2.age then some w else a) none
/-- Join a window. -/
def State.joinWindow (s : State) (i : Nat) : State :=
  let s := s.noteSat (s.window i).joined 5
  s.modWindow i fun w => { w with joined := satInc w.joined }
/-- Whether a window may close: the history record of its source's parcel is in MRAM (R383). -/
def State.mayClose (s : State) (w : Window) : Bool :=
  !(decide (1 ≤ srcLevel w.source ∧ srcLevel w.source ≤ 3) &&
    s.col.unwritten.contains (18 * srcSheet w.source + srcParcel w.source))
/-- Close every open window that `p` selects; one whose parcel's record is not in MRAM yet stays open for it. -/
def State.closeWindows (s : State) (p : Window → Bool) : State :=
  let l := s.col.windows.filter fun w => !(w.2.st != 0 && p w.2 && s.mayClose w.2)
  { s with col := { s.col with windows := l.map fun w => (w.1, { w.2 with closing := w.2.closing || (w.2.st != 0 && p w.2) }) } }
/-- Records are in MRAM: windows that waited for them close. -/
def State.closeWaiting (s : State) : State := s.closeWindows fun w => w.closing
/-- Close the windows of a partition's STEP faults: a repeat committed clean. -/
def State.closeStepWindows (s : State) (p : Nat) : State :=
  s.closeWindows fun w => w.sev == 2 && (w.part.map Fin.val) == some p
/-- Close the STEP and STOP windows of a context: its descriptor's completion is written. -/
def State.closeRunWindows (s : State) (c : CtxId) : State :=
  s.closeWindows fun w => (w.sev == 2 || w.sev == 3) && w.ctx.toNat == c.val
/-- Close the CONTEXT windows of a context: its teardown ended. -/
def State.closeCtxWindows (s : State) (c : CtxId) : State := s.closeWindows fun w => w.sev == 4 && w.ctx.toNat == c.val
/-- A reset that a window's own escalation performed completes: the window closes, and its source's next window opens on
the next rung for `COL.WINUS` µs (R377). -/
def State.closeResetWindows (s : State) (rung : Nat) (p : Window → Bool) : State :=
  let sel := (s.openWindows.map Prod.snd).filter fun w => w.acting.toNat == rung && p w
  let live := s.col.recentResets.filter fun r => decide (s.now < r.2.2)
  let fresh := sel.map fun w => (w.source, BitVec.ofNat 4 (min 3 (rung + 1)), s.now + 1000 * s.col.winus.toNat)
  let s : State := { s with col := { s.col with recentResets := live ++ fresh } }
  s.closeWindows fun w => w.acting.toNat == rung && p w
/-- The rung on which a new window opens. -/
def State.openingRung (s : State) (src : BitVec 16) (sev : Nat) : Nat :=
  let r := if sev = 6 then 2 else 1
  match s.col.recentResets.find? fun x => x.1 == src && decide (s.now < x.2.2) with
  | some x => max r x.2.1.toNat
  | none => r
/-- Whether the automatic action of a severity is under way for the work of a context (R376): the step and RUN of STEP and STOP, the
teardown of CONTEXT. -/
def State.actionRuns (s : State) (ctx : BitVec 12) (sev : BitVec 4) : Bool :=
  let x := s.ctx ctx.toNat
  if sev = 2 ∨ sev = 3 then ((s.part x.part.toNat).runOf (Fin.ofNat 4096 ctx.toNat)).isSome
  else if sev = 4 then x.st == .tearing
  else false
/-- `WIN.STATE` (R376): 0 free, 1 open with its timer running, 2 open with its timer held. -/
def State.winState (s : State) (w : Window) : Nat :=
  if w.st = 0 then 0 else if s.actionRuns w.ctx w.sev then 2 else 1
/-- A fault of severity STEP to PARTITION meets the window table (R376): the state, and the count before it of the window
it joined. `acting`: the rung of a reset that starts with it. -/
def State.windowFault (s : State) (m : FaultMsg) (acting : Nat) : State × Option Nat :=
  match s.openWindows.find? fun w => w.2.kind == m.kind && w.2.source == m.source with
  | some w => (s.joinWindow w.1, some (s.window w.1).joined.toNat)
  | none =>
    let part := s.msgPart m
    match s.freeWindow with
    | some i =>
      let w : Window :=
        { kind := m.kind, source := m.source
          rung := BitVec.ofNat 4 (effectiveRung m.source part (s.openingRung m.source m.sev.toNat))
          joined := 0, part := part.map (Fin.ofNat 16), st := 1, age := s.col.nextAge, sev := m.sev
          ctx := m.ctx, acting := BitVec.ofNat 4 acting }
      let s := { s with col := { s.col with nextAge := s.col.nextAge + 1, windows := tput s.col.windows i w } }
      (s.deviceEvent { cls := 6, code := 0x21, priv := privSource m.source, ctx := some m.ctx.toNat }, none)
    | none =>
      let mine := s.openWindows.filter fun w => part.isSome && (w.2.part.map Fin.val) == part
      match oldestWindow (if mine.isEmpty then s.openWindows else mine) with
      | some w => ((s.joinWindow w.1).sendFault { source := svcSource 0, kind := 0xF04 }, some (s.window w.1).joined.toNat)
      | none => (s, none)

end Sys2Proof.Machine
end

