-- ==== Sys2Proof/Machine/StepOps.lean ====
section
/-! DEFINITION. How a step ends (01 R36): restoring and abandoning it (13 R379, 07 R222), halting a partition (14 R388),
and making its slots, chains and counters committed (04 R126, R127; 05 R153; 06 R207). -/

namespace Sys2Proof.Machine

/-- Every engine of the partition's sheets. -/
def State.engineIds (s : State) (p : Nat) : List EngId :=
  (s.part p).sheetList.flatMap fun h =>
    (List.range 16).map fun l => { sheet := Fin.ofNat 16 h, parcel := Fin.ofNat 16 l }
/-- The engines that take part in the step: bound, with a program in the division that runs. -/
def State.stepEngines (s : State) (p : Nat) : List EngId :=
  (s.engineIds p).filter fun e => (s.eng e).setup.isSome && ((s.sheet e.sheet.val).phys e.parcel.val).isSome
/-- Whether an engine has arrived at the end-of-step barrier. -/
def State.hasArrived (s : State) (e : EngId) : Bool := (s.eng e).arrived
/-- The plan of a context's RUN on a partition. -/
def State.runPlan (s : State) (p : Nat) (c : CtxId) : Option LoadedPlan :=
  match (s.part p).runOf c with
  | none => none
  | some r => (s.ctx c.val).planOf r.plan
/-- Change the record of a context's RUN on a partition. -/
def State.modRunOf (s : State) (p : Nat) (c : CtxId) (f : RunState → RunState) : State :=
  s.modPart p fun x => { x with runs := x.runs.map fun r => if r.ctx == c then f r else r }
/-- Entry point of a plan's scribe ELF: the header's 64-bit entry field (07 R222). -/
def elfEntry (elf : List Byte) : Word := BitVec.ofNat 64 (recField elf 24 8)
/-- Entry point of the scribe code of the step in progress. -/
def State.scribeEntry (s : State) (p : Nat) : Word :=
  match (s.part p).cur with
  | none => 0
  | some c => match s.runPlan p c with
    | some l => elfEntry l.plan.scribeElf
    | none => 0

/-! ### Journal (13 R379) -/

/-- Carried blocks taken from another copy of the parcel's memories. -/
def graftBlocks (m src : ParcelMem) (bl : List Nat) : ParcelMem :=
  bl.foldl (fun m b =>
    { m with store := tgraft m.store src.store (65536 * b) 65536
             shapes := tgraft m.shapes src.shapes (1024 * b) 1024 }) m
/-- Carried accumulator rows (first row and count) taken from another copy. -/
def graftRows (m src : ParcelMem) (rows : List (Nat × Nat)) : ParcelMem :=
  rows.foldl (fun m r => { m with acc := tgraft m.acc src.acc (1024 * r.1) (1024 * r.2) }) m
/-- Carried blocks of an engine's set-up. -/
def Engine.carriedBlocks (g : Engine) : List Nat := match g.setup with | some x => x.carriedBlocks | none => []
/-- Carried rows of an engine's set-up. -/
def Engine.carriedRows (g : Engine) : List (Nat × Nat) := match g.setup with | some x => x.carriedRows | none => []
/-- Descriptors whose tile lies in one of some row ranges. -/
def Engine.tdsInRows (g : Engine) (rows : List (Nat × Nat)) : List Nat :=
  (g.tds.map Prod.fst).filter fun i =>
    let r := (g.td i).accRange
    (g.td i).inAcc && rows.any fun x => decide (r.1 < 1024 * (x.1 + x.2) ∧ 1024 * x.1 < r.1 + r.2)
/-- Restore the carried regions and the descriptors of an engine; an entry that fails its CRC-64 (`bad`) raises 0x101 at the first
restored block or row and poisons the restored region. Poison marks stay as they are (08 R250). -/
def State.restoreEngine (s : State) (e : EngId) (bad : Bool) : State :=
  let g := s.eng e
  match g.journal with
  | none => s
  | some j =>
    let s := s.modPmem e fun m => graftRows (graftBlocks m j.mem g.carriedBlocks) j.mem g.carriedRows
    let s := s.modEng e fun g => { g with tds := j.tds }
    if bad && !(g.carriedBlocks.isEmpty && g.carriedRows.isEmpty) then
      let q := ((s.sheet e.sheet.val).phys e.parcel.val).getD 0
      let at_ := match g.carriedBlocks, g.carriedRows with
        | b :: _, _ => storeDevAddr e.sheet.val q (65536 * b)
        | [], r :: _ => accDevAddr e.sheet.val q (1024 * r.1)
        | [], [] => 0
      let s := s.sealFailed e.sheet.val 0x101 at_ none 1
      (s.markBlocks e g.carriedBlocks).markTds e ((s.eng e).tdsInRows g.carriedRows)
    else s

/-! ### Abandonment -/

/-- A scribe core reset to the ELF entry point (R222): FIFO, handshake and window registers at reset values. -/
def resetScribe (entry : Word) (k : Scribe) : Scribe := { pc := entry, inReset := k.inReset }
/-- What the step in progress leaves in an engine is dropped. Arrivals from other devices stay for the repeat (11 R346). -/
def Engine.dropStep (g : Engine) (entry : Word) : Engine :=
  let far := (g.taken ++ g.inbox).filter fun a => match a.src with | .device _ => true | _ => false
  { g with
    loops := [], moverQ := [], arrayQ := [], rowQ := [], bReg := none, verdicts := [], ring := [], settle := none, rescan := 0
    sums := [], inbox := far, taken := [], arrived := false, awaits := none, journal := none, watchdogT0 := none
    tdWritten := [], blkWritten := [], raised := []
    cores := (List.range 4).foldl (fun t c => tmod {} t c (resetScribe entry)) g.cores }
/-- Discard the pending copies of a context's slots and chains on a sheet (04 R126, 06 R207). -/
def Sheet.discard (h : Sheet) (c : CtxId) : Sheet :=
  let mine := (h.slots.filter fun x => x.2.ctx == some c).map Prod.fst
  let h := mine.foldl (fun h n => h.modSlot n fun x =>
    { x with pend := x.start, phase := .idle, drew := false, poison := false, started := false }) h
  mine.foldl (fun h n => h.modChain n fun x => { x with pend := x.start, poison := false }) h
/-- Discard the pending copies of an epoch (11 R345). -/
def Sheet.discardEpoch (h : Sheet) (c : CtxId) : Sheet :=
  let mine := (h.slots.filter fun x => x.2.ctx == some c).map Prod.fst
  let h := mine.foldl (fun h n => h.modSlot n fun x => { x with pend := x.reg, start := x.reg }) h
  mine.foldl (fun h n => h.modChain n fun x => { x with pend := x.reg, start := x.reg }) h
/-- Hub contexts, chain groups and half-collected sums of a sheet are dropped; contributions of other devices stay. -/
def Sheet.dropHubs (h : Sheet) : Sheet :=
  { h with hubs := [], groups := []
           collecting := h.collecting.filter fun a => match a.src with | .device _ => true | _ => false }
/-- Unsent packets of a context leave the send queues of the partition's ports; a packet in progress is sent to its end. -/
def State.dropUnsent (s : State) (p : Nat) (c : CtxId) : State :=
  s.forEach (s.part p).portList fun s n =>
    s.modPort n fun x =>
      { x with flitQ := [1, 2, 3].foldl (fun t v => tmod [] t v (·.filter fun k => k.begun || k.pk.ctx.toNat != c.val)) x.flitQ }
/-- Abandonment of the step in progress of a partition (R379): every parcel and sheet. `bad` names the engines whose
journal fails its check. -/
def State.abandonStep (s : State) (p : Nat) (bad : List EngId) : State :=
  let entry := s.scribeEntry p
  let s := s.loseLedgers (s.part p).sheetList
  let s := s.forEach (s.engineIds p) fun s e => (s.restoreEngine e (bad.contains e)).modEng e fun g =>
    { g.dropStep entry with st := if g.st == .halt then .halt else .idle }
  let s := s.forEach (s.part p).sheetList fun s h => s.modSheet h Sheet.dropHubs
  let s := match (s.part p).cur with
    | none => s
    | some c =>
      let s := s.forEach (s.part p).sheetList fun s h => s.modSheet h fun x => x.discard c
      if (s.part p).hold then s.dropUnsent p c else s
  s.modPart p fun x => { x with phase := .abandoned, dramWritten := [], stepSat := false, stepFlagged := false }

/-- Every engine of the partition in HALT, scribe cores reset, the step ended by halt (14 R388). -/
def State.haltPartition (s : State) (p : Nat) (bad : List EngId) : State :=
  let stuck := (s.stepEngines p).filter fun e => !s.hasArrived e
  let s := s.forEach (s.stepEngines p) fun s e => s.modEng e fun g =>
    { g with st := .halt, stBeforeHalt := if g.st == .halt then g.stBeforeHalt else g.st }
  (s.abandonStep p bad).modPart p fun x => { x with halted := true, stuck := stuck }

/-! ### Commit -/

/-- End of a step for a context's slots on a sheet: the phase returns to IDLE, and a slot that drew advances its pending
step counter (04 R126, R127; 06 R207). -/
def Sheet.endSlots (h : Sheet) (c : CtxId) : Sheet :=
  ((h.slots.filter fun x => x.2.ctx == some c).map Prod.fst).foldl (fun h n => h.modSlot n fun x =>
    { x with pend := if x.drew then { x.pend with step := x.pend.step + 1 } else x.pend
             phase := .idle, drew := false, started := false }) h
/-- The pending copies of a context's slots and chains replace the committed ones. -/
def Sheet.commitSlots (h : Sheet) (c : CtxId) : Sheet :=
  let mine := (h.slots.filter fun x => x.2.ctx == some c).map Prod.fst
  let h := mine.foldl (fun h n => h.modSlot n fun x => { x with reg := x.pend, start := x.pend }) h
  mine.foldl (fun h n => h.modChain n fun x => { x with reg := x.pend, start := x.pend }) h
/-- The flags of the step's output tiles as they stand at its end (02 R55): of the tiles that descriptors name, in accumulator
memory and in the parcel store, and of the sealed tiles written in DRAM. -/
def State.outputFlags (s : State) (p : Nat) : NFlags :=
  let tds := (s.stepEngines p).flatMap fun e => (s.eng e).tds.filterMap fun t => if t.2.used then some t.2.nflags.toNat else none
  let tiles := (s.part p).dramWritten.filterMap fun g =>
    if g.2 % 2 = 0 then some (recFlags ((s.sheet g.1).mem.record (g.2 / 2))) else none
  (tds ++ tiles).foldl (· ||| ·) 0
/-- Whether the step's output carries flags (02 R55, 04 R146, 06 R208). -/
def State.stepOkFlags (s : State) (p : Nat) (c : CtxId) : Bool :=
  (s.part p).stepFlagged || decide (s.outputFlags p &&& (fSAT ||| fNAN ||| fINF ||| fCLAMP) ≠ 0) ||
  (s.part p).sheetList.any fun h =>
    (s.sheet h).slots.any fun x => x.2.ctx == some c && x.2.pend.bound && x.2.pend.sflags &&& (sNOSAMPLE ||| sNAN ||| sCLAMP) != 0
/-- An engine between steps; its cores are tainted no longer (07 R226). -/
def Engine.endStep (g : Engine) : Engine :=
  { g with
    cores := (List.range 4).foldl (fun t c => tmod {} t c fun (k : Scribe) => { k with tainted := false }) g.cores
    st := .idle, rescan := 0, awaits := none, arrived := false, journal := none, watchdogT0 := none, taken := [], verdicts := [] }
/-- Whether a window of a partition is open. -/
def State.partWindowOpen (s : State) (p : Nat) : Bool := s.openWindows.any fun w => (w.2.part.map Fin.val) == some p
/-- The step in progress has ended clean: engines idle, flags noted in the RUN, the partition free for its next step. -/
def State.closeStep (s : State) (p : Nat) (c : CtxId) : State :=
  let fl := s.stepOkFlags p c
  let sat := (s.part p).stepSat || bit (s.outputFlags p) 0
  let div := s.division p
  let tiles := (s.part p).dramWritten
  let books := s.stepLedgers (s.part p).sheetList
  let s := s.clearLedgers (s.part p).sheetList
  let s := s.forEach (s.engineIds p) fun s e => s.modEng e Engine.endStep
  let s := s.forEach (s.part p).sheetList fun s h => s.modSheet h fun x => { x.endSlots c with hubs := [], groups := [] }
  let s := s.modRunOf p c fun r =>
    { r with provSat := r.provSat || sat, provFlags := r.provFlags || fl, provDiv := div
             epochTiles := if r.chart then r.epochTiles ++ tiles else [], ledgers := r.ledgers ++ books
             divchg := r.divchg || decide (r.division0 ≠ div) }
  s.modPart p fun x =>
    { x with phase := .none, cur := none, dramWritten := [], faults := [], firstFaults := [], again := false, swaps := []
             stepSat := false, stepFlagged := false, noCommit := false, halted := false
             turns := c :: x.turns.filter fun y => y != c }
/-- Whether a commit is a clear point (14 R392): no window of the partition is open, no transfer descriptor of its contexts is in
progress, and every engine has arrived with its queues empty. -/
def State.clearPoint (s : State) (p : Nat) : Bool :=
  !s.partWindowOpen p &&
  (!s.queues.any fun q => q.2.fetched.any fun d =>
    d.started && d.status.isNone && [1, 3, 6, 7].contains (dOp d) && (s.ctx (dCtx d).val).part.toNat == p) &&
  (s.engineIds p).all fun e => (s.eng e).moverQ.isEmpty && (s.eng e).arrayQ.isEmpty && (s.eng e).rowQ.isEmpty
/-- `n` steps of a context's RUN become committed: counters, slots and chains (01 R36). -/
def State.commitSteps (s : State) (p : Nat) (c : CtxId) (n : Nat) : State :=
  let books := match (s.part p).runOf c with | some r => r.ledgers | none => []
  let s := books.foldl (fun s x => s.bookLedger x.1 x.2) s
  let s := s.forEach (s.part p).sheetList fun s h => s.modSheet h fun x => x.commitSlots c
  let s := s.modCtx c.val fun x => { x with step := x.step + BitVec.ofNat 64 n }
  let now := BitVec.ofNat 64 s.now
  let s := s.modRunOf p c fun r =>
    { r with
      committed := r.committed + n, lastCommit := now, sat := r.sat || r.provSat, flagged := r.flagged || r.provFlags
      status := if r.provFlags then higherStatus r.status stOkFlags else r.status
      divLast := if r.provDiv.isEmpty then r.divLast else r.provDiv, provisional := 0, provFlags := false, provSat := false
      provDiv := [], epochTiles := [], ledgers := [] }
  if s.clearPoint p then s.modPart p fun x => { x with activity := [] } else s
/-- A RUN whose steps are all committed completes with the highest status it ran through (09 R273). -/
def State.finishIfDone (s : State) (p : Nat) (c : CtxId) : State :=
  match (s.part p).runOf c with
  | some r => if r.total ≤ r.committed then s.finishRun p c r.status r.kind else s
  | none => s

end Sys2Proof.Machine
end

