-- ==== Sys2Proof/Machine/EpochOps.lean ====
section
/-! DEFINITION. Span trees and the epoch of a chart context on this device (11 R335, R336, R342, R343, R345). -/

namespace Sys2Proof.Machine

/-! ### Span trees -/

/-- BARRIER_ARRIVE. -/
def syArrive : Byte := 1
/-- BARRIER_RELEASE. -/
def syRelease : Byte := 2
/-- FLAG. -/
def syFlag : Byte := 3
/-- TRIGGER. -/
def syTrigger : Byte := 4
/-- DATUM. -/
def syDatum : Byte := 5
/-- DELAY_PROBE. -/
def syProbe : Byte := 6
/-- DELAY_ECHO. -/
def syEcho : Byte := 7
/-- FENCED. -/
def syFenced : Byte := 8

/-- A plan whose route table names more than one device (11). -/
def planIsChart (p : Plan) : Bool := decide (1 < p.span.length)
/-- The span tree of a number on this device. -/
def State.spanTree (s : State) (p : Plan) (num : BitVec 16) : Option SpanTree :=
  p.trees.find? fun t => t.num == num && t.dev.val == s.chart.reg.devId.toNat
/-- The partition of a context. -/
def State.ctxPart (s : State) (c : CtxId) : Nat := (s.ctx c.val).part.toNat
/-- The epoch tree of a context's RUN on this device. -/
def State.epochTree (s : State) (c : CtxId) : Option SpanTree :=
  match s.runPlan (s.ctxPart c) c with
  | none => none
  | some l => match l.plan.epochTree with
    | none => none
    | some n => s.spanTree l.plan n
/-- A sync message of a context on a port of its tree (10 R304). -/
def State.treeMsg (s : State) (c : CtxId) (t : SpanTree) (ty : Byte) (operand : Word) (port : PortId) : State :=
  s.sendSync port.val
    { stype := ty, value := false, src := s.chart.reg.devId, dst := (s.port port.val).pdev, num := t.num, operand := operand
      sentAt := BitVec.ofNat 64 s.now, epoch := (s.epoch c.val).num, ctx := BitVec.ofNat 12 c.val, gen := (s.ctx c.val).gen }
/-- A sync message to every child. -/
def State.treeDown (s : State) (c : CtxId) (t : SpanTree) (ty : Byte) (operand : Word) : State :=
  s.forEach t.children fun s p => s.treeMsg c t ty operand p
/-- The inputs a node of a tree waits for: its own and its children's. -/
def treeInputs (t : SpanTree) : List (Option PortId) := none :: t.children.map some
/-- A verdict field with its operand. -/
def verdictWord (v : Nat) (cmp : Bool) (rdig : Nat) : Word := BitVec.ofNat 64 (v * 2 ^ 62 + b2n cmp * 2 ^ 61 + rdig % 2 ^ 61)
/-- VERDICT of an operand. -/
def verdictOf (w : Word) : Nat := bits w.toNat 63 62

/-! ### Decisions (R343, R345) -/

/-- Commit of the epoch on this device: its steps become committed together (R342). -/
def State.commitEpoch (s : State) (c : CtxId) (flags : Bool) : State :=
  let p := s.ctxPart c
  match (s.part p).runOf c with
  | none => s
  | some r =>
    let s := s.modRunOf p c fun r => { r with status := if flags then higherStatus r.status stOkFlags else r.status }
    let s := s.commitSteps p c r.provisional
    let done := decide (r.total ≤ r.committed + r.provisional)
    let step := (s.ctx c.val).step
    let s := s.modEpoch c.val fun e =>
      { e with st := if done then .idle else .opened, num := if done then e.num else step.setWidth 32
               votes := [], tags := [], drained := [], sent := false }
    s.finishIfDone p c
/-- The step in progress ends without a repeat: engines stop at once, nothing is committed. -/
def State.stopStep (s : State) (p : Nat) : State :=
  (s.abandonStep p []).modPart p fun x =>
    { x with phase := .none, cur := none, faults := [], firstFaults := [], again := false, swaps := [], noCommit := false }
/-- Rollback on this device (R345): its engines stop, and no new packet of the context leaves. Where the failure was elsewhere, kind
0x340 says so (R347). -/
def State.rollbackEpoch (s : State) (c : CtxId) : State :=
  let p := s.ctxPart c
  let e := s.epoch c.val
  let own := e.failKind != 0 || e.votes.any fun v => v.1.isNone && verdictOf v.2 == 2
  let s := if own then s else s.sendFault { source := devSource 6, kind := 0x340, ctx := some c }
  let s := if (s.part p).cur == some c then s.stopStep p else s
  let s := s.dropUnsent p c
  let s := s.noteSat (s.epoch c.val).rbcnt 4
  s.modEpoch c.val fun e => { e with st := .rollback, rbcnt := satInc e.rbcnt, votes := [], tags := [], drained := [], sent := false }
/-- A release other than drained reaches this device: 0 and 1 commit, 2 rolls back. -/
def State.applyRelease (s : State) (c : CtxId) (dec : Nat) : State :=
  let e := s.epoch c.val
  if dec = 2 then if e.st == .opened || e.st == .voted then s.rollbackEpoch c else s
  else if dec ≤ 1 ∧ e.st = .voted then s.commitEpoch c (dec == 1)
  else s
/-- The root's decision goes down the tree and takes effect here. -/
def State.releaseEpoch (s : State) (c : CtxId) (t : SpanTree) (dec : Nat) : State :=
  (s.treeDown c t syRelease (verdictWord dec false 0)).applyRelease c dec

/-! ### The commit barrier (R343) -/

/-- What a node does with the votes in hand: at the first fail, or with every input in, it forwards the highest verdict, or
decides as the root. -/
def State.settleVotes (s : State) (c : CtxId) : State :=
  match s.epochTree c with
  | none => s
  | some t =>
    let e := s.epoch c.val
    let fail := e.votes.any fun v => verdictOf v.2 == 2
    let full := (treeInputs t).all fun i => e.votes.any fun v => v.1 == i
    if e.sent || !(fail || full) then s
    else
      let v := if fail then 2 else (smallReduce .max 0 (e.votes.map fun v => BitVec.ofNat 32 (verdictOf v.2))).toNat
      let cmp := e.votes.find? fun v => v.2.getLsbD 61
      let s := s.modEpoch c.val fun e => { e with sent := true }
      match t.parent with
      | some pr =>
        let w := match cmp with
          | some x => verdictWord v true (x.2.toNat % 2 ^ 61)
          | none => verdictWord v false 0
        s.treeMsg c t syArrive w pr
      | none => s.releaseEpoch c t v
/-- An input of the commit barrier: differing replica digests raise 0x330 and count as fail. -/
def State.castVote (s : State) (c : CtxId) (who : Option PortId) (w : Word) : State :=
  let e := s.epoch c.val
  if e.votes.any fun v => v.1 == who then s
  else
    let differ := w.getLsbD 61 && e.votes.any fun v => v.2.getLsbD 61 && v.2.toNat % 2 ^ 61 != w.toNat % 2 ^ 61
    let s := if differ then s.sendFault { source := devSource 6, kind := 0x330, ctx := some c } else s
    let s := s.modEpoch c.val fun e =>
      { e with votes := e.votes ++ [(who, if differ then verdictWord 2 false 0 else w)]
               failKind := if differ && e.failKind == 0 then 0x330 else e.failKind }
    s.settleVotes c
/-- RDIG: the digests of the compared tensors' tiles written in the epoch; nothing where one is void. -/
def State.replicaDigest (s : State) (p : Plan) (tiles : List (Nat × Nat)) : Option Nat :=
  let tile (t : Tensor) (d : Nat × Nat × Nat) (acc : Option Nat) (i : Nat) : Option Nat :=
    match acc, t.tileLoc 0 i with
    | some a, some l =>
      if t.isSealed && tiles.contains (l.sheet, 2 * l.sealIx) then
        let m := (s.sheet l.sheet).mem
        match digestOf d.1 d.2.1 d.2.2 (m.record l.sealIx ++ mread m.dram l.addr (tileBytes t.fmt t.mx)) with
        | some v => some ((a + v) % resP)
        | none => none
      else some a
    | acc, _ => acc
  p.compared.foldl (fun acc x =>
    match p.tensors.find? fun t => t.handle == x.1 with
    | none => acc
    | some t => (List.range (tileCount t)).foldl (tile t x.2) acc) (some 0)
/-- This device arrives at the commit barrier (R343). -/
def State.arriveEpoch (s : State) (c : CtxId) (v : Nat) : State :=
  let p := s.ctxPart c
  if (s.epoch c.val).st ≠ .opened then s
  else
    let w := match (s.part p).runOf c, s.runPlan p c with
      | some r, some l =>
        if l.plan.compared.isEmpty || v == 2 then verdictWord v false 0
        else match s.replicaDigest l.plan r.epochTiles with
          | some d => verdictWord v true d
          | none => verdictWord v false 0
      | _, _ => verdictWord v false 0
    (s.modEpoch c.val fun e => { e with st := .voted }).castVote c none w
/-- A fail arrival, at once: a fault that abandons a step, a poison commit point, loss of lock, or teardown (R343). -/
def State.failEpoch (s : State) (c : CtxId) (kind : BitVec 12) (poison : Bool) : State :=
  if (s.epoch c.val).st ≠ .opened then s
  else
    (s.modEpoch c.val fun e =>
      { e with failKind := if e.failKind == 0 then kind else e.failKind, poisoned := e.poisoned || poison }).arriveEpoch c 2

/-! ### The launch barrier (R336) -/

/-- Count T is reached: the first epoch opens, with the arrivals that came before it. -/
def State.openEpoch (s : State) (c : CtxId) : State :=
  let s := s.modRunOf (s.ctxPart c) c fun r => { r with waitLaunch := false }
  (s.modEpoch c.val fun e => { e with st := .opened, launchAt := none, tags := [], sent := false }).settleVotes c
/-- Count T had passed: the first step starts at once, and kind 0x322 says so. -/
def State.openLate (s : State) (c : CtxId) : State :=
  (s.sendFault { source := devSource 6, kind := 0x322, ctx := some c }).openEpoch c
/-- RUNs whose count T passed while the device was not in SERVICE start late (R326, R336; log 53). -/
def State.openWaiting (s : State) : State :=
  s.forEach (s.chart.epochs.map fun x => Fin.ofNat 4096 x.1) fun s c =>
    let e := s.epoch c.val
    match e.st, e.launchAt with
    | .launch, some t => if t ≤ s.now then s.openLate c else s
    | _, _ => s

/-- The launch tag of a context's RUN. -/
def State.launchTag (s : State) (c : CtxId) : Word :=
  match s.runPlan (s.ctxPart c) c with
  | none => 0
  | some l => BitVec.ofNat 64 ((leNat (l.hash.take 4)) * 2 ^ 32 + (s.ctx c.val).step.toNat % 2 ^ 32)
/-- Differing tags: the RUN completes with BAD_DESCRIPTOR on this device and no step starts. -/
def State.launchFailed (s : State) (c : CtxId) : State :=
  let p := s.ctxPart c
  (s.modEpoch c.val fun e => { e with st := .idle, tags := [], votes := [], sent := false, launchAt := none }).finishRun p c stBad
    0x323
/-- The word that carries the difference to the other devices of the span (log 25). -/
def launchBad : Word := verdictWord 2 false 0
/-- The launch fails at this node: it tells its other neighbours in the tree. -/
def State.spreadLaunchBad (s : State) (c : CtxId) (t : SpanTree) (from? : Option PortId) : State :=
  let s := s.forEach (t.children.filter fun x => some x != from?) fun s x => s.treeMsg c t syRelease launchBad x
  let s := match t.parent with
    | some pr => if some pr == from? then s else s.treeMsg c t syRelease launchBad pr
    | none => s
  s.launchFailed c
/-- What a node does with the tags in hand. -/
def State.settleTags (s : State) (c : CtxId) : State :=
  match s.epochTree c with
  | none => s
  | some t =>
    let e := s.epoch c.val
    if e.sent || !((treeInputs t).all fun i => e.tags.any fun v => v.1 == i) then s
    else
      let s := s.modEpoch c.val fun e => { e with sent := true }
      match t.parent with
      | some pr => s.treeMsg c t syArrive (s.launchTag c) pr
      | none =>
        let at' := s.now + s.chart.reg.lmargin.toNat
        (s.treeDown c t syTrigger (BitVec.ofNat 64 at')).modEpoch c.val fun e => { e with launchAt := some at', sent := false }
/-- An input of the launch barrier: two differing tags raise 0x323. -/
def State.castTag (s : State) (c : CtxId) (who : Option PortId) (w : Word) : State :=
  let e := s.epoch c.val
  if e.tags.any fun v => v.1 == who then s
  else
    let s' := s.modEpoch c.val fun e => { e with tags := e.tags ++ [(who, w)] }
    if e.tags.any fun v => v.2 != w then
      let s' := s'.sendFault { source := devSource 6, kind := 0x323, ctx := some c }
      match s.epochTree c with
      | some t => s'.spreadLaunchBad c t none
      | none => s'
    else s'.settleTags c
/-- A chart RUN's first step is programmed: this device arrives at the launch barrier. -/
def State.arriveLaunch (s : State) (c : CtxId) : State :=
  let step := (s.ctx c.val).step
  let s := s.modEpoch c.val fun e =>
    { e with st := .launch, num := step.setWidth 32, votes := [], drained := [], sent := false, launchAt := none
             failKind := 0, poisoned := false }
  s.castTag c none (s.launchTag c)

end Sys2Proof.Machine
end

