-- ==== Sys2Proof/Machine/CtxOps.lean ====
section
/-! DEFINITION. Teardown of contexts (09 R289-R291), containment (08 R250) and the start of a partition reset (09 R282). -/

namespace Sys2Proof.Machine

/-- A CONTROL packet of a context to a device on VL1 (10 R307). The spec gives no layout of its body: one free byte
(log 26). -/
def State.controlPacket (s : State) (dev : DevId) (c : CtxId) (gen : Byte) : State :=
  let body := [BitVec.ofNat 8 (Config.freeValue s.free)]
  let s := { s with free := s.free + 1 }
  s.launchPacket
    { ptype := 5, poison := false, prov := false, enc := false, src := s.chart.reg.devId, dst := BitVec.ofNat 12 dev.val
      ctx := BitVec.ofNat 12 c.val, gen := gen, dsheet := 0, route := 0, tspec := 0, body := body }
/-- Devices that a route names: those it sends to and those whose contributions it takes. -/
def routeDevs (r : Route) : List DevId :=
  (r.dests.filterMap fun d => match d with | .device d _ _ => some d | _ => none) ++
  r.children.filterMap fun c => match c with | .device d => some d | _ => none
/-- Devices that a plan's route table names: in its routes and in its span trees (11 R335). -/
def planDevs (p : Plan) : List DevId := p.span ++ (p.progs.flatMap StepProg.divs).flatMap fun d => d.routes.flatMap routeDevs
/-- Devices that a context's route tables name, this one apart. -/
def State.ctxDevs (s : State) (c : CtxId) : List DevId :=
  ((s.ctx c.val).plans.flatMap fun l => planDevs l.plan).foldl (fun a d =>
    if d.val == s.chart.reg.devId.toNat || a.contains d then a else a ++ [d]) []
/-- Status of descriptors that a teardown ends. -/
def tearStatus (kill : Bool) : Byte := if kill then stKilled else stTorn
/-- Status with which the teardown of a context ends its descriptors. -/
def State.tearing (s : State) (c : CtxId) : Byte := tearStatus (s.ctx c.val).killing

/-- Phases 2 to 4 (R289): the generation advances, transactions of the old one are dropped and counted, running
descriptors stop, and every device of the routes is asked to quiesce. -/
def State.tearPhase2 (s : State) (c : CtxId) : State :=
  let st := s.tearing c
  let p := s.ctxPart c
  let old := (s.ctx c.val).gen
  let s := s.finishRun p c st
  let s := s.modCtx c.val fun x => { x with gen := x.gen + 1, tphase := 4 }
  let mine (h : Nat) : Nat := ((s.sheet h).mem.adds.filter fun a => a.ctx == c).length
  let drops := (sheetIdx.map mine).sum
  let s := s.forEach sheetIdx fun s h => s.modMem h fun m => { m with adds := m.adds.filter fun a => a.ctx != c }
  let s := (List.range drops).foldl (fun s _ => s.noteSat (s.ctx c.val).drops 4 |>.modCtx c.val fun x =>
    { x with drops := satInc x.drops }) s
  let s := s.endDescs c st cfPartial fun q d => d.started && !(dOp d == 11 && (s.ctx c.val).waiter == some q)
  let devs := s.ctxDevs c
  let s := s.modCtx c.val fun x => { x with acks := devs, tphase := if devs.isEmpty then 5 else 4 }
  s.forEach devs fun s d => s.controlPacket d c old

/-- Under a function level reset the step of a teardown in phase 1 is halted at once (R289). -/
def State.haltTeardown (s : State) (c : CtxId) : State :=
  let p := s.ctxPart c
  let q := s.part p
  if (s.ctx c.val).tphase == 1 && q.cur == some c && q.phase == .running then
    (s.haltPartition p []).stopStep p |>.tearPhase2 c
  else s
/-- Phase 1: the state becomes TEARING. `flr`: under a function level reset the step is halted at once. A kill that meets a
running teardown joins it (R290). -/
def State.startTeardown (s : State) (c : CtxId) (kill flr : Bool) (cause : Byte) (waiter : Option Nat) : State :=
  let x := s.ctx c.val
  match x.st with
  | .tearing =>
    let s := s.modCtx c.val fun x =>
      { x with
        killing := x.killing || kill, pendCause := if kill && !x.killing then cause else x.pendCause, byFlr := x.byFlr || flr }
    if flr then s.haltTeardown c else s
  | .opened =>
    let p := x.part.toNat
    let s := s.modCtx c.val fun x =>
      { x with st := .tearing, tphase := 1, killing := kill, pendCause := cause, timedOut := false, byFlr := flr, drops := 0
               acks := [], waiter := waiter }
    let s := s.endDescs c (tearStatus kill) 0 fun _ d => !d.started && dOp d != 11
    let s := s.failEpoch c 0 false
    let q := s.part p
    if q.cur != some c then s.tearPhase2 c
    else if q.phase == .running && !flr then s.modPart p fun y => { y with noCommit := true }
    else if q.phase == .running then s.haltTeardown c
    else (s.stopStep p).tearPhase2 c
  | _ => s

/-- Whether every teardown of a partition's contexts has ended, those given up after 0x403 apart. -/
def State.teardownsOver (s : State) (p : Nat) : Bool :=
  s.ctxs.all fun x => !(x.2.part.toNat == p && x.2.st == .tearing && !x.2.timedOut)
/-- The sheet resets of a partition reset begin once its kills are over (14 R396). -/
def State.beginSheetResets (s : State) (p : Nat) : State :=
  if (s.part p).st == .resetting && !(s.part p).sheetsReset && s.teardownsOver p then
    let s := s.forEach (s.part p).sheetList fun s h => s.modSheet h fun x => { x with mode := .recovery }
    s.modPart p fun x => { x with sheetsReset := true }
  else s
/-- A partition reset starts (R282): every OPEN context of the partition is killed. -/
def State.startPartReset (s : State) (p : Nat) : State :=
  if (s.part p).st == .resetting || (s.part p).st == .unused then s
  else
    let s := s.modPart p fun x => { x with st := .resetting, sheetsReset := false, hang := .normal, suspects := [], hangCur := 0 }
    let own := (s.ctxs.filter fun x => x.2.part.toNat == p && x.2.st == .opened).map Prod.fst
    let s := s.forEach own fun s c => s.startTeardown (Fin.ofNat 4096 c) true false stKilled none
    s.beginSheetResets p

/-- The containment of a poison commit point (08 R250). -/
def State.contain (s : State) (p : Nat) (c : CtxId) : State :=
  if (s.part p).contain then s.startPartReset p else s.startTeardown c true false stPoison none

/-! ### Release (R289 phase 5) -/

/-- Pages of a tensor on each sheet. -/
def tensorPages (t : Tensor) : List (Nat × Nat) :=
  t.parts.flatMap fun x => (pagesOf x.base (partBytes t x)).map fun g => (x.sheet.val, g)
/-- Set a page free: both attribute copies, and its bytes where they are zeroed. -/
def MemPath.freePage (m : MemPath) (zero : Bool) (g : Nat) : MemPath :=
  let m := m.setAttr g 0
  if zero then { m with dram := mzero m.dram (4096 * g) 4096 } else m
/-- Forget the records and hashes of a tensor's tiles on a sheet: the tiles count as never written. -/
def MemPath.dropRecords (m : MemPath) (x : TensorPart) : MemPath :=
  { m with recs := mzero m.recs (32 * x.sealBase) (32 * x.count), hashes := tclear m.hashes x.sealBase x.count }
/-- Release a tensor: its pages become free, zeroed first where the context scrubs. `hold`: the pages become orphans that
wait to be zeroed. -/
def State.releaseTensor (s : State) (t : Tensor) (zero hold : Bool) (op : BitVec 16) : State :=
  let s := if t.isSealed then s.forEach t.parts fun s x => s.modMem x.sheet.val fun m => m.dropRecords x else s
  s.forEach (tensorPages t) fun s g =>
    let s := s.lookPages g.1 [g.2] op
    s.modMem g.1 fun m =>
      if hold then { m with lockedOrphans := sinsert m.lockedOrphans g.2 } else m.freePage zero g.2
/-- Tensors of a context's plans, each once. -/
def Ctx.tensors (x : Ctx) : List Tensor :=
  (x.plans.flatMap fun l => l.plan.tensors).foldl (fun a t =>
    if a.any fun y => y.number == t.number && y.parts == t.parts then a else a ++ [t]) []
/-- Clear what a context leaves on die in a parcel: everything where it was the only context of its partition, else the
carried regions and the program region of its plans (log 27); and the poison marks that its steps left (08 R250). -/
def State.clearDie (s : State) (c : CtxId) : State :=
  let x := s.ctx c.val
  let p := x.part.toNat
  let alone := s.ctxs.all fun y => y.1 == c.val || y.2.part.toNat != p || y.2.st == .free || y.2.st == .killed
  if alone then
    s.forEach (s.engineIds p) fun s e =>
      let s := s.modPmem e fun m => { m with store := [], acc := [], blkPoison := [], shapes := [] }
      s.modEng e fun g => { g with tdPoison := [] }
  else
    let s := s.forEach (s.engineIds p) fun s e =>
      let s := s.modPmem e fun m => { m with blkPoison := m.blkPoison.filter fun b => tget none m.blkCtx b != some c }
      s.modEng e fun g => { g with tdPoison := g.tdPoison.filter fun i => tget none g.tdCtx i != some c }
    let sets := (x.plans.flatMap fun l => l.plan.progs.flatMap StepProg.divs).flatMap fun d =>
      d.engines.map fun g => (d.sheet, g)
    s.forEach sets fun s y =>
      let e : EngId := { sheet := y.1, parcel := y.2.parcel }
      let rows := y.2.carriedRows
      let s := s.modPmem e fun m =>
        let m := { m with store := mzero m.store (64 * y.2.progUnit) progBytes }
        let m := y.2.carriedBlocks.foldl (fun (m : ParcelMem) b =>
          { m with store := mzero m.store (65536 * b) 65536, blkPoison := sremove m.blkPoison b
                   shapes := tclear m.shapes (1024 * b) 1024 }) m
        rows.foldl (fun (m : ParcelMem) r => { m with acc := mzero m.acc (1024 * r.1) (1024 * r.2) }) m
      s.modEng e fun g => { g with tdPoison := (g.tdsInRows rows).foldl sremove g.tdPoison }
/-- Unbind the slots of a context on a sheet. -/
def Sheet.unbind (h : Sheet) (c : CtxId) : Sheet :=
  ((h.slots.filter fun x => x.2.ctx == some c).map Prod.fst).foldl (fun h n =>
    (h.modSlot n fun x =>
      { x with reg := { x.reg with bound := false }, pend := { x.reg with bound := false }
               start := { x.reg with bound := false }, shadow := none, phase := .idle
               drew := false, started := false, poison := false, cfgPoison := false, ctx := none, sheets := []
               home := none, homeDev := none, far := [] }).modChain n fun x =>
      { x with pend := x.reg, start := x.reg, poison := false }) h
/-- Clear the key-table entries of a context. -/
def KeyUnit.forget (k : KeyUnit) (c : CtxId) : KeyUnit :=
  { k with tab := k.tab.filter fun x => x.2.ctx != some c
           shadow := match k.shadow with | some t => some (t.filter fun x => x.2.ctx != some c) | none => none }
/-- A function level reset completes when each of its teardowns has ended or has met 0x403 (R291). -/
def State.settleFlr (s : State) (f : BitVec 4) : State :=
  if s.flr.contains f && s.ctxs.all (fun x => !(x.2.func == f && x.2.st == .tearing && x.2.byFlr && !x.2.timedOut)) then
    { s with flr := s.flr.filter (· != f) }.emit (.flrDone f)
  else s
/-- Phase 5 ends: the context is FREE, or KILLED with its cause; a waiting TEARDOWN completes with OK. -/
def State.releaseCtx (s : State) (c : CtxId) : State :=
  let x := s.ctx c.val
  let hold := x.byFlr && x.scrub
  let s := s.forEach x.tensors fun s t => s.releaseTensor t x.scrub hold 9
  let s := s.clearDie c
  let s := s.forEach sheetIdx fun s h => s.modSheet h fun y => { y.unbind c with key := y.key.forget c }
  let s := s.modCtx c.val fun x =>
    { x with st := if x.killing then .killed else .free, tphase := 0, cause := if x.killing then x.pendCause else 0
             seed := none, plans := [], records := [], acks := [], waiter := none, killing := false, restored := false
             byFlr := false, timedOut := false }
  let s := match x.waiter with
    | some q => s.modQueue q fun y =>
        { y with fetched := y.fetched.map fun (d : Desc) =>
            if d.started && dOp d == 11 && dCtx d == c then settleDesc s.now stOk 0 x.drops.toNat 0 0 d else d }
    | none => s
  let s := s.closeCtxWindows c
  let s := s.settleFlr x.func
  s.beginSheetResets x.part.toNat

end Sys2Proof.Machine
end

