-- ==== Sys2Proof/Machine/LinkOps.lean ====
section
/-! DEFINITION. Loss of lock (11 R332) and a port that leaves UP (10 R321), with what its link layer discards. -/

namespace Sys2Proof.Machine

/-- A locked device loses lock and enters UNLOCKED: every chart RUN with an open epoch arrives with fail (R332, R343). -/
def State.unlockChart (s : State) (kind : BitVec 12) : State :=
  if !s.chart.lock then s
  else
    let s := s.sendFault { source := devSource 6, kind := kind }
    let s : State :=
      { s with chart := { s.chart with
        st := .unlocked, lock := false, goodRun := 0, serviceAt := none, childSums := [], lossKind := kind } }
    s.forEach (s.chart.epochs.map Prod.fst) fun s c => s.failEpoch (Fin.ofNat 4096 c) kind false

/-- The link layer of a port with everything in flight discarded and both streams at number 0 (R310, R313). -/
def Port.dropLink (x : Port) : Port :=
  { x with
    txSeq := 0, rxSeq := 0, txSync := 0, rxSync := 0, replayFlits := [], replaySyncs := [], resendFlits := []
    resendSyncs := [], credits := [], owed := [], syncQ := [], flitQ := [], inProgress := [], vl0Run := 0, vl1Run := 0
    vl2Run := 0, mgmtQ := [], awaiting := false, reqFlit := 0, reqSync := 0, badGroups := 0, authTimes := [], rxSub := []
    rxFlits := [], rxLeft := [], rxAsm := [], rxPacket := [], txCount := 0, txSyncCount := 0, encon := false, retraining := false
    retrainCause := 0, txGroup := [] }
/-- A port that enters FENCED sends on in the same UP of its partner (R320): numbers and keys stay, everything else in flight is
discarded. -/
def Port.fenceLink (x : Port) : Port :=
  { x.dropLink with
    txSeq := x.txSeq, rxSeq := x.rxSeq, txSync := x.txSync, rxSync := x.rxSync, txCount := x.txCount, txSyncCount := x.txSyncCount
    encon := x.encon, txGroup := x.txGroup }

/-- A port takes a state other than UP with a cause. A port that leaves UP raises 0x301; a step of its partition with a packet
unacknowledged on it is abandoned, and the upstream datum port takes the lock with it (R321, R332). -/
def State.leaveUp (s : State) (n : Nat) (st : LinkState) (cause : BitVec 8) : State :=
  let x := s.port n
  let was := x.lstate == .up || x.retraining
  let s := s.modPort n fun x =>
    { (if st == .fenced then x.fenceLink else x.dropLink) with lstate := st, cause := cause, quiet := false }
  if !was then s
  else
    let q := s.partOfPort n
    let c := match q with | some q => (s.part q).cur | none => none
    let s := s.sendFault { source := portSource n, kind := 0x301, ctx := c }
    let s := match q, c with
      | some q, some c =>
        if x.owes c.val && (s.part q).phase == .running then
          s.modPart q fun y => { y with faults := y.faults ++
            [{ kind := 0x301, address := 0, source := portSource n, sheet := y.sheetList.headD 0, phys := none, again := y.again }] }
        else s
      | _, _ => s
    if s.chart.reg.upport.toNat = n then s.unlockChart 0x321 else s

/-- Retraining (R313): a port that is UP enters ALIGN and keeps its streams; `cause` shows if it fails. -/
def State.retrain (s : State) (n : Nat) (cause : BitVec 8) : State :=
  if (s.port n).lstate == .up then
    s.modPort n fun x => { x with lstate := .align, retraining := true, retrainCause := cause, badGroups := 0 }
  else s

end Sys2Proof.Machine
end

