-- ==== Sys2Proof/Machine/ChartOps.lean ====
section
/-! DEFINITION. The chart state of this device: aligning, lock, and leaving start-up mode (11 R326-R333). -/

namespace Sys2Proof.Machine

/-- This device is the datum device (R325). -/
def State.isDatum (s : State) : Bool := s.chart.reg.devId == s.chart.reg.datumDev
/-- Ports of `CHART.DOWN` that are UP. -/
def State.downPorts (s : State) : List Nat :=
  (List.range 64).filter fun n => s.chart.reg.down.getLsbD n && (s.port n).lstate == .up
/-- The port of `CHART.UPPORT`, where it is UP. -/
def State.upPort (s : State) : Option Nat :=
  let n := s.chart.reg.upport.toNat
  if n < 64 && (s.port n).lstate == .up then some n else none
/-- A sync message of barrier number `num` on the datum tree (R329, R333). -/
def State.datumMsg (s : State) (ty : Byte) (num : BitVec 16) (operand : Word) (n : Nat) : State :=
  s.sendSync n
    { stype := ty, value := false, src := s.chart.reg.devId, dst := (s.port n).pdev, num := num, operand := operand
      sentAt := BitVec.ofNat 64 s.now, epoch := 0, ctx := 0, gen := 0 }
/-- Devices joined in this device's subtree: the sum of itself and its children (R333), a small-value reduction (01 R31). -/
def Chart.joined (c : Chart) : Nat := (smallReduce .sum 1 (c.childSums.map fun x => BitVec.ofNat 32 x.2)).toNat
/-- A device in STARTUP sends the sum of itself and its children toward the datum device; the datum device triggers service
when the chart is whole (R333). -/
def State.settleMembers (s : State) : State :=
  let n := s.chart.joined
  let s : State := { s with chart := { s.chart with members := BitVec.ofNat 13 n } }
  if s.chart.st != .startUp then s
  else if s.isDatum then
    if n = s.chart.reg.size.toNat then
      if s.chart.serviceAt.isSome then s
      else
        let t := s.now + s.chart.reg.lmargin.toNat
        let s := s.forEach s.downPorts fun s p => s.datumMsg syTrigger 0 (BitVec.ofNat 64 t) p
        { s with chart := { s.chart with serviceAt := some t } }
    else if s.chart.reg.size.toNat < n then s.sendFault { source := devSource 6, kind := 0x324 }
    else s
  else match s.upPort with
    | some p => s.datumMsg syArrive 0 (BitVec.ofNat 64 n) p
    | none => s
/-- Lock (R331): STARTUP, or SERVICE where the chart is there already. -/
def State.lockChart (s : State) (service : Bool) : State :=
  let s : State := { s with chart := { s.chart with lock := true, lockedBefore := true, st := if service then .service else .startUp } }
  let s := s.settleMembers
  if service then s.openWaiting else s
/-- ALIGNING begins (R326); the datum device locks at once (R330). -/
def State.alignChart (s : State) : State :=
  let s : State :=
    { s with chart := { s.chart with
        st := .aligning, lock := false, stepped := false, goodRun := 0, serviceAt := none, childSums := [] } }
  if s.isDatum then ({ s with chart := { s.chart with depth := 0 } } : State).lockChart false else s
/-- The service trigger takes effect (R333). -/
def State.serveChart (s : State) : State :=
  if s.chart.st == .startUp then ({ s with chart := { s.chart with st := .service, serviceAt := none } } : State).openWaiting else s

end Sys2Proof.Machine
end

