-- ==== Sys2Proof/Machine/Clock.lean ====
section
/-! DEFINITION. The datum clock (01 R25, R27; 11 R328): moving to a count. -/

namespace Sys2Proof.Machine

/-- Move the datum count up to a count, where it has not passed it. -/
def State.reach (s : State) (count : Nat) : State :=
  if s.now < count then { s with chart := { s.chart with datum := 256 * count } } else s

end Sys2Proof.Machine
end

