-- ==== Sys2Proof/Machine/EngineDecode.lean ====
section
/-! DEFINITION. The 128-bit engine words (03 R92-R104): which word stands for which operation, reserved encodings refused;
and the structure of an engine program that LOAD_PLAN checks (R91, R502). -/

namespace Sys2Proof.Machine

/-- An operation that decode itself carries out: classes 0x8 and 0x9 (03 R104). -/
inductive CtlWord where
  | nop | flagSet (n : Nat) | flagClear (n : Nat) | flagWait (n : Nat)
  | scribeRing (core value : Nat) | scribeWait (core : Nat) | unitDrain | stepEnd
  | loopBegin (count : Nat) | loopEnd | branch (offs : Int)
  | agSet (ag : Nat) (g : AddrGen) | eflagFromTd (td ef mask : Nat) | eflagSet (ef : Nat) (val : Bool)
deriving DecidableEq, Repr

/-- A decoded word. -/
inductive EngWord where
  | queued (u : Uop) | control (c : CtlWord)
deriving DecidableEq, Repr

/-- A decoded value of a place that may hold nothing else. -/
def whenB {α : Type} (c : Bool) (x : α) : Option α := if c then some x else none

/-- Tile movement, class 0x1 (R96). `ad` gives the address of a 20-bit operand field. -/
def decodeMove (ad : Nat → Option Int) (pc w : Nat) : Option Uop :=
  match ad (bits w 110 91) with
  | none => none
  | some ps =>
    let o : MoveOp :=
      { pc := pc, rm := BitVec.ofNat 2 (bits w 117 116), ps := ps, td := Fin.ofNat 32 (bits w 90 86)
        handle := BitVec.ofNat 16 (bits w 85 70), tileIdx := BitVec.ofNat 32 (bits w 69 38)
        fmt := BitVec.ofNat 4 (bits w 37 34), mx := bit w 33, src := bit w 32 }
    if bits w 31 0 ≠ 0 then none
    else match bits w 123 118 with
      | 1 => some (.tileLoad o)
      | 2 => some (.tileStore o)
      | 3 => some (.accStore o)
      | 4 => some (.accLoad o)
      | 5 => some (.psToAcc o)
      | 6 => some (.accToPs o)
      | 7 => some (.tileSend o)
      | 8 => some (.tileRecv o)
      | 9 => some (.tileAddMem o)
      | 10 => some (.tableLoad o)
      | _ => none

/-- MMA, class 0x2 (R97). `lp` gives the iteration index of the loop at a depth. -/
def decodeMma (ad : Nat → Option Int) (lp : Nat → Option Nat) (pc w : Nat) : Option Uop :=
  let td : Option Nat := if bit w 17 then (lp (bits w 19 18)).map (bits w 60 56 + ·) else some (bits w 60 56)
  let kl : Option Nat := if bit w 20 then lp (bits w 22 21) else some 0
  match ad (bits w 110 91), ad (bits w 90 71), td, kl with
  | some a, some b, some t, some k =>
    whenB (bits w 123 118 == 1 && bits w 9 0 == 0 && bits w 117 116 == 0)
      (.mma
        { pc := pc, a := a, b := b, afmt := BitVec.ofNat 4 (bits w 70 67), amx := bit w 66
          bfmt := BitVec.ofNat 4 (bits w 65 62), bmx := bit w 61, td := t, kblk := bits w 55 33 + k
          rows := bits w 32 25, init := bit w 24 && k == 0, bkeep := bit w 23, roff := bits w 16 10 })
  | _, _, _, _ => none

/-- ROW_CHAIN, class 0x3 (R99). -/
def decodeChain (ad : Nat → Option Int) (pc w : Nat) : Option Uop :=
  match ad (bits w 100 81), ad (bits w 59 40), ad (bits w 25 6) with
  | some dadr, some scadr, some badr =>
    whenB (bits w 123 118 == 1)
      (.rowChain
        { pc := pc, rm := BitVec.ofNat 2 (bits w 117 116), src := Fin.ofNat 32 (bits w 110 106)
          dst := Fin.ofNat 32 (bits w 105 101), dadr := dadr, dsel := bit w 80, dfmt := BitVec.ofNat 4 (bits w 79 76)
          dmx := bit w 75, frow := bits w 74 68, nrows := bits w 67 60, scadr := scadr
          scmode := BitVec.ofNat 3 (bits w 39 37), scexp := BitVec.ofNat 11 (bits w 36 26), badr := badr
          bmode := BitVec.ofNat 2 (bits w 5 4), fn := BitVec.ofNat 4 (bits w 3 0) })
  | _, _, _ => none

/-- Reductions, class 0x4 (R101). -/
def decodeRed (ad : Nat → Option Int) (pc w : Nat) : Option Uop :=
  match ad (bits w 100 81) with
  | none => none
  | some dadr =>
    let o : RedOp :=
      { pc := pc, rm := BitVec.ofNat 2 (bits w 117 116), src := Fin.ofNat 32 (bits w 110 106)
        dst := Fin.ofNat 32 (bits w 105 101), dadr := dadr, dsel := bit w 80, dfmt := BitVec.ofNat 4 (bits w 79 76)
        dmx := bit w 75, frow := bits w 74 68, nrows := bits w 67 60, dir := bit w 59, cont := bit w 58
        dsh := bits w 57 51, count := bits w 50 26 }
    if bits w 25 0 ≠ 0 then none
    else match bits w 123 118 with
      | 1 => some (.redSum o)
      | 2 => some (.redMoments o)
      | 3 => some (.redFinish o)
      | _ => none

/-- Conversions, class 0x5 (R102). -/
def decodeConv (ad : Nat → Option Int) (pc w : Nat) : Option Uop :=
  match ad (bits w 100 81) with
  | none => none
  | some dadr =>
    let o : ConvOp :=
      { pc := pc, rm := BitVec.ofNat 2 (bits w 117 116), src := Fin.ofNat 32 (bits w 110 106)
        dst := Fin.ofNat 32 (bits w 105 101), dadr := dadr, dsel := bit w 80, dfmt := BitVec.ofNat 4 (bits w 79 76)
        dmx := bit w 75, frow := bits w 74 68, nrows := bits w 67 60 }
    if bits w 59 0 ≠ 0 then none
    else match bits w 123 118 with
      | 1 => some (.convert o)
      | 2 => some (.rewindow o)
      | _ => none

/-- Sampling, class 0x6 (04 R139, R147). -/
def decodeSample (ad : Nat → Option Int) (pc w : Nat) : Option Uop :=
  let slot := Fin.ofNat 128 (bits w 110 104)
  let src := Fin.ofNat 32 (bits w 103 99)
  let op := bits w 123 118
  if bits w 93 78 ≠ 0 ∨ bits w 117 116 ≠ 0 then none
  else if 1 ≤ op ∧ op ≤ 4 then
    let zeros := bits w 98 94 == 0 && !bit w 26 && bits w 3 0 == 0 && (op == 4 || bits w 25 4 == 0)
    match (if op = 4 then ad (2 ^ 19 + bits w 15 12 * 2 ^ 15) else some 0) with
    | none => none
    | some ib =>
      let o : PassOp :=
        { pc := pc, slot := slot, src := src, vbase := bits w 77 47, nelem := bits w 46 27, last := bit w 25
          pchk := bit w 24, draw := bits w 23 16, ibuf := ib, iword := bits w 11 4 }
      if !zeros then none
      else match op with
        | 1 => some (.smpMax o)
        | 2 => some (.smpWeigh o)
        | 3 => some (.smpCut o)
        | _ => some (.smpDraw o)
  else
    let o : BinOp :=
      { pc := pc, slot := slot, src := src, dst := Fin.ofNat 32 (bits w 98 94), frow := bits w 77 71
        nrows := bits w 70 63, b2 := bit w 62, draw := bits w 61 46 }
    if bits w 45 0 ≠ 0 then none
    else match op with
      | 5 => some (.bernoulli o)
      | 6 => some (.heatbath o)
      | 7 => some (.metropolis o)
      | _ => none

/-- Coupled-model moves, class 0x7 (06 R210). -/
def decodeCoupled (ad : Nat → Option Int) (pc w : Nat) : Option Uop :=
  let slot := Fin.ofNat 128 (bits w 110 104)
  let src := Fin.ofNat 32 (bits w 103 99)
  let dst := bits w 98 94
  let aux := BitVec.ofNat 16 (bits w 93 78)
  let nch := bits w 77 70
  let op := bits w 123 118
  if bits w 117 116 ≠ 0 ∨ (op ≠ 1 ∧ dst ≠ 0) then none
  else if op = 7 then
    whenB (src == 0 && bits w 52 0 == 0)
      (.exchange { pc := pc, slot := slot, aux := aux, nch := nch, par := bit w 69, draw := bits w 68 53 })
  else match ad (bits w 69 50) with
    | none => none
    | some a =>
      match op with
      | 1 => whenB (aux == 0 && bits w 48 0 == 0)
          (.fields { pc := pc, slot := slot, src := src, dst := Fin.ofNat 32 dst, nch := nch, hadr := a, mode := bit w 49 })
      | 2 => whenB (bits w 14 0 == 0)
          (.propose
            { pc := pc, slot := slot, src := src, aux := aux, nch := nch, radr := a, draw := bits w 49 34
              midx := bits w 33 18, heat := bit w 17, sync := bit w 16, cchk := bit w 15 })
      | 3 => whenB (aux == 0 && bits w 45 0 == 0)
          (.settle { pc := pc, slot := slot, src := src, nch := nch, qadr := a, qfmt := BitVec.ofNat 4 (bits w 49 46) })
      | 4 => whenB (aux == 0 && bits w 49 0 == 0) (.apply { pc := pc, slot := slot, src := src, nch := nch, radr := a })
      | 5 =>
        match ad (bits w 49 30) with
        | none => none
        | some g => whenB (aux == 0 && !bit w 0)
            (.group
              { pc := pc, slot := slot, src := src, aux := aux, nch := nch, radr := a, gadr := g, gidx := bits w 29 26
                ng := bits w 25 18, draw := bits w 17 2, metro := bit w 1 })
      | 6 =>
        match ad (bits w 49 30) with
        | none => none
        | some h => whenB (bits w 25 0 == 0)
            (.energy
              { pc := pc, slot := slot, src := src, aux := aux, nch := nch, radr := a, hadr := h, init := bit w 29
                echk := bit w 28, fin := bit w 27, prof := bit w 26 })
      | _ => none

/-- Sync, class 0x8 (R104). -/
def decodeSync (w : Nat) : Option CtlWord :=
  let flag := bits w 110 105
  let core := bits w 110 109
  match bits w 123 118 with
  | 1 => whenB (bits w 110 0 == 0) .nop
  | 2 => whenB (bits w 104 0 == 0) (.flagSet flag)
  | 3 => whenB (bits w 104 0 == 0) (.flagClear flag)
  | 4 => whenB (bits w 104 0 == 0) (.flagWait flag)
  | 5 => whenB (bits w 92 0 == 0) (.scribeRing core (bits w 108 93))
  | 6 => whenB (bits w 108 0 == 0) (.scribeWait core)
  | 7 => whenB (bits w 110 0 == 0) .unitDrain
  | 8 => whenB (bits w 110 0 == 0) .stepEnd
  | _ => none

/-- Loop and branch, class 0x9 (R104). -/
def decodeLoop (w : Nat) : Option CtlWord :=
  let f18 (hi lo : Nat) : BitVec 18 := BitVec.ofNat 18 (bits w hi lo)
  match bits w 123 118 with
  | 1 => whenB (bits w 86 0 == 0) (.loopBegin (bits w 110 87))
  | 2 => whenB (bits w 110 0 == 0) .loopEnd
  | 3 => whenB (bits w 97 0 == 0 && bits w 110 98 != 0) (.branch (sext 13 (bits w 110 98)))
  | 4 => whenB (bits w 16 0 == 0) (.agSet (bits w 110 107)
      { base := f18 106 89, str0 := f18 88 71, str1 := f18 70 53, str2 := f18 52 35, str3 := f18 34 17 })
  | 5 => whenB (bits w 97 0 == 0) (.eflagFromTd (bits w 110 106) (bits w 105 103) (bits w 102 98))
  | 6 => whenB (bits w 106 0 == 0) (.eflagSet (bits w 110 108) (bit w 107))
  | _ => none

/-- The predicate of a word (R92). -/
def decodePred (w : Nat) : Pred := { pen := bit w 115, pf := Fin.ofNat 8 (bits w 114 112), pneg := bit w 111 }

/-- A whole word; none for a reserved encoding (R10, R92-R104). -/
def decodeEngWord (ad : Nat → Option Int) (lp : Nat → Option Nat) (pc w : Nat) : Option EngWord :=
  let q (u : Option Uop) : Option EngWord := match u with
    | some u => whenB (uopOk u) (.queued u)
    | none => none
  let c (x : Option CtlWord) : Option EngWord := if bits w 117 116 ≠ 0 then none else x.map .control
  match bits w 127 124 with
  | 1 => q (decodeMove ad pc w)
  | 2 => q (decodeMma ad lp pc w)
  | 3 => q (decodeChain ad pc w)
  | 4 => q (decodeRed ad pc w)
  | 5 => q (decodeConv ad pc w)
  | 6 => q (decodeSample ad pc w)
  | 7 => q (decodeCoupled ad pc w)
  | 8 => c (decodeSync w)
  | 9 => c (decodeLoop w)
  | _ => none

/-! ### Addresses (R95) -/

/-- A generated address: BASE + Σ STR_l · i_l + offset. -/
def genAddr (g : AddrGen) (loops : List LoopFrame) (off : Int) : Int :=
  let i (l : Nat) : Int := match loops[l]? with
    | some f => f.iter
    | none => 0
  g.base.toNat + g.str0.toInt * i 0 + g.str1.toInt * i 1 + g.str2.toInt * i 2 + g.str3.toInt * i 3 + off

/-- The address of a 20-bit operand field; none where bit 18 of an absolute address is 1. -/
def Engine.operandAddr (g : Engine) (f : Nat) : Option Int :=
  if bit f 19 then some (genAddr (tget {} g.ags (bits f 18 15)) g.loops (sext 15 (bits f 14 0)))
  else if bit f 18 then none
  else some (bits f 17 0 : Nat)

/-! ### Program structure (R91, R502) -/

/-- Whether a word opens a loop. -/
def isLoopBegin (w : Nat) : Bool := bits w 127 124 == 9 && bits w 123 118 == 1
/-- Whether a word closes a loop. -/
def isLoopEnd (w : Nat) : Bool := bits w 127 124 == 9 && bits w 123 118 == 2

/-- The LOOP_END that pairs with the LOOP_BEGIN before `pos`, looking at most `n` words ahead. -/
def matchEnd (word : Nat → Nat) : Nat → Nat → Nat → Option Nat
  | 0, _, _ => none
  | n + 1, pos, d =>
    let w := word pos
    if isLoopBegin w then matchEnd word n (pos + 1) (d + 1)
    else if isLoopEnd w then (if d = 0 then some pos else matchEnd word n (pos + 1) (d - 1))
    else matchEnd word n (pos + 1) d

/-- The loops of a program: start, end, count and depth; none where brackets do not pair. -/
def loopSpans : Nat → List (Nat × Nat) → List Nat → Option (List (Nat × Nat × Nat × Nat))
  | _, [], [] => some []
  | _, _ :: _, [] => none
  | pos, open_, w :: r =>
    if isLoopBegin w then loopSpans (pos + 1) ((pos, bits w 110 87) :: open_) r
    else if isLoopEnd w then
      match open_ with
      | [] => none
      | (a, c) :: rest => (loopSpans (pos + 1) rest r).map fun l => (a, pos, c, rest.length) :: l
    else loopSpans (pos + 1) open_ r

/-- A loop of a program: its start, end, count and depth. -/
abbrev LoopSpan := Nat × Nat × Nat × Nat
/-- The loops open at a word. -/
def loopsAt (spans : List LoopSpan) (i : Nat) : List LoopSpan := spans.filter fun s => decide (s.1 < i ∧ i ≤ s.2.1)
/-- COUNT of the loop open at a word at a depth. -/
def loopCount (spans : List LoopSpan) (i d : Nat) : Option Nat :=
  ((loopsAt spans i).find? fun s => s.2.2.2 == d).map fun s => s.2.2.1
/-- Whether a word is STEP_END. -/
def isStepEnd (w : Nat) : Bool := bits w 127 124 == 8 && bits w 123 118 == 8
/-- Whether a word is BRANCH. -/
def isBranch (w : Nat) : Bool := bits w 127 124 == 9 && bits w 123 118 == 3
/-- The words that may come after a word: the target of a branch, the start or the end of a loop's body, and the next word
unless an unpredicated STEP_END or BRANCH stands here (R91, R502). -/
def wordNext (spans : List LoopSpan) (i w : Nat) : List Nat :=
  let always := !bit w 115
  (if isBranch w then [((i : Int) + sext 13 (bits w 110 98)).toNat] else []) ++
  (spans.filterMap fun s =>
    if isLoopBegin w && s.1 == i then (if s.2.2.1 = 0 ∨ !always then some (s.2.1 + 1) else none)
    else if isLoopEnd w && s.2.1 == i then (if 1 < s.2.2.1 then some (s.1 + 1) else none)
    else none) ++
  (if (isStepEnd w || isBranch w) && always then []
   else if isLoopBegin w && always && spans.any (fun s => s.1 == i && s.2.2.1 == 0) then [] else [i + 1])
/-- The words on the paths of a program that begin at the words of a stack; `fuel` bounds the words looked at. -/
def wordsReached (spans : List LoopSpan) (ws : List Nat) : Nat → List Nat → List Nat → List Nat
  | 0, _, seen => seen
  | _, [], seen => seen
  | n + 1, i :: stack, seen =>
    if seen.contains i then wordsReached spans ws n stack seen
    else match ws[i]? with
      | none => wordsReached spans ws n stack (i :: seen)
      | some w => wordsReached spans ws n (wordNext spans i w ++ stack) (i :: seen)
/-- Whether no path from the program counter's first value runs past word 8,191 (R91). -/
def pathsEnd (spans : List LoopSpan) (ws : List Nat) (pc : Nat) : Bool :=
  (wordsReached spans ws (4 * ws.length + 4) [pc] []).all fun i => decide (i < 8192)
/-- An absolute address counts as 0 in a word that LOAD_PLAN looks at; one with bit 18 set is reserved. -/
def staticAddr (f : Nat) : Option Int := if !bit f 19 && bit f 18 then none else some 0

/-- An operand address as a word itself gives it; a generated one counts as 0. -/
def planAddr (f : Nat) : Option Int := if bit f 19 then some 0 else if bit f 18 then none else some (bits f 17 0 : Nat)
/-- The most CPL_ENERGY words with END = 1 of one chain that a program can issue (06 R207): each such word counts once for every
iteration of its loops. Nothing where a BRANCH runs backwards over such a word: the program itself gives no bound then. -/
def sweepWords (ws : List Nat) (slot : Nat) : Option Nat :=
  let spans := (loopSpans 0 [] ws).getD []
  let ends := ws.zipIdx.filter fun x => match decodeEngWord staticAddr (fun _ => some 0) x.2 x.1 with
    | some (.queued (.energy o)) => o.fin && decide (o.slot.val ≤ slot ∧ slot < o.slot.val + o.nch)
    | _ => false
  let back := ws.zipIdx.any fun x => isBranch x.1 &&
    ends.any fun y => decide ((x.2 : Int) + sext 13 (bits x.1 110 98) ≤ y.2 ∧ y.2 < x.2)
  if back then none else some (ends.map fun x => ((loopsAt spans x.2).map fun l => l.2.2.1).prod).sum

/-- Whether LOAD_PLAN accepts an engine program that starts at `pc` (R91, R502). -/
def programOk (pc : Nat) (words : List (BitVec 128)) : Bool :=
  let ws := words.map BitVec.toNat
  match loopSpans 0 [] ws with
  | none => false
  | some spans =>
    let at_ := loopsAt spans
    let cnt := loopCount spans
    let stat := staticAddr
    let wordOk (i w : Nat) : Bool :=
      match decodeEngWord stat (fun d => (cnt i d).map fun _ => 0) i w with
      | none => false
      | some (.queued (.mma o)) =>
        (!bit w 17 || decide (o.td + (cnt i (bits w 19 18)).getD 0 - 1 ≤ 31)) &&
        (!bit w 20 || decide (o.kblk + (cnt i (bits w 22 21)).getD 0 - 1 ≤ 2 ^ 23 - 48))
      | some (.control (.branch offs)) =>
        let t : Int := i + offs
        decide (0 ≤ t) && decide (t < ws.length) &&
        (at_ t.toNat).all fun s => decide (s.1 < i ∧ i ≤ s.2.1)
      | some _ => true
    decide (1 ≤ ws.length ∧ ws.length ≤ 8192) && (spans.all fun s => decide (s.2.2.2 < 4)) &&
    (ws.zipIdx.all fun x => wordOk x.2 x.1) && pathsEnd spans ws pc

end Sys2Proof.Machine
end

