-- ==== Sys2Proof/Machine/ScribeCore.lean ====
section
/-! DEFINITION. A scribe core as a RISC-V hart with machine and user mode (07 R215, R216, R221, R222): CSRs, PMP entries, traps
and interrupts. What the RISC-V specifications fix and this spec does not repeat (CSR numbers and fields, PMP matching, trap entry)
is theirs (log 83). -/

namespace Sys2Proof.Machine

/-! ### CSRs -/

/-- A stored CSR. -/
def Scribe.csr (k : Scribe) (n : Nat) : Nat := (tget 0 k.csrs n).toNat
/-- Store a CSR. -/
def Scribe.setCsr (k : Scribe) (n v : Nat) : Scribe := { k with csrs := tset 0 k.csrs n (BitVec.ofNat 64 v) }
/-- An integer register; x0 reads zero. -/
def Scribe.xreg (k : Scribe) (r : Fin 32) : Word := if r.val = 0 then 0 else tget 0 k.xregs r.val
/-- Write an integer register; x0 discards it. -/
def Scribe.setX (k : Scribe) (r : Fin 32) (v : Word) : Scribe := if r.val = 0 then k else { k with xregs := tset 0 k.xregs r.val v }
/-- Interrupts pending: software (3), timer (7) and external (11). -/
def Scribe.mip (k : Scribe) (now : Nat) : Nat :=
  (if k.msip then 2 ^ 3 else 0) + (if k.mtimecmp.toNat ≤ now then 2 ^ 7 else 0) + (if k.meip then 2 ^ 11 else 0)
/-- Whether the floating-point (`fs`) or the vector unit is switched on in mstatus. -/
def Scribe.unitOn (k : Scribe) (fs : Bool) : Bool := if fs then bits (k.csr 0x300) 14 13 != 0 else bits (k.csr 0x300) 10 9 != 0
/-- The bits of mstatus that can be written: MIE, MPIE, VS, MPP, FS, MPRV, TW. -/
def mstatusMask : Nat := 0x227E88
/-- mstatus as read: UXL is 2, and SD says that a unit's state is dirty. -/
def Scribe.mstatus (k : Scribe) : Nat :=
  let v := k.csr 0x300
  v + 2 ^ 33 + (if bits v 14 13 = 3 ∨ bits v 10 9 = 3 then 2 ^ 63 else 0)
/-- misa: RV64 with A, C, D, F, I, M, U and V. -/
def misaValue : Nat := 2 ^ 63 + 0x30112D
/-- Machine CSRs that hold what is written to them in whole. -/
def plainCsr (n : Nat) : Bool := n == 0x306 || n == 0x320 || n == 0x340 || n == 0x342 || n == 0x343
/-- Hardware performance counters and event selectors, which the core does not have: they read zero. -/
def zeroCsr (n : Nat) : Bool :=
  decide (0xB03 ≤ n ∧ n ≤ 0xB1F) || decide (0x323 ≤ n ∧ n ≤ 0x33F) || decide (0xC03 ≤ n ∧ n ≤ 0xC1F) || n == 0x30A || n == 0xF15
/-- Whether a CSR is one of the core's clocks: cycles and instructions, whose counts the spec does not give. -/
def clockCsr (n : Nat) : Bool := n == 0xB00 || n == 0xB02 || n == 0xC00 || n == 0xC02
/-- The value of a CSR in the mode the core is in; nothing where the access is an illegal instruction: no such CSR (satp and every
supervisor CSR), too low a mode, a unit switched off (07 R216). `clock` is the free count of a clock. -/
def Scribe.csrRead (k : Scribe) (hart now clock n : Nat) : Option Nat :=
  let mode := k.machine || n / 0x100 % 4 == 0
  let user := k.machine || bit (k.csr 0x306) (n % 32)
  if !mode then none
  else if plainCsr n then some (k.csr n)
  else if zeroCsr n then if 0xC00 ≤ n ∧ n < 0xD00 ∧ !user then none else some 0
  else if clockCsr n then if 0xC00 ≤ n ∧ !user then none else some clock
  else if n = 0xC01 then if user then some now else none
  else if n = 0x300 then some k.mstatus
  else if n = 0x301 then some misaValue
  else if n = 0x304 ∨ n = 0x305 ∨ n = 0x341 then some (k.csr n)
  else if n = 0x344 then some (k.mip now)
  else if n = 0x3A0 ∨ n = 0x3A2 ∨ 0x3B0 ≤ n ∧ n ≤ 0x3BF then some (k.csr n)
  else if n = 0xF14 then some hart
  else if 0xF11 ≤ n ∧ n ≤ 0xF13 then some (Config.scribeId n).toNat
  else if n = 1 ∨ n = 2 ∨ n = 3 then
    if !k.unitOn true then none
    else some (if n = 1 then k.csr 3 % 32 else if n = 2 then k.csr 3 / 32 else k.csr 3)
  else if n = 8 ∨ n = 9 ∨ n = 0xA ∨ n = 0xF ∨ n = 0xC20 ∨ n = 0xC21 ∨ n = 0xC22 then
    if !k.unitOn false then none
    else some (if n = 9 then k.csr 0xF % 2 else if n = 0xA then k.csr 0xF / 2 else if n = 0xC22 then 64 else k.csr n)
  else none
/-- Configuration byte of a PMP entry. -/
def Scribe.pmpCfg (k : Scribe) (i : Nat) : Nat := k.csr (if i < 8 then 0x3A0 else 0x3A2) / 2 ^ (8 * (i % 8)) % 256
/-- Whether a PMP entry's address is locked: by its own lock bit, or by a locked top-of-range entry above it. -/
def Scribe.pmpLocked (k : Scribe) (i : Nat) : Bool :=
  bit (k.pmpCfg i) 7 || (decide (i < 15) && bit (k.pmpCfg (i + 1)) 7 && bits (k.pmpCfg (i + 1)) 4 3 == 1)
/-- A configuration byte as it can be written: bits 6:5 are zero, and W is not set without R. -/
def pmpLegal (b : Nat) : Nat :=
  let b := b % 32 + (if bit b 7 then 128 else 0)
  if bit b 1 && !bit b 0 then b - 2 else b
/-- Eight configuration bytes after a write: locked entries keep theirs. -/
def Scribe.pmpWord (k : Scribe) (i v : Nat) : Nat :=
  (List.range 8).foldl (fun a j =>
    a + (if bit (k.pmpCfg (i + j)) 7 then k.pmpCfg (i + j) else pmpLegal (v / 2 ^ (8 * j) % 256)) * 2 ^ (8 * j)) 0
/-- mstatus as it can be written: MPP holds machine or user mode. -/
def mstatusLegal (v : Nat) : Nat :=
  let m := v &&& mstatusMask
  if bits m 12 11 = 3 then m else m &&& (mstatusMask - 0x1800)
/-- Write a CSR that can be read in the mode; nothing where it is read-only. -/
def Scribe.csrWrite (k : Scribe) (n v : Nat) : Option Scribe :=
  if 0xC00 ≤ n then none
  else some <|
    if plainCsr n then k.setCsr n v
    else if n = 0x300 then k.setCsr n (mstatusLegal v)
    else if n = 0x304 then k.setCsr n (v &&& 0x888)
    else if n = 0x305 then k.setCsr n (v / 4 * 4 + v % 2)
    else if n = 0x341 then k.setCsr n (v / 2 * 2)
    else if n = 0x3A0 then k.setCsr n (k.pmpWord 0 v)
    else if n = 0x3A2 then k.setCsr n (k.pmpWord 8 v)
    else if 0x3B0 ≤ n ∧ n ≤ 0x3BF then if k.pmpLocked (n - 0x3B0) then k else k.setCsr n (v % 2 ^ 54)
    else if n = 1 then k.setCsr 3 (k.csr 3 / 32 * 32 + v % 32)
    else if n = 2 then k.setCsr 3 (k.csr 3 % 32 + v % 8 * 32)
    else if n = 3 then k.setCsr 3 (v % 256)
    else if n = 8 then k.setCsr 8 (v % 512)
    else if n = 9 then k.setCsr 0xF (k.csr 0xF / 2 * 2 + v % 2)
    else if n = 0xA then k.setCsr 0xF (k.csr 0xF % 2 + v % 4 * 2)
    else if n = 0xF then k.setCsr 0xF (v % 8)
    else k

/-! ### Traps and interrupts -/

/-- Trap entry: mepc, mcause and mtval, the interrupt enable stacked, machine mode, and pc at mtvec. -/
def Scribe.trap (k : Scribe) (intr : Bool) (cause : Nat) (tval : Nat) : Scribe :=
  let st := k.csr 0x300
  let st' := (st &&& (mstatusMask - 0x1888)) + (if bit st 3 then 2 ^ 7 else 0) + (if k.machine then 0x1800 else 0)
  let tv := k.csr 0x305
  let base := tv / 4 * 4
  let k := (((k.setCsr 0x341 k.pc.toNat).setCsr 0x342 (cause + (if intr then 2 ^ 63 else 0))).setCsr 0x343 tval).setCsr 0x300 st'
  { k with machine := true, wfi := false
           pc := BitVec.ofNat 64 (if intr && bit tv 0 then base + 4 * cause else base) }
/-- Return from a trap. -/
def Scribe.mret (k : Scribe) : Scribe :=
  let st := k.csr 0x300
  let up := bits st 12 11 == 3
  let st' := (st &&& (mstatusMask - 0x1888)) + (if bit st 7 then 2 ^ 3 else 0) + 2 ^ 7
  let k := k.setCsr 0x300 (if up then st' else st' &&& (mstatusMask - 0x20000))
  { k with machine := up, pc := BitVec.ofNat 64 (k.csr 0x341) }
/-- A core meets its interrupts: one in WFI wakes on a doorbell or on an interrupt that is enabled, and the first enabled one of
external, software and timer is taken where the mode lets it. Taking the software interrupt clears it (log 84). -/
def Scribe.poll (k : Scribe) (now : Nat) : Scribe :=
  let on := k.mip now &&& k.csr 0x304
  let k := if k.wfi && (k.meip || on != 0) then { k with wfi := false } else k
  if on = 0 ∨ (k.machine && !bit (k.csr 0x300) 3) then k
  else if bit on 11 then k.trap true 11 0
  else if bit on 3 then { k.trap true 3 0 with msip := false }
  else k.trap true 7 0

/-! ### Physical memory protection (R216) -/

/-- Bytes that a PMP entry covers: first and end; nothing where it is off. -/
def Scribe.pmpRange (k : Scribe) (i : Nat) : Option (Nat × Nat) :=
  let a (j : Nat) : Nat := k.csr (0x3B0 + j)
  match bits (k.pmpCfg i) 4 3 with
  | 0 => none
  | 1 => some (if i = 0 then 0 else 4 * a (i - 1), 4 * a i)
  | 2 => some (4 * a i, 4 * a i + 4)
  | _ =>
    let ones := ((List.range 54).find? fun j => !bit (a i) j).getD 54
    let lo := 4 * (a i / 2 ^ (ones + 1) * 2 ^ (ones + 1))
    some (lo, lo + 2 ^ (ones + 3))
/-- Mode of a core's loads and stores: MPRV lends them the mode of MPP. -/
def Scribe.dataMachine (k : Scribe) : Bool :=
  if k.machine && bit (k.csr 0x300) 17 then bits (k.csr 0x300) 12 11 == 3 else k.machine
/-- Whether PMP lets an access of `n` bytes through; `right` is 0 for a read and 1 for a write. The lowest entry that meets any byte
decides, and must cover them all. -/
def Scribe.pmpOk (k : Scribe) (right a n : Nat) : Bool :=
  let hit (i : Nat) : Bool := match k.pmpRange i with
    | some r => decide (r.1 < a + n ∧ a < r.2)
    | none => false
  match (List.range 16).find? hit with
  | none => k.dataMachine
  | some i => match k.pmpRange i with
    | none => false
    | some r => decide (r.1 ≤ a ∧ a + n ≤ r.2) && ((k.dataMachine && !bit (k.pmpCfg i) 7) || bit (k.pmpCfg i) right)

/-- A core at the start of a step: SCR.STEP holds the step's counter, and it takes the software interrupt (R222). -/
def Scribe.startStep (k : Scribe) (step : Word) (now : Nat) : Scribe :=
  ({ k with msip := true, step := step, inReset := false, tainted := false } : Scribe).poll now

end Sys2Proof.Machine
end

