-- ==== Sys2Proof/Machine/TestOps.lean ====
section
/-! DEFINITION. Test records and rounds of field test (15), and the parcel-map changes of a step boundary (01 R19, R21;
13 R380; 15 R410). -/

namespace Sys2Proof.Machine

/-! ### Test records (15 R412) -/

/-- PASS. -/
def trPass : Nat := 0
/-- FAIL. -/
def trFail : Nat := 1
/-- ABANDONED. -/
def trAbandoned : Nat := 2
/-- SQUALL_NOT_MET. -/
def trNotMet : Nat := 3
/-- Clock in MHz of a step code (18 R476). -/
def stepMHz (c : BitVec 4) : Nat := 600 + 100 * c.toNat
/-- Clock in MHz of a test: 1.06 times the sheet's in a squall window (15 R409). -/
def State.testClock (s : State) (sheet test : Nat) : Nat :=
  let c := stepMHz (s.sheet sheet).thm.step
  if test = 3 then c * 106 / 100 else c
/-- Write one test record to the ring, and its result to `FT.LAST`. Core voltage is a reading of the parcel: free. -/
def State.testRecord (s : State) (sheet parcel test result packId packVer item ckind : Nat) : State :=
  let rcd := leBytes 8 s.now ++ leBytes 4 s.col.svch.toNat ++ leBytes 1 sheet ++ leBytes 1 parcel ++ leBytes 1 test ++
    leBytes 1 result ++ leBytes 2 packId ++ leBytes 4 packVer ++ leBytes 2 item ++
    leBytes 2 (s.sheet sheet).thm.tmax.toNat ++ leBytes 2 (Config.sensorVolt s.free).toNat ++
    leBytes 2 (s.testClock sheet test) ++ leBytes 2 ckind
  let s := { s with
    free := s.free + 1
    ecb := { s.ecb with log := tset [] s.ecb.log s.ecb.logNext.toNat rcd, logNext := s.ecb.logNext + 1 } }
  let s := s.keep .testRing
  s.modSheet sheet fun h => { h with ft := { h.ft with last := BitVec.ofNat 4 result } }

/-! ### Rounds (15 R408) -/

/-- Unfenced parcels of a sheet, in rising order: the rotation ring. -/
def Sheet.ring (h : Sheet) : List Nat := (List.range 18).filter fun p => !h.fenced.getLsbD p
/-- Installed packs in rising PACKID: id, version, squall-eligible. -/
def State.installedPacks (s : State) : List (BitVec 16 × BitVec 32 × Bool) :=
  ((s.ecb.packs.map Prod.snd).filter fun k => k.valid).foldl (fun a k =>
    (a.filter fun x => decide (x.1.toNat ≤ k.id.toNat)) ++ [(k.id, k.ver, k.squall)] ++
    a.filter fun x => decide (k.id.toNat < x.1.toNat)) []
/-- Start a round on the test spare; with 16 or fewer unfenced parcels no round runs (R411). -/
def State.startRound (s : State) (sheet : Nat) : State :=
  let packs := s.installedPacks
  s.modSheet sheet fun h =>
    if h.ring.length ≤ 16 ∨ h.test = none then
      { h with ft := { h.ft with st := .off, packsLeft := [], roundPacks := [], windowUp := false, failed := false } }
    else { h with ft := { h.ft with st := .kak, packsLeft := [], roundPacks := packs, windowUp := false, failed := false } }
/-- The test code of a running phase. -/
def FieldTest.testCode (f : FieldTest) : Nat :=
  match f.st with
  | .kak => 1
  | .survey => 2
  | .squall => 3
  | _ => 0
/-- A round that runs is abandoned and recorded so, with no detection (R415). -/
def State.abandonRound (s : State) (sheet : Nat) : State :=
  let h := s.sheet sheet
  let f := h.ft
  let s := match f.testCode, h.test with
    | 0, _ => s
    | _, none => s
    | t, some p =>
      let k := if t = 1 then (0, 0) else match f.packsLeft with | [] => (0, 0) | x :: _ => (x.1.toNat, x.2.1.toNat)
      s.testRecord sheet p t trAbandoned k.1 k.2 0xFFFF 0
  s.modSheet sheet fun h =>
    { h with ft := { h.ft with st := .off, packsLeft := [], roundPacks := [], windowUp := false, failed := false } }
/-- A known-answer kernel of the standing spare that runs is abandoned. -/
def State.abandonStanding (s : State) (sheet : Nat) : State :=
  let h := s.sheet sheet
  match h.ft.standingKak, h.standing with
  | true, some p =>
    (s.testRecord sheet p 1 trAbandoned 0 0 0xFFFF 0).modSheet sheet fun h => { h with ft := { h.ft with standingKak := false } }
  | _, _ => s

/-! ### The parcel map (01 R19, R21) -/

/-- Copy the parcel store, the accumulator memory and the function tables of one physical parcel to another. -/
def Sheet.carry (h : Sheet) (o i : Nat) : Sheet := { h with parcels := tset {} h.parcels i (h.parcel o) }
/-- Put physical parcel `q` where `p` stood in the map, with its memories. -/
def Sheet.rebind (h : Sheet) (p q : Nat) : Sheet := { h.carry p q with pmap := h.pmap.map fun x => if x = p then q else x }
/-- Fence of an in-service parcel at a step boundary (R19): its memories follow the index to the spare that takes it;
without a spare n falls by one, and the parcels above it move down by one index (log 69). -/
def State.mapFence (s : State) (sheet p : Nat) : State :=
  let h := s.sheet sheet
  if !h.pmap.contains p then s
  else
    let s := match h.standing, h.test with
      | some q, _ => (s.abandonStanding sheet).modSheet sheet fun h => { h.rebind p q with standing := none }
      | none, some q => (s.abandonRound sheet).modSheet sheet fun h => { h.rebind p q with test := none }
      | none, none => s.modSheet sheet fun h => { h with pmap := h.pmap.filter (· ≠ p) }
    (s.modSheet sheet fun h => { h with fenced := h.fenced ||| fenceBit p }).saveFence sheet
/-- A parcel whose fence a signed record removed takes a role at a step boundary (R18; 13 R385): in service while fewer than 16
are, else the test spare, else the standing spare. -/
def Sheet.readmit (h : Sheet) (p : Nat) : Sheet :=
  let h := { h with fenced := h.fenced &&& ~~~(fenceBit p) }
  if h.pmap.contains p then h
  else if h.pmap.length < 16 then { h with pmap := h.pmap ++ [p] }
  else if h.test = none then { h with test := some p }
  else if h.standing = none then { h with standing := some p }
  else h
/-- The removal of a fence takes effect. -/
def State.mapUnfence (s : State) (sheet p : Nat) : State :=
  if !(s.sheet sheet).fenced.getLsbD p then s
  else
    let s := (s.modSheet sheet fun h => h.readmit p).saveFence sheet
    if (s.sheet sheet).test = some p ∧ (s.sheet sheet).mode = .service then s.startRound sheet else s
/-- A substitute takes the suspect's index for the repeat, and the suspect its role (13 R380). -/
def State.mapSubstitute (s : State) (sheet p : Nat) : State :=
  let h := s.sheet sheet
  let note (s : State) (q : Nat) : State := match s.partOf sheet with
    | some n => s.modPart n fun x => { x with swaps := x.swaps ++ [(sheet, p, q)] }
    | none => s
  if !h.pmap.contains p then s
  else match h.standing, h.test with
    | some q, _ => note ((s.abandonStanding sheet).modSheet sheet fun h => { h.rebind p q with standing := some p }) q
    | none, some q =>
      note (((s.abandonRound sheet).modSheet sheet fun h => { h.rebind p q with test := some p }).startRound sheet) q
    | none, none => note s p
/-- The parcel that becomes the test spare at an advance: the next of the ring after the test spare (15 R410). -/
def Sheet.nextTest (h : Sheet) : Option Nat :=
  match h.test with
  | none => none
  | some c =>
    let r := h.ring.filter (· ≠ c)
    match r.find? fun p => decide (c < p) with
    | some p => some p
    | none => r.head?
/-- An advance of the test-spare role; it rewrites the fencing record (15 R410). -/
def State.mapAdvance (s : State) (sheet : Nat) : State :=
  let h := s.sheet sheet
  match h.test, h.nextTest with
  | some c, some t =>
    let s := if h.standing = some t then s.abandonStanding sheet else s
    let s := s.modSheet sheet fun h =>
      if h.standing = some t then { h with standing := some c, test := some t }
      else if h.pmap.contains t then { h.rebind t c with test := some t }
      else h
    (s.saveFence sheet).startRound sheet
  | _, _ => s
/-- Apply a sheet's pending map changes at a step boundary: fences first, then removed fences, then substitutes; an advance that meets one of
them moves to the next boundary (13 R386, 15 R415). -/
def State.applyChanges (s : State) (sheet : Nat) : State :=
  let ch := (s.sheet sheet).changes
  let fences := ch.filterMap fun c => match c with | .fence p => some p | _ => none
  let subs := ch.filterMap fun c => match c with | .substitute p => some p | _ => none
  let frees := ch.filterMap fun c => match c with | .unfence p => some p | _ => none
  let adv := ch.contains .advance
  let busy := !fences.isEmpty || !subs.isEmpty || !frees.isEmpty
  let held := (s.sheet sheet).advanceHeld
  let s := s.forEach fences fun s p => s.mapFence sheet p
  let s := s.forEach frees fun s p => s.mapUnfence sheet p
  let s := s.forEach subs fun s p => s.mapSubstitute sheet p
  let go := adv && !busy && !held
  let s := if go then s.mapAdvance sheet else s
  s.modSheet sheet fun h =>
    { h with changes := if adv && !go then [.advance] else [], advanceHeld := if busy then adv else h.advanceHeld && adv }

end Sys2Proof.Machine
end

