-- ==== Sys2Proof/Machine/StepRun.lean ====
section
/-! DEFINITION. How the plan sequencer starts a RUN and its steps (01 R20, R31, R33, R34; 02 R43, R44; 03 R86, R501; 04
R122-R127; 05 R153-R156; 06 R180; 09 R276), and how a step's outcome is decided (01 R36; 13 R379-R382; 08 R249). -/

namespace Sys2Proof.Machine

/-! ### Which RUN steps next (09 R276) -/

/-- The step program of a RUN's plan. -/
def State.stepProg (s : State) (p : Nat) (c : CtxId) (prog : Nat) : Option StepProg :=
  match s.runPlan p c with
  | none => none
  | some l => l.plan.progs[prog]?
/-- A RUN of a chart plan. -/
def RunState.speculative (r : RunState) (hold : Bool) : Bool := r.chart && !hold
/-- Whether every sheet of a partition is in SERVICE. -/
def State.inService (s : State) (p : Nat) : Bool :=
  let l := (s.part p).sheetList
  !l.isEmpty && l.all fun h => (s.sheet h).mode == .service
/-- Ports that a step's route tables name (10 R321): the ports of its routes to other devices and of its span trees. -/
def State.stepPorts (s : State) (p : Nat) (c : CtxId) (prog : Nat) : List Nat :=
  match s.runPlan p c with
  | none => []
  | some l =>
    let divs := match l.plan.progs[prog]? with | some g => g.divs | none => []
    let devs := (divs.flatMap DivProg.routes).flatMap fun r => r.dests.filterMap fun d => match d with
      | .device v _ _ => some v.val
      | _ => none
    let trees := (l.plan.trees.filter fun t => t.dev.val == s.chart.reg.devId.toNat).flatMap fun t =>
      (t.parent.toList ++ t.children).map Fin.val
    devs.filterMap s.routePort ++ trees
/-- Whether every port that a step's route tables name is UP. -/
def State.portsUp (s : State) (p : Nat) (c : CtxId) (prog : Nat) : Bool :=
  (s.stepPorts p c prog).all fun n => (s.port n).lstate == .up
/-- Whether a RUN has a step ready: its context is open, steps remain, isolation lets it run (14 R393), and a chart RUN is at
its first step or inside an open epoch (11 R336, R342). -/
def State.runReady (s : State) (p : Nat) (prog : Nat) (r : RunState) : Bool :=
  let x := s.part p
  let c := s.ctx r.ctx.val
  let busy := if x.cur == some r.ctx then 1 else 0
  let e := s.epoch r.ctx.val
  let len := match c.planOf r.plan with | some l => l.plan.epochLen | none => 0
  c.st == .opened && decide (r.committed + r.provisional + busy < r.total) && (s.stepProg p r.ctx prog).isSome &&
  s.portsUp p r.ctx prog &&
  (match x.hang with
   | .normal => true
   | .halted => false
   | .isolation => x.hangCur.toNat == r.ctx.val && !x.trialRan) &&
  (!r.chart ||
    (if r.waitLaunch then e.st == .idle || e.st == .launch
     else e.st == .opened && decide (r.provisional + busy < len)))
/-- RUNs of equal class take turns: the better of two is of the higher class, and had its turn longer ago. -/
def State.betterRun (s : State) (turns : List CtxId) (a b : RunState) : Bool :=
  let age (r : RunState) : Nat := (turns.idxOf? r.ctx).getD turns.length
  let pa := (s.queue a.queue).prio.toNat
  let pb := (s.queue b.queue).prio.toNat
  decide (pb < pa) || (decide (pa = pb) && decide (age b < age a))
/-- The RUN whose step comes next. -/
def State.pickRun (s : State) (p : Nat) (prog : Nat) : Option RunState :=
  let x := s.part p
  let turns := match x.cur with
    | some c => c :: x.turns.filter fun y => y != c
    | none => x.turns
  (x.runs.filter (s.runReady p prog)).foldl (fun best r => match best with
    | none => some r
    | some b => if s.betterRun turns r b then some r else some b) none

/-! ### Checks before a step (01 R20, 04 R127, 05 R153, 06 R207) -/

/-- Whether a sheet of the partition has fewer parcels in service than the plan takes: its declared minimum, and never below
12 (01 R17, R20). -/
def State.tooFew (s : State) (p : Nat) (l : Plan) : Bool :=
  (s.part p).sheetList.any fun h => decide ((s.sheet h).pmap.length < max 12 l.minInsvc)
/-- The bound of R207 for a chain slot: the most of its engines' programs (its END words are counted at one parcel), or the plan's own
where a program gives none (log 77). -/
def sweepBound (d : DivProg) (slot : Nat) : Nat :=
  d.engines.foldl (fun m e => max m ((sweepWords (e.words.map BitVec.toNat) slot).getD d.sweeps)) 0
/-- The status with which a RUN completes instead of starting its next step, if any. -/
def State.stepStop (s : State) (p : Nat) (c : CtxId) (prog : Nat) : Option Byte :=
  let sheets := (s.part p).sheetList
  match s.runPlan p c, s.stepProg p c prog with
  | some l, some g =>
    if s.tooFew p l.plan then some stRejected
    else
      let divs := sheets.filterMap fun h => divFor g h (s.sheet h).pmap.length
      let full (b : SlotBind) : Bool :=
        b.draws && decide ((((s.sheet b.home.val).slot b.slot.val).pend.step.toNat) = 2 ^ 64 - 1)
      let far (d : DivProg) (b : SlotBind) : Bool :=
        decide (2 ^ 64 ≤ ((s.sheet b.home.val).chain b.slot.val).pend.sweep.toNat + sweepBound d b.slot.val)
      if 2 ^ 64 - 1 ≤ s.drawStep c ∨ (divs.any fun d => d.binds.any fun b => full b || far d b) then some stBad else none
  | _, _ => some stBad
/-- A RUN ends before its next step starts; an epoch that was open is over on this device. -/
def State.endRun (s : State) (p : Nat) (c : CtxId) (st : Byte) (kind : BitVec 12) : State :=
  let chart := match (s.part p).runOf c with | some r => r.chart | none => false
  let s := s.forEach (s.part p).sheetList fun s h => s.modSheet h fun x => x.discardEpoch c
  let s := s.finishRun p c st kind
  if chart then s.modEpoch c.val fun e => { e with st := .idle, votes := [], tags := [], sent := false, launchAt := none } else s

/-! ### Programming (01 R34) -/

/-- Largest block-scale exponent among the blocks of a tile that hold valid elements (02 R44); NaN scales excluded. -/
def State.tileExp (s : State) (t : Tensor) (own i : Nat) : Option Int :=
  match t.tileLoc own i with
  | none => none
  | some l =>
    let m := (s.sheet l.sheet).mem
    let r := m.record l.sealIx
    let rows := if t.isSealed then recRows r else 128
    let cols := if t.isSealed then recCols r else 128
    let at_ (k : Nat) : Nat := (mget m.dram (l.addr + tileElemBytes t.fmt + k)).toNat
    ((List.range (4 * rows)).filter fun k => decide (32 * (k % 4) < cols)).foldl (fun acc k =>
      if at_ k = 255 then acc
      else
        let x : Int := at_ k - 127
        match acc with | none => some x | some a => some (max a x)) none
/-- The operand's largest exponent over its tiles, and its element format. -/
def State.operandExp (s : State) (l : LoadedPlan) (own : Nat) (tiles : List (BitVec 16 × Nat)) : Option Int × BitVec 4 :=
  tiles.foldl (fun acc x => match l.plan.tensors.find? fun t => t.handle == x.1 with
    | none => acc
    | some t =>
      (match acc.1, s.tileExp t own x.2 with
        | some a, some b => some (max a b)
        | none, b => b
        | a, none => a, t.fmt)) (none, 0)
/-- A descriptor with its automatic window exponent (02 R43, R44). Where no block of an operand gives an exponent (every scale
NaN, a tile never written, an index outside the tensor) the rule gives none: `w` is the free one (log 29). -/
def State.autoTd (s : State) (l : LoadedPlan) (own : Nat) (w : Nat) (t : TdSetup) : TdSetup :=
  match t.auto with
  | none => t
  | some (a, b, k) =>
    let x := s.operandExp l own a
    let y := s.operandExp l own b
    let e := match x.1, y.1 with
      | some xa, some xb => autoExp xa xb x.2 y.2 k
      | _, _ => sext 11 w
    { t with desc := { t.desc with exp := BitVec.ofNat 11 (twos 11 e) } }
/-- The parameter entry of a slot (04 R122, R123): on the sheet's part of the slot parameter tensor, else on its first part
(log 28). -/
def State.slotEntry (s : State) (l : LoadedPlan) (h n : Nat) (r : SlotRegs) : SlotRegs :=
  match l.plan.tensors.find? fun t => t.handle == l.plan.slotParams && l.plan.slotParams != 0 with
  | none => r
  | some t =>
    match (t.parts.find? fun x => x.sheet.val == h) <|> t.parts.head? with
    | none => r
    | some x =>
      let b := mread (s.sheet x.sheet.val).mem.dram (x.base + 32 * n) 32
      let w0 := recField b 0 8
      let w1 := recField b 8 8
      { r with
        invt := BitVec.ofNat 32 (bits w0 63 32), base2 := bit w0 31, greedy := bit w0 30, topp := BitVec.ofNat 17 (bits w0 16 0)
        mask := BitVec.ofNat 16 (bits w1 63 48), topk := BitVec.ofNat 31 (bits w1 30 0) }
/-- Where the parameter entry of a slot lies: its sheet and page. -/
def LoadedPlan.slotPage (l : LoadedPlan) (h n : Nat) : Option (Nat × Nat) :=
  match l.plan.tensors.find? fun t => t.handle == l.plan.slotParams && l.plan.slotParams != 0 with
  | none => none
  | some t => ((t.parts.find? fun x => x.sheet.val == h) <|> t.parts.head?).map fun x =>
      (x.sheet.val, (x.base + 32 * n) / 4096)
/-- Shadow settings of the slots that a division binds. An entry on a poisoned page poisons the slot's pending state in the step
(08 R246, R248). -/
def State.shadowSlots (s : State) (l : LoadedPlan) (d : DivProg) (h : Nat) : State :=
  s.forEach d.binds fun s b =>
    let pg := l.slotPage h b.slot.val
    let bad := match pg with | some g => (s.sheet g.1).mem.pageBad g.2 | none => false
    let s := match pg with | some g => s.lookPages g.1 [g.2] 1 | none => s
    s.modSheet h fun x => x.modSlot b.slot.val fun y =>
      let cfg := s.slotEntry l h b.slot.val { y.pend with gslot := b.gslot, tensor := b.tensor, bound := true }
      { y with shadow := some cfg, cfgPoison := bad }
/-- One key-table entry of the shadow set (05 R154, R155): kept where identifier and seed are unchanged, else derived; an
entry whose two derivations differ is not valid (R156). The second component says that a key was derived. -/
def deriveKey (old : KeyEntry) (c : CtxId) (seed : List Byte) (dev bad : Bool) (ident : StreamId) : KeyEntry × Bool :=
  if old.valid && old.ident == ident && old.seedOf == seed then ({ old with ctx := some c, devSeed := dev }, false)
  else
    let k := streamKey seed (streamNat ident)
    ({ ident := ident, devSeed := dev, valid := !bad, k0 := BitVec.ofNat 64 k.1, k1 := BitVec.ofNat 64 k.2, seedOf := seed
       ctx := some c }, true)
/-- The shadow key table of a sheet, how many keys were derived, and how many of their derivations differ. Each distinct
identifier of the list takes one entry; `bad` names those whose derivations would differ. -/
def KeyUnit.program (k : KeyUnit) (c : CtxId) (seed : List Byte) (dev : Bool) (bad ids : List StreamId) :
    Table KeyEntry × Nat × Nat :=
  ids.eraseDups.zipIdx.foldl (fun acc x =>
    let r := deriveKey (tget {} k.tab x.2) c seed dev (bad.contains x.1) x.1
    (tset {} acc.1 x.2 r.1, acc.2.1 + b2n r.2, acc.2.2 + b2n (r.2 && bad.contains x.1))) ([], 0, 0)
/-- Programs the keys of a sheet: the shadow table, KEY.DERIVED, and kind 0x520 for each key whose two derivations differ. -/
def State.shadowKeys (s : State) (c : CtxId) (r : RunState) (d : DivProg) (bad : List StreamId) (h : Nat) : State × Bool :=
  let k := (s.sheet h).key
  let t := k.program c r.seed r.devSeed bad d.streams
  let s := (List.range t.2.1).foldl (fun s _ => (s.noteSat (s.sheet h).key.derived 2).modSheet h fun x =>
    { x with key := { x.key with derived := satInc x.key.derived } }) s
  let hit := decide (0 < t.2.2)
  let s := s.modSheet h fun x =>
    { x with key := { x.key with shadow := some t.1, seedOk := true, mismatch := x.key.mismatch || hit } }
  (s.forEach (List.range t.2.2) fun s _ => s.sendFault { source := sheetSource h 1, kind := 0x520, ctx := some c }, hit)
/-- Programs one sheet of a partition for a step. The shadow sets of engines without a program in the division are empty. -/
def State.programSheet (s : State) (c : CtxId) (r : RunState) (l : LoadedPlan) (g : StepProg) (keyBad : List KeyUpset) (h : Nat) :
    State × Bool :=
  let w := Config.freeValue s.free % 2048
  let s := { s with free := s.free + 1 }
  let s := s.sheetEvent h { cls := 4, code := 3, inc := Config.setupWords h s.free, priv := true }
  let s := s.modSheet h fun x =>
    { x with
      engines := (List.range 16).foldl (fun t l => tmod {} t l fun (e : Engine) => { e with shadow := none }) x.engines
      routeShadow := some (match divFor g h x.pmap.length with | some d => d.routes | none => [])
      slots := (x.slots.map Prod.fst).foldl (fun t n => tmod {} t n fun (y : Slot) => { y with shadow := none }) x.slots }
  match divFor g h (s.sheet h).pmap.length with
  | none => (s.modSheet h fun x => { x with key := { x.key with shadow := some [], seedOk := true } }, false)
  | some d =>
    let sets := d.engines.map fun e => { e with tds := e.tds.map (s.autoTd l h w) }
    let s := s.modSheet h fun x => sets.foldl (fun x e => x.modEngine e.parcel.val fun y => { y with shadow := some e }) x
    (s.shadowSlots l d h).shadowKeys c r d ((keyBad.filter fun k => k.sheet.val == h).map KeyUpset.ident) h
/-- Programs every sheet: whether a key derivation failed, and the sheets where it did. -/
def State.programAll (s : State) (p : Nat) (c : CtxId) (r : RunState) (l : LoadedPlan) (g : StepProg) (keyBad : List KeyUpset) :
    State × List Nat :=
  (s.part p).sheetList.foldl (fun acc h =>
    let x := acc.1.programSheet c r l g keyBad h
    (x.1, if x.2 then acc.2 ++ [h] else acc.2)) (s, [])

/-! ### The coefficient scan (06 R180) -/

/-- Coefficient (i, j) of a tensor whose element it reads; `none` for an element that the scan rejects (R179). -/
def coefOf (t : Tensor) (eexp : Int) (bytes : List Byte) (i j : Nat) : Option Int :=
  match coefAt (bytesMem bytes) 0 t.fmt eexp i j with
  | .ok v => some v
  | .error _ => none
/-- Tiles of a coefficient tensor in a row of the tile grid. -/
def gridSide (t : Tensor) : Nat := Nat.sqrt (tileCount t)
/-- Reads tile (I, J) of a coefficient tensor with the checks of the memory path. -/
def State.coefTile (s : State) (t : Tensor) (own i j : Nat) : State × Option (List Byte) :=
  let n := i * gridSide t + j
  match t.tileLoc own n with
  | none => (s, none)
  | some l =>
    let r := s.readTile t l n none 0 {}
    (r.1, some r.2.bytes)
/-- Whether a tile holds an element the scan rejects: NaN, Inf or off the grid. -/
def tileOffGrid (t : Tensor) (eexp : Int) (b : List Byte) : Bool :=
  (List.range 128).any fun i => (List.range 128).any fun j => (coefOf t eexp b i j).isNone
/-- Whether a tile holds a nonzero coefficient at one of some places. -/
def tileCouples (t : Tensor) (eexp : Int) (b : List Byte) (ps : List (Nat × Nat)) : Bool :=
  ps.any fun x => match coefOf t eexp b x.1 x.2 with | some v => v != 0 | none => true
/-- Ordered pairs of distinct members. -/
def orderedPairs (l : List Nat) : List (Nat × Nat) := l.flatMap fun i => (l.filter (· != i)).map fun j => (i, j)
/-- A coefficient tensor in the scan: its diagonal tiles hold no element off the grid and none on the diagonal. -/
def State.scanTensor (s : State) (t : Tensor) (h : Nat) (eexp : Int) : State × Bool :=
  (List.range (gridSide t)).foldl (fun acc i =>
    let r := acc.1.coefTile t h i i
    (r.1, acc.2 || match r.2 with
      | none => true
      | some b => tileOffGrid t eexp b || tileCouples t eexp b ((List.range 128).map fun k => (k, k)))) (s, false)
/-- A colouring-checked proposal set: no coupled pair inside the mask, which stands in the owner's parcel store where CPL_PROPOSE
reads it (R193, log 28). -/
def State.scanPropose (s : State) (l : LoadedPlan) (t : Tensor) (h : Nat) (eexp : Int) (owner : LogParcel) (b : Nat) (msk : BitVec 16)
    (midx : Nat) : State × Bool :=
  let at_ := (l.plan.tensors.find? fun m => m.handle == msk && msk != 0).map fun m => 64 * m.storeUnit + 16 * midx
  let mask := proposedBit (s.pmem { sheet := Fin.ofNat 16 h, parcel := owner }).store at_
  let r := s.coefTile t h b b
  (r.1, match r.2 with
    | none => true
    | some by' => tileCouples t eexp by' (orderedPairs ((List.range 128).filter mask)))
/-- A group batch: no coefficient between two members of its groups. -/
def State.scanBatch (s : State) (t : Tensor) (h : Nat) (eexp : Int) (owner : LogParcel) (gadr : Int) (gidx ng : Nat) :
    State × Bool :=
  let store := (s.pmem { sheet := Fin.ofNat 16 h, parcel := owner }).store
  let es := (List.range ng).map fun i => groupEntry store gadr (gidx + i)
  let ps := orderedPairs (es.flatMap fun y => (List.range y.2).map fun k => y.1 + k)
  let tiles := (ps.map fun y => (y.1 / 128, y.2 / 128)).eraseDups
  tiles.foldl (fun acc ij =>
    let r := acc.1.coefTile t h ij.1 ij.2
    (r.1, acc.2 || match r.2 with
      | none => true
      | some b => tileOffGrid t eexp b || tileCouples t eexp b
          ((ps.filter fun y => y.1 / 128 == ij.1 && y.2 / 128 == ij.2).map fun y => (y.1 % 128, y.2 % 128)))) (s, false)
/-- Handle that an entry of the scan list names. -/
def scanHandle : ScanItem → BitVec 16
  | .tensor x _ => x
  | .propose x _ _ _ _ => x
  | .batch x _ _ _ _ => x
/-- Energy exponent that a scan list gives a coefficient tensor. -/
def scanExp (l : List ScanItem) (x : BitVec 16) : Int :=
  (l.findSome? fun (i : ScanItem) => match i with
    | .tensor y e => if y == x then some e.toInt else none
    | _ => none).getD 0
/-- One entry of a scan list; `true`: it rejects the RUN. -/
def State.scanItem (s : State) (l : LoadedPlan) (d : DivProg) (h : Nat) (item : ScanItem) : State × Bool :=
  match l.plan.tensors.find? fun t => t.handle == scanHandle item with
  | none => (s, true)
  | some t =>
    let e := scanExp d.scan t.handle
    match item with
    | .tensor _ _ => s.scanTensor t h e
    | .propose _ owner b msk midx => s.scanPropose l t h e owner b msk midx
    | .batch _ owner gadr gidx ng => s.scanBatch t h e owner gadr gidx ng
/-- The coefficient scan of a partition when a RUN's first step is programmed: the scan lists of every step program of the plan, for
the parcels in service then; `true`: the RUN is rejected. -/
def State.scanAll (s : State) (p : Nat) (l : LoadedPlan) : State × Bool :=
  l.plan.progs.foldl (fun acc g => (s.part p).sheetList.foldl (fun acc h =>
    match divFor g h (acc.1.sheet h).pmap.length with
    | none => acc
    | some d => d.scan.foldl (fun acc i =>
        let r := acc.1.scanItem l d h i
        (r.1, acc.2 || r.2)) acc) acc) (s, false)

/-! ### STEP_PROGRAM -/

/-- The double-bit errors that staging meets while it holds an image or a transfer: kind 0x104 for each (08 R238). -/
def State.stagingErrors (s : State) (h : Nat) (d : Disturb) : State :=
  let s := s.forEach d.storeFix fun s _ => s.sheetEvent h { cls := 3, code := 0x16, priv := true }
  s.forEach d.storeDbl fun s w =>
    s.sendFault
      { source := sheetSource h 5, kind := 0x104, op := 1
        address := BitVec.ofNat 64 (0x18000000000 + h * 0x100000000 + 0x12000000 + 8 * w) }
/-- Whether a tensor that the programming of a step reads has a slice in a refresh stall (08 R253; log 82): slot parameters, operands
of automatic exponents, and before the first step the coefficients of the scan. -/
def State.progStalls (s : State) (p : Nat) (l : LoadedPlan) (g : StepProg) (scanned : Bool) : Bool :=
  let divs := (s.part p).sheetList.filterMap fun h => divFor g h (s.sheet h).pmap.length
  let autos := ((divs.flatMap DivProg.engines).flatMap EngSetup.tds).flatMap fun (t : TdSetup) => match t.auto with
    | some (a, b, _) => (a ++ b).map Prod.fst
    | none => []
  let scans := if scanned then [] else ((l.plan.progs.flatMap StepProg.divs).flatMap DivProg.scan).map scanHandle
  l.plan.tensors.any fun t =>
    ((t.handle == l.plan.slotParams && l.plan.slotParams != 0) || autos.contains t.handle || scans.contains t.handle) &&
      s.tensorStalls t
/-- Errors of the staging SRAM while the plan kept there is read: kind 0x104 for each double-bit error, and the plan is poisoned
(08 R238; log 80). -/
def State.stagePlan (s : State) (p : Nat) (c : CtxId) (h : BitVec 32) (d : Disturb) : State :=
  let sheets := (s.part p).sheetList
  let s := s.stagingErrors (sheets.headD 0) d
  let bad := !d.storeDbl.isEmpty || sheets.any fun i => (s.sheet i).stagingPoison
  if bad then s.modCtx c.val fun x =>
    { x with plans := x.plans.map fun l => if l.handle == h then { l with poison := true } else l }
  else s

/-- Programs the next step of a RUN. The first step's programming runs the coefficient scan; a chart RUN then arrives at the
launch barrier (11 R336). -/
def State.programNext (s : State) (p : Nat) (r : RunState) (prog : Nat) (u : ProgUpset) : State :=
  let c := r.ctx
  match s.runPlan p c, s.stepProg p c prog with
  | some l, some g =>
    let stop := if (s.part p).phase == .running then none else s.stepStop p c prog
    match stop with
    | some st => s.endRun p c st 0
    | none =>
      if s.progStalls p l g r.scanned then s else
      let s := s.stagePlan p c r.plan u.d
      if (s.runPlan p c).any LoadedPlan.poison then
        if (s.part p).phase == .running then s else s.endRun p c stCheckFailed 0x104
      else
      let sc := if r.scanned then (s, false) else s.scanAll p l
      if sc.2 then sc.1.endRun p c stRejected 0
      else
        let s := sc.1
        let r' := s.programAll p c r l g u.keys
        let s := r'.1.modPart p fun x => { x with next := some (c, prog, r'.1.division p, r'.2), swapped := none }
        if r.chart && r.waitLaunch && (s.epoch c.val).st == .idle then s.arriveLaunch c else s
  | _, _ => s
/-- STEP_PROGRAM: a partition whose next step is not programmed yet, or cannot start for a port (10 R321). -/
def State.doStepProgram (s : State) (p : Nat) (prog : Nat) (u : ProgUpset) : State :=
  let x := s.part p
  let free := match x.next with
    | none => true
    | some n => x.phase == .none && !s.portsUp p n.1 n.2.1
  if x.st == .running && (x.phase == .none || x.phase == .running) && !x.noCommit && free && s.inService p then
    match s.pickRun p prog with
    | some r => s.programNext p r prog u
    | none => s
  else s

/-! ### The start-of-step barrier (01 R31, R34; 03 R501; 07 R222; 14 R387) -/

/-- A descriptor of the step: fresh or carried (03 R86). -/
def startTd (old : TileDesc) (t : TdSetup) : TileDesc :=
  if t.carried then { t.desc with nflags := old.nflags, satcnt := old.satcnt, bwcnt := old.bwcnt, sats := old.sats }
  else { t.desc with nflags := 0, satcnt := 0, bwcnt := 0, sats := [] }
/-- The set-up of a step becomes active in an engine: descriptors, program counter, program region. -/
def Engine.swapIn (g : Engine) : Engine :=
  match g.shadow with
  | none => { g with setup := none, tds := [], progLen := 0, pc := 0 }
  | some x =>
    { g with
      setup := some x, shadow := none, pc := x.pc, progUnit := x.progUnit, progLen := x.words.length
      tds := x.tds.foldl (fun t d => tset {} t d.index.val (startTd (g.td d.index.val) d)) [] }
/-- The engine at the start of a step: loop stack, generators and flags clear, journal and watchdog started. -/
def Engine.startStep (g : Engine) (m : ParcelMem) (step : Word) (t0 : Nat) : Engine :=
  { g with
    ags := [], eflags := 0, loops := [], st := .run, stBeforeHalt := .idle, awaits := none, seq := 0, moverQ := [], arrayQ := []
    rowQ := [], bReg := none, verdicts := [], settle := none, rescan := 0, sums := [], arrived := g.setup.isNone
    tdWritten := [], blkWritten := [], raised := []
    journal := some { mem := m, tds := g.tds, tdPoison := g.tdPoison }, watchdogT0 := some t0
    cores := (List.range 4).foldl (fun t c => tmod {} t c fun (k : Scribe) => k.startStep step t0) g.cores }
/-- The program's words as they stand in the parcel store (03 R91). -/
def programImage (x : EngSetup) : List Byte := x.words.flatMap fun w => leBytes 16 w.toNat
/-- An engine takes its shadow set, and its program's words stand in the parcel store. -/
def State.swapEngine (s : State) (e : EngId) : State :=
  if ((s.sheet e.sheet.val).phys e.parcel.val).isNone then s.modEng e fun g => { g with setup := none, shadow := none }
  else
    let s := s.modEng e Engine.swapIn
    match (s.eng e).setup with
    | some x => s.modPmem e fun m => { m with store := mwrite m.store (64 * x.progUnit) (programImage x) }
    | none => s
/-- An engine starts a step; one whose index is unbound is FENCED (03 R107). -/
def State.startEngine (s : State) (e : EngId) (step : Word) : State :=
  if ((s.sheet e.sheet.val).phys e.parcel.val).isNone then s.modEng e fun g => { g with st := .fenced }
  else
    let m := s.pmem e
    let t0 := s.now
    s.modEng e fun g => g.startStep m step t0
/-- A slot's settings of the step replace the programmed fields alone. -/
def SlotRegs.config (r cfg : SlotRegs) : SlotRegs :=
  { r with gslot := cfg.gslot, tensor := cfg.tensor, bound := cfg.bound, invt := cfg.invt, base2 := cfg.base2
           greedy := cfg.greedy, topp := cfg.topp, mask := cfg.mask, topk := cfg.topk }
/-- Bindings of a sheet's division. -/
def bindsOf (d : Option DivProg) : List SlotBind := match d with | some x => x.binds | none => []
/-- Slots of a sheet take their shadow sets; the context's other slots are unbound (04 R122). -/
def Sheet.swapSlots (h : Sheet) (c : CtxId) (binds : List SlotBind) : Sheet :=
  let other := (h.slots.filter fun x => x.2.ctx == some c && !(binds.any fun b => b.slot.val == x.1)).map Prod.fst
  let h := other.foldl (fun h n => h.modSlot n fun x =>
    { x with reg := { x.reg with bound := false }, pend := { x.pend with bound := false }
             start := { x.start with bound := false } }) h
  binds.foldl (fun h b => h.modSlot b.slot.val fun x =>
    let cfg := x.shadow.getD x.pend
    { x with reg := x.reg.config cfg, pend := x.pend.config cfg, start := x.start.config cfg, shadow := none, ctx := some c
             sheets := b.sheets, home := some b.home, homeDev := b.homeDev, far := b.far }) h
/-- The slots that a step binds as it starts: slot flags cleared in the pending copy (04 R124). -/
def Sheet.startSlots (h : Sheet) (binds : List SlotBind) : Sheet :=
  let h := binds.foldl (fun h b => h.modSlot b.slot.val fun x =>
    { x with pend := { x.pend with sflags := 0 }, start := { x.pend with sflags := 0 }, phase := .idle, drew := false
             started := false, poison := x.cfgPoison }) h
  binds.foldl (fun h b => h.modChain b.slot.val fun x => { x with start := x.pend, poison := false }) h
/-- A sheet's slots, key unit and routers take their shadow sets (01 R34, 05 R155). -/
def Sheet.swapSets (h : Sheet) (c : CtxId) (d : Option DivProg) : Sheet :=
  let h := h.swapSlots c (bindsOf d)
  let key := match h.key.shadow with
    | some t => { h.key with tab := t, shadow := none, used := BitVec.ofNat 11 t.length }
    | none => h.key
  { h with key := key, routeTab := h.routeShadow.getD h.routeTab, routeShadow := none }
/-- A sheet at the start of a step: its 64 flags clear (01 R31), hub contexts and groups empty. -/
def Sheet.startStep (h : Sheet) (d : Option DivProg) : Sheet :=
  { h.startSlots (bindsOf d) with flags := 0, advanceHeld := false, hubs := [], groups := [] }
/-- Whether the partition's sheets and ports let the step start. -/
def State.mayStart (s : State) (p : Nat) (c : CtxId) (prog : Nat) : Bool :=
  s.inService p && s.portsUp p c prog &&
  (s.part p).sheetList.all fun h =>
    let x := s.sheet h
    x.mem.adds.isEmpty && (x.changes.all fun m => m == .advance && x.advanceHeld) &&
    (s.rst.parcels.all fun r => !(r.1 == h && x.pmap.contains r.2))
/-- A barrier of a partition completes: counted on each of its sheets (17 R453). -/
def State.barrierEvent (s : State) (p : Nat) : State :=
  s.forEach (s.part p).sheetList fun s h => s.sheetEvent h { cls := 4, code := 5 }
/-- The division that a sheet runs of a context's step program. -/
def State.sheetDiv (s : State) (p : Nat) (c : CtxId) (prog h : Nat) : Option DivProg :=
  match s.stepProg p c prog with
  | some g => divFor g h (s.sheet h).pmap.length
  | none => none
/-- Every unit of the partition swaps its register sets (R34). -/
def State.swapSets (s : State) (p : Nat) (c : CtxId) (prog : Nat) : State :=
  let s := s.forEach (s.part p).sheetList fun s h => s.modSheet h fun x => x.swapSets c (s.sheetDiv p c prog h)
  s.forEach (s.engineIds p) State.swapEngine
/-- The step of a context starts on a partition. Where its sets have not been swapped in at the end of a step before it (the
first step of a RUN, a repeat, a step programmed again), they are swapped in first (R34; log 68). -/
def State.startStep (s : State) (p : Nat) (c : CtxId) (prog : Nat) (swap : Bool) : State :=
  let s := s.modPart p fun x => { x with cur := some c, prog := prog, swapped := none }
  let s := if swap then s.swapSets p c prog else s
  let s := s.forEach (s.part p).sheetList fun s h => s.modSheet h fun x => x.startStep (s.sheetDiv p c prog h)
  let step := BitVec.ofNat 64 (s.drawStep c)
  let s := s.forEach (s.engineIds p) fun s e => s.startEngine e step
  let now := BitVec.ofNat 64 s.now
  let div := s.division p
  let s := s.modRunOf p c fun r =>
    let r := { r with scanned := true }
    if r.committed + r.provisional = 0 then { r with division0 := div, divLast := div, launch := if r.launch = 0 then now else r.launch }
    else r
  let s := s.barrierEvent p
  s.modPart p fun x =>
    { x with phase := .running, faults := [], dramWritten := [], stepSat := false, stepFlagged := false, parcelReset := false
             halted := false, noCommit := false, trialRan := x.hang == .isolation
             activity := c :: x.activity.filter fun y => y != c }
/-! ### The outcome of a step (01 R36) -/

/-- Whether a DRAM granule written in the step is poisoned (08 R249). -/
def State.granulePoison (s : State) (x : Nat × Nat) : Bool :=
  let m := (s.sheet x.1).mem
  if x.2 % 2 = 0 then recPoison (m.record (x.2 / 2)) else (m.attr (x.2 / 2)).1 == 2 || m.differs (x.2 / 2)
/-- Whether poison reached the step-end commit point (08 R249); a scribe-sent 0x101 meets it too (13 R375). -/
def State.poisonAtEnd (s : State) (p : Nat) (c : CtxId) : Bool :=
  let x := s.part p
  (s.engineIds p).any (fun e =>
    let g := s.eng e
    let m := s.pmem e
    (g.tdWritten.any fun t => g.tdPoison.contains t) || g.blkWritten.any fun b => m.blkPoison.contains b) ||
  x.dramWritten.any s.granulePoison ||
  x.sheetList.any (fun h =>
    let y := s.sheet h
    y.slots.any fun z => z.2.ctx == some c && (z.2.poison || (y.chain z.1).poison)) ||
  x.faults.any fun f => f.kind == 0x101
/-- Charge detections to the parcels of some faults, each parcel once where `once` (13 R381, R383). -/
def State.chargeAll (s : State) (l : List StepFault) (once bad : Bool) : State :=
  let l := l.filterMap fun f => match f.phys with
    | some q => if isDetection f.kind.toNat then some (f.sheet, q, f.kind) else none
    | none => none
  let l := if once then l.foldl (fun a x => if a.any fun y => y.1 == x.1 && y.2.1 == x.2.1 then a else a ++ [x]) [] else l
  s.forEach l fun s x => s.detect x.1 x.2.1 x.2.2 bad
/-- A step ends without a repeat and its RUN with it: a chart RUN through its epoch (11 R343), else with the status. -/
def State.failStep (s : State) (p : Nat) (c : CtxId) (st : Byte) (kind : BitVec 12) : State :=
  let s := s.stopStep p
  match (s.part p).runOf c with
  | some r => if r.chart then s.failEpoch c kind false else s.finishRun p c st kind
  | none => s
/-- The poison commit point at a step's end (08 R249, R250; 13 R386: detections still count). -/
def State.poisonStep (s : State) (p : Nat) (c : CtxId) (bad : List EngId) (histBad : Bool) : State :=
  let x := s.part p
  let s := s.chargeAll x.faults false histBad
  let s := s.sendFault { source := sheetSource (x.sheetList.headD 0) 0, kind := 0x110, ctx := some c }
  let s := (s.abandonStep p bad).stopStep p
  match (s.part p).runOf c with
  | some r => if r.chart then s.failEpoch c 0x110 true else (s.finishRun p c stPoison 0x110).contain p c
  | none => s.contain p c
/-- A clean step commits, or waits in its epoch for the commit barrier (11 R342). A clean repeat reports
CHECK_FAILED_RECOVERED and charges the original parcels (13 R381). -/
def State.commitClean (s : State) (p : Nat) (c : CtxId) (histBad : Bool) : State :=
  let x := s.part p
  let hit := x.again && !x.firstFaults.isEmpty
  let first := match x.firstFaults.head? with | some f => f.kind | none => 0
  let s := if hit then s.modRunOf p c fun r =>
      { r with recovered := true, status := higherStatus r.status stRecovered, kind := if r.kind = 0 then first else r.kind }
    else s
  let s := if hit then (s.chargeAll x.firstFaults true histBad).closeStepWindows p else s
  let s := s.closeStep p c
  match (s.part p).runOf c with
  | none => s
  | some r =>
    if r.chart then s.modRunOf p c fun r => { r with provisional := r.provisional + 1 }
    else (s.commitSteps p c 1).finishIfDone p c
/-- A repeat that failed (13 R381): the same kind and address on another parcel lies in plan or data and is not charged. -/
def State.repeatFailed (s : State) (p : Nat) (c : CtxId) (bad : List EngId) (histBad : Bool) : State :=
  let x := s.part p
  let kind := match x.firstFaults.head? with | some f => f.kind | none => 0
  let inData := x.firstFaults.any fun f => x.faults.any fun g =>
    f.kind == g.kind && f.address == g.address && f.phys.isSome && g.phys.isSome && (f.sheet, f.phys) != (g.sheet, g.phys)
  let same (f : StepFault) : Bool := x.faults.any fun g => (f.sheet, f.phys) == (g.sheet, g.phys)
  let s := s.abandonStep p bad
  let s := if inData then s else
    let both := x.firstFaults.filter same
    let s := s.chargeAll both false histBad
    let s := s.chargeAll (x.firstFaults.filter fun f => !same f) true histBad
    let s := s.chargeAll (x.faults.filter fun g => both.any fun f => (f.sheet, f.phys) == (g.sheet, g.phys)) false histBad
    s.chargeAll (x.faults.filter fun g => !(both.any fun f => (f.sheet, f.phys) == (g.sheet, g.phys))) true histBad
  s.failStep p c stCheckFailed kind
/-- Insert a suspect by sheet and physical parcel. -/
def insertSuspect (l : List (Nat × Nat)) (x : Nat × Nat) : List (Nat × Nat) :=
  match l with
  | [] => [x]
  | y :: r => if x = y then y :: r else if x.1 < y.1 ∨ x.1 = y.1 ∧ x.2 < y.2 then x :: y :: r else y :: insertSuspect r x
/-- Suspects whose step repeats on a substitute (13 R375, R380), the lower physical index first (R386). -/
def suspectsOf (l : List StepFault) : List (Nat × Nat) :=
  (l.filterMap fun f => match f.phys with
    | some q => if repeatsElsewhere f.kind.toNat then some (f.sheet, q) else none
    | none => none).foldl insertSuspect []
/-- A first failure whose kinds all repeat: abandonment, and the substitutes wait as map changes (13 R380). -/
def State.askRepeat (s : State) (p : Nat) (bad : List EngId) : State :=
  let x := s.part p
  let s := s.abandonStep p bad
  let s := s.forEach (suspectsOf x.faults) fun s q =>
    s.modSheet q.1 fun h => { h with changes := h.changes ++ [.substitute q.2] }
  s.modPart p fun y =>
    { y with firstFaults := if x.parcelReset && x.faults.isEmpty then y.firstFaults else x.faults, faults := [], swaps := [], parcelReset := false }
/-- The outcome of the step in progress (R36). Under a teardown nothing commits; a descriptor that met a poison commit point keeps
POISON_CONSUMED (09 R293). -/
def State.decideStep (s : State) (p : Nat) (c : CtxId) (bad : List EngId) (histBad : Bool) : State :=
  let x := s.part p
  let fs := x.faults
  let spec := match x.runOf c with | some r => r.speculative x.hold | none => false
  let stop := fs.find? fun f => (kindSeverity f.kind.toNat x.contain false).getD 0 == 3
  if x.noCommit then
    if s.poisonAtEnd p c then ((s.poisonStep p c bad histBad).finishRun p c stPoison 0x110).tearPhase2 c
    else (s.abandonStep p bad).stopStep p |>.tearPhase2 c
  else if s.poisonAtEnd p c then s.poisonStep p c bad histBad
  else match fs with
    | [] => if x.parcelReset then s.askRepeat p bad else s.commitClean p c histBad
    | f :: _ =>
      if spec then ((s.chargeAll fs false histBad).abandonStep p bad).failStep p c stCheckFailed f.kind
      else if x.again && !x.firstFaults.isEmpty then s.repeatFailed p c bad histBad
      else match stop with
        | some g => (s.abandonStep p bad).failStep p c stCheckFailed g.kind
        | none => s.askRepeat p bad
/-- The faults of key derivations that differ (05 R156; 13 R380). -/
def keyFaults (sheets : List Nat) : List StepFault :=
  sheets.map fun h => { kind := 0x520, address := 0, source := sheetSource h 1, sheet := h, phys := none, again := false }
/-- A step whose keys failed to derive does not start and ends by abandonment; the repeat derives them again (05 R156). -/
def State.failKeys (s : State) (p : Nat) (c : CtxId) (prog : Nat) (bad : List Nat) : State :=
  (s.modPart p fun x =>
    { x with cur := some c, prog := prog, next := none, swapped := none, faults := keyFaults bad, halted := false, parcelReset := false }).decideStep
      p c [] false
/-- START_OF_STEP_BARRIER. A step whose division changed since it was programmed is programmed again. -/
def State.doStartStep (s : State) (p : Nat) : State :=
  let x := s.part p
  match x.phase with
  | .programmed =>
    match x.cur with
    | none => s
    | some c => if s.mayStart p c x.prog then s.startStep p c x.prog true else s
  | .none =>
    match x.next with
    | none => s
    | some (c, prog, ns, bad) =>
      let chart := match x.runOf c with | some r => r.chart | none => false
      if !s.mayStart p c prog || (chart && (s.epoch c.val).st != .opened) then s
      else if ns ≠ s.division p then s.modPart p fun x => { x with next := none }
      else if !bad.isEmpty then s.failKeys p c prog bad
      else (s.startStep p c prog (x.swapped != some (c, prog))).modPart p fun x => { x with next := none }
  | _ => s

/-- A next step already programmed is checked once the step before it is over (04 R127, 05 R153, 06 R207, 01 R20). -/
def State.recheckNext (s : State) (p : Nat) : State :=
  match (s.part p).phase, (s.part p).next with
  | .none, some n =>
    if (s.part p).runs.any fun r => r.ctx == n.1 then
      match s.stepStop p n.1 n.2.1 with
      | some st => s.endRun p n.1 st 0
      | none => s
    else s.modPart p fun x => { x with next := none }
  | _, _ => s
/-- At the end of a step every unit swaps in the sets of the next step, where it is programmed for the parcels in service
(R34). -/
def State.swapNext (s : State) (p : Nat) : State :=
  match (s.part p).phase, (s.part p).next with
  | .none, some n =>
    if n.2.2.1 = s.division p then (s.swapSets p n.1 n.2.1).modPart p fun x => { x with swapped := some (n.1, n.2.1) } else s
  | _, _ => s
/-- END_OF_STEP_BARRIER: every engine has arrived or halted, or a fault or reset ends the step early. -/
def State.doEndStep (s : State) (p : Nat) (bad : List EngId) (histBad : Bool) : State :=
  let x := s.part p
  match x.phase, x.cur with
  | .running, some c =>
    let over' := (s.stepEngines p).all fun e => s.hasArrived e || (s.eng e).st == .halt
    if over' || !x.faults.isEmpty || x.parcelReset then
      (((if over' then s.barrierEvent p else s).decideStep p c bad histBad).swapNext p).recheckNext p
    else s
  | _, _ => s

/-! ### Repeats (13 R380) and map changes (01 R21) -/

/-- STEP_REPEAT: the abandoned step is programmed again on the map as it now stands, its seeds and counters unchanged; a key
whose two derivations differ again is the repeat's failure (05 R156), and a plan poisoned in staging ends the RUN (log 80). -/
def State.doRepeat (s : State) (p : Nat) (u : ProgUpset) : State :=
  let x := s.part p
  match x.phase, x.cur with
  | .abandoned, some c =>
    let hangOk := match x.hang with
      | .normal => !x.halted
      | .halted => false
      | .isolation => x.hangCur.toNat == c.val
    let ready := x.sheetList.all fun h =>
      (s.sheet h).changes.all fun m => m == .advance && (s.sheet h).advanceHeld
    match x.runOf c, s.runPlan p c, s.stepProg p c x.prog with
    | some r, some l, some g =>
      if !hangOk || !ready || !s.inService p || !s.portsUp p c x.prog then s
      else if x.noCommit then (s.stopStep p).tearPhase2 c
      else if s.tooFew p l.plan then
        (s.stopStep p).endRun p c stRejected 0
      else if s.progStalls p l g true then s
      else
        let s := s.stagePlan p c r.plan u.d
        if (s.runPlan p c).any LoadedPlan.poison then (s.stopStep p).endRun p c stCheckFailed 0x104 else
        let s := s.modPart p fun x => { x with next := none, swapped := none }
        let r' := s.programAll p c r l g u.keys
        if r'.2.isEmpty then r'.1.modPart p fun x => { x with phase := .programmed, again := true }
        else (r'.1.modPart p fun x => { x with again := true, faults := keyFaults r'.2 }).decideStep p c [] false
    | _, _, _ => s
  | _, _ => s
/-- PARCEL_MAP_CHANGE: at a step boundary of the partition that owns the sheet; at once for a sheet of no partition (R21). A
repeat that was programmed and has not started is programmed again for the new map. -/
def State.doMapChange (s : State) (h : Nat) : State :=
  match s.partOf h with
  | none => s.applyChanges h
  | some p => match (s.part p).phase with
    | .none => s.applyChanges h
    | .abandoned => s.applyChanges h
    | .programmed => (s.applyChanges h).modPart p fun x => { x with phase := .abandoned }
    | .running => s

/-! ### RUN_DISPATCH (05 R153, R167, R168; 12 R358) -/

/-- The seed of a RUN: its bytes and whether the device drew it. -/
def State.runSeed (s : State) (d : Desc) (arg : HostRead) : Option (List Byte × Bool) :=
  match dSeedSel d with
  | 0 => (s.ctx (dCtx d).val).seed
  | 1 => arg.map fun b => ((b ++ List.replicate 32 0).take 32, false)
  | _ => d.seedBytes.map fun b => (b, true)
/-- The plan sequencers accept a RUN. `arg` is what the reads of the dispatch brought from the host: 32 seed bytes for the
Descriptor source, then the argument block. -/
def State.acceptRun (s : State) (q : Nat) (d : Desc) (l : LoadedPlan) (seed : List Byte) (dev : Bool) : State :=
  let c := dCtx d
  let p := s.ctxPart c
  let s := if dSeedSel d = 0 then s else s.modCtx c.val fun x => { x with step := 0 }
  let h := s.entryHash c l.plan
  let hin := s.setHash (l.plan.tensors.filter fun t => t.input)
  let x := s.ctx c.val
  let chart := planIsChart l.plan
  let r : RunState :=
    { queue := q, ctx := c, plan := dPlan d, total := dArg0 d, committed := 0, first := x.step, seed := seed
      seedSrc := BitVec.ofNat 2 (dSeedSel d), hState := h, hIn := hin, status := stOk, kind := 0, notseq := false, f32add := false
      sat := false, flagged := false, recovered := false, devSeed := dev, uncovered := false, clkstep := false, divchg := false
      restored := x.restored, division0 := s.division p, divLast := s.division p, launch := 0, lastCommit := 0, scanned := false
      written := [], chart := chart, waitLaunch := chart, provisional := 0, provFlags := false, provSat := false, provDiv := [], epochTiles := []
      broken := false, ledgers := [] }
  let s := s.modCtx c.val fun x => { x with restored := false }
  let s := s.modPart p fun y => { y with runs := y.runs ++ [r] }
  let draws := ((l.plan.progs.flatMap StepProg.divs).flatMap DivProg.binds).any fun b =>
    b.draws && decide (((s.sheet b.home.val).slot b.slot.val).reg.step.toNat = 2 ^ 64 - 1)
  if s.tooFew p l.plan then s.finishRun p c stRejected
  else if x.step.toNat = 2 ^ 64 - 1 ∨ draws then s.finishRun p c stBad
  else s
/-- RUN_DISPATCH: it waits for the sheets of the partition to be in SERVICE (01 R33), for a chart plan in SERVICE (11 R326),
and for the RUN in progress of the context (log 31). -/
def State.doDispatch (s : State) (q : Nat) (arg : HostRead) : State :=
  match s.head q with
  | none => s
  | some d =>
    let c := dCtx d
    let p := s.ctxPart c
    if !(d.started && d.status == none && dOp d == 2 && d.wants == 0) || ((s.part p).runOf c).isSome || (s.part p).st != .running
        || !s.inService p then s
    else match (s.ctx c.val).planOf (dPlan d) with
      | none => s.decideHead q stBad
      | some l =>
        if planIsChart l.plan && s.chart.st != .service then s
        else if arg.isNone && (dSeedSel d == 1 || dArgPtr d != 0) then
          s.hostReadFailed q
        else match s.runSeed d arg with
          | none => s.decideHead q stBad
          | some (seed, dev) => s.acceptRun q d l seed dev

end Sys2Proof.Machine
end

