-- ==== Sys2Proof/Machine/Charts.lean ====
section
/-! DEFINITION. The rows of charts, span trees and epochs (11). -/

namespace Sys2Proof.Machine

/-! ### Chart registers (R325, R326) -/

/-- ALONE or UNLOCKED: the host may change the chart registers. -/
def Chart.writable (c : Chart) : Bool := c.st == .alone || c.st == .unlocked
/-- `CHART.ALIGN`; refused in any other state (R325). -/
def State.doChartAlign (s : State) : State := if s.chart.writable then s.alignChart else s.hostFault 0x40D
/-- `CHART.SAVE`: Ecbumos, where it runs, stores the record. -/
def State.doChartSave (s : State) : State :=
  if s.ecb.st == .ready then ({ s with chart := { s.chart with saved := some s.chart.reg } } : State).keep .chart else s

/-! ### Datum (R328-R332) -/

/-- `CHART.CSTATE` as a number. -/
def chartCode : ChartState → Nat
  | .alone => 0 | .aligning => 1 | .startUp => 2 | .service => 3 | .unlocked => 4
/-- DATUM_SEND: one on each DOWN port of a locked device; the stamp goes in as the unit takes its slot (R329). -/
def State.doDatumSend (s : State) : State :=
  if !s.chart.lock then s
  else
    s.forEach s.downPorts fun s p =>
      s.datumMsg syDatum (BitVec.ofNat 16 (chartCode s.chart.st)) 0 p
/-- One-way delay of a port in units of 1/256 ns: the mean of the last 16 probes, else what training measured. -/
def State.portDelay (s : State) (n : Nat) : Int :=
  let l := tget [] s.chart.probes n
  if l.isEmpty then 256 * (s.port n).delay.toNat else l.foldl (· + ·) 0 / (l.length : Int)
/-- A number held in a signed 16-bit field, kept at its ends (log 53). -/
def clamp16 (v : Int) : BitVec 16 := BitVec.ofNat 16 (twos 16 (max (-32768) (min 32767 v)))
/-- The step of R330: by ERR at the first DATUM of ALIGNING; after an earlier lock only forward. -/
def State.stepDatum (s : State) (err : Int) : State :=
  let c := s.chart
  if c.st != .aligning || c.stepped then s
  else
    let move := !c.lockedBefore || decide (0 < err)
    { s with chart := { c with stepped := true, datum := if move then ((c.datum : Int) + err).toNat else c.datum } }
/-- DATUM_RECEIVE: stamps in units of 1/256 ns; `state` is the sender's CSTATE. -/
def State.doDatum (s : State) (n : Nat) (sentAt : Word) (frac : Byte) (state : BitVec 16) (arrived : Nat) : State :=
  let c := s.chart
  if s.upPort != some n || s.isDatum || c.writable then s
  else
    let err := (256 * (sentAt.toNat : Int) + frac.toNat + s.portDelay n) - arrived
    let s : State := { s with chart := { c with err := clamp16 err } }
    let s := s.stepDatum err
    if c.lock then if 2048 < err.natAbs then s.unlockChart 0x320 else s
    else
      let run := if err.natAbs ≤ 256 then c.goodRun + 1 else 0
      let s : State := { s with chart := { s.chart with goodRun := run } }
      if 16 ≤ run then
        -- hops to the datum device: one where it is the partner; no unit carries a farther distance (log 53)
        let near := (s.port n).pdev == c.reg.datumDev
        let far := 2 + Config.freeValue s.free % 14
        let s : State := { s with chart := { s.chart with depth := BitVec.ofNat 4 (if near then 1 else far) }, free := s.free + 1 }
        s.lockChart (state == 3)
      else s
/-- DATUM_TIMEOUT. -/
def State.doDatumTimeout (s : State) : State := if s.isDatum then s else s.unlockChart 0x321
/-- Whether a port is of the datum tree and UP. -/
def State.treePort (s : State) (n : Nat) : Bool := s.upPort == some n || s.downPorts.contains n
/-- DELAY_PROBE_SEND. -/
def State.doProbeSend (s : State) (n : Nat) : State :=
  if s.treePort n then s.datumMsg syProbe 0 0 n else s
/-- DELAY_PROBE_RECEIVE: the echo carries the stamps of R329, whose place in it the spec does not give (log 53). -/
def State.doProbeReceive (s : State) (n : Nat) : State :=
  if s.treePort n then
    let v := BitVec.ofNat 64 (Config.freeValue s.free)
    ({ s with free := s.free + 1 } : State).datumMsg syEcho 0 v n
  else s
/-- DELAY_ECHO_RECEIVE: d = ((t4 − t1) − (t3 − t2)) / 2, kept for the mean of the last 16. -/
def State.doEchoReceive (s : State) (n : Nat) (t1 t2 t3 t4 : Nat) : State :=
  if s.treePort n then
    let d : Int := (((t4 : Int) - t1) - ((t3 : Int) - t2)) / 2
    let l := tget [] s.chart.probes n ++ [d]
    { s with chart := { s.chart with probes := tset [] s.chart.probes n (l.drop (l.length - 16)) } }
  else s

/-! ### Sync messages of span trees (R335, R336, R343, R345) -/

/-- Context that a sync message names. -/
def msgCtx (m : SyncMsg) : CtxId := Fin.ofNat 4096 m.ctx.toNat
/-- A sync message of a span tree that this device takes on a port: of the context's current generation, on a port of its
partition. In ALIGNING barriers and flags of number 0 alone are taken (R326). -/
def State.msgCurrent (s : State) (n : Nat) (m : SyncMsg) : Bool :=
  let x := s.ctx m.ctx.toNat
  (s.port n).lstate == .up && m.gen == x.gen && s.partOfPort n == some x.part.toNat && (s.chart.st != .aligning || m.num == 0)
/-- An epoch that a release opened on a device that has lost lock rolls back as well (R326, R332). -/
def State.failUnlocked (s : State) (c : CtxId) : State :=
  if s.chart.st == .unlocked then s.failEpoch c s.chart.lossKind false else s

/-! #### Rollback drain (R345) -/

/-- Everything of the epoch is discarded and the RUN ends. -/
def State.applyDrained (s : State) (c : CtxId) : State :=
  let e := s.epoch c.val
  let p := s.ctxPart c
  if e.st != .rollback then s
  else if e.poisoned then (s.endRun p c stPoison 0x110).contain p c
  else s.endRun p c stRollback (if e.failKind == 0 then 0x340 else e.failKind)
/-- What a node does with the drained arrivals in hand. -/
def State.settleDrained (s : State) (c : CtxId) : State :=
  match s.epochTree c with
  | none => s
  | some t =>
    let e := s.epoch c.val
    if e.sent || !((treeInputs t).all fun i => e.drained.contains i) then s
    else
      let s := s.modEpoch c.val fun e => { e with sent := true }
      match t.parent with
      | some pr => s.treeMsg c t syArrive (verdictWord 3 false 0) pr
      | none => (s.treeDown c t syRelease (verdictWord 3 false 0)).applyDrained c
/-- An input of the drain. -/
def State.castDrained (s : State) (c : CtxId) (who : Option PortId) : State :=
  if (s.epoch c.val).st != .rollback || (s.epoch c.val).drained.contains who then s
  else (s.modEpoch c.val fun e => { e with drained := e.drained ++ [who] }).settleDrained c
/-- ROLLBACK_DRAIN_COMPLETE. -/
def State.doDrained (s : State) (c : CtxId) : State :=
  if (s.part (s.ctxPart c)).portList.any fun n => (s.port n).owes c.val then s else s.castDrained c none
/-- DRAIN_TIMEOUT: kind 0x341. -/
def State.doDrainTimeout (s : State) (c : CtxId) : State :=
  if (s.epoch c.val).st == .rollback then s.sendFault { source := devSource 6, kind := 0x341, ctx := some c } else s

/-! #### Opening, arriving and releasing -/

/-- A barrier-0 arrival: the members of a child's subtree (R333). -/
def State.membersArrive (s : State) (n : Nat) (m : SyncMsg) : State :=
  if s.downPorts.contains n then
    ({ s with chart := { s.chart with childSums := tset 0 s.chart.childSums n (m.operand.toNat % 8192) } } : State).settleMembers
  else s
/-- An arrival at an epoch tree's barrier. -/
def State.epochArrive (s : State) (n : PortId) (m : SyncMsg) : State :=
  let c := msgCtx m
  let e := s.epoch c.val
  let mine := match s.epochTree c with
    | some t => t.num == m.num && t.children.contains n
    | none => e.st == .idle
  if !s.msgCurrent n.val m || !mine then s
  else
    match e.st with
    | .idle => s.castTag c (some n) m.operand
    | .launch =>
      if e.launchAt.isSome then s.modEpoch c.val fun e => { e with votes := e.votes ++ [(some n, m.operand)] }
      else s.castTag c (some n) m.operand
    | .opened => if m.epoch == e.num then s.castVote c (some n) m.operand else s
    | .voted => if m.epoch == e.num then (s.castVote c (some n) m.operand).failUnlocked c else s
    | .rollback => if verdictOf m.operand = 3 then s.castDrained c (some n) else s
/-- BARRIER_ARRIVE_RECEIVE. -/
def State.doBarrierArrive (s : State) (n : PortId) (m : SyncMsg) : State :=
  if m.num = 0 then s.membersArrive n.val m else s.epochArrive n m
/-- TRIGGER of barrier 0. -/
def State.serviceTrigger (s : State) (n : Nat) (m : SyncMsg) : State :=
  if s.upPort != some n then s
  else
    let t := m.operand.toNat
    let s := s.forEach s.downPorts fun s p => s.datumMsg syTrigger 0 m.operand p
    let s : State := { s with chart := { s.chart with serviceAt := some t } }
    if t < s.now then (s.sendFault { source := devSource 6, kind := 0x322 }).serveChart else s
/-- TRIGGER of an epoch tree's launch. -/
def State.launchTrigger (s : State) (n : PortId) (m : SyncMsg) : State :=
  let c := msgCtx m
  match s.epochTree c with
  | none => s
  | some t =>
    if !s.msgCurrent n.val m || t.num != m.num || t.parent != some n || (s.epoch c.val).st != .launch then s
    else
      let at' := m.operand.toNat
      let s := (s.treeDown c t syTrigger m.operand).modEpoch c.val fun e => { e with launchAt := some at' }
      if at' < s.now && s.chart.st == .service then s.openLate c else s
/-- TRIGGER_RECEIVE. -/
def State.doTrigger (s : State) (n : PortId) (m : SyncMsg) : State :=
  if m.num = 0 then s.serviceTrigger n.val m else s.launchTrigger n m
/-- TRIGGER_COUNT_REACHED: the count takes the value T. -/
def State.doCountReached (s : State) (c : Option CtxId) : State :=
  match c with
  | none => match s.chart.serviceAt with
    | some t => (s.reach t).serveChart
    | none => s
  | some c =>
    match (s.epoch c.val).st, (s.epoch c.val).launchAt with
    | .launch, some t => if s.chart.st == .service then (s.reach t).openEpoch c else s.reach t
    | _, _ => s
/-- SYNC_FLAG_RECEIVE: bits 5:0 of the number name a flag; which sheet of the context's partition it reaches is open in the
spec, a free choice (log 52). -/
def State.doSyncFlag (s : State) (n : Nat) (m : SyncMsg) : State :=
  if !s.msgCurrent n m then s
  else
    let l := (s.part (s.ctxPart (msgCtx m))).sheetList
    match l[Config.freeValue s.free % l.length]? with
    | none => s
    | some h =>
      ({ s with free := s.free + 1 } : State).modSheet h fun x =>
        let b := BitVec.ofNat 64 (2 ^ (m.num.toNat % 64))
        { x with flags := if m.value then x.flags ||| b else x.flags &&& ~~~b }
/-- EPOCH_COMMIT_ARRIVE: the last step of the epoch has ended; or, under speculative send, a fault that abandons the step. -/
def State.doCommitArrive (s : State) (c : CtxId) : State :=
  let p := s.ctxPart c
  let x := s.part p
  match x.runOf c, s.runPlan p c, x.faults with
  | some r, some l, f =>
    if !r.chart then s
    else
      match x.cur == some c && !x.hold, f with
      | true, k :: _ => s.failEpoch c k.kind false
      | _, _ =>
        if x.cur != some c && decide (0 < r.provisional) &&
            (decide (l.plan.epochLen ≤ r.provisional) || decide (r.total ≤ r.committed + r.provisional)) then
          s.arriveEpoch c (if r.provFlags then 1 else 0)
        else s
  | _, _, _ => s
/-- BARRIER_RELEASE_RECEIVE: a launch that failed (log 25), or the root's decision. -/
def State.doRelease (s : State) (n : PortId) (m : SyncMsg) : State :=
  let c := msgCtx m
  match s.epochTree c with
  | none => s
  | some t =>
    let st := (s.epoch c.val).st
    let v := verdictOf m.operand
    if !s.msgCurrent n.val m || t.num != m.num || !(t.parent == some n || t.children.contains n) then s
    else if st == .launch then if v = 2 then s.spreadLaunchBad c t (some n) else s
    else if t.parent != some n then s
    else
      let s := s.treeDown c t syRelease m.operand
      if v = 3 then s.applyDrained c else (s.applyRelease c v).failUnlocked c

/-! ### The rows -/

/-- CHART_ALIGN. -/
def execChartAlign (s : State) : Res := .next (s.hostWrite State.doChartAlign)
/-- CHART_SAVE. -/
def execChartSave (s : State) : Res := .next (s.hostWrite State.doChartSave)
/-- DATUM_SEND. -/
def execDatumSend (s : State) : Res := .next s.doDatumSend
/-- DATUM_RECEIVE. -/
def execDatumReceive (p : PortId) (sentAt : Word) (frac : Byte) (state : BitVec 16) (arrived : Nat) (s : State) : Res :=
  .next (s.doDatum p.val sentAt frac state arrived)
/-- DATUM_TIMEOUT. -/
def execDatumTimeout (s : State) : Res := .next s.doDatumTimeout
/-- DELAY_PROBE_SEND. -/
def execDelayProbeSend (p : PortId) (s : State) : Res := .next (s.doProbeSend p.val)
/-- DELAY_PROBE_RECEIVE. -/
def execDelayProbeReceive (p : PortId) (s : State) : Res := .next (s.doProbeReceive p.val)
/-- DELAY_ECHO_RECEIVE. -/
def execDelayEchoReceive (p : PortId) (t1 t2 t3 t4 : Nat) (s : State) : Res := .next (s.doEchoReceive p.val t1 t2 t3 t4)
/-- BARRIER_ARRIVE_RECEIVE. -/
def execBarrierArriveReceive (p : PortId) (m : SyncMsg) (s : State) : Res := .next (s.doBarrierArrive p m)
/-- TRIGGER_RECEIVE. -/
def execTriggerReceive (p : PortId) (m : SyncMsg) (s : State) : Res := .next (s.doTrigger p m)
/-- TRIGGER_COUNT_REACHED. -/
def execTriggerCountReached (c : Option CtxId) (s : State) : Res := .next (s.doCountReached c)
/-- SYNC_FLAG_RECEIVE. -/
def execSyncFlagReceive (p : PortId) (m : SyncMsg) (s : State) : Res := .next (s.doSyncFlag p.val m)
/-- EPOCH_COMMIT_ARRIVE. -/
def execEpochCommitArrive (c : CtxId) (s : State) : Res := .next (s.doCommitArrive c)
/-- BARRIER_RELEASE_RECEIVE. -/
def execBarrierReleaseReceive (p : PortId) (m : SyncMsg) (s : State) : Res := .next (s.doRelease p m)
/-- ROLLBACK_DRAIN_COMPLETE. -/
def execRollbackDrainComplete (c : CtxId) (s : State) : Res := .next (s.doDrained c)
/-- DRAIN_TIMEOUT. -/
def execDrainTimeout (c : CtxId) (s : State) : Res := .next (s.doDrainTimeout c)

end Sys2Proof.Machine
end

