-- ==== Sys2Proof/Machine/ResetOps.lean ====
section
/-! DEFINITION. Reset domains and the safe state (14 R396-R400). -/

namespace Sys2Proof.Machine

/-! ### Parcel and sheet resets (R396) -/

/-- An engine after a parcel reset: descriptors, poison marks, set-up and journal stay (R396). -/
def Engine.parcelReset (g : Engine) : Engine :=
  { tds := g.tds, tdPoison := g.tdPoison, tdCtx := g.tdCtx, tdWritten := g.tdWritten, blkWritten := g.blkWritten, raised := g.raised
    progUnit := g.progUnit, progLen := g.progLen, taken := g.taken, journal := g.journal, setup := g.setup, shadow := g.shadow }
/-- Reset of a physical parcel. During a step the step ends by abandonment and is repeated on the same resources; a round
of field test on the parcel starts again. -/
def State.parcelReset (s : State) (sheet p : Nat) : State :=
  let h := s.sheet sheet
  let s : State := { s with rst := { s.rst with last := 1, parcels := s.rst.parcels ++ [(sheet, p)] } }
  match h.pmap.idxOf? p with
  | none =>
    if h.test = some p then (s.abandonRound sheet).startRound sheet
    else if h.standing = some p then s.abandonStanding sheet
    else s
  | some l =>
    let s := s.modSheet sheet fun h => h.modEngine l Engine.parcelReset
    match s.partOf sheet with
    | none => s
    | some q =>
      if (s.part q).phase == .running && (h.engine l).setup.isSome then
        s.modPart q fun x => { x with parcelReset := true }
      else s

/-- A sheet after its reset: every unit at reset values, the map as the MRAM record gives it; DRAM and sideband, counts since
cold reset, field-test settings and fault messages stay (R396, R451). -/
def Sheet.afterReset (h : Sheet) (rcd : Option (List Nat × Option Nat × Option Nat × BitVec 18)) : Sheet :=
  let m := rcd.getD (h.pmap, h.standing, h.test, h.fenced)
  { mode := h.mode, pmap := m.1, standing := m.2.1, test := m.2.2.1, fenced := m.2.2.2
    mem := { h.mem with adds := [], hotRef := h.mem.hotRef, attrErr := false, selfRefresh := false }
    ft := { h.ft with st := .off, packsLeft := [], roundPacks := [], windowUp := false, failed := false, standingKak := false
                      sheetKakLeft := [] }
    col := h.col, wire := h.wire
    thm := { h.thm with hot := false }
    dramTries := h.dramTries, trained := h.trained, tested := h.tested }
/-- Reset of one sheet: a round that runs is recorded abandoned first, and pending fences and removals are in the record (15 R415). -/
def State.sheetReset (s : State) (sheet : Nat) : State :=
  let s := (s.abandonRound sheet).abandonStanding sheet
  let s := s.forEach ((s.sheet sheet).changes.filterMap fun c => match c with | .fence p => some p | _ => none)
    fun s p => s.mapFence sheet p
  let s := s.forEach ((s.sheet sheet).changes.filterMap fun c => match c with | .unfence p => some p | _ => none)
    fun s p => s.mapUnfence sheet p
  let rcd := (s.ecb.fenceRecs.find? fun x => x.1 == sheet).map Prod.snd
  s.modSheet sheet fun h => h.afterReset rcd
/-- Sheets that start-up left OFF stay OFF; the others return to SERVICE and start a round (18 R475, 15 R415). -/
def State.sheetReady (s : State) (sheet : Nat) : State :=
  let h := s.sheet sheet
  if h.mode == .off then s
  else (s.modSheet sheet fun h => { h with mode := .service }).startRound sheet

/-- Receive buffers of VL1 to VL3 flushed: their credits go back to the partner (R396, R309). -/
def Port.flushRx (x : Port) : Port :=
  { x with
    rxSub := [], rxFlits := [], rxAsm := [], rxPacket := []
    owed := [1, 2, 3].foldl (fun t v => tmod 0 t v (· + (tget [] x.rxFlits v).length)) x.owed }

/-- The reset of a partition completes (R282, R396): a context whose quiesce timed out ends killed. -/
def State.partResetDone (s : State) (p : Nat) : State :=
  let stuck := (s.ctxs.filter fun x => x.2.part.toNat == p && x.2.st == .tearing).map Prod.fst
  let s := s.forEach stuck fun s c => s.releaseCtx (Fin.ofNat 4096 c)
  let sheets := (s.part p).sheetList
  let s := s.forEach sheets fun s h => s.sheetReset h
  let s := s.forEach (s.part p).portList fun s n => s.modPort n Port.flushRx
  let s := s.forEach sheets fun s h => s.sheetReady h
  let s := s.modPart p fun x =>
    { sheets := x.sheets, ports := x.ports, contain := x.contain, hold := x.hold, wdog := x.wdog, st := .setup }
  let s : State := { s with rst := { s.rst with last := 3 } }
  s.closeResetWindows 2 fun w => (w.part.map Fin.val) == some p

/-! ### Dump blocks (R400) -/

/-- Blocks in the order of R400 for the sheets of a mask. -/
def dumpBlocks (smask : BitVec 16) : List (BitVec 16) :=
  ((List.range 6).map svcSource) ++ ((List.range 7).map devSource) ++ ((List.range 64).map portSource) ++
  (sheetIdx.filter smask.getLsbD).flatMap fun h =>
    ((List.range 11).map (sheetSource h)) ++
    (List.range 18).flatMap fun p => ((List.range 7).map (sourceId 2 h p)) ++ (List.range 8).map (sourceId 3 h p)
/-- Rail group of a sheet (18 R469). -/
def sheetRail (h : Nat) : Nat := 2 + h / 4
/-- Whether the die of a block is powered down: its rail group is not up (18 R469). -/
def State.dieDown (s : State) (b : BitVec 16) : Bool :=
  !s.pwr.rails.contains (if srcLevel b ≤ 4 then sheetRail (srcSheet b) else if srcLevel b = 7 then 0 else 1)
/-- Whether a block reads GATED: a fenced parcel, a gated or powered-down die, or a unit under reset (R400). -/
def State.gated (s : State) (b : BitVec 16) : Bool :=
  let l := srcLevel b
  let h := s.sheet (srcSheet b)
  s.dieDown b ||
  if l ≤ 4 then
    h.mode == .off || h.mode == .recovery ||
    (decide (l ≤ 3) && (h.fenced.getLsbD (srcParcel b) || s.rst.parcels.contains (srcSheet b, srcParcel b)))
  else l == 7 && b.toNat % 16 == 1 && s.ecb.st == .off
/-- A dump record's 16-byte header (R401). -/
def dumpHeader (src : BitVec 16) (rstat n datum : Nat) : List Byte :=
  leBytes 2 src.toNat ++ leBytes 1 rstat ++ leBytes 1 (if n = 0 then 0 else 1) ++ leBytes 4 n ++ leBytes 8 datum
/-- The headers that safe-state entry writes to the last-gasp area: status alone, no data (R399). -/
def State.lastGasp (s : State) : List Byte :=
  (dumpBlocks 0xFFFF).flatMap fun b => dumpHeader b (if s.gated b then 3 else 0) 0 s.now

/-! ### The safe state (R399) -/

/-- Bound engines of a sheet halt. -/
def Sheet.haltAll (h : Sheet) : Sheet :=
  (List.range h.pmap.length).foldl (fun h l => h.modEngine l fun g =>
    { g with st := .halt, stBeforeHalt := if g.st == .halt then g.stBeforeHalt else g.st }) h
/-- Entry of the safe state; `kind` is what `COL.SAFEKIND` shows, none where no fault asked for it. The collector record takes the kind
and the datum count (13 R374), but for a power-down with both feeds lost, which refuses new MRAM writes (18 R484). -/
def State.enterSafe (s : State) (kind : Option (BitVec 12)) : State :=
  if s.dstate == .safe then s
  else
    let s := s.forEach ((List.range 64).filter fun n => (s.port n).lstate != .off) fun s n =>
      s.leaveUp n .fenced (s.port n).cause
    let s := s.forEach sheetIdx fun s h => s.modSheet h fun x =>
      { x.haltAll with mode := .safe, mem := { x.mem with selfRefresh := true } }
    let gasp := s.lastGasp
    let t : State := { s with
      dstate := .safe
      rst := { s.rst with last := 6, parcels := [], sheets := [], warm := false }
      dump := { s.dump with lastGasp := gasp }
      col := match kind with
        | some k => { s.col with safeKind := k, safeDatum := BitVec.ofNat 64 s.now }
        | none => s.col }
    if kind.isSome && (s.pwr.aok || s.pwr.bok) then t.keep .collector else t

/-! ### Device resets (R396, R398) -/

/-- A port after a warm reset: firmware enables the ports of the groups again, and they retrain. -/
def Port.warm (x : Port) : Port :=
  { en := x.groupEnabled, groupEnabled := x.groupEnabled, lstate := if x.groupEnabled then .detect else .off }
/-- The registers of the chart stay; its state aligns again where the chart has other devices. -/
def Chart.warm (c : Chart) : Chart :=
  { reg := c.reg, saved := c.saved, lockedBefore := c.lockedBefore, datum := c.datum
    st := if 1 < c.reg.size.toNat then .aligning else .alone }
/-- Sheets through a warm reset: pages that are not free become orphans (R398). -/
def Sheet.warm (h : Sheet) : Sheet :=
  { h with
    mode := if h.mode == .off then .off else .recovery
    mem := { h.mem with
      orphans := ((h.mem.attrA.map Prod.fst) ++ h.mem.attrB.map Prod.fst).foldl sinsert h.mem.orphans, lockedOrphans := []
      zeroOrphans := false, selfRefresh := true } }
/-- The collector through a warm reset: history, service hours, losses and `COL.SAFEKIND` stay. -/
def Collector.warm (c : Collector) : Collector :=
  { hist := c.hist, svch := c.svch, lost := c.lost, safeKind := c.safeKind, safeDatum := c.safeDatum }
/-- Ecbumos leaves a device reset with MRAM alone (16 R419, R437, R441); failure counts since cold reset stay through a warm
one. -/
def Ecb.restart (e : Ecb) : Ecb :=
  { officer := e.officer, hwk := e.hwk, chartKey := e.chartKey, transport := e.transport, perso := e.perso
    idSeed := e.idSeed, idCert := e.idCert, genKey := e.genKey, minsvn := e.minsvn, slotA := e.slotA, slotB := e.slotB
    lastB := e.lastB, applied := e.applied, unlockHour := e.unlockHour, sigres := e.sigres, signext := e.sigres
    enrol := e.enrol, packs := e.packs, logNext := e.logNext, log := e.log, fenceRecs := e.fenceRecs, pufOk := e.pufOk, cert := e.idCert
    st := .selftest }
/-- A device warm reset starts. -/
def State.warmReset (s : State) : State :=
  let s := s.forEach sheetIdx fun s h => s.sheetReset h |>.modSheet h Sheet.warm
  let s := s.noteSat s.rst.warmcnt 8
  let satf := s.cnt.satf
  let t : State := { s with
    dstate := .recovery, qtmo := 0x64, w4base := 0, queues := [], parts := [], bellStamp := 0, bellAt := none, fetchTurn := [], flr := []
    checkTurn := [], ctxs := tmap {} 4096 (fun _ x => ({ gen := x.gen + 1 } : Ctx)) s.ctxs
    ports := s.ports.map fun x => (x.1, x.2.warm)
    chart := s.chart.warm, col := s.col.warm, devWire := [], mseq := []
    rst := { last := 4, warmcnt := satInc s.rst.warmcnt, warm := true }
    dump := { st := if s.dump.st == 1 then 4 else 0, haltArea := s.dump.haltArea, lastGasp := s.dump.lastGasp }
    ecb := { s.ecb.restart with rctf := s.ecb.rctf, aptf := s.ecb.aptf }
    cnt := { satf := satf }
    pwr := { s.pwr with capw := 3600, fmax := 0xA, capen := true, down := false, pgOut := true } }
  if t.chart.st == .aligning then t.alignChart else t
/-- A warm reset that a command asks for; without the 100 MHz reference only a cold reset leaves the safe state (18 R471). -/
def State.warmCommand (s : State) : State := if s.pwr.down || !s.pwr.ref100 then s else s.warmReset
/-- What a device cold reset keeps of Ecbumos: MRAM. The block is in reset until its rails are up. -/
def Ecb.cold (e : Ecb) : Ecb := { e.restart with st := .off, cert := false }
/-- A device cold reset: everything but MRAM, from the logic-rail row of start-up on (18 R472); the pins and feeds are the
board's. -/
def State.coldReset (s : State) : State :=
  let p := s.pwr
  { State.reset with
    pending := s.pending, free := s.free, out := s.out, mram := s.mram
    chart := { State.reset.chart with saved := s.chart.saved }
    col := { State.reset.col with
      hist := s.col.unwritten.foldl (fun h i => tset {} h i (s.storedHist i)) s.col.hist, svch := s.col.svch }
    dump := { State.reset.dump with haltArea := s.dump.haltArea, lastGasp := s.dump.lastGasp }
    ecb := s.ecb.cold
    pwr := { State.reset.pwr with
      inw := p.inw, va := p.va, vb := p.vb, ia := p.ia, ib := p.ib, aok := p.aok, bok := p.bok, ref100 := p.ref100
      ref156 := p.ref156, origin := p.origin, trip := p.trip, lost := p.lost }
    pkg := { pwrDis := s.pkg.pwrDis, perst := s.pkg.perst } }

/-- A cold reset that a command or PERST_N asks for: rounds that run are recorded abandoned (15 R415); with the 100 MHz reference lost, the device leaves the safe state only where
the reference is back (18 R471); no row reports its return, so that is free (log 59). -/
def State.coldCommand (s : State) : State :=
  let s := if s.pwr.down then s else s.forEach sheetIdx fun s h => (s.abandonRound h).abandonStanding h
  if s.pwr.down then s
  else if s.pwr.ref100 then s.coldReset
  else
    let t : State := { s.coldReset with free := s.free + 1 }
    if Config.refBack s.free then { t with pwr := { t.pwr with ref100 := true } } else { t with dstate := .safe }

/-- Pages that are given to no new tensor until they are freed (`RST.ORPHAN`). -/
def State.orphaned (s : State) : Bool :=
  s.sheets.any fun h => !h.2.mem.orphans.isEmpty || !h.2.mem.lockedOrphans.isEmpty

end Sys2Proof.Machine
end

