-- ==== Sys2Proof/Machine/Checking.lean ====
section
/-! DEFINITION. The collectors (13 R365-R385): messages on their way, the fault ring, windows and their rungs, history
records and service hours. -/

namespace Sys2Proof.Machine

/-! ### Messages -/

/-- A fault message as 64 bytes, with the PHASE and the DETAIL of the ring copy (R366). -/
def faultBytes (m : FaultMsg) (phase : Bool) : List Byte :=
  let b := leBytes 2 m.source.toNat ++ leBytes 2 (m.kind.toNat + m.sev.toNat * 4096) ++ leBytes 2 m.ctx.toNat ++ [m.gen] ++
    leBytes 1 (b2n m.scribe + 2 * b2n m.overrun + 4 * b2n m.again + 128 * b2n phase) ++ leBytes 2 m.op.toNat ++
    leBytes 2 m.temp.toNat ++ leBytes 2 m.volt.toNat ++ leBytes 2 0 ++ leBytes 4 m.mseq.toNat ++ leBytes 8 m.datum.toNat ++
    leBytes 8 m.address.toNat ++ leBytes 8 m.step.toNat ++ leBytes 8 m.detail.toNat ++ List.replicate 8 0
  b ++ leBytes 4 (crc32c b)
/-- Severity at which the collector handles a message (R370, R375). -/
def State.severityOf (s : State) (m : FaultMsg) : Nat :=
  let contain := match s.msgPart m with
    | some p => (s.part p).contain
    | none => (s.part (s.ctx m.ctx.toNat).part.toNat).contain
  let own := if m.sev.toNat < 8 then m.sev.toNat else 6
  let base := match kindSeverity m.kind.toNat contain m.scribe with
    | some v => v.toNat
    | none => own
  if m.scribe && decide (m.sev.toNat < 2) then 3 else base
/-- From this many kept messages on the device collector drops NOTE and CONTAINED and the senders hold the others (R373). -/
def keptHold : Nat := 896
/-- Change the device collector. -/
def State.modCol (s : State) (f : Collector → Collector) : State := { s with col := f s.col }
/-- A dropped message is counted. -/
def State.countLost (s : State) : State := (s.noteSat s.col.lost 5).modCol fun k => { k with lost := satInc k.lost }
/-- A fault that the device collector raises itself against a source (R374). -/
def State.raiseDirect (s : State) (source : BitVec 16) (kind : BitVec 12) : State :=
  let s := s.sendFault { source := source, kind := kind }
  if srcLevel source ≤ 4 then
    let h := srcSheet source
    let w := (s.sheet h).wire
    let s := s.modSheet h fun x => { x with wire := w.dropLast }
    { s with devWire := s.devWire ++ w.drop (w.length - 1) }
  else s
/-- The sheet or die whose link delivered a message (R374). -/
def deliveredBy (source : BitVec 16) : BitVec 16 :=
  if srcLevel source ≤ 4 then sheetSource (srcSheet source) 9
  else if srcLevel source = 5 ∧ source.toNat % 16 ∈ [2, 3, 4, 5] then source
  else if srcLevel source = 6 then devSource (2 + bits source.toNat 12 4 % 64 / 16)
  else if srcLevel source = 5 then devSource 2
  else svcSource 0

/-! ### The sheet collector (R372) -/

/-- A message that scribe code sent has left its core: SCR.BUSY falls (07 R229; log 85). -/
def State.messageLeft (s : State) (h : Nat) (m : FaultMsg) : State :=
  if !m.scribe then s
  else match (s.sheet h).pmap.idxOf? (srcParcel m.source) with
    | none => s
    | some l =>
      let c : CoreId := { eng := { sheet := Fin.ofNat 16 h, parcel := Fin.ofNat 16 l }, core := Fin.ofNat 4 (m.source.toNat % 16) }
      s.modCore c fun k => { k with fltBusy := false }
/-- SHEET_COLLECTOR_RECEIVE; a register mismatch is kind 0xF02 and the safe state (R374). -/
def State.doSheetReceive (s : State) (h : Nat) (regsOk : Bool) : State :=
  match (s.sheet h).wire with
  | [] => s
  | m :: rest =>
    if !regsOk then (s.sheetFault h 9 0xF02 0 0).enterSafe (some 0xF02)
    else
      let k := (s.sheet h).col
      let n := k.queue.length
      let ev : CntEvent := { cls := 4, code := 4, priv := privSource m.source, ctx := some m.ctx.toNat }
      let s := if 256 ≤ n ∧ 2 ≤ s.severityOf m then s else (s.sheetEvent h { ev with code := 3, inc := 8 }).sheetEvent h ev
      if s.severityOf m < 2 ∧ 224 ≤ n then
        ((s.messageLeft h m).countLost).modSheet h fun x => { x with wire := rest, col := { k with overrun := k.overrun ++ [m.source] } }
      else if 256 ≤ n then s
      else
        let m := { m with overrun := m.overrun || k.overrun.contains m.source }
        (s.messageLeft h m).modSheet h fun x =>
          { x with wire := rest, col := { queue := k.queue ++ [m], overrun := k.overrun.filter (· != m.source) } }
/-- SHEET_COLLECTOR_FORWARD: in arrival order; STEP and above are held while the device collector holds back (R373). -/
def State.doSheetForward (s : State) (h : Nat) : State :=
  match (s.sheet h).col.queue with
  | [] => s
  | m :: rest =>
    if keptHold ≤ s.col.kept.length ∧ 2 ≤ s.severityOf m then s
    else
      let s := s.modSheet h fun x => { x with col := { x.col with queue := rest } }
      { s with devWire := s.devWire ++ [m] }

/-! ### The device collector (R373, R375, R376) -/

/-- The message that the collector takes next: while it holds back, only one that it would drop. -/
def State.nextMsg (s : State) : Option (List FaultMsg × FaultMsg × List FaultMsg) :=
  if s.col.kept.length < keptHold then
    match s.devWire with
    | [] => none
    | m :: rest => some ([], m, rest)
  else
    match s.devWire.findIdx? fun m => decide (s.severityOf m < 2) with
    | none => none
    | some i => match s.devWire[i]? with
      | some m => some (s.devWire.take i, m, s.devWire.drop (i + 1))
      | none => none
/-- A message is kept for the ring, with OVERRUN where one of its source was dropped before. -/
def State.keepMsg (s : State) (m : FaultMsg) (joined : Option Nat) : State :=
  s.modCol fun k =>
    let m := { m with
      overrun := m.overrun || k.overrun.contains m.source
      detail := match joined with | some n => BitVec.ofNat 64 (min 65535 (n + 1)) | none => m.detail }
    { k with kept := k.kept ++ [m], overrun := k.overrun.filter (· != m.source) }
/-- What the collector does for a message by its severity and kind: detections, windows, the reset of a partition (14 R396)
and the safe state (14 R399). -/
def State.handleMsg (s : State) (m : FaultMsg) (histBad : Bool) : State :=
  let sev := s.severityOf m
  let carried := m.kind = 0x103 ∨ m.kind = 0x105
  let s := if carried ∧ srcLevel m.source ≤ 3 then s.detect (srcSheet m.source) (srcParcel m.source) m.kind histBad else s
  if 2 ≤ sev ∧ sev ≤ 6 then
    let part := s.msgPart m
    let m' := { m with sev := BitVec.ofNat 4 sev }
    let w := s.windowFault m' (if sev = 6 ∧ part.isSome then 2 else 0)
    let s := w.1.keepMsg m w.2
    if sev = 6 then match part with | some p => s.startPartReset p | none => s else s
  else if sev = 7 then (s.keepMsg m none).enterSafe (some m.kind)
  else s.keepMsg m none
/-- FAULT_RAISE: a message arrives. -/
def State.doFaultRaise (s : State) (checkOk regsOk histBad : Bool) : State :=
  match s.nextMsg with
  | none => s
  | some (a, m, b) =>
    if !regsOk then (s.raiseDirect (svcSource 0) 0xF01).enterSafe (some 0xF01)
    else
      let s : State := { s with devWire := a ++ b }
      let s := s.deviceEvent { cls := 6, code := 0x20, priv := privSource m.source, ctx := some m.ctx.toNat }
      if !checkOk then (s.keepMsg m none).raiseDirect (deliveredBy m.source) 0xF03
      else if s.severityOf m < 2 ∧ keptHold ≤ s.col.kept.length then
        s.countLost.modCol fun k => { k with overrun := k.overrun ++ [m.source] }
      else s.handleMsg m histBad
/-- Entries of the fault ring. -/
def Collector.ringSize (k : Collector) : Nat := 2 ^ k.rlog.toNat
/-- FAULT_RING_WRITE: the oldest kept message, where the ring is enabled and has room. -/
def State.doRingWrite (s : State) : State :=
  let k := s.col
  let n := k.ringSize
  match k.kept with
  | [] => s
  | m :: rest =>
    let t := (k.rtail.toNat + 1) % n
    if !k.ringen || t = k.rhead.toNat % n then s
    else
      let s := s.dmaWrite (k.rbase.toNat * 4096 + 64 * k.rtail.toNat) (faultBytes m k.phase)
      let s := s.modCol fun k =>
        { k with kept := rest, rtail := BitVec.ofNat 16 t, phase := if t = 0 then !k.phase else k.phase }
      s.msix 0 k.rvec
/-- A write to COL_CTL (R373): reserved bits raise 0x406; a reserved encoding drops the write (00 R10). -/
def State.doRingen (s : State) (val : Word) : State :=
  let v := val.toNat
  let hist := bits v 47 32
  let win := bits v 19 0
  if hist = 0 ∨ win = 0 ∨ 1000000 < win then s.hostFault 0x406
  else
    let s := if bits v 62 48 ≠ 0 ∨ bits v 31 20 ≠ 0 then s.hostFault 0x406 else s
    let on := bit v 63
    s.modCol fun k =>
      let k := if on && !k.ringen then { k with rtail := 0, phase := true } else k
      { k with ringen := on, histwin := BitVec.ofNat 16 hist, winus := BitVec.ofNat 20 win }

/-! ### History (R383) -/

/-- HISTORY_WRITE_RETRY: the records that wait are in MRAM, or the write fails again. -/
def State.doHistRetry (s : State) (ok : Bool) : State :=
  if s.col.unwritten.isEmpty then s
  else if ok then
    let l := s.col.unwritten
    ((s.modCol fun k => { k with unwritten := [] }).forEach l fun s i => s.keepHist i).closeWaiting
  else s.sendFault { source := svcSource 0, kind := 0xF06 }
/-- SERVICE_HOUR_TICK: an hour of READY ends. -/
def State.doServiceHour (s : State) : State :=
  if s.dstate == .ready then (s.modCol fun k => { k with svch := k.svch + 1 }).keep .collector else s

/-! ### Rungs (R377, R378) -/

/-- Take the rung of a window and re-arm it at the next. -/
def State.takeRung (s : State) (i : Nat) : State :=
  let w := s.window i
  let r := w.rung.toNat
  let part := w.part.map Fin.val
  let s := s.sendFault { source := svcSource 0, kind := BitVec.ofNat 12 (0xF10 + r - 1) }
  let next := effectiveRung w.source part (r + 1)
  let s := s.modWindow i fun w => { w with rung := BitVec.ofNat 4 next, acting := BitVec.ofNat 4 r, st := 1 }
  if r = 1 then s.parcelReset (srcSheet w.source) (srcParcel w.source)
  else if r = 2 then match part with | some p => s.startPartReset p | none => s
  else (s.modWindow i fun w => { w with rung := 3 }).enterSafe (some w.kind)
/-- WINDOW_EXPIRY: the timer of an open window that is not held. -/
def State.doWindowExpiry (s : State) (i : Nat) : State := if s.winState (s.window i) = 1 then s.takeRung i else s
/-- A write to COL_ACK (R378). -/
def State.doAck (s : State) (val : Word) : State :=
  let v := val.toNat
  let act := bits v 9 8
  let i := bits v 7 0
  if 2 ≤ act then s.hostFault 0x406
  else
    let s := if bits v 63 10 ≠ 0 then s.hostFault 0x406 else s
    if i = 0 ∨ (s.window i).st = 0 then s.sendFault { source := svcSource 0, kind := 0xF05 }
    else if act = 1 then s.takeRung i
    else if s.mayClose (s.window i) then s.modCol fun k => { k with windows := tdel k.windows i }
    else s.modWindow i fun w => { w with closing := true }

/-! ### The rows -/

/-- FAULT_RAISE: `checkOk` is the verdict on CHECK, `regsOk` the comparison of the duplicated registers, `histBad` a failed
MRAM write. -/
def execFaultRaise (checkOk regsOk histBad : Bool) (s : State) : Res := .next (s.doFaultRaise checkOk regsOk histBad)
/-- SHEET_COLLECTOR_RECEIVE. -/
def execSheetCollectorReceive (h : SheetId) (regsOk : Bool) (s : State) : Res := .next (s.doSheetReceive h.val regsOk)
/-- SHEET_COLLECTOR_FORWARD. -/
def execSheetCollectorForward (h : SheetId) (s : State) : Res := .next (s.doSheetForward h.val)
/-- FAULT_RING_WRITE. -/
def execFaultRingWrite (s : State) : Res := .next s.doRingWrite
/-- COL_RINGEN_WRITE. -/
def execColRingenWrite (val : Word) (s : State) : Res := .next (s.hostWrite fun s => s.doRingen val)
/-- HISTORY_WRITE_RETRY. -/
def execHistoryWriteRetry (ok : Bool) (s : State) : Res := .next (s.doHistRetry ok)
/-- SERVICE_HOUR_TICK. -/
def execServiceHourTick (s : State) : Res := .next s.doServiceHour
/-- WINDOW_EXPIRY. -/
def execWindowExpiry (w : Fin 256) (s : State) : Res := .next (s.doWindowExpiry w.val)
/-- COL_ACK_WRITE. -/
def execColAckWrite (val : Word) (s : State) : Res := .next (s.hostWrite fun s => s.doAck val)

end Sys2Proof.Machine
end

