-- ==== Sys2Proof/Machine/Partitions.lean ====
section
/-! DEFINITION. Partition commands (09 R282; 01 R28, R32). -/

namespace Sys2Proof.Machine

/-! ### Routes between sheets (01 R28, R32) -/

/-- Numbers from `a` toward `b`, `b` included and `a` not. -/
def toward (a b : Nat) : List Nat :=
  if a < b then (List.range (b - a)).map fun k => a + 1 + k else (List.range (a - b)).map fun k => a - 1 - k
/-- Sheets that a route enters after its first: along the row first, then along the column. -/
def sheetRoute (x y : Nat) : List Nat :=
  ((toward (x % 4) (y % 4)).map fun col => 4 * (x / 4) + col) ++ (toward (x / 4) (y / 4)).map fun row => 4 * row + y % 4
/-- Sheets outside a partition that its routes cross. -/
def crossed (sheets : BitVec 16) : List Nat :=
  let mine := sheetIdx.filter sheets.getLsbD
  sheetIdx.filter fun h => !sheets.getLsbD h && mine.any fun x => mine.any fun y => (sheetRoute x y).contains h
/-- Whether, with a partition of some sheets beside those whose routes are fixed, no sheet is crossed by more than four. -/
def State.transitOk (s : State) (p : Nat) (sheets : BitVec 16) : Bool :=
  let fixed := s.parts.filter fun x => x.1 != p && (x.2.st == .running || x.2.st == .resetting)
  let all := sheets :: fixed.map fun x => x.2.sheets
  sheetIdx.all fun h => decide ((all.filter fun m => (crossed m).contains h).length ≤ 4)

/-! ### Commands -/

/-- A partition command is refused: kind 0x409. -/
def State.partRefused (s : State) : State := s.hostFault 0x409
/-- Whether the RWL fields of a partition are locked (00 R9). -/
def Part.locked (x : Part) : Bool := x.st == .running || x.st == .resetting
/-- A write to PART_CFG's defined fields: a nonzero sheet mask makes the partition SETUP, an empty one UNUSED. -/
def State.doPartCfg (s : State) (p : Nat) (v : Word) : State :=
  if (s.part p).locked then s.hostFault 0x405
  else
    let sheets := BitVec.ofNat 16 (bits v.toNat 47 32)
    s.modPart p fun x =>
      { x with sheets := sheets, contain := v.getLsbD 1, hold := v.getLsbD 0, st := if sheets = 0 then .unused else .setup }
/-- Whether a mask shares a bit with another partition in use. -/
def State.partShares (s : State) (p : Nat) : Bool :=
  let x := s.part p
  s.parts.any fun y => y.1 != p && y.2.st != .unused && (y.2.sheets &&& x.sheets != 0 || y.2.ports &&& x.ports != 0)
/-- Whether a partition holds a sheet that start-up left OFF (18 R475). -/
def State.holdsOff (s : State) (x : Part) : Bool := x.sheetList.any fun h => (s.sheet h).mode == .off
/-- PART.GO: routes and the sync tree of the partition are fixed by its masks. -/
def State.doPartGo (s : State) (p : Nat) : State :=
  let x := s.part p
  if x.st == .setup && x.sheets != 0 && x.ports != 0 && !s.partShares p && s.transitOk p x.sheets && !s.holdsOff x then
    s.modPart p fun x => { x with st := .running }
  else s.partRefused
/-- Whether every context of a partition is FREE or KILLED. -/
def State.partIdle (s : State) (p : Nat) : Bool :=
  s.ctxs.all fun x => x.2.part.toNat != p || x.2.st == .free || x.2.st == .killed
/-- PART.STOP. -/
def State.doPartStop (s : State) (p : Nat) : State :=
  if (s.part p).st == .running && s.partIdle p then s.modPart p fun x => { x with st := .setup } else s.partRefused
/-- PART.RESET. -/
def State.doPartReset (s : State) (p : Nat) : State :=
  if (s.part p).st == .running || (s.part p).st == .setup then s.startPartReset p else s.partRefused

/-! ### The rows -/

/-- PART_CFG_WRITE: reserved bits that are set raise 0x406, and the defined fields are taken (00 R10). -/
def execPartCfgWrite (p : PartId) (v : Word) (s : State) : Res :=
  .next (s.unitWrite 0x409 fun s =>
    let s := if v &&& 0xFFFF0000FFFFFFFC != 0 then s.hostFault 0x406 else s
    s.doPartCfg p.val v)
/-- PART_GO. -/
def execPartGo (p : PartId) (s : State) : Res := .next (s.unitWrite 0x409 fun s => s.doPartGo p.val)
/-- PART_STOP. -/
def execPartStop (p : PartId) (s : State) : Res := .next (s.unitWrite 0x409 fun s => s.doPartStop p.val)
/-- PART_RESET. -/
def execPartReset (p : PartId) (s : State) : Res := .next (s.unitWrite 0x409 fun s => s.doPartReset p.val)

end Sys2Proof.Machine
end

