-- ==== Sys2Proof/Machine/QueueUnit.lean ====
section
/-! DEFINITION. The queue unit (09 R262-R281): doorbells, fetching and validating descriptors, completions, the states of a
queue, and its progress timer (14 R390). -/

namespace Sys2Proof.Machine

/-! ### Queue states (R279, R280) -/

/-- Entries of the submission ring. -/
def Queue.sqSize (x : Queue) : Nat := 2 ^ x.sqlog.toNat
/-- Entries of the completion ring. -/
def Queue.cqSize (x : Queue) : Nat := 2 ^ x.cqlog.toNat
/-- A ring size is encoded correctly. -/
def logOk (v : BitVec 5) : Bool := decide (4 ≤ v.toNat ∧ v.toNat ≤ 16)
/-- Descriptors pending in the ring. -/
def Queue.ringPending (x : Queue) : Nat := (x.sqtail.toNat + x.sqSize - x.sqhead.toNat) % x.sqSize
/-- Whether the completion ring has a free entry (R269). -/
def Queue.cqRoom (x : Queue) : Bool := (x.cqtail.toNat + 1) % x.cqSize != x.cqhead.toNat
/-- Whether a completion is held: decided, with no free entry to write it to (R269). -/
def Queue.held (x : Queue) : Bool :=
  match x.fetched with
  | d :: _ => d.checked && d.status.isSome && !x.cqRoom
  | [] => false
/-- A queue enters ERROR with a cause: nothing further is fetched. -/
def Queue.fail (x : Queue) (cause : BitVec 8) : Queue := { x with st := .error, err := cause, bells := [], drainFetch := false }
/-- Q_ENABLE. The configuration is valid with both ring sizes encoded correctly and both bases nonzero. -/
def State.doQEnable (s : State) (q : Nat) : State :=
  let x := s.queue q
  if x.st == .disabled && logOk x.sqlog && logOk x.cqlog && x.sqbase != 0 && x.cqbase != 0 && s.dstate == .ready then
    s.modQueue q fun x =>
      { x with st := .active, sqhead := 0, sqtail := 0, cqtail := 0, cqhead := 0, phase := true, bells := [], drainFetch := false }
  else s.hostFault 0x40B
/-- Whether a doorbell of a queue arrived in the present cycle (R293). -/
def State.bellNow (s : State) (x : Queue) : Bool :=
  s.bellAt == some s.now && x.bells.any fun b => b.2 / 32768 == s.bellStamp
/-- Q_DISABLE. -/
def State.doQDisable (s : State) (q : Nat) : State :=
  let x := s.queue q
  if x.st == .active then
    let same := s.bellNow x
    s.modQueue q fun x => { x with st := .draining, drainFetch := same, bells := if same then x.bells else [] }
  else s.hostFault 0x40B
/-- Q_CLEAR: the queue is DISABLED and shows no error (log 38). -/
def State.doQClear (s : State) (q : Nat) : State :=
  if (s.queue q).st == .error then s.modQueue q fun x => { x with st := .disabled, err := 0 } else s.hostFault 0x40B
/-- QUEUE_DRAINED: nothing fetched remains. -/
def State.doQueueDrained (s : State) (q : Nat) : State :=
  let x := s.queue q
  if x.st == .draining && x.fetched.isEmpty && !(x.drainFetch && x.ringPending != 0) then
    s.modQueue q fun x => { x with st := .disabled, drainFetch := false }
  else s

/-! ### Doorbells (R262, R265, R275) -/

/-- The stamp of a doorbell: doorbells of one cycle are ordered by queue number. -/
def State.bellKey (s : State) (q : Nat) : Nat :=
  (if s.bellAt == some s.now then s.bellStamp else s.bellStamp + 1) * 32768 + q
/-- A doorbell was accepted: counted, and its cycle noted. -/
def State.bellTaken (s : State) : State :=
  ({ s with
      bellStamp := if s.bellAt == some s.now then s.bellStamp else s.bellStamp + 1
      bellAt := some s.now } : State).deviceEvent { cls := 8, code := 1 }
/-- Whether a doorbell write is refused outright: the function differs, or bits 63:16 are not 0 (log 39). -/
def State.bellBad (s : State) (func q : Nat) (val : Word) : Bool :=
  (s.queue q).func.toNat != func || decide (2 ^ 16 ≤ val.toNat)
/-- New submission tail. A tail equal to the head leaves the ring empty (R293). -/
def State.doSqTail (s : State) (func q : Nat) (val : Word) : State :=
  let x := s.queue q
  if s.dstate == .safe then s
  else if s.bellBad func q val then s.hostFault 0x401 8
  else match x.st with
    | .draining => s
    | .active =>
      if x.sqSize ≤ val.toNat then (s.modQueue q fun x => x.fail 1).hostFault 0x401 8
      else
        let k := s.bellKey q
        let n := (val.toNat + x.sqSize - x.sqhead.toNat) % x.sqSize
        let near (t : BitVec 16) : Nat := (t.toNat + x.sqSize - x.sqhead.toNat) % x.sqSize
        let old := x.bells.filter fun b => decide (0 < near b.1 ∧ near b.1 ≤ n)
        let bells := if n = 0 ∨ old.any (fun b => b.1 == val.setWidth 16) then old else old ++ [(val.setWidth 16, k)]
        (s.modQueue q fun x => { x with sqtail := val.setWidth 16, bells := bells }).bellTaken
    | _ => s.hostFault 0x401 8
/-- New completion head: it lies from the present head up to `Q.CQTAIL` in ring order. -/
def State.doCqHead (s : State) (func q : Nat) (val : Word) : State :=
  let x := s.queue q
  if s.dstate == .safe then s
  else if s.bellBad func q val then s.hostFault 0x401 8
  else match x.st with
    | .draining => s
    | .active =>
      let ring (v : Nat) : Nat := (v + x.cqSize - x.cqhead.toNat) % x.cqSize
      if x.cqSize ≤ val.toNat ∨ ring x.cqtail.toNat < ring val.toNat then (s.modQueue q fun x => x.fail 5).hostFault 0x401 8
      else (s.modQueue q fun x => { x with cqhead := val.setWidth 16 }).bellTaken
    | _ => s.hostFault 0x401 8

/-! ### Fetch (R265, R276) -/

/-- Whether the queue unit may fetch for a queue. -/
def State.mayFetch (s : State) (q : Nat) : Bool :=
  let x := s.queue q
  (x.st == .active || x.st == .draining && x.drainFetch) && s.dstate == .ready && x.ringPending != 0 && !x.held
/-- Whether a queue's turn comes next among those ready: the highest class, round robin within it after the queue that had the last
turn (R276). -/
def State.turnOf (s : State) (ready : Nat → Bool) (turns : Table Nat) (q : Nat) : Bool :=
  let waits := s.queueIds.filter ready
  let cls (i : Nat) : Nat := (s.queue i).prio.toNat
  let top := (waits.map cls).foldl max 0
  let mine := waits.filter fun i => cls i == top
  let last := tget 32768 turns top
  let after := mine.filter fun i => decide (last < i)
  decide (cls q = top) && ready q && ((if last = 32768 ∨ after.isEmpty then mine else after).head? == some q)
/-- Whether a queue's fetch comes next. -/
def State.fetchNext (s : State) (q : Nat) : Bool := s.turnOf s.mayFetch s.fetchTurn q
/-- One fetched entry: the ring advances; the doorbell that carried it is the first whose entries are not all fetched. -/
def Queue.take (x : Queue) (b : List Byte) (seed : Nat) : Queue :=
  let h := BitVec.ofNat 16 ((x.sqhead.toNat + 1) % x.sqSize)
  let stamp := match x.bells with | y :: _ => y.2 | [] => seed
  let d : Desc :=
    { bytes := b, seq := BitVec.ofNat 32 (recField b 8 4), checked := false, started := false, status := none, kind := 0, cflags := 0
      info := 0, digest := 0, datum := 0, wants := 0, seedBytes := none, doorbell := stamp }
  { x with sqhead := h, fetched := x.fetched ++ [d], bells := match x.bells with
      | y :: r => if y.1 == h then r else y :: r
      | [] => [] }
/-- Fetch entries in ring order up to the first that failed: the queue is then in ERROR with cause 0x02 (R280), and the entry
completes in its turn with BAD_DESCRIPTOR. Its OPCODE was never read: free (log 40). -/
def State.fetchAll (s : State) (q : Nat) : List HostRead → State
  | [] => s
  | none :: _ =>
    let b := BitVec.ofNat 8 (Config.freeValue s.free)
    let s := ({ s with free := s.free + 1 } : State).modQueue q fun x => (x.take [b] 0).fail 2
    s.sendFault { source := devSource 0, kind := 0x402, op := 7 }
  | some b :: r =>
    let b := (b ++ List.replicate 64 0).take 64
    ((s.modQueue q fun x => x.take b 0).deviceEvent { cls := 8, code := 2, queue := some q }).fetchAll q r
/-- DESCRIPTOR_FETCH: up to 8 pending entries in one read. -/
def State.doFetch (s : State) (q : Nat) (data : List HostRead) : State :=
  let x := s.queue q
  let l := data.take (min 8 x.ringPending)
  if !s.fetchNext q || l.isEmpty then s
  else
    let s := { s with fetchTurn := tput s.fetchTurn x.prio.toNat q }
    (s.dmaRead (x.sqbase.toNat * 4096 + 64 * x.sqhead.toNat) (64 * l.length)).fetchAll q l

/-! ### Validation (R266, R267, R270) -/

/-- Check 2: a defined opcode, zero fields zero, and SEEDSEL allowed. -/
def descWellFormed (d : Desc) : Bool :=
  let b := d.bytes
  let op := dOp d
  let zero := recField b 1 1 < 4 && recField b 2 2 < 4 && recField b 4 2 < 4096 && recField b 7 1 == 0 &&
    (b.drop 48).all (· == 0)
  decide (1 ≤ op ∧ op ≤ 11) && zero && dSeedSel d != 3 && (op == 2 || op == 4 || dSeedSel d == 0) &&
  (dSeedPtr d == 0 || (op == 2 || op == 4) && dSeedSel d != 0)
/-- Check 6: the arguments of an opcode. -/
def descArgs (d : Desc) (plans : List LoadedPlan) : Bool :=
  let plan := (dPlan d).toNat
  let a0 := dArg0 d
  let a1 := dArg1 d
  let ptr := dArgPtr d
  let known := plans.any fun l => l.handle == dPlan d
  let aligned := ptr % 64 == 0 && dSeedPtr d % 32 == 0
  aligned &&
  match dOp d with
  | 1 => plan != 0 && decide (a1 < 2) && ptr != 0
  | 2 => known && decide (1 ≤ a0 ∧ a0 < 2 ^ 32) && a1 == 0 && (dSeedSel d == 0 || dSeedPtr d != 0) &&
      !(dSeedSel d == 2 && plans.any fun l => l.handle == dPlan d && planIsChart l.plan)
  | 3 => known && a1 == 0 && ptr != 0
  | 4 => plan == 0 && a0 == 0 && a1 == 0 && ptr == 0 && dSeedSel d != 0 && dSeedPtr d != 0
  | 5 => plan == 0 && a0 == 0 && a1 == 0 && ptr == 0
  | 6 => plan == 0 && ptr == 0
  | 7 => plan == 0 && ptr == 0
  | 8 => plan == 0 && a1 == 0 && ptr == 0
  | 9 => plan == 0 && decide (1 ≤ a0 ∧ a0 ≤ 3) && a1 == 0 && ptr != 0
  | 10 => known && ptr != 0
  | _ => plan == 0 && a0 == 0 && a1 == 0 && ptr == 0
/-- The status of the first check that fails (R267); none where every check passes. -/
def State.validate (s : State) (q : Nat) (d : Desc) : Option Byte :=
  let x := s.queue q
  let c := s.ctx (dCtx d).val
  let tear := dOp d == 11
  if d.seq != x.nextSeq then some stBad
  else if !descWellFormed d then some stBad
  else if c.func != x.func then some stBad
  else if !tear && c.st == .free then some stTorn
  else if !tear && (c.st == .killed || c.st == .tearing && c.killing) then some stKilled
  else if !tear && c.st == .tearing then some stTorn
  else if !tear && dGen d != c.gen then some stTorn
  else if !descArgs d c.plans then some stBad
  else none
/-- A device seed is requested when the descriptor is validated (05 R169): it waits while Ecbumos is not ready, unless FAILFAST
is set; a halted TRNG refuses it (16 R431). -/
def State.requestSeed (s : State) (q : Nat) (d : Desc) : State :=
  if !((dOp d == 2 || dOp d == 4) && dSeedSel d == 2) then s
  else if s.ecb.tst == .halted then s.decideHead q stRngFailed
  else if s.ecb.notrdy && dFailFast d then s.decideHead q stRngNotReady
  else
    ({ s with ecb := { s.ecb with seedWait := s.ecb.seedWait ++ [q] } } : State).modHead q fun d => { d with wants := 1 }
/-- Whether a descriptor at the front of a queue waits to be validated. -/
def State.mayValidate (s : State) (q : Nat) : Bool := match s.head q with | some d => !d.checked | none => false
/-- Whether a validation of a queue comes next. -/
def State.validateNext (s : State) (q : Nat) : Bool := s.turnOf s.mayValidate s.checkTurn q
/-- DESCRIPTOR_ARRIVE: the descriptor at the front of a queue is validated; whatever its outcome, `Q.NEXTSEQ` follows its SEQ. -/
def State.doArrive (s : State) (q : Nat) : State :=
  match s.head q with
  | none => s
  | some d =>
    if !s.validateNext q then s
    else
    let s : State := { s with checkTurn := tput s.checkTurn (s.queue q).prio.toNat q }
    if d.bytes.length ≠ 64 then
      let n := (s.queue q).nextSeq
      ((s.modHead q fun d => { d with checked := true, seq := n }).decideHead q stBad 0x402).modQueue q fun x =>
        { x with nextSeq := n + 1 }
    else
      let st := s.validate q d
      let s := s.modQueue q fun x => { x with nextSeq := d.seq + 1 }
      let s := s.modHead q fun d => { d with checked := true }
      match d.status, st with
      | some _, _ => s
      | none, some v => s.decideHead q v
      | none, none => s.requestSeed q d

/-! ### Completions (R258, R268, R269) -/

/-- A completion's 32 bytes. -/
def completionBytes (q : Nat) (phase : Bool) (d : Desc) : List Byte :=
  [d.status.getD 0, d.cflags, BitVec.ofNat 8 (dOp d), BitVec.ofNat 8 (b2n phase)] ++ leBytes 2 q ++ leBytes 2 d.kind.toNat ++
  leBytes 4 d.seq.toNat ++ leBytes 4 d.info.toNat ++ leBytes 8 d.datum.toNat ++ leBytes 8 d.digest.toNat
/-- The front descriptor leaves the queue. -/
def Queue.pop (x : Queue) : Queue := { x with fetched := x.fetched.drop 1 }
/-- COMPLETION_WRITE: the decided completion of the front descriptor is written where the ring has room, and its MSI-X message
follows. `ok` is false where PCI Express failed the write: kind 0x404, cause 0x03. -/
def State.doCompletion (s : State) (q : Nat) (ok : Bool) : State :=
  let x := s.queue q
  match s.head q with
  | none => s
  | some d =>
    if !d.checked || d.status.isNone || !x.cqRoom || s.dstate == .safe then s
    else if !ok then
      ((s.modQueue q fun x => x.pop.fail 3).hostFault 0x404 8).closeRunWindows (dCtx d)
    else
      let s := s.dmaWrite (x.cqbase.toNat * 4096 + 32 * x.cqtail.toNat) (completionBytes q x.phase d)
      let t := (x.cqtail.toNat + 1) % x.cqSize
      let s := s.modQueue q fun x => { x.pop with cqtail := BitVec.ofNat 16 t, phase := if t = 0 then !x.phase else x.phase }
      let s := s.deviceEvent { cls := 8, code := 3, queue := some q, ctx := some (dCtx d).val }
      let s := if x.irqen && !dNoIrq d then s.msix x.func x.vector else s
      s.closeRunWindows (dCtx d)

/-! ### The progress timer (R281, 14 R390) -/

/-- Descriptors of a context dispatch while no isolation of its partition holds them back (14 R393). -/
def State.mayDispatch (s : State) (c : CtxId) : Bool :=
  let x := s.part (s.ctx c.val).part.toNat
  match x.hang with
  | .normal => true
  | .halted => false
  | .isolation => x.hangCur.toNat == c.val && !x.trialRan
/-- The descriptor in execution ends with HANG_SUSPECT; a step of its RUN in progress is halted and not repeated. -/
def State.hangDescriptor (s : State) (q : Nat) (d : Desc) : State :=
  let c := dCtx d
  let p := s.ctxPart c
  let mine := match (s.part p).runOf c with | some r => r.queue == q | none => false
  if d.started && dOp d == 2 && mine then
    let s := if (s.part p).cur == some c then
        (if (s.part p).phase == .running then s.haltPartition p [] else s).stopStep p
      else s
    let s := s.failEpoch c 0x710 false
    s.finishRun p c stHang 0x710
  else
    let s : State := { s with ecb := { s.ecb with seedWait := s.ecb.seedWait.filter (· != q) } }
    s.decideHead q stHang 0x710 0 (if d.started then cfPartial else 0)
/-- PROGRESS_TIMER_EXPIRY. The timer runs while the queue has a pending descriptor or a held completion. -/
def State.doProgressTimer (s : State) (q : Nat) : State :=
  let x := s.queue q
  if x.st == .disabled || (x.ringPending == 0 && x.fetched.isEmpty) then s
  else
    let c := match s.head q with | some d => if d.bytes.length = 64 then some (dCtx d) else none | none => none
    let s := s.sendFault { source := devSource 0, kind := 0x710, ctx := c, op := 0x0F }
    match s.head q with
    | some d => if d.status.isSome then s else s.hangDescriptor q d
    | none => s

end Sys2Proof.Machine
end

