-- ==== Sys2Proof/Machine/Contexts.lean ====
section
/-! DEFINITION. Context commands, teardown events and function level reset (09 R257, R286-R291). -/

namespace Sys2Proof.Machine

/-- A context command is refused: kind 0x40A. -/
def State.ctxRefused (s : State) : State := s.hostFault 0x40A
/-- FREE or KILLED. -/
def Ctx.idle (x : Ctx) : Bool := x.st == .free || x.st == .killed
/-- Whether two ranges of slots share one. -/
def slotsMeet (a n b k : Nat) : Bool := decide (0 < n ∧ 0 < k ∧ a < b + k ∧ b < a + n)
/-- Whether a context's slots are inside the bound and apart from those of the other contexts of its partition. -/
def State.slotRangeOk (s : State) (c : Nat) : Bool :=
  let x := s.ctx c
  decide (x.slotBase.toNat + x.slotCnt.toNat ≤ 128) &&
  s.ctxs.all fun y => y.1 == c || y.2.part != x.part || y.2.idle ||
    !slotsMeet x.slotBase.toNat x.slotCnt.toNat y.2.slotBase.toNat y.2.slotCnt.toNat
/-- CTX.OPEN (R287): the counts of CHART_EPOCH since OPEN start again (11 R345). -/
def State.doCtxOpen (s : State) (c : Nat) : State :=
  let x := s.ctx c
  let p := s.part x.part.toNat
  if x.idle && p.st != .unused && p.st != .resetting && s.slotRangeOk c then
    (s.modCtx c fun x => { x with st := .opened, cause := 0 }).modEpoch c fun e => { e with drops := 0, rbcnt := 0 }
  else s.ctxRefused
/-- CTX.KILL: an OPEN context is torn down as a kill; a teardown that runs is joined (R290). -/
def State.doCtxKill (s : State) (c : CtxId) : State := s.startTeardown c true false stKilled none
/-- CTX.SETGEN (R288). -/
def State.doCtxSetgen (s : State) (c : Nat) (gen : Byte) : State :=
  let x := s.ctx c
  if x.idle && gen != x.gen && gen != x.gen - 1 then s.modCtx c fun x => { x with gen := gen } else s.ctxRefused

/-! ### Quiesce (R289 phase 4) -/

/-- QUIESCE_REQUEST_RECEIVE: the acknowledgement goes once no port holds a packet of the context (log 48). -/
def State.doQuiesceRequest (s : State) (dev : DevId) (c : CtxId) (gen : Byte) : State :=
  if s.ports.any fun x => x.2.owes c.val then s else s.controlPacket dev c gen
/-- QUIESCE_ACK: the last one starts phase 5. -/
def State.doQuiesceAck (s : State) (c : CtxId) (dev : DevId) : State :=
  let x := s.ctx c.val
  if x.st == .tearing && x.tphase == 4 && x.acks.contains dev then
    let left := x.acks.filter (· != dev)
    s.modCtx c.val fun x => { x with acks := left, tphase := if left.isEmpty then 5 else 4 }
  else s
/-- QUIESCE_TIMEOUT: kind 0x403, once; the context stays in phase 4. -/
def State.doQuiesceTimeout (s : State) (c : CtxId) : State :=
  let x := s.ctx c.val
  if x.st == .tearing && x.tphase == 4 && !x.acks.isEmpty && !x.timedOut then
    let s := s.sendFault { source := devSource 0, kind := 0x403, ctx := some c, op := 0x0F }
    ((s.modCtx c.val fun x => { x with timedOut := true }).settleFlr x.func).beginSheetResets x.part.toNat
  else s
/-- TEARDOWN_RELEASE_DONE. -/
def State.doReleaseDone (s : State) (c : CtxId) (d : Disturb) : State :=
  let x := s.ctx c.val
  if x.st == .tearing && x.tphase == 5 then (s.upset ((s.part x.part.toNat).sheetList.headD 0) d).releaseCtx c else s
/-- ORPHAN_PAGES_ZEROED: pages that wait to be zeroed are zeroed and set free (R289 phase 5; 14 R398). -/
def State.doOrphansZeroed (s : State) : State :=
  s.forEach sheetIdx fun s h => s.modMem h fun m =>
    let l := m.lockedOrphans ++ (if m.zeroOrphans then m.orphans else [])
    let m := l.foldl (fun m g => m.freePage true g) m
    { m with lockedOrphans := [], orphans := if m.zeroOrphans then [] else m.orphans, zeroOrphans := false }

/-! ### Function level reset (R291) and PCI Express (R257) -/

/-- FUNCTION_LEVEL_RESET. -/
def State.doFlr (s : State) (f : BitVec 4) : State :=
  if s.flr.contains f then s
  else
    let s : State := { s with flr := s.flr ++ [f] }
    let s : State := { s with queues := tmap {} 32768 (fun _ (x : Queue) => if x.func == f then { x.fail 4 with fetched := [] } else x) s.queues }
    let ctxs := (s.ctxs.filter fun x => x.2.func == f && (x.2.st == .opened || x.2.st == .tearing)).map Prod.fst
    let s := s.forEach ctxs fun s c => s.startTeardown (Fin.ofNat 4096 c) true true stKilled none
    s.settleFlr f
/-- PCIE_TLP_INTEGRITY_FAIL, which IDE alone can find: reported through AER; a descriptor that needed the data ends as after a failed
host access. -/
def State.doTlpFail (s : State) (q : Option QueueId) : State :=
  if s.ecb.ideKeys.isNone then s
  else
  let s := s.emit .aer
  match q with
  | none => s
  | some q => match s.head q.val with
    | some d =>
      let runs := (s.part (s.ctxPart (dCtx d))).runs.any fun r => r.queue == q.val
      if d.checked && d.status == none && !runs then s.hostReadFailed q.val else s
    | none => s

/-! ### The rows -/

/-- CTX_OPEN. -/
def execCtxOpen (c : CtxId) (s : State) : Res := .next (s.unitWrite 0x40A fun s => s.doCtxOpen c.val)
/-- CTX_KILL. -/
def execCtxKill (c : CtxId) (s : State) : Res := .next (s.unitWrite 0x40A fun s => s.doCtxKill c)
/-- CTX_SETGEN. -/
def execCtxSetgen (c : CtxId) (gen : Byte) (s : State) : Res := .next (s.unitWrite 0x40A fun s => s.doCtxSetgen c.val gen)
/-- QUIESCE_REQUEST_RECEIVE. -/
def execQuiesceRequestReceive (_ : PortId) (dev : DevId) (c : CtxId) (gen : Byte) (s : State) : Res :=
  .next (s.doQuiesceRequest dev c gen)
/-- QUIESCE_ACK. -/
def execQuiesceAck (c : CtxId) (dev : DevId) (s : State) : Res := .next (s.doQuiesceAck c dev)
/-- QUIESCE_TIMEOUT. -/
def execQuiesceTimeout (c : CtxId) (s : State) : Res := .next (s.doQuiesceTimeout c)
/-- TEARDOWN_RELEASE_DONE. -/
def execTeardownReleaseDone (c : CtxId) (d : Disturb) (s : State) : Res := .next (s.doReleaseDone c d)
/-- ORPHAN_PAGES_ZEROED. -/
def execOrphanPagesZeroed (s : State) : Res := .next s.doOrphansZeroed
/-- FUNCTION_LEVEL_RESET. -/
def execFunctionLevelReset (f : Fin 16) (s : State) : Res := .next (s.doFlr (BitVec.ofNat 4 f.val))
/-- PCIE_TLP_INTEGRITY_FAIL. -/
def execPcieTlpIntegrityFail (q : Option QueueId) (s : State) : Res := .next (s.doTlpFail q)

end Sys2Proof.Machine
end

