-- ==== Sys2Proof/Machine/RegRead.lean ====
section
/-! DEFINITION. The register map of WIN_0 (every chapter's register tables) and what a read of each register gives. -/

namespace Sys2Proof.Machine

/-- A register of WIN_0: unit and instance, and the register's number within a block of registers. -/
inductive Reg where
  | idDevice | idShape | globCtl | globW4base | pkgStatus
  | chartId | chartTree | chartDown | chartCtl | chartStatus
  | chartEpoch (c : Nat) | chartRoute (v : Nat) | testRecord (i w : Nat)
  | rstCtl | rstStatus | hangWdog (p : Nat) | hangIso (p : Nat) | hangTmo | ftPack (j : Nat) | ftLognext
  | queue (q r : Nat) | part (p r : Nat) | ctx (c r : Nat)
  | sheetState (h : Nat) | sheetPmap (h half : Nat) | sheetSpares (h : Nat)
  | slot (h n r : Nat) | chain (h n r : Nat) | keyStatus (h : Nat) | keyEntry (h i : Nat)
  | td (h l t w : Nat) | engStatus (h l : Nat) | memStatus (h : Nat) | ftCtl (h : Nat) | ftStatus (h : Nat)
  | bstat (b : BankId) | sample (b : BankId) | counter (b : BankId) (i r : Nat)
  | vj (p r : Nat)
  | colCtl | colRbase | colRptr | colStatus | colAck | colSvch | colWin (i : Nat) | colHist (i w : Nat)
  | dumpBase | dumpCtl | dumpStatus
  | cntGctl | cntSnapat | cntSatf
  | pwrCtl | pwrStatus | thmSheet (h : Nat)
  | ecbStatus | ecbDrbg | ecbTrng | ecbRngStat | ecbRngData | ecbRaw | ecbSignext | ecbSigres
  | ecbCmd | ecbArg0 | ecbArg1 | ecbBuffer (a : Nat)

/-- The register of a counter bank at an offset in it (17 R450). -/
def bankReg (b : BankId) (o : Nat) : Option Reg :=
  if o = 0 then some (.bstat b)
  else if o = 8 then some (.sample b)
  else if 0x100 ≤ o ∧ (o - 0x100) / 0x20 < bankSize b then some (.counter b ((o - 0x100) / 0x20) (o % 0x20 / 8))
  else none

/-- The register at an offset of a sheet's 1 MiB. -/
def sheetReg (h o : Nat) : Option Reg :=
  if o = 0 then some (.sheetState h)
  else if o = 0x10 then some (.sheetPmap h 0)
  else if o = 0x18 then some (.sheetPmap h 1)
  else if o = 0x20 then some (.sheetSpares h)
  else if 0x20000 ≤ o ∧ o < 0x22000 then
    if o % 0x40 = 0x38 then none else some (.slot h ((o - 0x20000) / 0x40) (o % 0x40 / 8))
  else if 0x22000 ≤ o ∧ o < 0x24000 then
    if o % 0x40 = 0x38 then none else some (.chain h ((o - 0x22000) / 0x40) (o % 0x40 / 8))
  else if o = 0x30000 then some (.keyStatus h)
  else if 0x31000 ≤ o ∧ o < 0x33000 then some (.keyEntry h ((o - 0x31000) / 8))
  else if 0x40000 ≤ o ∧ o < 0x80000 then
    let l := (o - 0x40000) / 0x4000
    let x := o % 0x4000
    if x < 0x400 then some (.td h l (x / 0x20) (x % 0x20 / 8)) else if x = 0x1000 then some (.engStatus h l) else none
  else if o = 0x90000 then some (.memStatus h)
  else if o = 0xA0000 then some (.ftCtl h)
  else if o = 0xA0008 then some (.ftStatus h)
  else if 0xB0000 ≤ o ∧ o < 0xB1000 then bankReg (.sheet h) (o - 0xB0000)
  else if 0xC0000 ≤ o ∧ o < 0xD2000 then bankReg (.parcel h ((o - 0xC0000) / 0x1000)) (o % 0x1000)
  else none

/-- The register of the device blocks below 0x0010_0000. -/
def lowReg (o : Nat) : Option Reg :=
  if o = 0 then some .idDevice
  else if o = 8 then some .idShape
  else if o = 0x10 then some .globCtl
  else if o = 0x18 then some .globW4base
  else if o = 0x28 then some .pkgStatus
  else if o = 0x1000 then some .chartId
  else if o = 0x1008 then some .chartTree
  else if o = 0x1010 then some .chartDown
  else if o = 0x1018 then some .chartCtl
  else if o = 0x1020 then some .chartStatus
  else if 0x2000 ≤ o ∧ o < 0xA000 then some (.chartEpoch ((o - 0x2000) / 8))
  else if o = 0xC000 then some .rstCtl
  else if o = 0xC008 then some .rstStatus
  else if 0xC100 ≤ o ∧ o < 0xC200 then
    if o % 0x10 = 0 then some (.hangWdog ((o - 0xC100) / 0x10)) else some (.hangIso ((o - 0xC100) / 0x10))
  else if o = 0xC200 then some .hangTmo
  else if 0xC300 ≤ o ∧ o < 0xC380 then some (.ftPack ((o - 0xC300) / 8))
  else if o = 0xC380 then some .ftLognext
  else if 0x10000 ≤ o ∧ o < 0x18000 then some (.chartRoute ((o - 0x10000) / 8))
  else if 0x20000 ≤ o ∧ o < 0x28000 then some (.testRecord ((o - 0x20000) / 0x20) (o % 0x20 / 8))
  else none

/-- The register of the collector, counter, power and security blocks from 0x0300_0000 on. -/
def serviceReg (o : Nat) : Option Reg :=
  if o = 0x3000000 then some .colCtl
  else if o = 0x3000008 then some .colRbase
  else if o = 0x3000010 then some .colRptr
  else if o = 0x3000018 then some .colStatus
  else if o = 0x3000020 then some .colAck
  else if o = 0x3000028 then some .colSvch
  else if 0x3001008 ≤ o ∧ o < 0x3001800 then some (.colWin ((o - 0x3001000) / 8))
  else if 0x3004000 ≤ o ∧ o < 0x3005200 then some (.colHist ((o - 0x3004000) / 0x10) (o % 0x10 / 8))
  else if o = 0x3008000 then some .dumpBase
  else if o = 0x3008008 then some .dumpCtl
  else if o = 0x3008010 then some .dumpStatus
  else if o = 0x3100000 then some .cntGctl
  else if o = 0x3100008 then some .cntSnapat
  else if o = 0x3100010 then some .cntSatf
  else if 0x3101000 ≤ o ∧ o < 0x3102000 then bankReg .device (o - 0x3101000)
  else if o = 0x3200000 then some .pwrCtl
  else if o = 0x3200008 then some .pwrStatus
  else if 0x3200100 ≤ o ∧ o < 0x3200180 then some (.thmSheet ((o - 0x3200100) / 8))
  else if o = 0x3300000 then some .ecbStatus
  else if o = 0x3300008 then some .ecbDrbg
  else if o = 0x3300010 then some .ecbTrng
  else if o = 0x3300018 then some .ecbRngStat
  else if o = 0x3300020 then some .ecbRngData
  else if o = 0x3300028 then some .ecbRaw
  else if o = 0x3300030 then some .ecbSignext
  else if o = 0x3300038 then some .ecbSigres
  else if o = 0x3300100 then some .ecbCmd
  else if o = 0x3300108 then some .ecbArg0
  else if o = 0x3300110 then some .ecbArg1
  else if 0x3301000 ≤ o ∧ o < 0x3302000 then some (.ecbBuffer (o - 0x3301000))
  else none

/-- The register at an 8-byte aligned offset of WIN_0; none where nothing is mapped. -/
def regOf (o : Nat) : Option Reg :=
  if o < 0x100000 then lowReg o
  else if o < 0x300000 then
    if o % 0x40 = 0x38 then none else some (.queue ((o - 0x100000) / 0x40) (o % 0x40 / 8))
  else if 0x800000 ≤ o ∧ o < 0x801000 then
    if o % 0x100 < 0x18 then some (.part ((o - 0x800000) / 0x100) (o % 0x100 / 8)) else none
  else if 0x900000 ≤ o ∧ o < 0x940000 then
    if o % 0x40 < 0x20 then some (.ctx ((o - 0x900000) / 0x40) (o % 0x40 / 8)) else none
  else if 0x1000000 ≤ o ∧ o < 0x2000000 then sheetReg ((o - 0x1000000) / 0x100000) (o % 0x100000)
  else if 0x2000000 ≤ o ∧ o < 0x2400000 then
    let p := (o - 0x2000000) / 0x10000
    let x := o % 0x10000
    if x < 0x28 then some (.vj p (x / 8)) else if 0x1000 ≤ x ∧ x < 0x2000 then bankReg (.port p) (x - 0x1000) else none
  else serviceReg o

/-! ### Encodings of states -/

/-- `SHEET.MODE` (01 R23). -/
def SheetMode.code : SheetMode → Nat
  | .off => 0 | .startUp => 1 | .service => 2 | .test => 3 | .recovery => 4 | .safe => 5
/-- `ENG.STATE` (03 R107). -/
def EngState.code : EngState → Nat
  | .idle => 0 | .run => 1 | .wait => 2 | .halt => 3 | .fenced => 4
/-- `SLOT.PHASE` (04 R125). -/
def SlotPhase.code : SlotPhase → Nat
  | .idle => 0 | .maxed => 1 | .weighed => 2 | .cut => 3 | .drawn => 4
/-- `Q.STATE` (09 R279). -/
def QState.code : QState → Nat
  | .disabled => 0 | .active => 1 | .draining => 2 | .error => 3
/-- `PART.STATE` (09 R282). -/
def PartState.code : PartState → Nat
  | .unused => 0 | .setup => 1 | .running => 2 | .resetting => 3
/-- `CTX.STATE` (09 R286). -/
def CtxState.code : CtxState → Nat
  | .free => 0 | .opened => 1 | .tearing => 2 | .killed => 3
/-- `VJ.LSTATE` (10 R318). -/
def LinkState.code : LinkState → Nat
  | .off => 0 | .detect => 1 | .equalise => 2 | .align => 3 | .param => 4 | .up => 5 | .fenced => 6 | .down => 7 | .loopback => 8
/-- `CHART.CSTATE` (11 R326). -/
def ChartState.code : ChartState → Nat
  | .alone => 0 | .aligning => 1 | .startUp => 2 | .service => 3 | .unlocked => 4
/-- `EPOCH.STATE` (11 R345). -/
def EpochState.code : EpochState → Nat
  | .idle => 0 | .launch => 1 | .opened => 2 | .voted => 3 | .rollback => 4
/-- `HANG.STATE` (14). -/
def HangState.code : HangState → Nat
  | .normal => 0 | .halted => 1 | .isolation => 2
/-- `FT.STATE` (15). -/
def FtState.code : FtState → Nat
  | .off => 0 | .kak => 1 | .survey => 2 | .squall => 3 | .wait => 4 | .held => 5 | .sheetKak => 6
/-- `ECB.STATE` (16 R419). -/
def EcbState.code : EcbState → Nat
  | .off => 0 | .selftest => 1 | .boot => 2 | .ready => 3 | .recovery => 4 | .error => 5 | .zeroising => 6
/-- `ECB.TSTATE` (16 R426). -/
def TrngState.code : TrngState → Nat
  | .off => 0 | .startUp => 1 | .run => 2 | .failed => 3 | .raw => 4 | .halted => 5
/-- `ECB.ROLE` (16 R417). -/
def Role.code : Role → Nat
  | .none => 0 | .user => 1 | .officer => 2
/-- `GLOB.DSTATE` (09 R263). -/
def DevState.code : DevState → Nat
  | .startUp => 0 | .ready => 1 | .recovery => 2 | .safe => 3

/-! ### Values derived from other state -/

/-- `RST.BUSY` (14). -/
def State.resetBusy (s : State) : Bool :=
  s.rst.warm || !s.rst.parcels.isEmpty || !s.rst.sheets.isEmpty || s.parts.any fun x => x.2.st == .resetting
/-- `PWR.FMIN` (18): the lowest step code of any sheet. -/
def State.lowestStep (s : State) : Nat := (sheetIdx.map fun h => (s.sheet h).thm.step.toNat).foldl min 0xF
/-- `PWR.LIMIT` (18): the lowest limit in force anywhere: thermal, feed loss or the cap, whichever holds the steps down. -/
def State.powerLimit (s : State) : Nat :=
  let low := s.lowestStep
  if sheetIdx.any fun h => (s.sheet h).thm.limit.toNat ≤ low && (s.sheet h).thm.limit.toNat < 0xA then 3
  else if s.pwr.lost && decide (s.pwr.capStep.toNat ≤ low) && decide (s.pwr.capStep.toNat < s.pwr.fmax.toNat) then 2
  else if decide (s.pwr.capStep.toNat ≤ low) && decide (s.pwr.capStep.toNat < s.pwr.fmax.toNat) then 1
  else 0

/-- The service hour at which the JTAG unlock ends; none while the port is locked (19 R498). -/
def State.unlockedUntil (s : State) : Option (BitVec 32) :=
  s.ecb.unlockHour.filter fun h => decide (s.col.svch.toNat < h.toNat)

/-! ### Reads -/

/-- A spare's index, 0x1F where there is none. -/
def spareField (o : Option Nat) : Nat := o.getD 0x1F
/-- An entry of the parcel map: valid bit and physical index (01 R24). -/
def pmapEntry (l : List Nat) (i : Nat) : Nat := match l[i]? with | some p => 0x80 + p | none => 0
/-- Word `w` of a tile descriptor (03 R86). -/
def tdWord (t : TileDesc) (w : Nat) : Nat :=
  match w with
  | 0 => t.tensor.toNat * 2 ^ 32 + t.exp.toNat * 2 ^ 21 + t.base.toNat * 2 ^ 10 + b2n t.f32 * 2 ^ 9 + t.frm.toNat * 2 ^ 7 +
      b2n t.nanf * 2 ^ 6 + b2n t.inff * 2 ^ 5 + t.nflags.toNat
  | 1 => t.xbase.toNat * 2 ^ 16 + t.vrows.toNat * 2 ^ 8 + t.vcols.toNat
  | 2 => t.bwlim.toNat * 2 ^ 32 + t.xstride.toNat
  | _ => t.satlim.toNat * 2 ^ 48 + t.satcnt.toNat * 2 ^ 32 + t.bwcnt.toNat
/-- Register `r` of a slot's block (04): committed values and the live phase. -/
def slotWord (x : Slot) (r : Nat) : Nat :=
  match r with
  | 0 => x.reg.step.toNat
  | 1 => x.reg.gslot.toNat * 2 ^ 48 + x.reg.tensor.toNat * 2 ^ 16 + b2n x.reg.bound
  | 2 => x.reg.invt.toNat * 2 ^ 32 + b2n x.reg.base2 * 2 ^ 31 + b2n x.reg.greedy * 2 ^ 30 + x.reg.topp.toNat
  | 3 => x.reg.mask.toNat * 2 ^ 48 + x.reg.topk.toNat
  | 4 => x.reg.index.toNat * 2 ^ 32 + x.reg.sflags.toNat * 2 ^ 8 + x.phase.code
  | 5 => x.reg.kept.toNat
  | _ => x.reg.target.toNat
/-- Register `r` of a queue's block (09). -/
def queueWord (x : Queue) (r : Nat) : Nat :=
  match r with
  | 0 => x.sqbase.toNat * 2 ^ 12
  | 1 => x.cqbase.toNat * 2 ^ 12
  | 2 => x.sqlog.toNat * 2 ^ 56 + x.cqlog.toNat * 2 ^ 48 + x.func.toNat * 2 ^ 44 + x.prio.toNat * 2 ^ 38 +
      x.vector.toNat * 2 ^ 20 + b2n x.irqen * 2 ^ 16
  | 3 => x.nextSeq.toNat
  | 4 => x.sqhead.toNat * 2 ^ 48 + x.sqtail.toNat * 2 ^ 32 + x.cqtail.toNat * 2 ^ 16 + x.cqhead.toNat
  | 5 => x.ptlim.toNat
  | _ => x.err.toNat * 2 ^ 8 + x.st.code
/-- Register `r` of a partition's block (09). -/
def partWord (x : Part) (r : Nat) : Nat :=
  match r with
  | 0 => x.sheets.toNat * 2 ^ 32 + b2n x.contain * 2 + b2n x.hold
  | 1 => x.ports.toNat
  | _ => x.st.code
/-- Register `r` of a context's block (09). -/
def State.ctxWord (s : State) (c r : Nat) : Nat :=
  let x := s.ctx c
  match r with
  | 0 => x.part.toNat * 2 ^ 56 + x.func.toNat * 2 ^ 52 + x.slotBase.toNat * 2 ^ 45 + x.slotCnt.toNat * 2 ^ 37 +
      b2n x.scrub * 2 ^ 36 + b2n x.cntrd * 2 ^ 35 + x.quota.toNat
  | 1 => x.gen.toNat * 2 ^ 56 + x.st.code * 2 ^ 52 + x.tphase.toNat * 2 ^ 48 + x.cause.toNat * 2 ^ 40 +
      x.drops.toNat * 2 ^ 16 + s.inflight c % 2 ^ 16
  | 2 => x.step.toNat
  | _ => 0
/-- Register `r` of a port's block (10). -/
def portWord (x : Port) (r : Nat) : Nat :=
  match r with
  | 0 => b2n x.enc * 2 ^ 6 + x.loop.toNat * 2 ^ 4 + b2n x.precode * 2 ^ 3 + b2n x.en
  | 1 => x.pdev.toNat * 2 ^ 52 + x.pport.toNat * 2 ^ 46 + x.delay.toNat * 2 ^ 16 + b2n x.long * 2 ^ 11 + b2n x.precod * 2 ^ 10 +
      b2n x.encon * 2 ^ 9 + b2n x.rev * 2 ^ 8 + x.pol.toNat * 2 ^ 4 + x.lstate.code
  | 2 => x.corrgrp.toNat * 2 ^ 32 + x.uncorr.toNat * 2 ^ 16 + x.replay.toNat
  | 3 => x.cause.toNat * 2 ^ 48 + x.tries.toNat * 2 ^ 32
  | _ => x.authf.toNat * 2 ^ 16 + b2n x.krdy * 4 + b2n x.kphr * 2 + b2n x.kpht
/-- Register `r` of a counter (17). -/
def counterWord (x : Counter) (r : Nat) : Nat :=
  match r with
  | 0 => x.sel.toNat
  | 1 => x.filt.toNat
  | 2 => x.val.toNat
  | _ => x.latch.toNat
/-- The window register (13 R376). -/
def windowWord (i : Nat) (w : Window) (st : Nat) : Nat :=
  if w.st = 0 then 0
  else
    w.kind.toNat * 2 ^ 52 + w.source.toNat * 2 ^ 36 + w.rung.toNat * 2 ^ 32 + w.joined.toNat * 2 ^ 16 +
    (match w.part with | some p => p.val | none => (Config.windowPart i).toNat) * 2 ^ 12 + st
/-- Word of a key-table entry (05). -/
def keyWord (k : KeyEntry) : Nat :=
  k.ident.purpose.toNat * 2 ^ 60 + k.ident.slot.toNat * 2 ^ 44 + k.ident.tensor.toNat * 2 ^ 12 + b2n k.devSeed * 2 + b2n k.valid
/-- ID_DEVICE. -/
def idDeviceValue : Nat := 0x471641A100010000
/-- ID_SHAPE. -/
def idShapeValue : Nat := 0x0010101280400000

/-- Registers of a sheet. -/
def State.readSheetReg (s : State) : Reg → Nat
  | .sheetState h => (s.sheet h).pmap.length * 2 ^ 16 + (s.sheet h).mode.code
  | .sheetPmap h half => leNat ((List.range 8).map fun i => BitVec.ofNat 8 (pmapEntry (s.sheet h).pmap (8 * half + i)))
  | .sheetSpares h =>
    (s.sheet h).fenced.toNat * 2 ^ 32 + spareField (s.sheet h).standing * 2 ^ 24 + spareField (s.sheet h).test * 2 ^ 16
  | .slot h n r => slotWord ((s.sheet h).slot n) r
  | .chain h n r => ((chainWords ((s.sheet h).chain n).reg)[r]?.getD 0).toNat
  | .keyStatus h =>
    let k := (s.sheet h).key
    k.derived.toNat * 2 ^ 32 + k.used.toNat * 2 ^ 10 + b2n k.mismatch * 4 + b2n k.busy * 2 + b2n k.seedOk
  | .keyEntry h i => keyWord (tget {} (s.sheet h).key.tab i)
  | .td h l t w => tdWord (((s.sheet h).engine l).td t) w
  | .engStatus h l =>
    let g := (s.sheet h).engine l
    let st := if ((s.sheet h).phys l).isNone then EngState.fenced else g.st
    g.eflags.toNat * 2 ^ 32 + g.pc.toNat * 2 ^ 16 + g.loops.length * 2 ^ 8 + st.code
  | .memStatus h =>
    let m := (s.sheet h).mem
    m.sealFail.toNat * 2 ^ 32 + m.poisoned * 2 ^ 16 + b2n m.hotRef * 4 + b2n m.attrErr * 2 + b2n m.sbOk
  | .ftCtl h =>
    let f := (s.sheet h).ft
    b2n f.roten * 2 ^ 62 + b2n f.sqen * 2 ^ 61 + f.tmin.toNat * 2 ^ 40 + f.period.toNat * 2 ^ 16 + f.spareKak.toNat
  | .ftStatus h =>
    let f := (s.sheet h).ft
    f.rounds.toNat * 2 ^ 48 + spareField (s.sheet h).test * 2 ^ 32 + f.last.toNat * 2 ^ 4 + f.st.code
  | _ => 0

/-- Registers of the collector and dump engine. -/
def State.readColReg (s : State) : Reg → Nat
  | .colCtl => b2n s.col.ringen * 2 ^ 63 + s.col.histwin.toNat * 2 ^ 32 + s.col.winus.toNat
  | .colRbase => s.col.rbase.toNat * 2 ^ 12 + s.col.rlog.toNat
  | .colRptr => s.col.rtail.toNat * 2 ^ 32 + s.col.rvec.toNat * 2 ^ 20 + s.col.rhead.toNat
  | .colStatus =>
    s.col.lost.toNat * 2 ^ 48 + s.openWindows.length % 256 * 2 ^ 40 + s.col.safeKind.toNat * 2 ^ 28 + s.col.kept.length
  | .colSvch => s.col.svch.toNat
  | .colWin i => windowWord i (s.window i) (s.winState (s.window i))
  | .colHist i w =>
    let r := s.hist i
    if w = 0 then r.count.toNat * 2 ^ 48 + r.kind.toNat * 2 ^ 36 + r.fcause.toNat * 2 ^ 32 + b2n r.fenced
    else r.lasth.toNat * 2 ^ 32 + r.prevh.toNat
  | .dumpBase => s.dump.base.toNat * 2 ^ 12
  | .dumpCtl => b2n s.dump.latch * 2 ^ 61 + b2n s.dump.mram * 2 ^ 60 + s.dump.smask.toNat * 2 ^ 32 + s.dump.len.toNat
  | .dumpStatus => s.dump.noresp.toNat * 2 ^ 48 + s.dump.blocks.toNat * 2 ^ 32 + s.dump.st.toNat
  | _ => 0

/-- Registers of Ecbumos. -/
def State.readEcbReg (s : State) : Reg → Nat
  | .ecbStatus =>
    let e := s.ecb
    e.fwsvn.toNat * 2 ^ 32 + b2n e.actB * 2 ^ 23 + e.role.code * 2 ^ 21 + b2n e.approved * 2 ^ 20 + b2n e.cert * 2 ^ 19 +
    b2n e.chartKey.isSome * 2 ^ 18 + e.tst.code * 2 ^ 12 + e.st.code
  | .ecbDrbg =>
    s.ecb.reqs.toNat * 2 ^ 16 + s.ecb.pool.length * 2 ^ 8 + s.ecb.rslog.toNat * 2 ^ 3 + b2n s.ecb.stretch * 4 + b2n s.ecb.inst * 2
  | .ecbTrng => s.ecb.rctf.toNat * 2 ^ 48 + s.ecb.aptf.toNat * 2 ^ 32 + s.ecb.lastsrc.toNat * 2 ^ 6 + s.ecb.consec.toNat * 2 ^ 4
  | .ecbRngStat => b2n s.ecb.err * 4 + b2n s.ecb.notrdy * 2 + b2n (!s.ecb.hostBuf.isEmpty)
  | .ecbRngData => leNat (s.ecb.hostBuf.take 8)
  | .ecbRaw => b2n s.ecb.rawv * 2 ^ 63 + b2n s.ecb.rawlost * 2 ^ 62 + s.ecb.rawsrc.toNat * 2 ^ 32 + s.ecb.rawbits.toNat
  | .ecbSignext => s.ecb.signext.toNat
  | .ecbSigres => s.ecb.sigres.toNat
  | .ecbCmd => b2n s.ecb.busy * 2 ^ 62 + s.ecb.result.toNat * 2 ^ 40 + s.ecb.len.toNat * 2 ^ 16 + s.ecb.cmd.toNat
  | .ecbArg0 => s.ecb.arg0.toNat
  | .ecbArg1 => s.ecb.arg1.toNat
  | .ecbBuffer a => if s.ecb.busy then 0 else leNat (mread s.ecb.buf a 8)
  | _ => 0

/-- Registers of counters, power and the package. -/
def State.readMiscReg (s : State) : Reg → Nat
  | .bstat b => (s.bankOf b).ovf.toNat
  | .sample b => (s.bankOf b).sample.toNat
  | .counter b i r => counterWord (tget {} (s.bankOf b).ctrs i) r
  | .cntGctl =>
    b2n s.cnt.frzmode * 2 ^ 61 + b2n s.cnt.pend * 2 ^ 60 + b2n s.cnt.frozen * 2 ^ 59 + s.cnt.vec.toNat * 2 ^ 36 +
    s.cnt.snapcnt.toNat
  | .cntSnapat => s.cnt.snapat.toNat
  | .cntSatf => s.cnt.satf.toNat
  | .pwrCtl => s.pwr.capw.toNat * 2 ^ 32 + s.pwr.fmax.toNat * 2 ^ 24 + b2n s.pwr.capen
  | .pwrStatus =>
    s.pwr.inw.toNat * 2 ^ 48 + s.pwr.va.toNat * 2 ^ 40 + s.pwr.vb.toNat * 2 ^ 32 + s.pwr.ia.toNat * 2 ^ 24 + s.pwr.ib.toNat * 2 ^ 16 +
    b2n s.pwr.aok * 2 ^ 15 + b2n s.pwr.bok * 2 ^ 14 + s.powerLimit * 2 ^ 12 + s.lowestStep * 2 ^ 8
  | .thmSheet h =>
    let t := (s.sheet h).thm
    t.tmax.toNat * 2 ^ 32 + t.step.toNat * 2 ^ 20 + t.dramt.toNat * 2 ^ 8 + b2n t.throt * 2 + b2n t.hot
  | .pkgStatus =>
    b2n s.unlockedUntil.isSome * 2 ^ 63 + s.pkg.i3cSta.toNat * 2 ^ 56 + s.pkg.i3cDyn.toNat * 2 ^ 49 + b2n s.pkg.i3cDv * 2 ^ 48 +
    (s.unlockedUntil.getD 0).toNat
  | _ => 0

/-- Registers of identity, chart, resets, queues, partitions, contexts and ports. -/
def State.readHostReg (s : State) : Reg → Nat
  | .idDevice => idDeviceValue
  | .idShape => idShapeValue
  | .globCtl => s.qtmo.toNat * 2 ^ 16 + s.dstate.code
  | .globW4base => s.w4base.toNat * 2 ^ 36
  | .chartId =>
    let c := s.chart.reg
    c.chartId.toNat * 2 ^ 48 + c.devId.toNat * 2 ^ 32 + c.datumDev.toNat * 2 ^ 16 + c.size.toNat
  | .chartTree => s.chart.reg.upport.toNat * 2 ^ 56 + s.chart.reg.lmargin.toNat
  | .chartDown => s.chart.reg.down.toNat
  | .chartCtl => s.chart.st.code
  | .chartStatus =>
    s.chart.err.toNat * 2 ^ 48 + s.chart.depth.toNat * 2 ^ 44 + s.chart.members.toNat * 2 ^ 19 +
    b2n (s.chart.saved == some s.chart.reg) * 2 + b2n s.chart.lock
  | .chartEpoch c =>
    let e := s.epoch c
    e.num.toNat * 2 ^ 32 + e.drops.toNat * 2 ^ 16 + e.rbcnt.toNat * 2 ^ 8 + e.st.code
  | .chartRoute v =>
    let e := tget ({} : RouteEntry) s.chart.routes v
    b2n e.valid * 2 ^ 63 + e.port.toNat * 2 ^ 40
  | .testRecord i w => leNat (((tget [] s.ecb.log i).drop (8 * w)).take 8)
  | .rstStatus =>
    b2n s.orphaned * 2 ^ 63 + s.rst.last.toNat * 2 ^ 48 + s.rst.warmcnt.toNat * 2 ^ 40 + b2n s.resetBusy
  | .hangWdog p => (s.part p).wdog.toNat
  | .hangIso p => (s.part p).hangCur.toNat * 2 ^ 44 + (s.part p).suspects.length * 2 ^ 16 + (s.part p).hang.code
  | .hangTmo => s.rst.dmatmo.toNat * 2 ^ 32 + s.rst.lnktmo.toNat
  | .ftPack j =>
    let k := tget ({} : Pack) s.ecb.packs j
    k.id.toNat * 2 ^ 48 + k.ver.toNat * 2 ^ 16 + k.len.toNat * 2 ^ 7 + b2n k.valid
  | .ftLognext => s.ecb.logNext.toNat
  | .queue q r => queueWord (s.queue q) r
  | .part p r => partWord (s.part p) r
  | .ctx c r => s.ctxWord c r
  | .vj p r => portWord (s.port p) r
  | _ => 0

/-- The value of a register; write-only fields read 0 (00 R7). -/
def State.readReg (s : State) (r : Reg) : Word :=
  BitVec.ofNat 64 (s.readHostReg r ||| s.readSheetReg r ||| s.readColReg r ||| s.readEcbReg r ||| s.readMiscReg r)
/-- Offsets that can be read in the safe state: identity and global control, collector and dump (14 R399). -/
def safeReadable (o : Nat) : Bool := decide (o < 0x20) || decide (0x3000000 ≤ o ∧ o < 0x3009000)
/-- An accepted 8-byte read of WIN_0 at an aligned offset: 0 where nothing is mapped. -/
def State.readWin0 (s : State) (o : Nat) : Word :=
  if s.dstate == .safe && !safeReadable o then 0
  else match regOf o with
    | some r => s.readReg r
    | none => 0

end Sys2Proof.Machine
end

