-- ==== Sys2Proof/Machine/SnapOps.lean ====
section
/-! DEFINITION. Snapshot sets of the dump blocks and taking a snapshot (17 R459-R461). -/

namespace Sys2Proof.Machine

/-- Registers as bytes. -/
def State.regBytes (s : State) (l : List Reg) : List Byte := l.flatMap fun r => leBytes 8 (s.readReg r).toNat
/-- BSTAT and the CNT_VAL registers of a bank. -/
def bankRegs (b : BankId) : List Reg := .bstat b :: (List.range (bankSize b)).map fun i => .counter b i 2
/-- SHEET_STATE, SHEET_PMAP_LO, SHEET_PMAP_HI and SHEET_SPARES. -/
def sheetRegs (h : Nat) : List Reg := [.sheetState h, .sheetPmap h 0, .sheetPmap h 1, .sheetSpares h]
/-- The valid bitmap of a key table: 128 bytes. -/
def KeyUnit.bitmap (k : KeyUnit) : List Byte :=
  (List.range 128).map fun i => BitVec.ofNat 8 (((List.range 8).map fun j => b2n (tget {} k.tab (8 * i + j)).valid * 2 ^ j).sum)
/-- Registers of a scribe core in the order of R461: pc, x1 to x31, mstatus, mepc, mcause and mtval, and v0 to v7. -/
def Scribe.regBytes (k : Scribe) : List Byte :=
  leBytes 8 k.pc.toNat ++ ((List.range 31).flatMap fun i => leBytes 8 (tget (0 : Word) k.xregs (i + 1)).toNat) ++
  ([k.mstatus, k.csr 0x341, k.csr 0x342, k.csr 0x343].flatMap (leBytes 8)) ++
  (List.range 8).flatMap fun i => leBytes 64 (tget (0 : BitVec 512) k.vregs i).toNat
/-- The sets of a parcel (levels 2 and 3): ENG_STATUS stands first where the table names it, the rest has no layout and is free; a core's
set is laid out whole. -/
def State.parcelSet (s : State) (b : BitVec 16) : List Byte :=
  let h := srcSheet b
  let u := b.toNat % 16
  let free := Config.snapshotBytes b.toNat s.free
  match (s.sheet h).pmap.idxOf? (srcParcel b) with
  | none => free
  | some l =>
    if srcLevel b = 2 ∨ srcLevel b = 3 ∧ u = 0 then s.regBytes [.engStatus h l] ++ free
    else if srcLevel b = 3 ∧ 4 ≤ u ∧ u ≤ 7 then (tget ({} : Scribe) ((s.sheet h).engine l).cores (u - 4)).regBytes
    else free
/-- The content of a block's set (R461). What the table names without a layout is free: in the sets of levels 2 and 3, and the
status registers of a sheet's other units. -/
def State.setContent (s : State) (b : BitVec 16) : List Byte :=
  let h := srcSheet b
  let u := b.toNat % 16
  if srcLevel b ≤ 3 then s.parcelSet b
  else if srcLevel b = 4 then
    s.regBytes (sheetRegs h) ++
    (if u = 0 then s.regBytes (bankRegs (.sheet h))
     else if u = 1 then s.regBytes [.keyStatus h] ++ (s.sheet h).key.bitmap
     else Config.snapshotBytes b.toNat s.free)
  else if srcLevel b = 5 then if u = 0 then s.regBytes ([.globCtl, .cntGctl] ++ bankRegs .device) else []
  else if srcLevel b = 6 then
    let p := bits b.toNat 12 4 % 64
    s.regBytes ([.vj p 1, .vj p 2, .vj p 3] ++ bankRegs (.port p))
  else s.regBytes [.colStatus, .ecbStatus, .ecbDrbg, .ecbTrng]
/-- A snapshot set: 1,020 bytes and their CRC-32C. -/
def State.snapshotSet (s : State) (b : BitVec 16) : List Byte :=
  let c := (s.setContent b ++ List.replicate 1020 0).take 1020
  c ++ leBytes 4 (crc32c c)

/-- Every counter of a bank copied into its latch. -/
def Bank.takeLatch (k : Bank) : Bank :=
  { k with ctrs := (k.ctrs.map Prod.fst).foldl (fun t i => tmod {} t i fun c => { c with latch := c.val }) k.ctrs }
/-- Banks of a sheet. -/
def Sheet.takeLatch (h : Sheet) : Sheet :=
  { h with
    bank := h.bank.takeLatch
    parcelBanks := (h.parcelBanks.map Prod.fst).foldl (fun t i => tmod {} t i Bank.takeLatch) h.parcelBanks }
/-- Whether a snapshot may be scheduled at a count: at least 1,000 ns ahead, and none pending. -/
def State.snapOk (s : State) (t : Nat) : Bool := decide (s.now + 1000 ≤ t) && !s.cnt.pend
/-- Schedule a snapshot, for a waiting SNAPSHOT descriptor or for none. -/
def State.schedule (s : State) (t : Nat) (waiter : Option Nat) : State :=
  { s with cnt := { s.cnt with pend := true, at0 := t, waiter := waiter } }

end Sys2Proof.Machine
end

