-- ==== Sys2Proof/Machine/Counters.lean ====
section
/-! DEFINITION. The rows of counters and snapshots (17 R454, R459, R460). -/

namespace Sys2Proof.Machine

/-- CNT_ARM: a snapshot at `CNT.SNAPAT`, or kind 0x410. -/
def State.doArm (s : State) : State :=
  let t := s.cnt.snapat.toNat
  if s.snapOk t then s.schedule t none else s.hostFault 0x410
/-- CNT_UNFREEZE: counting resumes 1,000 ns later. -/
def State.doUnfreeze (s : State) : State :=
  if s.cnt.frozen then { s with cnt := { s.cnt with resumeAt := some (s.now + 1000) } } else s
/-- COUNTERS_RESUME. -/
def State.doResume (s : State) : State :=
  match s.cnt.resumeAt with
  | some t =>
    let s := s.reach t
    { s with cnt := { s.cnt with frozen := false, resumeAt := none } }
  | none => s
/-- Every counter copied into its latch. -/
def State.latchCounters (s : State) : State :=
  let s := s.forEach sheetIdx fun s h => s.modSheet h Sheet.takeLatch
  { s with cnt := { s.cnt with
      bank := s.cnt.bank.takeLatch
      portBanks := (s.cnt.portBanks.map Prod.fst).foldl (fun t i => tmod {} t i Bank.takeLatch) s.cnt.portBanks } }
/-- The SNAPSHOT descriptor that waited for the latch completes with OK. -/
def State.endSnapshot (s : State) (q : Nat) : State :=
  s.modHead q fun d => if d.started && dOp d == 8 && d.wants == 3 then settleDesc s.now stOk 0 0 0 0 d else d
/-- SNAPSHOT_LATCH: count T is reached. -/
def State.doLatch (s : State) : State :=
  if !s.cnt.pend then s
  else
    let s := (s.reach s.cnt.at0).latchCounters
    let sets := (dumpBlocks 0xFFFF).map fun b => (b, s.snapshotSet b)
    let s := s.noteSat s.cnt.snapcnt 8
    let w := s.cnt.waiter
    let s : State :=
      { s with
        free := s.free + 1
        cnt := { s.cnt with pend := false, waiter := none, latched := sets, snapcnt := satInc s.cnt.snapcnt
                            frozen := s.cnt.frozen || s.cnt.frzmode } }
    match w with
    | some q => s.endSnapshot q
    | none => s
/-- The bank that a number names: the device's, the 64 ports', the 16 sheets', then 18·s + p of the parcels. -/
def bankNo (n : Nat) : BankId :=
  if n = 0 then .device
  else if n ≤ 64 then .port (n - 1)
  else if n ≤ 80 then .sheet (n - 65)
  else .parcel ((n - 81) / 18 % 16) ((n - 81) % 18)
/-- Program counter that a sample of a bank records: `ENG.PC` of the parcel's engine (R456). -/
def State.bankPc (s : State) : BankId → Nat
  | .parcel h p => match (s.sheet h).pmap.idxOf? p with
    | some l => ((s.sheet h).engine l).pc.toNat
    | none => 0
  | _ => 0
/-- COUNTER_OVERFLOW: a counter at its maximum counts once more (R454). -/
def State.doOverflow (s : State) (n i : Nat) : State :=
  let b := bankNo n
  let c := tget ({} : Counter) (s.bankOf b).ctrs i
  if c.val.toNat = 2 ^ 48 - 1 ∧ c.sel.getLsbD 63 ∧ i < bankSize b ∧ !s.cnt.frozen then s.counterAdd b i 1 (s.bankPc b) none else s

/-- CNT_ARM. -/
def execCntArm (s : State) : Res := .next (s.hostWrite State.doArm)
/-- CNT_UNFREEZE. -/
def execCntUnfreeze (s : State) : Res := .next (s.hostWrite State.doUnfreeze)
/-- COUNTERS_RESUME. -/
def execCountersResume (s : State) : Res := .next s.doResume
/-- SNAPSHOT_LATCH. -/
def execSnapshotLatch (s : State) : Res := .next s.doLatch
/-- COUNTER_OVERFLOW. -/
def execCounterOverflow (bank i : Nat) (s : State) : Res := .next (s.doOverflow bank i)

end Sys2Proof.Machine
end

