-- ==== Sys2Proof/Machine/Coupled.lean ====
section
/-! DEFINITION. The rows of coupled-model moves and their hub operations (06). -/

namespace Sys2Proof.Machine

/-- CPL_FIELDS (06 R185, R186): field tiles set from H, or compared. -/
def execCplFields (e : EngId) (o : FieldsOp) (d : Disturb) (s : State) : Res :=
  .next (s.runUop e (.fields o) fun s => s.doFields e o d)

/-- CPL_PROPOSE (06 R193): proposals of one block. -/
def execCplPropose (e : EngId) (o : ProposeOp) (d : Disturb) (s : State) : Res :=
  .next (s.runUop e (.propose o) fun s => s.doPropose e o d)

/-- CPL_SETTLE (06 R194): settlement of the open proposals. -/
def execCplSettle (e : EngId) (o : SettleOp) (d : Disturb) (s : State) : Res :=
  .next (s.runUop e (.settle o) fun s => s.doSettle e o d)

/-- CPL_APPLY (06 R196): the settled moves applied. -/
def execCplApply (e : EngId) (o : ApplyOp) (d : Disturb) (s : State) : Res :=
  .next (s.runUop e (.apply o) fun s => s.doApply e o d)

/-- CPL_GROUP (06 R198): group moves. -/
def execCplGroup (e : EngId) (o : GroupOp) (d : Disturb) (s : State) : Res :=
  .next (s.runUop e (.group o) fun s => s.doGroup e o d)

/-- CPL_ENERGY (06 R202, R211): energy contributions. -/
def execCplEnergy (e : EngId) (o : EnergyOp) (d : Disturb) (s : State) : Res :=
  .next (s.runUop e (.energy o) fun s => s.doEnergy e o d)

/-- HUB_ENERGY_COMBINE (06 R202): the hub combines the contributions once the last flagged word has arrived. -/
def execHubEnergyCombine (h : SheetId) (w : HubWork) (s : State) : Res := .next (s.doCombine h.val w.slot.val w.d)

/-- SWEEP_END (06 R203, R211): the hub ends the sweep once the last END word has arrived. -/
def execSweepEnd (h : SheetId) (slot : Fin 128) (d : Disturb) (s : State) : Res := .next (s.doSweepEnd h.val slot.val d)

/-- CPL_EXCHANGE (06 R205, R211): an exchange word sent to the hub. -/
def execCplExchange (e : EngId) (o : ExchangeOp) (d : Disturb) (s : State) : Res :=
  .next (s.runUop e (.exchange o) fun s => s.doExchange e o d)

/-- HUB_EXCHANGE_DECIDE (06 R205): the hub decides the exchanges once every participant has asked. -/
def execHubExchangeDecide (h : SheetId) (slot : Fin 128) (d : Disturb) (s : State) : Res :=
  .next (s.doExchDecide h.val slot.val d)

end Sys2Proof.Machine
end

