-- ==== Sys2Proof/Machine/EcbOps.lean ====
section
/-! DEFINITION. The shared operations of Ecbumos (16): the DRBG and its consumers, signing, the mailbox's answers, firmware
selection, and what a failed health test and a restart do. -/

namespace Sys2Proof.Machine

/-- Change Ecbumos. -/
def State.modEcb (s : State) (f : Ecb → Ecb) : State := { s with ecb := f s.ecb }
/-- A fault of Ecbumos itself (R448). -/
def State.ecbFault (s : State) (kind : BitVec 12) : State := s.sendFault { source := svcSource 1, kind := kind }
/-- A fault of the TRNG. -/
def State.trngFault (s : State) (kind : BitVec 12) (address : Word) : State :=
  s.sendFault { source := svcSource 2, kind := kind, address := address }

/-! ### DRBG (R427, R428) -/

/-- Largest value of `ECB.REQS`. -/
def reqsMax : Nat := 2 ^ 48 - 1
/-- A pool block as bytes. -/
def blockBytes (b : BitVec 256) : List Byte := leBytes 32 b.toNat
/-- Two pool blocks are taken: their bytes and the pool that remains. -/
def Ecb.takeTwo (e : Ecb) : List Byte × List (BitVec 256) := (((e.pool.take 2).flatMap blockBytes), e.pool.drop 2)
/-- Reseed from two pool blocks. -/
def Ecb.reseed (e : Ecb) : Ecb :=
  let x := e.takeTwo
  { e with drbg := Config.drbgReseed e.drbg x.1, pool := x.2, reqs := 0, stretch := false }
/-- Whether a reseed is due. -/
def Ecb.due (e : Ecb) : Bool := decide (2 ^ e.rslog.toNat ≤ e.reqs.toNat)
/-- Additional input of a request: datum count, consumer, context and SEQ. -/
def State.drbgExtra (s : State) (src : BitVec 16) (c seq : Nat) : List Byte :=
  leBytes 8 s.now ++ leBytes 2 src.toNat ++ leBytes 2 c ++ leBytes 4 seq
/-- The reseed that a request meets: on demand, or due; without two blocks a due one is stretched, kind 0x510 once. -/
def State.drbgPrepare (s : State) (fresh : Bool) : State :=
  let two := decide (2 ≤ s.ecb.pool.length)
  if two && (fresh || s.ecb.due) then s.modEcb Ecb.reseed
  else if s.ecb.due && !s.ecb.stretch then (s.modEcb fun e => { e with stretch := true }).ecbFault 0x510
  else s
/-- One Generate request of `n` bytes; `fresh`: with prediction resistance. Nothing where the request is held: the DRBG is not
ready, a fresh request lacks two blocks, or the request limit is reached. -/
def State.drbgDraw (s : State) (n : Nat) (fresh : Bool) (src : BitVec 16) (c seq : Nat) : State × Option (List Byte) :=
  if s.ecb.notrdy || (fresh && decide (s.ecb.pool.length < 2)) then (s, none)
  else
    let s := s.drbgPrepare fresh
    if reqsMax ≤ s.ecb.reqs.toNat then (s, none)
    else
      let r := Config.drbgGenerate s.ecb.drbg (s.drbgExtra src c seq) n
      let s := s.modEcb fun e => { e with drbg := r.2, reqs := e.reqs + 1 }
      let s := if s.ecb.reqs.toNat = reqsMax then s.ecbFault 0x511 else s
      (s, some ((r.1 ++ List.replicate n 0).take n))
/-- The DRBG is instantiated from two pool blocks (R425, R427). -/
def State.drbgStart (s : State) : State :=
  let perso := leBytes 8 idDeviceValue ++ leBytes 2 s.chart.reg.devId.toNat ++ s.ecb.perso
  s.modEcb fun e =>
    let a := match e.pool with | x :: _ => blockBytes x | [] => []
    let b := match e.pool with | _ :: y :: _ => blockBytes y | _ => []
    { e with drbg := Config.drbgInit a b perso, pool := e.pool.drop 2, reqs := 0, stretch := false, inst := true, tst := .run
             notrdy := false }
/-- The former DRBG state is zeroised and random output stops. -/
def Ecb.dropDrbg (e : Ecb) : Ecb := { e with drbg := [], inst := false, notrdy := true, reqs := 0, stretch := false, hostBuf := [] }
/-- The noise sources start again in STARTUP (R425, R431). -/
def Ecb.trngStart (e : Ecb) : Ecb := { e.dropDrbg with tst := .startUp, pool := [], goodBlocks := 0 }

/-! ### Consumers (R429-R431) -/

/-- The host consumer port's buffer is refilled by one request when it holds 1 KiB or less (R429; log 44). -/
def State.refillHost (s : State) : State :=
  if 1024 < s.ecb.hostBuf.length then s
  else
    let r := s.drbgDraw 2048 false (svcSource 1) 0 0
    match r.2 with
    | some b => r.1.modEcb fun e => { e with hostBuf := (e.hostBuf ++ b).take 2048 }
    | none => r.1
/-- Descriptor services run in the User role where such a session is open; else they are not approved (R417). -/
def Ecb.descService (e : Ecb) : Ecb := { e with approved := e.role == .user }

/-! ### Mailbox (R419-R422) -/

/-- OK. -/
def mbOk : BitVec 8 := 0
/-- STATE. -/
def mbState : BitVec 8 := 1
/-- AUTH. -/
def mbAuth : BitVec 8 := 2
/-- BADARG. -/
def mbBadArg : BitVec 8 := 3
/-- SIGFAIL. -/
def mbSigFail : BitVec 8 := 4
/-- ROLLBACK. -/
def mbRollback : BitVec 8 := 5
/-- FULL. -/
def mbFull : BitVec 8 := 6
/-- NOTREADY. -/
def mbNotReady : BitVec 8 := 7
/-- RNGFAIL. -/
def mbRngFail : BitVec 8 := 8
/-- EXHAUSTED. -/
def mbExhausted : BitVec 8 := 9
/-- A command that ran completes: `ECB.APPROVED` is set (R421). -/
def State.mbDone (s : State) (res : BitVec 8) : State := s.modEcb fun e => { e with busy := false, result := res, approved := true }
/-- A command that the state or the role does not allow completes at once, without having run. -/
def State.mbRefuse (s : State) (res : BitVec 8) : State := s.modEcb fun e => { e with busy := false, result := res }
/-- A command returns bytes: the buffer holds at most 4,096 of them. -/
def State.mbReturn (s : State) (b : List Byte) : State :=
  (s.modEcb fun e => { e with buf := mwrite e.buf 0 (b.take 4096), len := BitVec.ofNat 13 (min 4096 b.length) }).mbDone mbOk
/-- The bytes valid in the buffer. -/
def Ecb.input (e : Ecb) : List Byte := mread e.buf 0 (min 4096 e.len.toNat)
/-- Whether a service is allowed in the state of Ecbumos (R419). -/
def Ecb.allows (e : Ecb) (cmd : Nat) : Bool :=
  match e.st with
  | .ready => true
  | .recovery => cmd == 1 || cmd == 0x0D || cmd == 0x0B
  | .error => cmd == 0x0C || cmd == 0x0B
  | _ => false
/-- Whether the role in force may run a service (R420). -/
def Ecb.mayRun (e : Ecb) (cmd : Nat) : Bool :=
  if cmd = 5 then if e.officer.isSome then e.role == .officer else e.role == .none || e.role == .officer
  else if cmd = 0x0D then e.role == .officer || e.st == .recovery
  else if 6 ≤ cmd ∧ cmd ≤ 0x0A ∨ 0x0E ≤ cmd ∧ cmd ≤ 0x10 then e.role == .officer
  else if cmd = 0x11 ∨ cmd = 0x12 then e.role == .user
  else true
/-- Whether a row's command is the one that runs, or starts now: the mailbox is free, or a GO of this command made it busy
(R421). -/
def Ecb.takes (e : Ecb) (cmd : Nat) : Bool := !e.busy || e.cmd.toNat == cmd
/-- Run a mailbox command: while another runs it is dropped; a command that is not allowed completes with STATE or AUTH. -/
def State.mailbox (s : State) (cmd : Nat) (f : State → State) : State :=
  if s.dstate == .safe || !s.ecb.takes cmd then s
  else
    let s := s.modEcb fun e => { e with cmd := BitVec.ofNat 8 cmd }
    if !s.ecb.allows cmd then s.mbRefuse mbState else if !s.ecb.mayRun cmd then s.mbRefuse mbAuth else f s

/-! ### Signing (R436-R439) -/

/-- One past the last signature index. -/
def sigEnd : Nat := 2 ^ 40
/-- Bytes of a signature. -/
def sigBytes : Nat := 9893
/-- The identity public key: 64 bytes, nothing while there is no key. -/
def Ecb.publicKey (e : Ecb) : List Byte := match e.idSeed with
  | some k => (Config.xmssmtPublic k ++ List.replicate 64 0).take 64
  | none => []
/-- What GET_CERT returns (R436). -/
def Ecb.certBytes (e : Ecb) : List Byte := e.publicKey ++ (if e.cert then Config.identityCert else []) ++ Config.certifyingKey
/-- The active firmware image. -/
def Ecb.active (e : Ecb) : Option FwImage := if e.actB then e.slotB else e.slotA
/-- The quote body (R439). -/
def State.quoteBody (s : State) (nonce : List Byte) (index : Nat) : List Byte :=
  let e := s.ecb
  let fw := match e.active with | some x => x.bytes | none => []
  let cfg := s.recordBytes .svn 0 ++ s.recordBytes .officer 0 ++ sheetIdx.flatMap fun h => s.recordBytes .fence h
  [0x47, 0x4C, 0x41, 0x51, 1, BitVec.ofNat 8 (b2n e.actB)] ++ leBytes 2 s.chart.reg.devId.toNat ++ leBytes 8 idDeviceValue ++
  leBytes 4 e.fwsvn.toNat ++ leBytes 4 e.minsvn.toNat ++ leBytes 8 s.now ++ (nonce ++ List.replicate 32 0).take 32 ++
  shake256 32 fw ++ shake256 32 cfg ++ leBytes 5 index ++ List.replicate 27 0
/-- The error object of a DOE request (R439): 8 bytes holding a result code. -/
def doeError (res : BitVec 8) : List Byte := leBytes 8 res.toNat
/-- Reserve the next 1,024 indices (R437). -/
def Ecb.reserve (e : Ecb) : Ecb := { e with sigres := BitVec.ofNat 41 (min sigEnd (e.sigres.toNat + 1024)), resWait := false }
/-- The reservation goes into both copies of the identity record before an index of it is used (R437). -/
def State.reserveSig (s : State) : State := ((s.modEcb Ecb.reserve).keep .identity).keep .identity
/-- A request takes its place: in arrival order, a SEAL_MANIFEST body before the quotes of the same cycle that are not being signed
(R438; log 79). -/
def insertSign (r : SignReq) : List SignReq → List SignReq
  | [] => [r]
  | x :: l => x :: (if r.queue.isSome then
      (l.filter fun y => !(y.queue.isNone && y.came == r.came)) ++ [r] ++ l.filter fun y => y.queue.isNone && y.came == r.came
    else l ++ [r])
/-- A signing request that is refused ends: a manifest with a status, a quote with its error object. -/
def State.signRefused (s : State) (r : SignReq) (st : Byte) (kind : BitVec 12) (res : BitVec 8) : State :=
  match r.queue with
  | some q => s.decideHead q st kind
  | none => s.emit (.doe (doeError res))
/-- Every waiting signing request ends while Ecbumos is in ERROR (R438). -/
def State.signAllRefused (s : State) : State :=
  let l := s.ecb.signing
  (s.modEcb fun e => { e with signing := [] }).forEach l fun s r => s.signRefused r stCheckFailed 0x540 mbState

/-! ### Start, restart and ERROR (R431, R433, R434, R446) -/

/-- Ecbumos enters ERROR: no cryptographic output. -/
def State.ecbHalt (s : State) : State :=
  (s.modEcb fun e => { e.dropDrbg with st := .error, tst := .off, pool := [] }).signAllRefused
/-- A fault that puts Ecbumos into ERROR. -/
def State.ecbError (s : State) (kind : BitVec 12) : State := (s.ecbFault kind).ecbHalt
/-- A firmware image is valid (R433). -/
def Ecb.validImage (e : Ecb) (x : FwImage) : Bool :=
  x.rootKeyHash == Config.romKeyHash && x.sigsOk && decide (e.minsvn.toNat ≤ x.svn.toNat)
/-- The slot that BOOT activates (R434): `some true` for slot B. -/
def Ecb.bootSlot (e : Ecb) : Option Bool :=
  let a := match e.slotA with | some x => if e.validImage x then some x.svn.toNat else none | none => none
  let b := match e.slotB with | some x => if e.validImage x then some x.svn.toNat else none | none => none
  match a, b with
  | none, none => none
  | some _, none => some false
  | none, some _ => some true
  | some x, some y => some (if x = y then e.lastB else decide (x < y))
/-- A filled slot fails its check: kind 0x550. -/
def State.bootSlots (s : State) : State :=
  let bad (o : Option FwImage) : Bool := match o with | some x => !s.ecb.validImage x | none => false
  let s := if bad s.ecb.slotA then s.ecbFault 0x550 else s
  if bad s.ecb.slotB then s.ecbFault 0x550 else s
/-- Ecbumos boots (R433, R434): READY on the active image, RECOVERY with no valid slot; NEXT starts at RESEND (R437). -/
def State.ecbBoot (s : State) : State :=
  let s := s.bootSlots
  match s.ecb.bootSlot with
  | none => s.modEcb fun e => { e with st := .recovery, signext := e.sigres }
  | some b =>
    let x := if b then s.ecb.slotB else s.ecb.slotA
    s.modEcb fun e =>
      { e with st := .ready, actB := b, fwsvn := (match x with | some i => i.svn | none => 0), signext := e.sigres
               cert := e.idCert && e.idSeed.isSome }
/-- Random output stops being ready: waiting device-seed requests with FAILFAST end (R430, R449). -/
def State.failFast (s : State) : State :=
  let fast (q : Nat) : Bool := match s.head q with | some d => dFailFast d | none => false
  let l := s.ecb.seedWait.filter fast
  (s.modEcb fun e => { e with seedWait := e.seedWait.filter fun q => !fast q }).forEach l fun s q => s.decideHead q stRngNotReady
/-- The end of every device-seed request and waiting mailbox command at a failed health test (R431 step 2). -/
def State.failWaiters (s : State) : State :=
  let q := s.ecb.seedWait
  let s := (s.modEcb fun e => { e with seedWait := [] }).forEach q fun s i => s.decideHead i stRngFailed
  if s.ecb.busy && (s.ecb.cmd == 1 || s.ecb.cmd == 0x11 || s.ecb.cmd == 0x12) then s.mbRefuse mbRngFail else s
/-- What a failed health test does (R431): output stops, waiters fail, the count of failures rises, and the third failure in a
row halts the TRNG. The host port's ERR follows the chapter's worked scenario (log 45). -/
def State.healthFailed (s : State) (src : Fin 3) (kind : BitVec 12) (address : Word) : State :=
  let s := s.trngFault kind address
  let s := (s.modEcb fun e =>
    { e.dropDrbg with
      tst := .failed, pool := [], goodBlocks := 0, lastsrc := BitVec.ofNat 2 src.val, err := true
      consec := if e.consec.toNat < 3 then e.consec + 1 else 3 }).failWaiters
  if s.ecb.consec.toNat = 3 then (s.modEcb fun e => { e with tst := .halted }).trngFault 0x504 0 else s

end Sys2Proof.Machine
end

