-- ==== Sys2Proof/Machine/PlanCheck.lean ====
section
/-! DEFINITION. What LOAD_PLAN checks of a parsed plan (the plan checks of 01 to 13), the class it reports (12 R350, R351), and
how tensors are created and released (09 R270, 08 R236). -/

namespace Sys2Proof.Machine

/-! ### The tensor map (05 R152; 08 R236; 12 R356) -/

/-- Two tensors of one map have distinct entries. -/
def pairwiseB {α : Type} (r : α → α → Bool) : List α → Bool
  | [] => true
  | x :: l => l.all (r x) && pairwiseB r l
/-- Pages of a rated area. -/
def ratedBytes : Nat := 96 * 2 ^ 30
/-- Records of a seal table (08 R235). -/
def sealRecords : Nat := 2 ^ 25
/-- Tiles of a chunk (12 R356). -/
def chunkTiles : Nat := 4096
/-- Two parts of a marked tensor that share a chunk lie on one sheet. -/
def chunkOk (a b : TensorPart) : Bool :=
  a.sheet == b.sheet || a.count == 0 || b.count == 0 ||
  decide ((a.first + a.count - 1) / chunkTiles < b.first / chunkTiles ∨ (b.first + b.count - 1) / chunkTiles < a.first / chunkTiles)
/-- One tensor of a map: a defined format, parts on the partition's sheets inside the rated area and the seal table, marks on sealed
tensors only, and chunks on one sheet. -/
def tensorOk (sheets : BitVec 16) (t : Tensor) : Bool :=
  t.handle != 0 && fmtOk t.fmt t.mx &&
  (t.parts.all fun x =>
    sheets.getLsbD x.sheet.val && decide (x.base + partBytes t x ≤ ratedBytes) && x.base % 64 == 0 &&
    (!t.isSealed || decide (x.sealBase + x.count ≤ sealRecords))) &&
  (t.isSealed || !(t.input || t.result)) && (!(t.input || t.result) || pairwiseB chunkOk t.parts)
/-- Seal-table records of a tensor: sheet, first record and count. -/
def sealSpans (t : Tensor) : List (Nat × Nat × Nat) :=
  if t.isSealed then t.parts.map fun x => (x.sheet.val, x.sealBase, x.count) else []
/-- Two tensors of one map: distinct handles and numbers, no page and no seal record of both (log 41). -/
def tensorsApart (a b : Tensor) : Bool :=
  a.handle != b.handle && a.number != b.number &&
  (let pb := tensorPages b
   (tensorPages a).all fun g => !pb.contains g) &&
  (sealSpans a).all fun x => (sealSpans b).all fun y =>
    x.1 != y.1 || decide (x.2.1 + x.2.2 ≤ y.2.1 ∨ y.2.1 + y.2.2 ≤ x.2.1)
/-- Whether a tensor map is consistent on the sheets of a partition. -/
def tensorMapOk (sheets : BitVec 16) (l : List Tensor) : Bool := l.all (tensorOk sheets) && pairwiseB tensorsApart l

/-! ### Engine set-ups (03 R85, R87, R91; 04 R119, R147; 06 R211) -/

/-- The words of an engine program with their operations; a generated address counts as 0. An MMA with TDLOOP = 1 stands once for each descriptor that its loop gives it (03 R97, R98, R502). -/
def staticWords (e : EngSetup) : List (Nat × Uop) :=
  let spans := (loopSpans 0 [] (e.words.map BitVec.toNat)).getD []
  e.words.zipIdx.flatMap fun x =>
    let w := x.1.toNat
    match decodeEngWord planAddr (fun _ => some 0) x.2 w with
    | some (.queued (.mma o)) =>
      if bit w 17 then
        (List.range (max 1 (min 32 ((loopCount spans x.2 (bits w 19 18)).getD 1)))).map fun i => (w, .mma { o with td := o.td + i })
      else [(w, .mma o)]
    | some (.queued u) => [(w, u)]
    | _ => []
/-- The operations of an engine program. -/
def staticOps (e : EngSetup) : List Uop := (staticWords e).map Prod.snd
/-- Descriptor that a set-up gives an index. -/
def setupTd (e : EngSetup) (i : Nat) : TileDesc := match e.tds.find? fun t => t.index.val == i with | some t => t.desc | none => {}
/-- Whether the plan leaves the window exponent of a descriptor to the automatic mode (02 R43). -/
def setupAuto (e : EngSetup) (i : Nat) : Bool := e.tds.any fun t => t.index.val == i && t.auto.isSome
/-- One descriptor: counts at most 128, rows inside accumulator memory, logical indices below 2^48. -/
def tdOk (t : TileDesc) : Bool :=
  decide (t.vrows.toNat ≤ 128 ∧ t.vcols.toNat ≤ 128) && t.frm != 3 &&
  (!t.inAcc || decide (t.accRange.1 + t.accRange.2 ≤ 2048 * 1024)) &&
  (!t.used || decide (t.elemIndex (t.vrows.toNat - 1) (t.vcols.toNat - 1) < 2 ^ 48))
/-- Two valid descriptors of accumulator tiles of one step share no row (R85). -/
def tdsApart (a b : TdSetup) : Bool :=
  a.index != b.index &&
  (!a.desc.inAcc || !b.desc.inAcc ||
    decide (a.desc.accRange.1 + a.desc.accRange.2 ≤ b.desc.accRange.1 ∨ b.desc.accRange.1 + b.desc.accRange.2 ≤ a.desc.accRange.1))
/-- The rows of a logit vector belong to valid descriptors of its format and exponent (04 R119). -/
def vectorOk (e : EngSetup) (o : PassOp) : Bool :=
  let t := setupTd e o.src.val
  let r := vecRange t o.nelem
  decide (r.1 + r.2 ≤ 2048 * 1024) &&
  (List.range (r.2 / 1024)).all fun k => e.tds.any fun x =>
    x.desc.inAcc && x.desc.f32 == t.f32 && x.desc.exp == t.exp &&
    decide (x.desc.accRange.1 ≤ r.1 + 1024 * k ∧ r.1 + 1024 * k < x.desc.accRange.1 + x.desc.accRange.2)
/-- Chains of a coupled-model word inside the slots (06 R211). -/
def chainsOk (slot nch : Nat) : Bool := decide (slot + nch ≤ 128)
/-- The slots of a class 0x7 word are slots that the division binds (06 R211). -/
def chainsBound (d : DivProg) (slot nch : Nat) : Bool :=
  chainsOk slot nch && (List.range nch).all fun c => d.binds.any fun b => b.slot.val == slot + c
/-- A descriptor of the set-up is fit to be a field tile (06 R211). -/
def fieldsFit (e : EngSetup) (td nch : Nat) : Bool := fieldTileOk (setupTd e td) nch
/-- Whether an earlier word of the sequence PROPOSE, SETTLE, APPLY with the same SRC, SLOT and NCH stands in the program
(06 R211). -/
def proposedBy (e : EngSetup) (slot src nch : Nat) : Bool :=
  (staticOps e).any fun u => match u with
    | .propose o => o.slot.val == slot && o.src.val == src && o.nch == nch
    | _ => false
/-- A CPL_SETTLE of the same SRC, SLOT and NCH stands in the program. -/
def settledBy (e : EngSetup) (slot src nch : Nat) : Bool :=
  (staticOps e).any fun u => match u with
    | .settle o => o.slot.val == slot && o.src.val == src && o.nch == nch
    | _ => false
/-- Whether a colouring-checked proposal set is in the division's scan list (06 R180, R211). -/
def setListed (d : DivProg) (e : EngSetup) (o : ProposeOp) : Bool :=
  d.scan.any fun i => match i with
    | .propose _ l b m x => l == e.parcel && decide (128 * b = (setupTd e o.src.val).xbase.toNat) && m == o.aux && x == o.midx
    | _ => false
/-- Whether a group batch is in the division's scan list; the word shows its table address where no generator gives it. -/
def batchSeen (d : DivProg) (e : EngSetup) (w : Nat) (o : GroupOp) : Bool :=
  d.scan.any fun i => match i with
    | .batch _ l a x n => l == e.parcel && (bit w 49 || a == o.gadr) && x == o.gidx && n == o.ng
    | _ => false
/-- What LOAD_PLAN can see of a word beside its own encoding. -/
def staticOpOk (l : List Tensor) (d : DivProg) (e : EngSetup) (w : Nat) : Uop → Bool
  | .mma o => decide (o.roff + o.rows ≤ (setupTd e o.td).vrows.toNat)
  | .smpMax o | .smpWeigh o | .smpCut o | .smpDraw o => vectorOk e o
  | .bernoulli o | .heatbath o | .metropolis o => (setupTd e o.dst.val).exp == 0 && !setupAuto e o.dst.val
  | .tileAddMem o =>
    match l.find? fun t => t.handle == o.handle with
    | some t => t.fmt != 10 || (t.wexp == (setupTd e o.td.val).exp && !setupAuto e o.td.val)
    | none => false
  | .tileLoad o | .tileStore o | .accStore o | .accLoad o => l.any fun t => t.handle == o.handle
  | .fields o => chainsBound d o.slot.val o.nch && fieldsFit e o.src.val o.nch && fieldsFit e o.dst.val o.nch
  | .propose o => chainsBound d o.slot.val o.nch && fieldsFit e o.src.val o.nch && (!o.cchk || setListed d e o)
  | .settle o => chainsBound d o.slot.val o.nch && fieldsFit e o.src.val o.nch && proposedBy e o.slot.val o.src.val o.nch
  | .apply o => chainsBound d o.slot.val o.nch && fieldsFit e o.src.val o.nch && settledBy e o.slot.val o.src.val o.nch
  | .group o => chainsBound d o.slot.val o.nch && fieldsFit e o.src.val o.nch && batchSeen d e w o
  | .energy o =>
    chainsBound d o.slot.val o.nch && (!o.init || o.echk) &&
    ((setupTd e o.src.val).vrows == 0 || fieldsFit e o.src.val o.nch)
  | .exchange o => chainsBound d o.slot.val o.nch
  | _ => true
/-- Tensors that a set of words writes in DRAM. -/
def writtenHandles (ops : List Uop) : List (BitVec 16) :=
  ops.filterMap fun u => match u with
    | .tileStore o => some o.handle
    | .accStore o => some o.handle
    | .tileAddMem o => some o.handle
    | _ => none
/-- Tensors that a set of words adds into. -/
def addedHandles (ops : List Uop) : List (BitVec 16) := ops.filterMap fun u => match u with | .tileAddMem o => some o.handle | _ => none
/-- Tensors that a set of words loads. -/
def loadedHandles (ops : List Uop) : List (BitVec 16) :=
  ops.filterMap fun u => match u with
    | .tileLoad o => some o.handle
    | .accLoad o => some o.handle
    | _ => none
/-- Automatic window exponents name MX tensors that the step itself does not write (02 R43). -/
def autoOk (l : List Tensor) (written : List (BitVec 16)) (t : TdSetup) : Bool :=
  match t.auto with
  | none => true
  | some (a, b, _) => (a ++ b).all fun x =>
      !written.contains x.1 && l.any fun y => y.handle == x.1 && y.mx
/-- One engine set-up. -/
def setupOk (l : List Tensor) (written : List (BitVec 16)) (d : DivProg) (e : EngSetup) : Bool :=
  programOk e.pc.toNat e.words && decide (64 * e.progUnit + progBytes ≤ 12 * 2 ^ 20) && decide (e.pc.toNat < e.words.length) &&
  (e.tds.all fun t => tdOk t.desc && autoOk l written t) && pairwiseB tdsApart e.tds &&
  (staticWords e).all fun x => staticOpOk l d e x.1 x.2

/-! ### Divisions and step programs -/

/-- The vocabulary ranges of a slot that one sheet's plan sequencer sees: no overlap, and no gap where the slot is declared on
this sheet alone (04 R120). -/
def visibleRangesOk (d : DivProg) (slot : Nat) : Bool :=
  let l := (d.ranges.filter fun r => r.1 == slot).map Prod.snd
  let alone := d.binds.all fun b => b.slot.val != slot || b.sheets.all fun h => h == d.sheet
  let total := (l.map Prod.snd).sum
  pairwiseB (fun a b => decide (a.1 + a.2 ≤ b.1 ∨ b.1 + b.2 ≤ a.1) || a.2 == 0 || b.2 == 0) l &&
  (!alone || l.all fun r => decide (r.1 + r.2 ≤ total) || r.2 == 0)
/-- q_max of a coupled model (06 R178): 8 for INT4, 128 for INT8, what the plan declares for BF16; no other format is one of a
coefficient tensor (R176). -/
def modelQmax (l : List Tensor) (m : ModelDecl) : Option Nat :=
  match l.find? fun t => t.handle == m.tensor with
  | none => none
  | some t => if t.mx then none else if t.fmt = 0 then some 8 else if t.fmt = 1 then some 128 else if t.fmt = 7 then some m.qmax else none
/-- The bound under which no field, energy or energy difference of a coupled model saturates (06 R178). -/
def modelOk (l : List Tensor) (m : ModelDecl) : Bool :=
  match modelQmax l m with
  | none => false
  | some q => decide (m.n * m.hmax + m.n * (m.n - 1) / 2 * q < 2 ^ 62)
/-- Every coefficient tensor of a scan list has its model's bounds declared (06 R178, R180). -/
def modelsDeclared (d : DivProg) : Bool :=
  d.scan.all fun i => match i with
    | .tensor h _ => d.models.any fun m => m.tensor == h
    | _ => true
/-- One division on one sheet, for a context's slots. -/
def divOk (l : List Tensor) (written : List (BitVec 16)) (lo n : Nat) (d : DivProg) : Bool :=
  decide (d.n ≤ 16) && pairwiseB (fun (a b : EngSetup) => a.parcel != b.parcel) d.engines && (d.engines.all (setupOk l written d)) &&
  (d.engines.all fun e => decide (e.parcel.val < d.n)) &&
  (d.binds.all fun b => decide (lo ≤ b.slot.val ∧ b.slot.val < lo + n)) &&
  decide (d.streams.eraseDups.length ≤ 1024) && (d.models.all (modelOk l)) && modelsDeclared d &&
  ((d.ranges.map Prod.fst).eraseDups.all (visibleRangesOk d))
/-- One step program: no parcel loads from a tensor that another adds into (08 R252). -/
def progOk (l : List Tensor) (lo n : Nat) (g : StepProg) : Bool :=
  g.divs.all fun d =>
    let mine := g.divs.filter fun x => x.n == d.n
    let ops := mine.flatMap fun x => x.engines.map fun e => ((x.sheet, e.parcel), staticOps e)
    let written := writtenHandles (ops.flatMap Prod.snd)
    divOk l written lo n d &&
    ops.all fun a => (addedHandles a.2).all fun h => ops.all fun b => a.1 == b.1 || !(loadedHandles b.2).contains h

/-! ### Class (12 R350, R351) and the whole plan -/

/-- The class of a plan. -/
def planClass (p : Plan) : Byte :=
  if p.features.f32addMem then 2
  else if p.features.syncMode then 1
  else if p.features.f32sums && !(p.f32sigs.all fun x => some x == p.f32sigs.head?) then 1
  else 0
/-- Ports that a plan's route tables name on this device (11 R335). -/
def State.planPorts (s : State) (p : Plan) : List Nat :=
  let trees := (p.trees.filter fun t => t.dev.val == s.chart.reg.devId.toNat).flatMap fun t =>
    (t.parent.toList ++ t.children).map Fin.val
  let devs := (p.span.filter fun d => d.val != s.chart.reg.devId.toNat).filterMap fun d => s.routePort d.val
  trees ++ devs
/-- A plan image carries one division of its work for each in-service count from 16 down to its declared minimum, which is at
least 12 (01 R17, R20), on every sheet of the partition. -/
def divisionsWhole (sheets : BitVec 16) (p : Plan) : Bool :=
  decide (12 ≤ p.minInsvc ∧ p.minInsvc ≤ 16) && p.progs.all fun g =>
    pairwiseB (fun (a b : DivProg) => a.sheet != b.sheet || a.n != b.n) g.divs &&
    sheetIdx.all fun h => !sheets.getLsbD h || (List.range 17).all fun n => decide (n < p.minInsvc) || (divFor g h n).isSome
/-- What a chart plan must hold: an epoch length of 1 to 256 steps, and span trees with numbers from 1, one of them the epoch tree, of
which this device is a node (11 R335, R342). -/
def State.chartPlanOk (s : State) (p : Plan) : Bool :=
  !planIsChart p ||
    (decide (1 ≤ p.epochLen ∧ p.epochLen ≤ 256) && (p.trees.all fun t => t.num != 0) &&
      (match p.epochTree with | some n => (s.spanTree p n).isSome | none => false))
/-- The plan checks of LOAD_PLAN, the page limits apart. -/
def State.planOk (s : State) (c : CtxId) (p : Plan) : Bool :=
  let x := s.ctx c.val
  let q := s.part x.part.toNat
  tensorMapOk q.sheets p.tensors && divisionsWhole q.sheets p && (p.progs.all (progOk p.tensors x.slotBase.toNat x.slotCnt.toNat)) && !p.orderBroken &&
  ((s.planPorts p).all fun n => q.ports.getLsbD n) && (!p.replicated || planClass p == 0) && s.chartPlanOk p

/-! ### Creating and releasing tensors (R270; 08 R236) -/

/-- Whether a new map keeps a tensor of the old one: marked kept, with the same number, format and shape. -/
def keeps (old new : List Tensor) (t : Tensor) : Bool :=
  new.any fun y => y.kept && y.number == t.number && y.fmt == t.fmt && y.mx == t.mx && y.isSealed == t.isSealed &&
    y.bytes == t.bytes && y.parts == t.parts && old.contains t
/-- Pages that a list of tensors holds on a sheet. -/
def pagesOn (l : List Tensor) (h : Nat) : Nat := ((l.flatMap tensorPages).filter fun g => g.1 == h).length
/-- Whether the tensors of a context, with new ones and without released ones, stay inside `CTX.QUOTA` on every sheet. -/
def quotaOk (x : Ctx) (gone fresh : List Tensor) : Bool :=
  let stay := x.tensors.filter fun t => !gone.contains t
  sheetIdx.all fun h => decide (pagesOn (stay ++ fresh) h ≤ x.quota.toNat)
/-- Whether a page can take a new tensor: free, or with copies that differ and one of them free (08 R236); never one that waits to
be zeroed. -/
def MemPath.takesTensor (m : MemPath) (g : Nat) : Bool :=
  ((m.attr g).1 == 0 || (m.attr g).2 == 0) && !m.lockedOrphans.contains g && !m.orphans.contains g
/-- Whether the pages of new tensors are free once those of released ones are. -/
def State.pagesFree (s : State) (gone fresh : List Tensor) : Bool :=
  let out := gone.flatMap tensorPages
  (fresh.flatMap tensorPages).all fun g => out.contains g || (s.sheet g.1).mem.takesTensor g.2
/-- Create a tensor: its pages become raw or sealed in both copies, and its records start with WRITTEN = 0. -/
def State.createTensor (s : State) (t : Tensor) : State :=
  let s := s.forEach (tensorPages t) fun s g =>
    (s.lookPages g.1 [g.2] 2).modMem g.1 fun m => m.setAttr g.2 (if t.isSealed then 3 else 1)
  if t.isSealed then s.forEach t.parts fun s x => s.modMem x.sheet.val fun m => m.dropRecords x else s
/-- A COPY, RESTORE or LOAD_PLAN wrote a marked tensor: the RUN in progress, or the last record, is broken (12 R360). -/
def State.markBroken (s : State) (c : CtxId) : State :=
  let p := s.ctxPart c
  if ((s.part p).runOf c).isSome then s.modRunOf p c fun r => { r with broken := true }
  else s.modCtx c.val fun x =>
    { x with records := match x.records.getLast? with
        | some r => x.records.dropLast ++ [{ r with broken := true }]
        | none => [] }
/-- A transfer descriptor of a context starts: it is a suspect of a later halt (14 R392). -/
def State.noteTransfer (s : State) (c : CtxId) : State :=
  s.modPart (s.ctxPart c) fun x => { x with activity := c :: x.activity.filter fun y => y != c, trialRan := x.hang == .isolation }
/-- Whether a RUN of a handle is pending in a queue. -/
def State.runPending (s : State) (c : CtxId) (h : BitVec 32) : Bool :=
  s.queues.any fun q => q.2.fetched.any fun d => dOp d == 2 && dCtx d == c && dPlan d == h && d.status == none
/-- Put a plan in a context, with its tensors. -/
def State.installPlan (s : State) (c : CtxId) (h : BitVec 32) (p : Plan) (hash : List Byte) (gone fresh : List Tensor) : State :=
  let s := s.forEach gone fun s t => s.releaseTensor t (s.ctx c.val).scrub false 2
  let s := s.forEach fresh State.createTensor
  let s := if fresh.any fun t => t.input || t.result then s.markBroken c else s
  let l : LoadedPlan := { handle := h, hash := hash, cls := planClass p, plan := p }
  let s := s.forEach (s.part (s.ctxPart c)).sheetList fun s i => s.modSheet i fun x => { x with stagingPoison := false }
  s.modCtx c.val fun x =>
    { x with plans := (x.plans.filter fun y => y.handle != h) ++ [l], records := x.records.filter fun r => r.run.plan != h }
/-- What LOAD_PLAN does with an image that has been read. -/
def State.loadImage (s : State) (q : Nat) (d : Desc) (b : List Byte) : State :=
  let c := dCtx d
  let x := s.ctx c.val
  match Config.parsePlan b with
  | none => s.decideHead q stRejected
  | some p =>
    let old := match x.planOf (dPlan d) with | some l => l.plan.tensors | none => []
    let gone := old.filter fun t => !keeps old p.tensors t
    let fresh := p.tensors.filter fun t => !(old.any fun y => y.number == t.number && keeps old p.tensors y)
    if !s.planOk c p || !quotaOk x gone fresh || !s.pagesFree gone fresh then s.decideHead q stRejected
    else
      let hash := shake256 32 b
      (s.installPlan c (dPlan d) p hash gone fresh).decideHead q stOk 0
        ((planClass p).toNat * 2 ^ 24 + fresh.length % 2 ^ 24) cfDigestV (leNat (hash.take 8))
/-- LOAD_PLAN. An image that a double-bit error of staging poisons completes with CHECK_FAILED (log 33). -/
def State.doLoadPlan (s : State) (q : Nat) (img : HostRead) (dist : Disturb) : State :=
  match s.headReady q 1 with
  | none => s
  | some d =>
    let c := dCtx d
    let x := s.ctx c.val
    let known := (x.planOf (dPlan d)).isSome
    if !s.mayDispatch c then s
    else if known && (dArg1 d == 0 || s.runPending c (dPlan d)) then s.decideHead q stBad
    else if !known && decide (64 ≤ x.plans.length) then s.decideHead q stRejected
    else
      let s := (s.noteTransfer c).dmaRead (dArgPtr d) (dArg0 d)
      match img with
      | none => s.hostReadFailed q
      | some b =>
        let s := s.stagingErrors ((s.part (s.ctxPart c)).sheetList.headD 0) dist
        if b.length < dArg0 d then s.decideHead q stRejected
        else if !dist.storeDbl.isEmpty then s.decideHead q stCheckFailed 0x104
        else s.loadImage q d (b.take (dArg0 d))

end Sys2Proof.Machine
end

