-- ==== Sys2Proof/Machine/Descriptors.lean ====
section
/-! DEFINITION. The descriptor opcodes (09 R270, R271, R274, R275, R290; 05 R167-R173; 12 R361, R362; 16 R438; 17 R459). -/

namespace Sys2Proof.Machine

/-- A tensor whose tiles COPY, RESTORE or LOAD_PLAN writes: a RUN's record over it is broken where it is marked (12 R360). -/
def State.noteMarked (s : State) (c : CtxId) (t : Tensor) : State := if t.input || t.result then s.markBroken c else s

/-! ### Tile images from the host (08 R243-R245, R251) -/

/-- Every place where a tile lies: a tensor may hold a part on several sheets. -/
def tilePlaces (t : Tensor) (i : Nat) : List TileLoc :=
  (t.parts.filter fun x => decide (x.first ≤ i ∧ i < x.first + x.count)).map fun x =>
    { sheet := x.sheet.val, addr := x.base + (i - x.first) * t.stride, sealIx := x.sealBase + (i - x.first) }
/-- A whole write of an arriving image: its header and its seal, POISON where it is poisoned or the copies of a page attribute
differ. -/
def State.putImage (s : State) (t : Tensor) (l : TileLoc) (img : List Byte) (poison : Bool) : State :=
  let bytes := img.drop 32
  let s := s.sheetEvent l.sheet
    { cls := 3, code := 0x11, inc := (bytes.length + 63) / 64, addr := some (dramDevAddr l.sheet l.addr) }
  let pages := pagesOf l.addr bytes.length
  let dif := pages.any (s.sheet l.sheet).mem.differs
  let s := s.lookPages l.sheet pages 2
  let r := mkRecord img (poison || dif) (recSeal img)
  s.poisonMem l.sheet fun m => ({ m with dram := mwrite m.dram l.addr bytes }.putRecord l.sealIx r).keepHash t l.sealIx r bytes
/-- An image that arrives from the host for tile `i`: its checks, and the write, poisoned where a check fails. The kind of the
failure, if any. -/
def State.takeImage (s : State) (t : Tensor) (i : Nat) (img : List Byte) (spoiled : Bool) : State × Option (BitVec 12) :=
  let n := 32 + tileBytes t.fmt t.mx
  let img := (img ++ List.replicate n 0).take n
  let bad := checkTile (img.take 32) (img.drop 32) { tensor := t.number.toNat, tile := i, fmt := some (t.fmt, t.mx) }
  let poison := bad.isSome || spoiled || recPoison img
  let s := match bad, t.tileLoc 0 i with
    | some k, some l => s.sealFailed l.sheet k (dramDevAddr l.sheet l.addr) none 2
    | _, _ => s
  (s.forEach (tilePlaces t i) fun s l => s.putImage t l img poison, bad)

/-! ### COPY (R271; 08 R249, R250) -/

/-- A COPY block: OFFSET, LENGTH, HANDLE and DIR; nothing where a zero byte is not zero or DIR is reserved. -/
def copyBlock (b : List Byte) : Option (Nat × Nat × BitVec 16 × Nat) :=
  let b := (b ++ List.replicate 32 0).take 32
  if recField b 18 1 < 2 && (b.drop 19).all (· == 0) then
    some (recField b 0 8, recField b 8 8, BitVec.ofNat 16 (recField b 16 2), recField b 18 1)
  else none
/-- Bytes of a tile image of a tensor. -/
def imageSize (t : Tensor) : Nat := 32 + tileBytes t.fmt t.mx
/-- Bytes of a tensor as a COPY sees them. -/
def copyExtent (t : Tensor) : Nat := if t.isSealed then imageSize t * tileCount t else t.bytes
/-- Whether a COPY's range is one of the tensor's. -/
def copyRangeOk (t : Tensor) (off len : Nat) : Bool :=
  decide (off + len ≤ copyExtent t) && (!t.isSealed || (off % imageSize t == 0 && len % imageSize t == 0))
/-- The pieces of a raw tensor's bytes from an offset: sheet, address, length, and the range of the part they lie in. -/
def rawRuns (t : Tensor) (off len : Nat) : List (Nat × Nat × Nat × Nat × Nat) :=
  let go := t.parts.foldl (fun (a : Nat × List (Nat × Nat × Nat × Nat × Nat)) x =>
    let n := partBytes t x
    let lo := max off a.1
    let hi := min (off + len) (a.1 + n)
    (a.1 + n, if lo < hi then a.2 ++ [(x.sheet.val, x.base + (lo - a.1), hi - lo, x.base, x.base + n)] else a.2)) (0, [])
  go.2
/-- COPY from the host into a sealed tensor: every image is checked; a failed one leaves its tile poisoned (R251). -/
def State.copyInSealed (s : State) (q : Nat) (t : Tensor) (off len : Nat) (b : List Byte) (spoiled : Bool) : State :=
  let n := imageSize t
  let r := (List.range (len / n)).foldl (fun (a : State × Option (BitVec 12)) k =>
    let x := a.1.takeImage t (off / n + k) ((b.drop (n * k)).take n) spoiled
    (x.1, a.2 <|> x.2)) (s, none)
  match r.2 with
  | some k => r.1.decideHead q stCheckFailed k len
  | none => r.1.decideHead q stOk 0 len
/-- COPY from the host into a raw tensor: one single write. -/
def State.copyInRaw (s : State) (q : Nat) (t : Tensor) (off len : Nat) (b : List Byte) (spoiled : Bool) : State :=
  let r := (rawRuns t off len).foldl (fun (a : State × List Byte) x =>
    (a.1.storeRaw x.1 x.2.1 ((a.2 ++ List.replicate x.2.2.1 0).take x.2.2.1) spoiled true x.2.2.2.1 x.2.2.2.2 2, a.2.drop x.2.2.1))
    (s, b)
  r.1.decideHead q stOk 0 len
/-- A COPY to the host reaches its commit point at a poisoned tile or page: what came before it was written (R249, R250). -/
def State.copyPoisoned (s : State) (q : Nat) (c : CtxId) (sheet addr n : Nat) : State :=
  let s := s.sendFault
    { source := sheetSource sheet 3, kind := 0x110, ctx := some c, op := 1, address := BitVec.ofNat 64 (dramDevAddr sheet addr) }
  (s.decideHead q stPoison 0x110 n cfPartial).contain (s.ctxPart c) c
/-- The tiles of a COPY to the host up to the first poisoned one: the images, and where that one lies. -/
def State.readImages (s : State) (t : Tensor) (spoiled : Bool) (d : Disturb) : List Nat → State × List Byte × Option TileLoc
  | [] => (s, [], none)
  | i :: rest =>
    match t.tileLoc 0 i with
    | none => (s, [], none)
    | some l =>
      let r := s.readTile t l i (some (t.fmt, t.mx)) 1 d
      if r.2.poison || spoiled then (r.1, [], some l)
      else
        let x := r.1.readImages t spoiled {} rest
        (x.1, r.2.record ++ r.2.bytes ++ x.2.1, x.2.2)
/-- The bytes of a COPY from a raw tensor up to the first poisoned page. -/
def State.readRuns (s : State) (spoiled : Bool) : List (Nat × Nat × Nat × Nat × Nat) → State × List Byte × Option (Nat × Nat)
  | [] => (s, [], none)
  | x :: rest =>
    let m := (s.sheet x.1).mem
    let pages := pagesOf x.2.1 x.2.2.1
    let s := s.lookPages x.1 pages 1
    let s := s.sheetEvent x.1
      { cls := 3, code := 0x10, inc := (x.2.2.1 + 63) / 64, addr := some (dramDevAddr x.1 x.2.1) }
    match pages.find? fun g => spoiled || m.differs g || (m.attr g).1 == 2 with
    | some g =>
      let at' := max x.2.1 (4096 * g)
      (s, mread m.dram x.2.1 (at' - x.2.1), some (x.1, at'))
    | none =>
      let y := s.readRuns spoiled rest
      (y.1, mread m.dram x.2.1 x.2.2.1 ++ y.2.1, y.2.2)
/-- The end of a COPY to the host: its bytes leave in one transfer. -/
def State.copyOut (s : State) (q : Nat) (d : Desc) (b : List Byte) (stop : Option (Nat × Nat)) : State :=
  let s := if b.isEmpty then s else s.dmaWrite (dArg0 d) b
  match stop with
  | some x => s.copyPoisoned q (dCtx d) x.1 x.2 b.length
  | none => s.decideHead q stOk 0 b.length
/-- A COPY whose block and tensor are good. -/
def State.copyRun (s : State) (q : Nat) (d : Desc) (t : Tensor) (off len dir : Nat) (data : HostRead) (dist : Disturb) : State :=
  let c := dCtx d
  let h := match t.parts.head? with | some x => x.sheet.val | none => 0
  let spoiled := !dist.storeDbl.isEmpty
  if dir = 0 then
    let s := s.dmaRead (dArg0 d) len
    match data with
    | none => s.hostReadFailed q
    | some b =>
      let s := ((s.noteTransfer c).stagingErrors h dist).noteMarked c t
      if t.isSealed then (s.upset h dist).copyInSealed q t off len b spoiled else (s.upset h dist).copyInRaw q t off len b spoiled
  else
    let s := (s.noteTransfer c).stagingErrors h dist
    if t.isSealed then
      let r := s.readImages t spoiled dist ((List.range (len / imageSize t)).map fun k => off / imageSize t + k)
      r.1.copyOut q d r.2.1 (r.2.2.map fun l => (l.sheet, l.addr))
    else
      let r := (s.upset h dist).readRuns spoiled (rawRuns t off len)
      r.1.copyOut q d r.2.1 r.2.2
/-- Whether a COPY waits on a slice in a refresh stall (08 R253). -/
def State.copyStalls (s : State) (t : Tensor) (off len : Nat) : Bool :=
  if t.isSealed then (List.range (len / imageSize t)).any fun k => s.tileStalls t (off / imageSize t + k)
  else (rawRuns t off len).any fun x => s.stalls x.1 x.2.1 x.2.2.1
/-- COPY. -/
def State.doCopy (s : State) (q : Nat) (blk data : HostRead) (dist : Disturb) : State :=
  match s.headReady q 3 with
  | none => s
  | some d =>
    if !s.mayDispatch (dCtx d) then s
    else
      let s0 := s
      let s := s.dmaRead (dArgPtr d) 32
      match blk with
      | none => s.hostReadFailed q
      | some b =>
        match copyBlock b, (s.ctx (dCtx d).val).planOf (dPlan d) with
        | some (off, len, h, dir), some l =>
          match l.plan.tensors.find? fun t => t.handle == h with
          | some t =>
            if !copyRangeOk t off len then s.decideHead q stBad
            else if s.copyStalls t off len then s0
            else s.copyRun q d t off len dir data dist
          | none => s.decideHead q stBad
        | _, _ => s.decideHead q stBad

/-! ### SEED and device seeds (05 R153, R167-R170) -/

/-- A job seed is bound to a context: its step counter starts at 0 (05 R153). -/
def State.bindSeed (s : State) (c : CtxId) (b : List Byte) (dev : Bool) : State :=
  s.modCtx c.val fun x => { x with seed := some (b, dev), step := 0 }
/-- SEED: from 32 bytes at SEEDPTR, or from the device's seed once it has been served. -/
def State.doSeed (s : State) (q : Nat) (bytes : HostRead) : State :=
  match s.headReady q 4 with
  | none => s
  | some d =>
    if !s.mayDispatch (dCtx d) then s
    else if dSeedSel d = 1 then
      let s := s.dmaRead (dSeedPtr d) 32
      match bytes with
      | none => s.hostReadFailed q
      | some b => (s.bindSeed (dCtx d) ((b ++ List.replicate 32 0).take 32) false).decideHead q stOk
    else match d.seedBytes with
      | some b => (s.bindSeed (dCtx d) b true).decideHead q stOk
      | none => s
/-- DEVICE_SEED_SERVE: the oldest waiting request is served once random output is ready; the seed is written to SEEDPTR. -/
def State.doSeedServe (s : State) (q : Nat) : State :=
  if s.ecb.seedWait.head? != some q || s.ecb.st != .ready then s
  else match s.head q with
    | none => s
    | some d =>
      if d.wants != 1 || d.status.isSome then s.modEcb fun e => { e with seedWait := e.seedWait.drop 1 }
      else
        let r := s.drbgDraw 32 false (devSource 0) (dCtx d).val d.seq.toNat
        match r.2 with
        | none => r.1
        | some b =>
          let s := r.1.modEcb fun e => { e.descService with seedWait := e.seedWait.drop 1 }
          (s.dmaWrite (dSeedPtr d) b).modHead q fun d => { d with wants := 0, seedBytes := some b, cflags := d.cflags ||| cfSeedWr }

/-! ### RUN, FENCE (R274, R275) -/

/-- RUN: the descriptor starts; the plan sequencers accept it at RUN_DISPATCH. -/
def State.doRun (s : State) (q : Nat) : State :=
  match s.headReady q 2 with
  | none => s
  | some d => if s.mayDispatch (dCtx d) then s.modHead q fun d => { d with started := true } else s
/-- FENCE: it starts, and holds its queue. -/
def State.doFence (s : State) (q : Nat) : State :=
  match s.headReady q 5 with
  | none => s
  | some _ => s.modHead q fun d => { d with started := true }
/-- Whether a doorbell that came before a FENCE's own still has entries of its queue to fetch, or a descriptor of the context that
came with one is not completed. -/
def State.fenceHeld (s : State) (d : Desc) : Bool :=
  s.queues.any fun x =>
    (x.2.bells.any fun b => decide (b.2 < d.doorbell)) ||
    x.2.fetched.any fun y => dCtx y == dCtx d && y.bytes.length == 64 && decide (y.doorbell < d.doorbell)
/-- FENCE_COMPLETE. -/
def State.doFenceComplete (s : State) (q : Nat) : State :=
  match s.head q with
  | none => s
  | some d =>
    if d.started && d.status == none && dOp d == 5 && !s.fenceHeld d then s.decideHead q stOk else s

/-! ### CHECKPOINT and RESTORE (R270; 05 R173) -/

/-- Slots that a context has bound: sheet and slot. -/
def State.ctxSlots (s : State) (c : CtxId) : List (Nat × Nat) :=
  sheetIdx.flatMap fun h => ((s.sheet h).slots.filter fun x => x.2.ctx == some c).map fun x => (h, x.1)
/-- A slot and its chain as a checkpoint image holds them. -/
def State.slotImage (s : State) (x : Nat × Nat) : SlotImage :=
  let r := ((s.sheet x.1).slot x.2).reg
  { sheet := x.1, slot := x.2, step := r.step, gslot := r.gslot, tensor := r.tensor, params := slotParamBytes r
    chain := chainBytes ((s.sheet x.1).chain x.2).reg }
/-- Reads the tiles of the tensors marked for checkpoint: their images, POISON set in those of poisoned tiles and, where staging
met a double-bit error (`spoiled`), in every one; and the kind of the first check that failed. -/
def State.ckptTiles (s : State) (l : List (Tensor × Nat)) (d : Disturb) (spoiled : Bool) : State × List TileImage × Option (BitVec 12) :=
  l.foldl (fun (a : State × List TileImage × Option (BitVec 12)) x =>
    match x.1.tileLoc 0 x.2 with
    | none => a
    | some loc =>
      let up := if a.2.1.isEmpty then d else {}
      let r := a.1.readTile x.1 loc x.2 none 1 up
      let bad := if x.1.isSealed then
          checkTile r.2.record r.2.bytes { tensor := x.1.number.toNat, tile := x.2, fmt := none }
        else none
      let rcd := if x.1.isSealed then mkRecord r.2.record (r.2.poison || spoiled) (recSeal r.2.record)
        else mkRecord (mapHeader x.1 x.2) (r.2.poison || spoiled) (sealOf (mapHeader x.1 x.2) r.2.bytes)
      (r.1, a.2.1 ++ [{ tensor := x.1.number, tile := x.2, image := rcd ++ r.2.bytes }], a.2.2 <|> bad)) (s, [], none)
/-- CHECKPOINT: the image of the context's logical state and marked tensors; a smaller buffer receives nothing. -/
def State.doCheckpoint (s : State) (q : Nat) (dist : Disturb) : State :=
  match s.headReady q 6 with
  | none => s
  | some d =>
    let c := dCtx d
    if !s.mayDispatch c then s
    else
      let x := s.ctx c.val
      let tiles := (x.tensors.filter fun t => t.ckpt).flatMap fun t => (List.range (tileCount t)).map fun i => (t, i)
      if tiles.any fun y => s.tileStalls y.1 y.2 then s else
      let spoiled := !dist.storeDbl.isEmpty
      let r := ((s.noteTransfer c).stagingErrors ((s.part (s.ctxPart c)).sheetList.headD 0) dist).ckptTiles tiles dist spoiled
      let img := Config.checkpointImage
        { seed := x.seed, step := x.step, slots := (s.ctxSlots c).map s.slotImage, tiles := r.2.1 }
      if dArg1 d < img.length then s.decideHead q stBad
      else
        let s := r.1.dmaWrite (dArg0 d) img
        let bad := if spoiled then some (0x104 : BitVec 12) else r.2.2
        let st := match bad with | some _ => stCheckFailed | none => stOk
        s.decideHead q st (bad.getD 0) ((img.length + 4095) / 4096) cfDigestV (leNat ((shake256 32 img).take 8))
/-- Chain registers read back from their 56 bytes (06 R207). -/
def chainOfBytes (b : List Byte) : ChainRegs :=
  let w (i : Nat) : Nat := recField b (8 * i) 8
  { sweep := BitVec.ofNat 64 (w 0), energy := BitVec.ofNat 64 (w 1), best := BitVec.ofNat 64 (w 2)
    teff := BitVec.ofNat 32 (bits (w 3) 63 32), invt := BitVec.ofNat 32 (bits (w 3) 31 0)
    gust := BitVec.ofNat 32 (bits (w 4) 63 32), stall := BitVec.ofNat 16 (bits (w 4) 31 16), rung := BitVec.ofNat 8 (bits (w 4) 15 8)
    accept := BitVec.ofNat 24 (bits (w 5) 63 40), redec := BitVec.ofNat 24 (bits (w 5) 39 16)
    cflags := BitVec.ofNat 8 (bits (w 5) 15 8), conflict := BitVec.ofNat 32 (bits (w 6) 63 32)
    eexp := BitVec.ofNat 11 (bits (w 6) 31 21), phead := BitVec.ofNat 21 (bits (w 6) 20 0) }
/-- A slot's parameters read from a 32-byte entry (04 R122). -/
def slotOfEntry (r : SlotRegs) (b : List Byte) : SlotRegs :=
  let w0 := recField b 0 8
  let w1 := recField b 8 8
  { r with
    invt := BitVec.ofNat 32 (bits w0 63 32), base2 := bit w0 31, greedy := bit w0 30, topp := BitVec.ofNat 17 (bits w0 16 0)
    mask := BitVec.ofNat 16 (bits w1 63 48), topk := BitVec.ofNat 31 (bits w1 30 0) }
/-- A slot and its chain take the values of a checkpoint image; the parameter entry goes back to the slot parameter tensor of each
plan of the context. -/
def State.restoreSlot (s : State) (c : CtxId) (x : SlotImage) : State :=
  let s := s.modSheet x.sheet fun h =>
    (h.modSlot x.slot fun y =>
      let r := slotOfEntry { y.reg with step := x.step, gslot := x.gslot, tensor := x.tensor } x.params
      { y with reg := r, pend := r, start := r, ctx := some c }).modChain x.slot fun y =>
      let r := chainOfBytes x.chain
      { y with reg := r, pend := r, start := r }
  s.forEach (s.ctx c.val).plans fun s l =>
    match l.plan.tensors.find? fun t => t.handle == l.plan.slotParams && l.plan.slotParams != 0 with
    | none => s
    | some t => match (t.parts.find? fun y => y.sheet.val == x.sheet) <|> t.parts.head? with
      | none => s
      | some y => s.modMem y.sheet.val fun m => { m with dram := mwrite m.dram (y.base + 32 * x.slot) (x.params.take 32) }
/-- Whether every step program of a context's plans holds a division for every sheet of the partition as it stands (05 R172). -/
def State.divisionsHeld (s : State) (c : CtxId) : Bool :=
  let sheets := (s.part (s.ctxPart c)).sheetList
  (s.ctx c.val).plans.all fun l => l.plan.progs.all fun g =>
    sheets.all fun h => (divFor g h (s.sheet h).pmap.length).isSome
/-- The tensor of a context by number. -/
def Ctx.tensorNum (x : Ctx) (n : BitVec 32) : Option Tensor := x.tensors.find? fun t => t.number == n
/-- Whether every slot and tile of an image is one of the context's. -/
def State.imageFits (s : State) (c : CtxId) (k : Checkpoint) : Bool :=
  let x := s.ctx c.val
  (k.slots.all fun y => (s.part x.part.toNat).sheets.getLsbD y.sheet &&
    decide (x.slotBase.toNat ≤ y.slot ∧ y.slot < x.slotBase.toNat + x.slotCnt.toNat)) &&
  k.tiles.all fun y => match x.tensorNum y.tensor with | some t => decide (y.tile < tileCount t) | none => false
/-- What RESTORE does with a parsed image. The context's keys are not saved: each is derived again for its next step (05 R173). -/
def State.restoreImage (s : State) (q : Nat) (d : Desc) (k : Checkpoint) (b : List Byte) (spoiled : Bool) : State :=
  let c := dCtx d
  let s := s.modCtx c.val fun x => { x with seed := k.seed, step := k.step, restored := true }
  let s := s.forEach (s.part (s.ctxPart c)).sheetList fun s h => s.modSheet h fun x => { x with key := x.key.forget c }
  let s := s.forEach k.slots fun s y => s.restoreSlot c y
  let r := k.tiles.foldl (fun (a : State × Option (BitVec 12)) y =>
    match (a.1.ctx c.val).tensorNum y.tensor with
    | none => a
    | some t =>
      let x := (a.1.noteMarked c t).takeImage t y.tile y.image spoiled
      (x.1, a.2 <|> x.2)) (s, none)
  let dig := leNat ((shake256 32 b).take 8)
  match r.2 with
  | some kind => r.1.decideHead q stCheckFailed kind 0 cfDigestV dig
  | none => r.1.decideHead q stOk 0 0 cfDigestV dig
/-- Whether a RESTORE waits on a slice in a refresh stall: of a tile of the image or of a slot parameter tensor (08 R253). -/
def State.imageStalls (s : State) (c : CtxId) (k : Checkpoint) : Bool :=
  (k.tiles.any fun y => ((s.ctx c.val).tensorNum y.tensor).any fun t => s.tileStalls t y.tile) ||
  (!k.slots.isEmpty && (s.ctx c.val).plans.any fun l => l.plan.tensors.any fun t =>
    t.handle == l.plan.slotParams && l.plan.slotParams != 0 && s.tensorStalls t)
/-- RESTORE. -/
def State.doRestore (s : State) (q : Nat) (img : HostRead) (dist : Disturb) : State :=
  match s.headReady q 7 with
  | none => s
  | some d =>
    let c := dCtx d
    if !s.mayDispatch c then s
    else
      let s0 := s
      let s := (s.noteTransfer c).dmaRead (dArg0 d) (dArg1 d)
      match img with
      | none => s.hostReadFailed q
      | some b =>
        let s := s.stagingErrors ((s.part (s.ctxPart c)).sheetList.headD 0) dist
        match Config.parseCheckpoint (b.take (dArg1 d)) with
        | none => s.decideHead q stBad
        | some k =>
          if !s.imageFits c k then s.decideHead q stBad
          else if s.imageStalls c k then s0
          else if !s.divisionsHeld c then s.decideHead q stRejected
          else s.restoreImage q d k (b.take (dArg1 d)) (!dist.storeDbl.isEmpty)

/-! ### SNAPSHOT and QUERY (R270; 17 R459) -/

/-- SNAPSHOT: it waits for its latch. -/
def State.doSnapshot (s : State) (q : Nat) : State :=
  match s.headReady q 8 with
  | none => s
  | some d =>
    if !s.mayDispatch (dCtx d) then s
    else if !s.snapOk (dArg0 d) then s.decideHead q stBad
    else
      (s.schedule (dArg0 d) (some q)).modHead q fun d =>
        { d with started := true, wants := 3 }
/-- Bytes that a QUERY returns: at most the 4 KiB of its buffer. -/
def State.queryBytes (s : State) (q : Nat) (d : Desc) : List Byte :=
  let c := (dCtx d).val
  let b := match dArg0 d with
    | 1 => (List.range 4).flatMap fun r => leBytes 8 (s.ctxWord c r)
    | 2 => (List.range 7).flatMap fun r => leBytes 8 (queueWord (s.queue q) r)
    | _ => Config.handleList ((s.ctx c).plans.map fun (l : LoadedPlan) => (l.handle, l.plan.tensors.map fun (t : Tensor) => t.handle))
  b.take 4096
/-- QUERY. -/
def State.doQuery (s : State) (q : Nat) : State :=
  match s.headReady q 9 with
  | none => s
  | some d =>
    if !s.mayDispatch (dCtx d) then s
    else
      let b := s.queryBytes q d
      (s.dmaWrite (dArgPtr d) b).decideHead q stOk 0 b.length

/-! ### SEAL_MANIFEST (12 R361, R362; 16 R438) -/

/-- Whether a record follows the one before it in a manifest's range. -/
def chainsTo (a b : RunRecord) : Bool :=
  decide (0 < a.run.committed ∧ 0 < b.run.committed) && b.run.first == a.last + 1 && b.run.seedSrc == 0
/-- The records of a range that starts with `a` and ends with last step `hi`; none of them broken (log 46). -/
def coverFrom (hi : Word) (a : RunRecord) : List RunRecord → Option (List RunRecord)
  | [] => if 0 < a.run.committed ∧ a.last = hi ∧ !a.broken then some [a] else none
  | b :: r =>
    if a.broken then none
    else if 0 < a.run.committed ∧ a.last = hi then some [a]
    else if chainsTo a b then (coverFrom hi b r).map (a :: ·) else none
/-- The latest range of records from first step `lo` to last step `hi`. -/
def coverOf (lo hi : Word) : List RunRecord → Option (List RunRecord)
  | [] => none
  | a :: r =>
    match coverOf lo hi r with
    | some l => some l
    | none => if a.run.first = lo ∧ 0 < a.run.committed then coverFrom hi a r else none
/-- Whether the division changed within a range. -/
def divChanged : List RunRecord → Bool
  | [] => false
  | [a] => a.run.divchg
  | a :: b :: r => a.run.divchg || decide (a.run.divLast ≠ b.run.division0) || divChanged (b :: r)
/-- FLAGS of a manifest. -/
def manifestFlags (l : List RunRecord) : Nat :=
  let any (f : RunState → Bool) (i : Nat) : Nat := if l.any fun r => f r.run then 2 ^ i else 0
  any (·.notseq) 0 + any (·.f32add) 1 + any (·.sat) 2 + any (·.flagged) 3 + any (·.recovered) 4 + any (·.chart) 5 +
  any (·.devSeed) 6 + any (·.uncovered) 7 + any (·.clkstep) 8 +
  (match l.head? with | some r => if r.run.restored then 2 ^ 9 else 0 | none => 0) + (if divChanged l then 2 ^ 10 else 0)
/-- The 256-byte body of a manifest over records from `a` to `z`. -/
def State.manifestBody (s : State) (a z : RunRecord) (l : List RunRecord) (span : Nat) : List Byte :=
  let cls := (l.map fun r => r.cls.toNat).foldl max 0
  [0x47, 0x4C, 0x4D, 0x46, 1, BitVec.ofNat 8 cls, 0, 0] ++ leBytes 4 (manifestFlags l) ++ leBytes 2 s.chart.reg.devId.toNat ++
  leBytes 2 (max 1 span) ++ leBytes 8 idDeviceValue ++ leBytes 4 s.ecb.fwsvn.toNat ++ leBytes 4 l.length ++ a.planHash ++
  a.run.seed ++ leBytes 1 a.run.seedSrc.toNat ++ List.replicate 7 0 ++ leBytes 8 a.run.first.toNat ++ leBytes 8 z.last.toNat ++
  leBytes 8 a.run.launch.toNat ++ leBytes 8 z.run.lastCommit.toNat ++ a.run.division0.map (BitVec.ofNat 8) ++
  List.replicate 8 0 ++ a.run.hState ++ a.run.hIn ++ z.hOut
/-- A manifest's body goes to Ecbumos: refused in ERROR and with no index left; at most 64 requests wait there. -/
def State.askSignature (s : State) (q : Nat) (d : Desc) (body : List Byte) : State :=
  if s.ecb.st = .error then s.decideHead q stCheckFailed 0x540
  else if sigEnd ≤ s.ecb.signext.toNat then (s.ecbFault 0x552).decideHead q stBad 0x552
  else
    let rest := s.ecb.signing.filter fun r => r.queue != some q
    if 64 ≤ rest.length then s
    else
      let r : SignReq := { queue := some q, addr := BitVec.ofNat 64 (dArgPtr d), body := body, came := s.now }
      (s.modEcb fun e => { e.descService with signing := insertSign r rest }).modHead q
        fun d => { d with started := true, wants := 2 }
/-- SEAL_MANIFEST. -/
def State.doSealManifest (s : State) (q : Nat) : State :=
  match s.headReady q 10 with
  | none => s
  | some d =>
    let x := s.ctx (dCtx d).val
    if !s.mayDispatch (dCtx d) then s
    else match x.planOf (dPlan d),
        coverOf (BitVec.ofNat 64 (dArg0 d)) (BitVec.ofNat 64 (dArg1 d)) (x.records.filter fun r => r.run.plan == dPlan d) with
      | some l, some cover => match cover.head?, cover.getLast? with
        | some a, some z => s.askSignature q d (s.manifestBody a z cover l.plan.span.length)
        | _, _ => s.decideHead q stBad
      | _, _ => s.decideHead q stBad

/-! ### TEARDOWN (R289, R290) -/

/-- TEARDOWN. -/
def State.doTeardown (s : State) (q : Nat) : State :=
  match s.headReady q 11 with
  | none => s
  | some d =>
    let c := dCtx d
    match (s.ctx c.val).st with
    | .tearing => s.decideHead q stTorn
    | .opened => (s.modHead q fun d => { d with started := true }).startTeardown c false false 0 (some q)
    | _ => s.decideHead q stOk 0 (s.ctx c.val).drops.toNat

/-! ### The rows -/

/-- LOAD_PLAN. -/
def execLoadPlan (q : QueueId) (img : HostRead) (d : Disturb) (s : State) : Res := .next (s.doLoadPlan q.val img d)
/-- RUN. -/
def execRun (q : QueueId) (s : State) : Res := .next (s.doRun q.val)
/-- COPY. -/
def execCopy (q : QueueId) (blk data : HostRead) (d : Disturb) (s : State) : Res := .next (s.doCopy q.val blk data d)
/-- SEED. -/
def execSeed (q : QueueId) (bytes : HostRead) (s : State) : Res := .next (s.doSeed q.val bytes)
/-- FENCE. -/
def execFence (q : QueueId) (s : State) : Res := .next (s.doFence q.val)
/-- FENCE_COMPLETE. -/
def execFenceComplete (q : QueueId) (s : State) : Res := .next (s.doFenceComplete q.val)
/-- CHECKPOINT. -/
def execCheckpoint (q : QueueId) (d : Disturb) (s : State) : Res := .next (s.doCheckpoint q.val d)
/-- RESTORE. -/
def execRestore (q : QueueId) (img : HostRead) (d : Disturb) (s : State) : Res := .next (s.doRestore q.val img d)
/-- SNAPSHOT. -/
def execSnapshot (q : QueueId) (s : State) : Res := .next (s.doSnapshot q.val)
/-- QUERY. -/
def execQuery (q : QueueId) (s : State) : Res := .next (s.doQuery q.val)
/-- SEAL_MANIFEST. -/
def execSealManifest (q : QueueId) (s : State) : Res := .next (s.doSealManifest q.val)
/-- TEARDOWN. -/
def execTeardown (q : QueueId) (s : State) : Res := .next (s.doTeardown q.val)
/-- DEVICE_SEED_SERVE. -/
def execDeviceSeedServe (q : QueueId) (s : State) : Res := .next (s.doSeedServe q.val)

end Sys2Proof.Machine
end

