-- ==== Sys2Proof/Machine/Ecbumos.lean ====
section
/-! DEFINITION. The rows of Ecbumos (16): mailbox services, signing, DOE requests, the TRNG, and the restart of the block. -/

namespace Sys2Proof.Machine

/-! ### Login (R417, R418) -/

/-- CHALLENGE: a fresh nonce, good for one LOGIN. -/
def State.doChallenge (s : State) : State :=
  s.mailbox 1 fun s =>
    if s.ecb.tst == .halted then s.mbRefuse mbRngFail
    else if s.ecb.notrdy then s.mbRefuse mbNotReady
    else
      let r := s.drbgDraw 32 false (svcSource 1) 0 0
      match r.2 with
      | some b => (r.1.modEcb fun e => { e with nonce := some b }).mbReturn b
      | none => r.1.modEcb fun e => { e with busy := true }
/-- A failed LOGIN: counted, and the eighth in a row locks both commands (R418). -/
def State.loginFailed (s : State) : State :=
  let s := s.modEcb fun e => { e with fails := e.fails + 1, locked := decide (8 ≤ e.fails + 1) }
  (s.ecbFault 0x580).mbDone mbAuth
/-- A LOGIN whose proof `ok` checks against the nonce; the nonce is used up. -/
def State.login (s : State) (n : Nat) (role : Role) (ok : Ecb → List Byte → List Byte → Bool) : State :=
  if s.ecb.locked then s.mbDone mbAuth
  else if s.ecb.len.toNat ≠ n then s.mbDone mbBadArg
  else
    let e := s.ecb
    let s := s.modEcb fun e => { e with nonce := none }
    match e.nonce with
    | none => s.loginFailed
    | some c => if ok e c e.input then (s.modEcb fun e => { e with role := role, fails := 0 }).mbDone mbOk else s.loginFailed
/-- LOGIN_OFFICER. -/
def State.doLoginOfficer (s : State) : State :=
  s.mailbox 2 fun s => s.login 2820 .officer fun e c b => match e.officer with | some k => Config.xmssVerify k c b | none => false
/-- LOGIN_USER. -/
def State.doLoginUser (s : State) : State :=
  s.mailbox 3 fun s => s.login 16 .user fun e c b => match e.hwk with | some k => Config.gmac k c == b | none => false
/-- LOGIN_LOCKOUT_END. -/
def State.doLockoutEnd (s : State) : State := s.modEcb fun e => if e.locked then { e with locked := false, fails := 0 } else e
/-- LOGOUT. -/
def State.doLogout (s : State) : State := s.mailbox 4 fun s => (s.modEcb fun e => { e with role := .none }).mbDone mbOk

/-! ### Enrolment and configuration (R420, R445) -/

/-- ENROLL_OFFICER. -/
def State.doEnrollOfficer (s : State) : State :=
  s.mailbox 5 fun s =>
    if s.ecb.len.toNat ≠ 64 then s.mbDone mbBadArg
    else ((s.modEcb fun e => { e with officer := some e.input }).keep .officer).mbDone mbOk
/-- A wrapped key in the buffer, under the HWK or, while there is none, the manufacturing transport key. -/
def Ecb.unwrapInput (e : Ecb) : Option (List Byte) :=
  match e.hwk <|> e.transport with
  | some k => Config.keyUnwrap k e.input
  | none => none
/-- ENROLL_HWK: the first one destroys the transport key. -/
def State.doEnrollHwk (s : State) : State :=
  s.mailbox 6 fun s =>
    if s.ecb.len.toNat ≠ 40 then s.mbDone mbBadArg
    else match s.ecb.unwrapInput with
      | some k => ((s.modEcb fun e => { e with hwk := some k, transport := none }).keep .keyStore).mbDone mbOk
      | none => s.mbDone mbSigFail
/-- ENROLL_CHARTKEY. -/
def State.doEnrollChartkey (s : State) : State :=
  s.mailbox 7 fun s =>
    if s.ecb.len.toNat ≠ 40 then s.mbDone mbBadArg
    else match s.ecb.unwrapInput with
      | some k => ((s.modEcb fun e => { e with chartKey := some k }).keep .keyStore).mbDone mbOk
      | none => s.mbDone mbSigFail
/-- CONFIG: the reseed interval, and the personalisation string of the next instantiation. -/
def State.doConfig (s : State) : State :=
  s.mailbox 8 fun s =>
    let v := s.ecb.arg0.toNat % 32
    if v < 10 ∨ 20 < v ∨ 32 < s.ecb.len.toNat then s.mbDone mbBadArg
    else ((s.modEcb fun e => { e with rslog := BitVec.ofNat 5 v, perso := e.input }).keep .keyStore).mbDone mbOk

/-! ### Raw test mode (R432) -/

/-- RAW_ENTER, from RUN alone (R422). -/
def State.doRawEnter (s : State) : State :=
  s.mailbox 9 fun s =>
    if s.ecb.tst != .run then s.mbDone mbState else
    (((s.modEcb fun e =>
      { e.dropDrbg with
        tst := .raw, pool := [], rawsrc := BitVec.ofNat 2 e.arg0.toNat, rawv := false, rawMiss := false }).failFast).ecbFault 0x570).mbDone mbOk
/-- RAW_LEAVE: the start-up tests run, and the DRBG is instantiated again. -/
def State.doRawLeave (s : State) : State :=
  s.mailbox 0x0A fun s =>
    if s.ecb.tst != .raw then s.mbDone mbState
    else ((s.modEcb fun e => { e.trngStart with rawv := false, rawMiss := false }).ecbFault 0x570).mbDone mbOk
/-- A read of ECB_RAW consumes the samples; the register's bits are then open (log 3). -/
def State.consumeRaw (s : State) : State :=
  if s.ecb.rawv then
    { s with
      free := s.free + 1
      ecb := { s.ecb with rawv := false, rawlost := s.ecb.rawlost || s.ecb.rawMiss, rawMiss := false
                          rawbits := BitVec.ofNat 32 (Config.freeValue s.free) } }
  else s
/-- ECB_RAW_READ. -/
def State.doRawRead (s : State) : State :=
  if s.dstate == .safe then s.emit (.readReply (List.replicate 8 0))
  else (s.emit (.readReply (leBytes 8 (s.readReg .ecbRaw).toNat))).consumeRaw
/-- RAW_SAMPLE_DISCARD: 80 µs have passed; unread samples are discarded and the next 32 stand. -/
def State.doRawDiscard (s : State) (b : BitVec 32) : State :=
  if s.ecb.tst == .raw then s.modEcb fun e => { e with rawMiss := e.rawMiss || e.rawv, rawv := true, rawbits := b } else s

/-! ### Zeroisation and self-test (R446, R447) -/

/-- SELFTEST: the self-tests run again and the TRNG restarts with `ECB.CONSEC` cleared. -/
def State.doSelftest (s : State) : State :=
  s.mailbox 0x0C fun s => (s.modEcb fun e => { e.trngStart with st := .selftest, tst := .off, consec := 0 }).failFast.mbDone mbOk

/-! ### Firmware, packs and records (R433-R435, R444; 15 R406, R407) -/

/-- Put an image in the inactive slot; nothing leaves the slot invalid. -/
def Ecb.setInactive (e : Ecb) (x : Option FwImage) : Ecb := if e.actB then { e with slotA := x } else { e with slotB := x }
/-- FW_INSTALL. -/
def State.doFwInstall (s : State) (img : HostRead) : State :=
  s.mailbox 0x0D fun s =>
    let n := s.ecb.arg1.toNat
    let s := s.dmaRead s.ecb.arg0.toNat n
    match img with
    | none => s.mbDone mbBadArg
    | some b =>
      if n = 0 ∨ 10 * 2 ^ 20 < n ∨ b.length < n then s.mbDone mbBadArg
      else match Config.parseFirmware (b.take n) with
        | none => (s.modEcb fun e => e.setInactive none).mbDone mbBadArg
        | some x =>
          if x.rootKeyHash != Config.romKeyHash || !x.sigsOk then
            ((s.modEcb fun e => e.setInactive none).ecbFault 0x550).mbDone mbSigFail
          else if x.svn.toNat < s.ecb.minsvn.toNat then ((s.modEcb fun e => e.setInactive none).ecbFault 0x550).mbDone mbRollback
          else ((s.modEcb fun e => { e.setInactive (some x) with lastB := !e.actB }).keep .svn).mbDone mbOk
/-- FW_COMMIT: `ECB.MINSVN` never decreases (R434). -/
def State.doFwCommit (s : State) : State :=
  s.mailbox 0x0E fun s =>
    ((s.modEcb fun e => { e with minsvn := if e.minsvn.toNat < e.fwsvn.toNat then e.fwsvn else e.minsvn }).keep .svn).mbDone mbOk
/-- Numerics revision of the device (02 R37). -/
def numRev : Nat := 1
/-- The header of a pack: id, version, squall flag, items, length and run time; nothing where it breaks 15 R406. -/
def packHeaderOf (b : List Byte) : Option Pack :=
  let items := recField b 12 4
  let len := recField b 16 4
  if b.take 4 != [0x47, 0x4C, 0x53, 0x50] || recField b 4 1 != 1 || decide (2 ≤ recField b 5 1) || recField b 6 2 == 0 ||
      items == 0 || decide (4096 < items) || decide (len < 64) || decide (2 ^ 20 < len) || recField b 22 2 != 0 ||
      decide (b.length < len) || shake256 32 ((b.take len).drop 64) != (b.drop 32).take 32 then none
  else
    some { id := BitVec.ofNat 16 (recField b 6 2), ver := BitVec.ofNat 32 (recField b 8 4)
           len := BitVec.ofNat 9 ((len + 4095) / 4096), valid := true, squall := bit (recField b 5 1) 0
           runNs := BitVec.ofNat 32 (recField b 24 4), items := items }
/-- Place of a pack with an id: index in the table. -/
def Ecb.packPlace (e : Ecb) (id : BitVec 16) : Option Nat :=
  (List.range 16).find? fun j => (tget ({} : Pack) e.packs j).valid && (tget ({} : Pack) e.packs j).id == id
/-- A free place of the pack table. -/
def Ecb.packFree (e : Ecb) : Option Nat := (List.range 16).find? fun j => !(tget ({} : Pack) e.packs j).valid
/-- 4 KiB units that the packs other than one of a given id take of the 8 MiB area. -/
def Ecb.packUnits (e : Ecb) (id : BitVec 16) : Nat :=
  ((e.packs.map Prod.snd).filter fun k => k.valid && k.id != id).foldl (fun n (k : Pack) => n + k.len.toNat) 0
/-- A pack is refused: kind 0x2E3 (15 R407). -/
def State.packRefused (s : State) (res : BitVec 8) : State := (s.ecbFault 0x2E3).mbDone res
/-- A pack with a good header and signature: the version must rise, and the area must hold it. Version 0xFFFF_FFFF removes. -/
def State.packStore (s : State) (k : Pack) : State :=
  let e := s.ecb
  let place := e.packPlace k.id
  let newer := match place with | some j => decide ((tget ({} : Pack) e.packs j).ver.toNat < k.ver.toNat) | none => true
  if !newer then s.packRefused mbBadArg
  else if k.ver = 0xFFFFFFFF then
    match place with
    | some j => (s.modEcb fun e => { e with packs := tset {} e.packs j {} }).mbDone mbOk
    | none => s.mbDone mbOk
  else match place <|> e.packFree with
    | some j =>
      if 2048 < e.packUnits k.id + k.len.toNat then s.packRefused mbFull
      else (s.modEcb fun e => { e with packs := tset {} e.packs j k }).mbDone mbOk
    | none => s.packRefused mbFull
/-- PACK_INSTALL. -/
def State.doPackInstall (s : State) (img : HostRead) : State :=
  s.mailbox 0x0F fun s =>
    let n := s.ecb.arg1.toNat
    let s := s.dmaRead s.ecb.arg0.toNat n
    match img with
    | none => s.mbDone mbBadArg
    | some b =>
      let b := b.take n
      match packHeaderOf b with
      | none => s.packRefused mbBadArg
      | some k =>
        let len := recField b 16 4
        if !Config.xmssVerify Config.galpernoKey (b.take len) ((b.drop len).take 2820) then s.packRefused mbSigFail
        else if recField b 20 2 ≠ numRev then s.packRefused mbBadArg
        else s.packStore k
/-- Set `HIST.FCAUSE` of a parcel (13 R385). -/
def State.setCause (s : State) (sheet p : Nat) (cause : BitVec 4) (fenced : Bool) : State :=
  ({ s with col := { s.col with hist := tmod {} s.col.hist (18 * sheet + p) fun r => { r with fcause := cause, fenced := fenced } } }
    : State).keepHist (18 * sheet + p)
/-- A signed record removes the fence of a parcel: one that is in force ends at the next step boundary, one that waits is
dropped. -/
def State.unfenceParcel (s : State) (sheet p : Nat) : State :=
  let h := s.sheet sheet
  let s := s.setCause sheet p 3 false
  if h.fenced.getLsbD p then
    if h.changes.contains (.unfence p) then s else s.modSheet sheet fun h => { h with changes := h.changes ++ [.unfence p] }
  else s.modSheet sheet fun h => { h with changes := h.changes.filter (· != .fence p) }
/-- The action of a Galperno record (R444). -/
def State.recordAction (s : State) : GalAction → State
  | .unfence h l => s.forEach l fun s p => s.unfenceParcel h.val p.val
  | .fence h l => s.forEach l fun s p => s.fenceParcel h.val p.val 2
  | .jtagUnlock t => s.modEcb fun e => { e with unlockHour := laterHour e.unlockHour (some t) }
/-- The hour that a Galperno record unlocks the JTAG port until. -/
def galUnlock : GalAction → Option (BitVec 32)
  | .jtagUnlock t => some t
  | _ => none
/-- RECORD_APPLY. -/
def State.doRecordApply (s : State) (img : HostRead) : State :=
  s.mailbox 0x10 fun s =>
    let n := s.ecb.arg1.toNat
    let s := s.dmaRead s.ecb.arg0.toNat n
    match img with
    | none => s.mbDone mbBadArg
    | some b => match Config.parseRecord (b.take n) with
      | none => s.mbDone mbBadArg
      | some r =>
        if !r.sigOk then s.mbDone mbSigFail
        else if r.forKeyHash != shake256 32 s.ecb.publicKey then s.mbDone mbBadArg
        else if s.ecb.applied.any fun x => decide (r.seq ≤ x) then s.mbDone mbRollback
        else if 64 ≤ s.ecb.applied.length then s.mbDone mbFull
        else
          let s := s.storeRecord .applied s.appliedPlace (.applied r.seq (galUnlock r.action))
          ((s.modEcb fun e => { e with applied := e.applied ++ [r.seq] }).recordAction r.action).mbDone mbOk

/-! ### Random output and keys (R420, R429, R445) -/

/-- RANDOM. A request that lacks pool blocks waits; the row then runs it again. -/
def State.doRandom (s : State) : State :=
  s.mailbox 0x11 fun s =>
    let n := s.ecb.arg0.toNat
    if n = 0 ∨ 4096 < n then s.mbDone mbBadArg
    else if s.ecb.tst == .halted then s.mbRefuse mbRngFail
    else if s.ecb.notrdy then s.mbRefuse mbNotReady
    else
      let r := s.drbgDraw n s.ecb.arg1.toNat.bodd (svcSource 1) 0 0
      match r.2 with
      | some b => r.1.mbReturn b
      | none => r.1.modEcb fun e => { e with busy := true }
/-- IDE_KEYS: new stream keys, installed as the next set, and returned wrapped under the HWK. -/
def State.doIdeKeys (s : State) : State :=
  s.mailbox 0x12 fun s =>
    if s.ecb.tst == .halted then s.mbRefuse mbRngFail
    else if s.ecb.notrdy then s.mbRefuse mbNotReady
    else match s.ecb.hwk with
      | none => s.mbDone mbState
      | some k =>
        let r := s.drbgDraw 32 true (svcSource 1) 0 0
        match r.2 with
        | some b => (r.1.modEcb fun e => { e with ideNext := some b }).mbReturn (Config.keyWrap k b)
        | none => r.1.modEcb fun e => { e with busy := true }
/-- IDE_KEY_SWITCH: the keys that IDE_KEYS installed take effect. -/
def State.doIdeSwitch (s : State) : State :=
  match s.ecb.ideNext with
  | some k => s.modEcb fun e => { e with ideKeys := some k, ideNext := none }
  | none => s
/-- GET_CERT. -/
def State.doGetCert (s : State) : State :=
  s.mailbox 0x13 fun s => if s.ecb.idSeed.isNone then s.mbDone mbState else s.mbReturn s.ecb.certBytes
/-- A read of ECB_RNG_DATA: 64 bits of the host buffer are consumed; an empty read sets ERR where random output is ready. -/
def State.consumeRng (s : State) : State :=
  if s.ecb.hostBuf.isEmpty then s.modEcb fun e => { e with err := e.err || !e.notrdy }
  else (s.modEcb fun e => { e with hostBuf := e.hostBuf.drop 8 }).refillHost
/-- ECB_RNG_DATA_READ. -/
def State.doRngRead (s : State) : State :=
  if s.dstate == .safe then s.emit (.readReply (List.replicate 8 0))
  else s.consumeRng.emit (.readReply ((s.ecb.hostBuf ++ List.replicate 8 0).take 8))

/-! ### Signing (R436-R439) -/

/-- One signature under the next index, for the oldest request. -/
def State.signFirst (s : State) (r : SignReq) (key : List Byte) : State :=
  let i := s.ecb.signext.toNat
  let s := if s.ecb.signext = s.ecb.sigres then s.reserveSig else s
  let s := s.modEcb fun e => { e with signext := e.signext + 1, signing := e.signing.drop 1 }
  let sign (b : List Byte) : List Byte := (Config.xmssmtSign key i b ++ List.replicate sigBytes 0).take sigBytes
  match r.queue with
  | none =>
    let b := s.quoteBody r.body i
    s.emit (.doe (b ++ sign b))
  | some q => match s.head q with
    | some d =>
      if d.wants = 2 ∧ d.status = none then
        (s.dmaWrite r.addr.toNat (r.body ++ sign r.body)).decideHead q stOk 0 (256 + sigBytes) cfDigestV
          (leNat ((shake256 32 r.body).take 8))
      else s
    | none => s
/-- SIGNATURE_DONE. Signing waits while the identity key is generated and while a reservation is retried. -/
def State.doSignature (s : State) : State :=
  match s.ecb.signing, s.ecb.idSeed with
  | r :: rest, some key =>
    if s.ecb.st != .ready || s.ecb.resWait then s
    else if sigEnd ≤ s.ecb.signext.toNat then
      ((s.modEcb fun e => { e with signing := rest }).ecbFault 0x552).signRefused r stBad 0x552 mbExhausted
    else s.signFirst r key
  | _, _ => s
/-- ZEROISE: a signature in progress is completed, records are tagged anew under a new enrolment, keys, identity, officer record and DRBG state are erased, link and IDE keys
cleared; the block restarts through SELFTEST and will generate a new identity key. -/
def State.doZeroise (s : State) : State :=
  s.mailbox 0x0B fun s =>
    let s := s.doSignature.enrolPuf
    let e := s.ecb.trngStart
    let s := s.forEach (s.ports.map Prod.fst) fun s n => s.modPort n fun x => { x with txKey := [], rxSlots := [], nextKey := [] }
    (s.modEcb fun _ =>
      { e with
        st := .selftest, tst := .off, role := .none, nonce := none, officer := none, hwk := none, chartKey := none
        transport := none, perso := [], idSeed := none, idCert := false, cert := false, genKey := true, signext := 0, sigres := 0
        resWait := false, ideKeys := none, ideNext := none, rawv := false, rawMiss := false }).failFast.mbDone mbOk
/-- RESERVATION_RETRY: the reservation that the next signature needs is written, or its write fails. -/
def State.doReservation (s : State) (ok : Bool) : State :=
  let e := s.ecb
  if e.st != .ready || e.signing.isEmpty || e.idSeed.isNone || e.signext != e.sigres || decide (sigEnd ≤ e.sigres.toNat) then s
  else if ok then s.reserveSig
  else (s.modEcb fun e => { e with resWait := true }).ecbFault 0x551
/-- DOE_GET_CERT. -/
def State.doDoeCert (s : State) : State :=
  if s.ecb.st != .ready || s.ecb.idSeed.isNone then s.emit (.doe (doeError mbState)) else s.emit (.doe s.ecb.certBytes)
/-- DOE_QUOTE: the request waits for its signature behind the others; at most 64 wait. -/
def State.doDoeQuote (s : State) (nonce : List Byte) : State :=
  if s.ecb.st != .ready then s.emit (.doe (doeError mbState))
  else if sigEnd ≤ s.ecb.signext.toNat then (s.ecbFault 0x552).emit (.doe (doeError mbExhausted))
  else if 64 ≤ s.ecb.signing.length then s
  else
    let r : SignReq := { queue := none, addr := 0, body := nonce, came := s.now }
    s.modEcb fun e => { e with signing := insertSign r e.signing }
/-- Random bytes from which an identity key is made (log 47). -/
def keySeedBytes : Nat := 96
/-- IDENTITY_KEY_GENERATED: the new key, from DRBG output with prediction resistance; a failed pair-wise test is an error. -/
def State.doIdentityKey (s : State) (ok : Bool) : State :=
  if !s.ecb.genKey || s.ecb.st != .ready then s
  else
    let r := s.drbgDraw keySeedBytes true (svcSource 1) 0 0
    match r.2 with
    | none => r.1
    | some b =>
      if !ok then r.1.ecbError 0x540
      else
        let s := r.1.modEcb fun e =>
          { e with genKey := false, idSeed := some b, idCert := false, cert := false, signext := 0, sigres := 0 }
        (s.keep .keyStore).keep .identity

/-! ### TRNG (R423-R425, R431) -/

/-- TRNG_HEALTH_FAILURE: a repetition or adaptive proportion count reaches its cutoff. In raw mode it is counted alone. -/
def State.doHealthFailure (s : State) (apt : Bool) (src : Fin 3) : State :=
  let runs := s.ecb.tst == .startUp || s.ecb.tst == .run || s.ecb.tst == .raw
  if !runs then s
  else
    let s := if apt then (s.noteSat s.ecb.aptf 9).modEcb fun e => { e with aptf := satInc e.aptf }
      else (s.noteSat s.ecb.rctf 9).modEcb fun e => { e with rctf := satInc e.rctf }
    if s.ecb.tst == .raw then s else s.healthFailed src (if apt then 0x502 else 0x501) (BitVec.ofNat 64 src.val)
/-- TRNG_RESTART. -/
def State.doTrngRestart (s : State) : State := if s.ecb.tst == .failed then s.modEcb Ecb.trngStart else s
/-- TRNG_STARTUP_DONE: the start-up tests over the first 1,024 samples: a failure, or the first block. -/
def State.doStartupTests (s : State) (fail : Option (Fin 3)) (block : BitVec 256) : State :=
  if s.ecb.tst != .startUp || !s.ecb.pool.isEmpty then s
  else match fail with
    | some src => s.healthFailed src 0x503 0
    | none => s.modEcb fun e => { e with pool := [block], goodBlocks := e.goodBlocks + 1 }
/-- TRNG_BLOCK_READY: a block enters the pool, discarded where the pool is full. The second block of a start instantiates the
DRBG; a stretched reseed is made as soon as two blocks stand. -/
def State.doBlock (s : State) (block : BitVec 256) : State :=
  let take (e : Ecb) : Ecb :=
    let n := e.goodBlocks + 1
    { e with pool := if e.pool.length < 16 then e.pool ++ [block] else e.pool, goodBlocks := n
             consec := if 65536 ≤ n then 0 else e.consec }
  if s.ecb.tst == .startUp && !s.ecb.pool.isEmpty then (s.modEcb take).drbgStart.refillHost
  else if s.ecb.tst == .run then
    let s := s.modEcb take
    if s.ecb.stretch && decide (2 ≤ s.ecb.pool.length) then s.modEcb Ecb.reseed else s
  else s

/-! ### State mismatch (R446) -/

/-- ECB_STATE_MISMATCH: the block restarts itself, keeping MRAM; a second mismatch before that ends asks for the safe state. -/
def State.doMismatch (s : State) : State :=
  if s.ecb.st == .off then s
  else if s.ecb.restarting then s.ecbFault 0x531
  else
    (s.modEcb fun e =>
      { e.restart with
        restarting := true, fwsvn := e.fwsvn, actB := e.actB, signing := e.signing, seedWait := e.seedWait, rctf := e.rctf
        aptf := e.aptf, ideKeys := e.ideKeys, ideNext := e.ideNext }).failFast.ecbFault 0x530
/-- ECB_RESTART_DONE. -/
def State.doRestartDone (s : State) : State :=
  if s.ecb.restarting then (s.modEcb fun e => { e.trngStart with restarting := false }).ecbBoot else s

/-! ### The rows -/

/-- CHALLENGE. -/
def execChallenge (s : State) : Res := .next s.doChallenge
/-- LOGIN_OFFICER. -/
def execLoginOfficer (s : State) : Res := .next s.doLoginOfficer
/-- LOGIN_USER. -/
def execLoginUser (s : State) : Res := .next s.doLoginUser
/-- LOGIN_LOCKOUT_END. -/
def execLoginLockoutEnd (s : State) : Res := .next s.doLockoutEnd
/-- LOGOUT. -/
def execLogout (s : State) : Res := .next s.doLogout
/-- ENROLL_OFFICER. -/
def execEnrollOfficer (s : State) : Res := .next s.doEnrollOfficer
/-- ENROLL_HWK. -/
def execEnrollHwk (s : State) : Res := .next s.doEnrollHwk
/-- ENROLL_CHARTKEY. -/
def execEnrollChartkey (s : State) : Res := .next s.doEnrollChartkey
/-- CONFIG. -/
def execConfig (s : State) : Res := .next s.doConfig
/-- RAW_ENTER. -/
def execRawEnter (s : State) : Res := .next s.doRawEnter
/-- RAW_LEAVE. -/
def execRawLeave (s : State) : Res := .next s.doRawLeave
/-- ECB_RAW_READ. -/
def execEcbRawRead (s : State) : Res := .next s.doRawRead
/-- RAW_SAMPLE_DISCARD. -/
def execRawSampleDiscard (b : BitVec 32) (s : State) : Res := .next (s.doRawDiscard b)
/-- ZEROISE. -/
def execZeroise (s : State) : Res := .next s.doZeroise
/-- SELFTEST. -/
def execSelftest (s : State) : Res := .next s.doSelftest
/-- FW_INSTALL. -/
def execFwInstall (img : HostRead) (s : State) : Res := .next (s.doFwInstall img)
/-- FW_COMMIT. -/
def execFwCommit (s : State) : Res := .next s.doFwCommit
/-- PACK_INSTALL. -/
def execPackInstall (img : HostRead) (s : State) : Res := .next (s.doPackInstall img)
/-- RECORD_APPLY. -/
def execRecordApply (img : HostRead) (s : State) : Res := .next (s.doRecordApply img)
/-- RANDOM. -/
def execRandom (s : State) : Res := .next s.doRandom
/-- IDE_KEYS. -/
def execIdeKeys (s : State) : Res := .next s.doIdeKeys
/-- IDE_KEY_SWITCH. -/
def execIdeKeySwitch (s : State) : Res := .next s.doIdeSwitch
/-- GET_CERT. -/
def execGetCert (s : State) : Res := .next s.doGetCert
/-- ECB_RNG_DATA_READ. -/
def execEcbRngDataRead (s : State) : Res := .next s.doRngRead
/-- SIGNATURE_DONE. -/
def execSignatureDone (s : State) : Res := .next s.doSignature
/-- RESERVATION_RETRY. -/
def execReservationRetry (ok : Bool) (s : State) : Res := .next (s.doReservation ok)
/-- DOE_GET_CERT. -/
def execDoeGetCert (s : State) : Res := .next s.doDoeCert
/-- DOE_QUOTE. -/
def execDoeQuote (nonce : List Byte) (s : State) : Res := .next (s.doDoeQuote nonce)
/-- IDENTITY_KEY_GENERATED. -/
def execIdentityKeyGenerated (ok : Bool) (s : State) : Res := .next (s.doIdentityKey ok)
/-- TRNG_HEALTH_FAILURE. -/
def execTrngHealthFailure (apt : Bool) (src : Fin 3) (s : State) : Res := .next (s.doHealthFailure apt src)
/-- TRNG_RESTART. -/
def execTrngRestart (s : State) : Res := .next s.doTrngRestart
/-- TRNG_STARTUP_DONE. -/
def execTrngStartupDone (fail : Option (Fin 3)) (block : BitVec 256) (s : State) : Res := .next (s.doStartupTests fail block)
/-- TRNG_BLOCK_READY. -/
def execTrngBlockReady (block : BitVec 256) (s : State) : Res := .next (s.doBlock block)
/-- ECB_STATE_MISMATCH. -/
def execEcbStateMismatch (s : State) : Res := .next s.doMismatch
/-- ECB_RESTART_DONE. -/
def execEcbRestartDone (s : State) : Res := .next s.doRestartDone

end Sys2Proof.Machine
end

