-- ==== Sys2Proof/Machine/EngineCtl.lean ====
section
/-! DEFINITION. Engine decode and the words it carries out itself (03 R91-R95, R104, R105, R501, R502). -/

namespace Sys2Proof.Machine

/-- Whether an engine may decode: it runs, and it waits for nothing but, at most, `a`. -/
def State.decodes (s : State) (e : EngId) (a : Option Awaited) : Bool :=
  let g := s.eng e
  s.running e && (g.awaits == none || g.awaits == a)

/-- Move to the word at `pc` and run on; past word 8,191 the engine halts (R91). -/
def State.goTo (s : State) (e : EngId) (pc : Nat) : State :=
  if pc < 8192 then s.modEng e fun g => { g with pc := BitVec.ofNat 13 pc, st := .run, awaits := none }
  else s.engHalt e (s.eng e).pc.toNat 0
/-- Move to the next word. -/
def State.advance (s : State) (e : EngId) : State := s.goTo e ((s.eng e).pc.toNat + 1)
/-- Enter WAIT (R107). -/
def State.await (s : State) (e : EngId) (a : Awaited) : State := s.modEng e fun g => { g with st := .wait, awaits := some a }

/-- The word at an index of an engine's program, in the parcel store (R91). -/
def State.wordAt (s : State) (e : EngId) (i : Nat) : Nat :=
  leNat (mread (s.pmem e).store (64 * (s.eng e).progUnit + 16 * i) 16)

/-! ### Sync words -/

/-- Set or clear a sheet flag (01 R31). -/
def State.putFlag (s : State) (sheet n : Nat) (v : Bool) : State :=
  s.modSheet sheet fun h =>
    { h with flags := if v then h.flags ||| BitVec.ofNat 64 (2 ^ n) else h.flags &&& ~~~(BitVec.ofNat 64 (2 ^ n)) }
/-- FLAG_SET and FLAG_CLEAR. -/
def State.doFlag (s : State) (e : EngId) (n : Nat) (v : Bool) : State := (s.putFlag e.sheet.val n v).advance e
/-- FLAG_WAIT. -/
def State.doFlagWait (s : State) (e : EngId) (n : Nat) : State :=
  if (s.sheet e.sheet.val).flags.getLsbD n then s.advance e else s.await e (.flag n)
/-- SCRIBE_RING: decode is held while the core's FIFO of 16 doorbells is full (07 R221). -/
def State.doScribeRing (s : State) (e : EngId) (core : Nat) (v : BitVec 16) : State :=
  let c : CoreId := { eng := e, core := Fin.ofNat 4 core }
  if 16 ≤ (s.core c).fifo.length then s
  else
    let now := s.now
    (s.modCore c fun k => ({ k with fifo := k.fifo ++ [v], meip := true } : Scribe).poll now).advance e
/-- SCRIBE_WAIT: take a pending doorbell, or wait for one (R105). -/
def State.doScribeWait (s : State) (e : EngId) (core : Nat) : State :=
  let n := tget 0 (s.eng e).ring core
  if n = 0 then s.await e (.scribe core)
  else (s.modEng e fun g => { g with ring := tset 0 g.ring core (n - 1) }).advance e

/-- Whether the three queues are empty and every result is visible: no pass waits for its reduction, no class 0x7 word for
its hub, and no add of the engine for its slice (R104). -/
def State.drained (s : State) (e : EngId) : Bool :=
  (s.eng e).queued.isEmpty &&
  sheetIdx.all fun i =>
    let h := s.sheet i
    (h.hubs.all fun c => !(c.arrived.any fun r => r.eng == e) && !(c.draws.any fun x => x.1 == e)) &&
    (h.groups.all fun g => !(g.arrived.contains e || g.exch.contains e)) &&
    h.mem.adds.all fun a => !(a.eng == e)
/-- UNIT_DRAIN. -/
def State.doUnitDrain (s : State) (e : EngId) : State := if s.drained e then s.advance e else s
/-- STEP_END: the engine arrives at the end-of-step barrier once it is drained and every verdict has come (R104, R105). -/
def State.doStepEnd (s : State) (e : EngId) : State :=
  let ready := s.drained e && (s.eng e).verdicts.isEmpty
  s.modEng e fun g => { g with st := .wait, awaits := some .stepEnd, arrived := ready }

/-! ### Loop and branch words (R104, R502) -/

/-- LOOP_BEGIN: COUNT 0 skips the body; a fifth loop halts the engine. -/
def State.doLoopBegin (s : State) (e : EngId) (count : Nat) : State :=
  let g := s.eng e
  let pc := g.pc.toNat
  if count = 0 then
    match matchEnd (s.wordAt e) (g.progLen - (pc + 1)) (pc + 1) 0 with
    | some j => s.goTo e (j + 1)
    | none => s.engHalt e pc (opEngine 9 1)
  else if 4 ≤ g.loops.length then s.engHalt e pc (opEngine 9 1)
  else (s.modEng e fun g => { g with loops := g.loops ++ [{ start := pc, count := count, iter := 0 }] }).advance e
/-- LOOP_END: the next iteration of the innermost loop, or its close; with no open loop the engine halts. -/
def State.doLoopEnd (s : State) (e : EngId) : State :=
  let g := s.eng e
  match g.loops.getLast? with
  | none => s.engHalt e g.pc.toNat (opEngine 9 2)
  | some f =>
    if f.iter + 1 < f.count then
      (s.modEng e fun g => { g with loops := g.loops.dropLast ++ [{ f with iter := f.iter + 1 }] }).goTo e (f.start + 1)
    else (s.modEng e fun g => { g with loops := g.loops.dropLast }).advance e
/-- Whether a predicate holds (R92). -/
def Engine.holds (g : Engine) (p : Pred) : Bool := !p.pen || (g.eflags.getLsbD p.pf.val != p.pneg)
/-- A taken BRANCH: the loops it leaves are closed as if each had ended. -/
def State.doBranch (s : State) (e : EngId) (offs : Int) : State :=
  let g := s.eng e
  let pc := g.pc.toNat
  let t : Int := pc + offs
  if t < 0 ∨ (g.progLen : Int) ≤ t then s.engHalt e pc (opEngine 9 3)
  else
    let inBody (f : LoopFrame) : Bool :=
      decide (f.start < t.toNat) &&
      match matchEnd (s.wordAt e) (g.progLen - (f.start + 1)) (f.start + 1) 0 with
      | some j => decide (t.toNat ≤ j)
      | none => true
    (s.modEng e fun g => { g with loops := g.loops.takeWhile inBody }).goTo e t.toNat
/-- AG_SET. -/
def State.doAgSet (s : State) (e : EngId) (ag : Nat) (a : AddrGen) : State :=
  (s.modEng e fun g => { g with ags := tset {} g.ags ag a }).advance e
/-- Set an engine flag. -/
def State.putEflag (s : State) (e : EngId) (ef : Nat) (v : Bool) : State :=
  s.modEng e fun g =>
    { g with eflags := if v then g.eflags ||| BitVec.ofNat 8 (2 ^ ef) else g.eflags &&& ~~~(BitVec.ofNat 8 (2 ^ ef)) }
/-- EFLAG_FROM_TD: it waits for every queued word that writes the descriptor (R94). -/
def State.doEflagFromTd (s : State) (e : EngId) (td ef : Nat) (mask : BitVec 5) : State :=
  let g := s.eng e
  if g.queued.any fun x => (uopUses g x.2).wtd.contains td then s
  else (s.putEflag e ef ((g.td td).nflags &&& mask != 0)).advance e
/-- EFLAG_SET. -/
def State.doEflagSet (s : State) (e : EngId) (ef : Nat) (v : Bool) : State := (s.putEflag e ef v).advance e

/-- What a word waits for, where it is a word that waits. -/
def ctlAwaits : CtlWord → Option Awaited
  | .flagWait n => some (.flag n)
  | .scribeWait c => some (.scribe c)
  | .stepEnd => some .stepEnd
  | _ => none

/-- Carry out a control word at decode. -/
def State.runCtl (s : State) (e : EngId) (c : CtlWord) : State :=
  if !s.decodes e (ctlAwaits c) then s
  else match c with
    | .nop => s.advance e
    | .flagSet n => s.doFlag e n true
    | .flagClear n => s.doFlag e n false
    | .flagWait n => s.doFlagWait e n
    | .scribeRing k v => s.doScribeRing e k (BitVec.ofNat 16 v)
    | .scribeWait k => s.doScribeWait e k
    | .unitDrain => s.doUnitDrain e
    | .stepEnd => s.doStepEnd e
    | .loopBegin n => s.doLoopBegin e n
    | .loopEnd => s.doLoopEnd e
    | .branch o => s.doBranch e o
    | .agSet a g => s.doAgSet e a g
    | .eflagFromTd t f m => s.doEflagFromTd e t f (BitVec.ofNat 5 m)
    | .eflagSet f v => s.doEflagSet e f v

/-! ### Decode (R94) -/

/-- Decode the word at the program counter. -/
def State.doDecode (s : State) (e : EngId) : State :=
  let g := s.eng e
  let pc := g.pc.toNat
  if !s.running e then s
  else if g.progLen ≤ pc then s.engHalt e pc 0
  else
    let w := s.wordAt e pc
    let op := opEngine (bits w 127 124) (bits w 123 118)
    match decodeEngWord g.operandAddr (fun d => (g.loops[d]?).map LoopFrame.iter) pc w with
    | none => s.engHalt e pc op
    | some x =>
      if !g.holds (decodePred w) then s.advance e
      else match x with
        | .control c => s.runCtl e c
        | .queued u =>
          if !s.decodes e none || decide (queueDepth (uopUnit u) ≤ (g.queueOf (uopUnit u)).length) then s
          else (s.modEng e fun g =>
            { g.setQueueOf (uopUnit u) (g.queueOf (uopUnit u) ++ [(g.seq, u)]) with seq := g.seq + 1 }).advance e

/-! ### The rows -/

/-- INSTRUCTION_DECODE (03 R94). -/
def execInstructionDecode (e : EngId) (s : State) : Res := .next (s.doDecode e)
/-- NOP (03 R104). -/
def execNop (e : EngId) (s : State) : Res := .next (s.runCtl e .nop)
/-- FLAG_SET (03 R104, 01 R31). -/
def execFlagSet (e : EngId) (n : Fin 64) (s : State) : Res := .next (s.runCtl e (.flagSet n.val))
/-- FLAG_CLEAR (03 R104, 01 R31). -/
def execFlagClear (e : EngId) (n : Fin 64) (s : State) : Res := .next (s.runCtl e (.flagClear n.val))
/-- FLAG_WAIT (03 R104). -/
def execFlagWait (e : EngId) (n : Fin 64) (s : State) : Res := .next (s.runCtl e (.flagWait n.val))
/-- FLAG_WAIT_RELEASE (03 R104): an engine that waits for a flag that is 1 goes on. -/
def execFlagWaitRelease (e : EngId) (n : Fin 64) (s : State) : Res :=
  .next (if s.running e && (s.eng e).awaits == some (.flag n.val) then s.doFlagWait e n.val else s)
/-- SCRIBE_RING (03 R104, 07 R221). -/
def execScribeRing (e : EngId) (core : Fin 4) (v : BitVec 16) (s : State) : Res :=
  .next (s.runCtl e (.scribeRing core.val v.toNat))
/-- SCRIBE_WAIT (03 R105). -/
def execScribeWait (e : EngId) (core : Fin 4) (s : State) : Res := .next (s.runCtl e (.scribeWait core.val))
/-- SCRIBE_WAIT_DOORBELL (03 R105): a doorbell has come and the waiting SCRIBE_WAIT takes it. -/
def execScribeWaitDoorbell (e : EngId) (core : Fin 4) (s : State) : Res :=
  .next (if s.running e && (s.eng e).awaits == some (.scribe core.val) then s.doScribeWait e core.val else s)
/-- UNIT_DRAIN (03 R104). -/
def execUnitDrain (e : EngId) (s : State) : Res := .next (s.runCtl e .unitDrain)
/-- STEP_END (03 R104, R105). -/
def execStepEnd (e : EngId) (s : State) : Res := .next (s.runCtl e .stepEnd)
/-- LOOP_BEGIN (03 R104, R502). -/
def execLoopBegin (e : EngId) (count : BitVec 24) (s : State) : Res := .next (s.runCtl e (.loopBegin count.toNat))
/-- LOOP_END (03 R104, R502). -/
def execLoopEnd (e : EngId) (s : State) : Res := .next (s.runCtl e .loopEnd)
/-- BRANCH (03 R104, R502): not taken where its predicate does not hold; an offset of 0 is a reserved word. -/
def execBranch (e : EngId) (p : Pred) (offs : BitVec 13) (s : State) : Res :=
  .next (if !s.decodes e none then s
    else if offs = 0 then s.engHalt e (s.eng e).pc.toNat (opEngine 9 3)
    else if (s.eng e).holds p then s.runCtl e (.branch offs.toInt) else s.advance e)
/-- AG_SET (03 R104). -/
def execAgSet (e : EngId) (ag : Fin 16) (g : AddrGen) (s : State) : Res := .next (s.runCtl e (.agSet ag.val g))
/-- EFLAG_FROM_TD (03 R104). -/
def execEflagFromTd (e : EngId) (td : Fin 32) (ef : Fin 8) (mask : BitVec 5) (s : State) : Res :=
  .next (s.runCtl e (.eflagFromTd td.val ef.val mask.toNat))
/-- EFLAG_SET (03 R104). -/
def execEflagSet (e : EngId) (ef : Fin 8) (v : Bool) (s : State) : Res := .next (s.runCtl e (.eflagSet ef.val v))

end Sys2Proof.Machine
end

