-- ==== Sys2Proof/Machine/FieldTest.lean ====
section
/-! DEFINITION. Field test (15): known-answer kernels, survey packs, squall windows and rotation. -/

namespace Sys2Proof.Machine

/-- Change the field test of a sheet. -/
def State.modFt (s : State) (sheet : Nat) (f : FieldTest → FieldTest) : State := s.modSheet sheet fun h => { h with ft := f h.ft }
/-- A failed test: a detection with kind 0x000 in the record, the fault, and the parcel held (R413). -/
def State.testFailed (s : State) (sheet p : Nat) (kind : BitVec 12) (histBad : Bool) : State :=
  let s := s.modFt sheet fun f => { f with held := sinsert f.held p, failed := true }
  (s.sendFault { source := sourceId 3 sheet p 0, kind := kind }).detect sheet p 0 histBad
/-- A round ends: counted (R408). -/
def State.roundEnds (s : State) (sheet : Nat) (st : FtState) : State :=
  (s.noteSat (s.sheet sheet).ft.rounds 8).modFt sheet fun f =>
    { f with rounds := satInc f.rounds, st := st, packsLeft := [], windowUp := false }
/-- A round that passes waits for its advance and releases a held parcel (R410, R413). -/
def State.roundPasses (s : State) (sheet : Nat) : State :=
  let s := s.roundEnds sheet .wait
  match (s.sheet sheet).test with
  | some p => s.modFt sheet fun f => { f with held := sremove f.held p }
  | none => s
/-- A round whose test failed: HELD; where the failure fenced the parcel, rotation goes on from the new test spare (R415). -/
def State.roundFails (s : State) (sheet p : Nat) : State :=
  let s := s.roundEnds sheet .held
  if (s.sheet sheet).test = some p then s else s.startRound sheet
/-- The next phase of a round once one has no test left (R408). -/
def State.nextPhase (s : State) (sheet : Nat) : State :=
  let f := (s.sheet sheet).ft
  match f.st with
  | .kak =>
    if f.roundPacks.isEmpty then s.roundPasses sheet
    else s.modFt sheet fun f => { f with st := .survey, packsLeft := f.roundPacks }
  | .survey =>
    let l := f.roundPacks.filter fun k => k.2.2
    if f.sqen && !l.isEmpty then s.modFt sheet fun f => { f with st := .squall, packsLeft := l, windowUp := false }
    else s.roundPasses sheet
  | _ => s.roundPasses sheet

/-! ### Known-answer kernels outside a round -/

/-- An in-service parcel that failed a sheet-wide kernel becomes the test spare: it swaps with the test spare, or with the
standing spare where the test spare is held too (R413). -/
def Sheet.swapFailed (h : Sheet) (p : Nat) : Sheet :=
  if !h.pmap.contains p then h
  else match h.test, h.standing with
    | some t, st =>
      if !h.ft.held.contains t then { h.rebind p t with test := some p }
      else match st with
        | some q => { h.rebind p q with standing := some t, test := some p }
        | none => h
    | none, _ => h
/-- One parcel's verdict in a sheet-wide kernel. -/
def State.sheetKakItem (s : State) (sheet p : Nat) (pass : Bool) (ckind : BitVec 12) (item : BitVec 16) (histBad : Bool) : State :=
  let s := s.testRecord sheet p 4 (if pass then trPass else trFail) 0 0 (if pass then 0xFFFF else item.toNat)
    (if pass then 0 else ckind.toNat)
  let s := s.modFt sheet fun f => { f with sheetKakLeft := sremove f.sheetKakLeft p }
  if pass then s else (s.testFailed sheet p 0x2E0 histBad).modSheet sheet fun h => h.swapFailed p
/-- A sheet-wide kernel has ended: the sheet is in SERVICE, on the map as it now stands, and a round begins. -/
def State.endSheetKak (s : State) (sheet : Nat) : State :=
  let s := if (s.sheet sheet).changes.isEmpty then s else s.applyChanges sheet
  let s := s.modSheet sheet fun h => { h with mode := .service, ft := { h.ft with st := .off, sheetKakLeft := [] } }
  (s.saveFence sheet).startRound sheet
/-- `FT.KAKGO`: refused unless the sheet's partition is UNUSED or SETUP. -/
def State.doKakgo (s : State) (sheet : Nat) : State :=
  let busy := match s.partOf sheet with | some p => (s.part p).st != PartState.setup | none => false
  if busy then s.hostFault 0x40F
  else if (s.sheet sheet).mode != SheetMode.service then s
  else
    let s := (s.abandonRound sheet).abandonStanding sheet
    s.modSheet sheet fun h => { h with mode := .test, ft := { h.ft with st := .sheetKak, sheetKakLeft := h.ring } }
/-- The timer of the standing spare's kernel. -/
def State.doSpareKak (s : State) (sheet : Nat) : State :=
  let h := s.sheet sheet
  if h.mode == .service && h.standing.isSome then s.modFt sheet fun f => { f with standingKak := true } else s
/-- The standing spare's kernel ends; one that fails swaps roles with the test spare and starts a round (R413). -/
def State.standingItem (s : State) (sheet p : Nat) (pass : Bool) (ckind : BitVec 12) (item : BitVec 16) (histBad : Bool) : State :=
  let s := s.testRecord sheet p 1 (if pass then trPass else trFail) 0 0 (if pass then 0xFFFF else item.toNat)
    (if pass then 0 else ckind.toNat)
  let s := s.modFt sheet fun f => { f with standingKak := false }
  if pass then s
  else
    let s := s.testFailed sheet p 0x2E0 histBad
    let h := s.sheet sheet
    match h.standing == some p, h.test with
    | true, some t =>
      let s := (s.abandonRound sheet).modSheet sheet fun h => { h with standing := some t, test := some p }
      (s.saveFence sheet).startRound sheet
    | _, _ => s

/-! ### Rounds -/

/-- ROUND_START: on a sheet in SERVICE whose round does not run. -/
def State.doRoundStart (s : State) (sheet : Nat) : State :=
  let h := s.sheet sheet
  if h.mode == .service && (h.ft.st == .off || h.ft.st == .held) then s.startRound sheet else s
/-- Kind of a failed test of a round. -/
def failKindOf : FtState → BitVec 12
  | .kak => 0x2E0
  | .survey => 0x2E1
  | _ => 0x2E2
/-- A test of the round ends. -/
def State.roundItem (s : State) (sheet p : Nat) (pass : Bool) (ckind : BitVec 12) (item : BitVec 16) (histBad : Bool) : State :=
  let f := (s.sheet sheet).ft
  let k := if f.st == .kak then (0, 0) else match f.packsLeft with | x :: _ => (x.1.toNat, x.2.1.toNat) | [] => (0, 0)
  let s := s.testRecord sheet p f.testCode (if pass then trPass else trFail) k.1 k.2 (if pass then 0xFFFF else item.toNat)
    (if pass then 0 else ckind.toNat)
  if !pass then (s.testFailed sheet p (failKindOf f.st) histBad).roundFails sheet p
  else
    let s := s.modFt sheet fun f => { f with packsLeft := f.packsLeft.drop 1 }
    if (s.sheet sheet).ft.packsLeft.isEmpty then s.nextPhase sheet else s
/-- Whether an item passes (R405): no check fired on it, and its output tile images, with byte 21 of each taken as 0, hash to what it
expects. -/
def itemPasses (o : ItemOutput) (ckind : BitVec 12) : Bool :=
  ckind == 0 && shake256 16 (o.tiles.flatMap fun b => b.take 21 ++ [0] ++ b.drop 22) == o.expected
/-- TEST_ITEM_DONE: a kernel or a pack ends on a parcel under test. -/
def State.doTestItem (s : State) (sheet p : Nat) (pass : Bool) (ckind : BitVec 12) (item : BitVec 16) (histBad : Bool) : State :=
  let h := s.sheet sheet
  let f := h.ft
  if f.st == .sheetKak && f.sheetKakLeft.contains p then
    let s := s.sheetKakItem sheet p pass ckind item histBad
    if (s.sheet sheet).ft.sheetKakLeft.isEmpty then s.endSheetKak sheet else s
  else if f.standingKak && h.standing == some p then s.standingItem sheet p pass ckind item histBad
  else if h.test == some p && f.testCode != 0 && (f.st != .squall || f.windowUp) then
    s.roundItem sheet p pass ckind item histBad
  else s
/-- The conditions of a squall window (R409): hottest sensor, engines in RUN, and the ENG clock at 1.6 GHz. -/
def Sheet.squallOk (h : Sheet) : Bool :=
  let t := h.thm.tmax.toInt
  let run := (List.range h.pmap.length).filter fun l => (h.engine l).st == .run
  decide (4 * (h.ft.tmin.toNat : Int) ≤ t ∧ t < 400) && decide (12 ≤ run.length) && h.thm.step == 0xA
/-- SQUALL_WINDOW_OPEN. -/
def State.doSquallOpen (s : State) (sheet : Nat) : State :=
  if (s.sheet sheet).ft.st == .squall && (s.sheet sheet).squallOk then s.modFt sheet fun f => { f with windowUp := true } else s
/-- SQUALL_WINDOW_LAPSE: the pack in progress runs again from its start when the window reopens. -/
def State.doSquallLapse (s : State) (sheet : Nat) : State := s.modFt sheet fun f => { f with windowUp := false }
/-- ROUND_PERIOD_END: a round that waits for squall conditions is recorded SQUALL_NOT_MET and counts as passed; a held parcel
starts a new round. -/
def State.doPeriodEnd (s : State) (sheet : Nat) : State :=
  let h := s.sheet sheet
  match h.ft.st, h.test with
  | .squall, some p =>
    if h.ft.windowUp then s else
    let k := match h.ft.packsLeft with | x :: _ => (x.1.toNat, x.2.1.toNat) | [] => (0, 0)
    (s.testRecord sheet p 3 trNotMet k.1 k.2 0xFFFF 0).roundPasses sheet
  | .held, _ => s.startRound sheet
  | _, _ => s
/-- ROTATION_ADVANCE: due once the round has passed and its period is over; taken at the partition's next step boundary, at once
on a sheet of no RUNNING partition (R410, R411). -/
def State.doAdvance (s : State) (sheet : Nat) : State :=
  let h := s.sheet sheet
  if h.ft.st != .wait || !h.ft.roten then s
  else
    let run := match s.partOf sheet with | some p => (s.part p).st == .running | none => false
    if !run then s.mapAdvance sheet
    else if h.changes.contains .advance then s
    else s.modSheet sheet fun h => { h with changes := h.changes ++ [.advance] }

/-! ### The rows -/

/-- FT_KAKGO. -/
def execFtKakgo (h : SheetId) (s : State) : Res := .next (s.hostWrite fun s => s.doKakgo h.val)
/-- SPARE_KAK_TIMER. -/
def execSpareKakTimer (h : SheetId) (s : State) : Res := .next (s.doSpareKak h.val)
/-- ROUND_START. -/
def execRoundStart (h : SheetId) (s : State) : Res := .next (s.doRoundStart h.val)
/-- TEST_ITEM_DONE of the first item that fails, or of the last where all pass: its outputs, the kind of the first check that fired on
it, 0 for none, and its number. -/
def execTestItemDone (h : SheetId) (parcel : PhysParcel) (out : ItemOutput) (ckind : BitVec 12) (item : BitVec 16) (histBad : Bool)
    (s : State) : Res :=
  .next (s.doTestItem h.val parcel.val (itemPasses out ckind) ckind item histBad)
/-- SQUALL_WINDOW_OPEN. -/
def execSquallWindowOpen (h : SheetId) (s : State) : Res := .next (s.doSquallOpen h.val)
/-- SQUALL_WINDOW_LAPSE. -/
def execSquallWindowLapse (h : SheetId) (s : State) : Res := .next (s.doSquallLapse h.val)
/-- ROUND_PERIOD_END. -/
def execRoundPeriodEnd (h : SheetId) (s : State) : Res := .next (s.doPeriodEnd h.val)
/-- ROTATION_ADVANCE. -/
def execRotationAdvance (h : SheetId) (s : State) : Res := .next (s.doAdvance h.val)

end Sys2Proof.Machine
end

