-- ==== Sys2Proof/Machine/DumpOps.lean ====
section
/-! DEFINITION. Dump records and images, and the halt capture (14 R389, R400, R401). -/

namespace Sys2Proof.Machine

/-- A record with its data, padded to 16 bytes. -/
def dumpRecord (src : BitVec 16) (rstat : Nat) (data : List Byte) (now : Nat) : List Byte :=
  dumpHeader src rstat data.length now ++ data ++ List.replicate ((16 - data.length % 16) % 16) 0
/-- The 64-byte header of an image. -/
def State.imageHeader (s : State) (cause start records bad : Nat) : List Byte :=
  [0x47, 0x4C, 0x44, 0x50, 0x01, BitVec.ofNat 8 cause, 0, 0] ++ leBytes 8 idDeviceValue ++ leBytes 8 start ++ leBytes 8 s.now ++
  leBytes 4 records ++ leBytes 4 bad ++ leBytes 2 s.col.safeKind.toNat ++ List.replicate 22 0
/-- The record of a block that is read live. -/
def State.liveRecord (s : State) (b : BitVec 16) : List Byte :=
  if s.gated b then dumpRecord b 3 [] s.now else dumpRecord b 0 (s.snapshotSet b) s.now
/-- A debug read that waited for the dump's read of a block is served (19 R499). -/
def State.serveDebug (s : State) (b : BitVec 16) : State :=
  if s.pkg.dbgRead == some b then
    { s.emit (.jtagOut (s.liveRecord b)) with pkg := { s.pkg with dbgRead := none } }
  else s
/-- SOURCE of the decode unit of an engine's parcel. -/
def State.engineSource (s : State) (e : EngId) : BitVec 16 :=
  sourceId 3 e.sheet.val (((s.sheet e.sheet.val).phys e.parcel.val).getD 0x1F) 0
/-- Blocks of a halt capture: the sheet-level units of the sheets that hold an engine which had not arrived, then the units of
the first four such engines. -/
def State.captureBlocks (s : State) (stuck : List EngId) : List (BitVec 16) :=
  let sheets := sheetIdx.filter fun h => stuck.any fun e => e.sheet.val == h
  (sheets.flatMap fun h => (List.range 11).map (sheetSource h)) ++
  (stuck.take 4).flatMap fun e =>
    let p := ((s.sheet e.sheet.val).phys e.parcel.val).getD 0x1F
    ((List.range 7).map (sourceId 2 e.sheet.val p)) ++ (List.range 8).map (sourceId 3 e.sheet.val p)
/-- The halt capture; `silent` names the blocks that gave no answer within their limit. -/
def State.haltCapture (s : State) (stuck : List EngId) (silent : List (BitVec 16)) : List Byte :=
  let bl := s.captureBlocks stuck
  let late := stuck.drop 4
  let rec' (b : BitVec 16) : List Byte := if silent.contains b then dumpRecord b 1 [] s.now else s.liveRecord b
  let bad := (bl.filter silent.contains).length
  s.imageHeader 2 s.now (bl.length + late.length) bad ++ bl.flatMap rec' ++
  late.flatMap fun e => dumpRecord (s.engineSource e) 5 [] s.now
/-- A fault of the dump engine (R395). -/
def State.dumpFault (s : State) (kind : BitVec 12) (address : Word) : State :=
  s.sendFault { source := svcSource 4, kind := kind, address := address }

end Sys2Proof.Machine
end

