-- ==== Sys2Proof/Machine/Hangs.lean ====
section
/-! DEFINITION. Watchdogs, isolation and unit timeouts (14 R387-R395). -/

namespace Sys2Proof.Machine

/-- ADDRESS of 0x701 and 0x702 (R388). -/
def State.hangAddress (s : State) (e : EngId) (missing : Nat) : Word :=
  let g := s.eng e
  BitVec.ofNat 64
    (g.pc.toNat + g.st.code * 2 ^ 16 + b2n (!g.moverQ.isEmpty) * 2 ^ 20 + b2n (!g.arrayQ.isEmpty) * 2 ^ 21 +
      b2n (!g.rowQ.isEmpty) * 2 ^ 22 + missing * 2 ^ 48)
/-- The message of an expiry, from the lowest engine that expired. -/
def State.hangFault (s : State) (e : EngId) (c : CtxId) (kind : BitVec 12) (missing : Nat) : State :=
  s.sendFault { source := s.engineSource e, kind := kind, ctx := some c, address := s.hangAddress e missing }
/-- The trial reproduced the hang: its context is killed, its descriptor completes with HANG_SUSPECT, isolation ends (R393
step 4). -/
def State.hangReproduced (s : State) (p : Nat) (c : CtxId) : State :=
  let s := s.stopStep p
  let s := (s.failEpoch c 0x702 false).finishRun p c stHang 0x702
  let s := s.modPart p fun x => { x with hang := .normal, suspects := [], hangCur := 0, halted := false, stuck := [], trialRan := false }
  s.startTeardown c true false stHang none
/-- The halt's suspects: the context of the halted step first, then the others by latest activity (R392, R393). A chart context is
given no trial: its epoch fails (R394). -/
def State.hangHalted (s : State) (p : Nat) (c : CtxId) : State :=
  let x := s.part p
  let chart := match x.runOf c with | some r => r.chart | none => false
  let others := x.activity.filter (· != c)
  let s := if chart then (s.stopStep p).failEpoch c 0x701 false else s
  s.modPart p fun x => { x with hang := .halted, halted := true, suspects := if chart then others else c :: others }
/-- WATCHDOG_EXPIRY. An engine that has not arrived by T0 + 1,000 · `HANG.WDOG` halts the whole partition. -/
def State.doWatchdog (s : State) (p : Nat) : State :=
  let x := s.part p
  match x.phase, x.cur, (s.stepEngines p).filter fun e => !s.hasArrived e with
  | .running, some c, e :: rest =>
    let t0 := ((s.eng e).watchdogT0).getD s.now
    let s := s.reach (t0 + 1000 * x.wdog.toNat)
    let trial := x.hang == .isolation
    let s := s.hangFault e c (if trial then 0x702 else 0x701) (rest.length + 1)
    let s := s.haltPartition p []
    if trial then s.hangReproduced p c else s.hangHalted p c
  | _, _, _ => s
/-- The next suspect is on trial; with none left isolation ends, kind 0x703 (R393 step 5). -/
def State.nextSuspect (s : State) (p : Nat) (left : List CtxId) : State :=
  match left with
  | c :: _ => s.modPart p fun x => { x with suspects := left, hangCur := BitVec.ofNat 12 c.val, trialRan := false }
  | [] =>
    let s := s.modPart p fun x => { x with hang := .normal, suspects := [], hangCur := 0, trialRan := false }
    s.sendFault { source := sheetSource ((s.part p).sheetList.headD 0) 0, kind := 0x703 }
/-- HALT_CAPTURE_DONE: the capture is in MRAM, the parcels that had not arrived are reset, and isolation begins. A detection of
the halted step puts substitutes in place for its repeat (R393 step 3, R402). -/
def State.doCapture (s : State) (p : Nat) (silent : List (BitVec 16)) : State :=
  let x := s.part p
  if x.hang != .halted then s
  else
    let area := s.haltCapture x.stuck silent
    let s := s.forEach ((s.captureBlocks x.stuck).filter silent.contains) fun s b => s.dumpFault 0x740 (b.setWidth 64)
    let s : State := { s with dump := { s.dump with haltArea := area } }
    let s := s.forEach x.stuck fun s e => match (s.sheet e.sheet.val).phys e.parcel.val with
      | some q => s.parcelReset e.sheet.val q
      | none => s
    let s := s.forEach (suspectsOf x.faults) fun s q =>
      s.modSheet q.1 fun h => { h with changes := h.changes ++ [.substitute q.2] }
    let s := s.modPart p fun y =>
      { y with hang := .isolation, halted := false, stuck := [], firstFaults := y.faults, faults := [], parcelReset := false }
    s.nextSuspect p x.suspects
/-- Whether a context has work that waits or runs. -/
def State.hasWork (s : State) (p : Nat) (c : CtxId) : Bool :=
  ((s.part p).runOf c).isSome ||
  s.queues.any fun q => q.2.fetched.any fun d => d.bytes.length == 64 && dCtx d == c && d.status == none
/-- ISOLATION_TRIAL_DONE: the suspect's unit of work has ended, or it has none. -/
def State.doTrialDone (s : State) (p : Nat) : State :=
  let x := s.part p
  match x.hang, x.suspects with
  | .isolation, c :: rest =>
    if x.cur == some c || (!x.trialRan && s.hasWork p c) then s
    else (s.closeStepWindows p).nextSuspect p rest
  | _, _ => s
/-- A unit that tags its transactions stalls: it names the context, which is killed (R391). -/
def State.unitStall (s : State) (c : CtxId) (unit : Nat) (kind : BitVec 12) : State :=
  let st := (s.ctx c.val).st
  if st == .opened || st == .tearing then
    (s.sendFault { source := devSource unit, kind := kind, ctx := some c }).startTeardown c true false stHang none
  else s

/-- WATCHDOG_EXPIRY. -/
def execWatchdogExpiry (p : PartId) (s : State) : Res := .next (s.doWatchdog p.val)
/-- HALT_CAPTURE_DONE: `silent` names the blocks that did not answer. -/
def execHaltCaptureDone (p : PartId) (silent : List (BitVec 16)) (s : State) : Res := .next (s.doCapture p.val silent)
/-- ISOLATION_TRIAL_DONE. -/
def execIsolationTrialDone (p : PartId) (s : State) : Res := .next (s.doTrialDone p.val)
/-- DMA_STALL_TIMEOUT: the DMA engine of the North I/O die. -/
def execDmaStallTimeout (c : CtxId) (s : State) : Res := .next (s.unitStall c 2 0x720)
/-- HOST_WRITE_HOLD_TIMEOUT: the host interface. -/
def execHostWriteHoldTimeout (c : CtxId) (s : State) : Res := .next (s.unitStall c 1 0x722)

end Sys2Proof.Machine
end

