-- ==== Sys2Proof/Machine/Fec.lean ====
section
/-! DEFINITION. Voijo FEC (10 R298) and what surrounds it on the wire: the lane scramblers (R297) and interleave groups (R299). The order
of a codeword's symbols as coefficients and of a lane's bits through its scrambler is log 86. -/

namespace Sys2Proof.Machine

/-! ### GF(2^10) with x^10 + x^3 + 1 -/

/-- Times the root α. -/
def gfDouble (a : Nat) : Nat := if 512 ≤ a then (2 * a) ^^^ 0x409 else 2 * a
/-- Product. -/
def gfMul (a b : Nat) : Nat :=
  ((List.range 10).foldl (fun (x : Nat × Nat) i => (if bit b i then x.1 ^^^ x.2 else x.1, gfDouble x.2)) (0, a)).1
/-- α to a power. -/
def gfExp : Nat → Nat
  | 0 => 1
  | n + 1 => gfDouble (gfExp n)
/-- Inverse: the power 1,022 by repeated squaring. -/
def gfInv (a : Nat) : Nat :=
  ((List.range 9).foldl (fun (x : Nat × Nat) _ => let q := gfMul x.2 x.2; (gfMul x.1 q, q)) (1, a)).1
/-- Value of a polynomial, coefficients from the highest. -/
def gfEval (p : List Nat) (x : Nat) : Nat := p.foldl (fun a c => gfMul a x ^^^ c) 0
/-- Value of a polynomial, coefficients from the lowest. -/
def gfEvalLow (p : List Nat) (x : Nat) : Nat := gfEval p.reverse x

/-! ### RS(272,256) (R298) -/

/-- Generator polynomial without its leading 1, coefficients from x^15 down: the product of (x − α^i), i from 0 to 15. -/
def rsGen : List Nat :=
  ((List.range 16).foldl (fun g i =>
    let r := gfExp i
    (g ++ [0]).zipWith (· ^^^ ·) (0 :: g.map (gfMul r))) [1]).drop 1
/-- The 16 parity symbols of data symbols. -/
def rsParity (d : List Nat) : List Nat :=
  d.foldl (fun p x =>
    let f := x ^^^ p.headD 0
    (p.drop 1 ++ [0]).zipWith (fun a g => a ^^^ gfMul f g) rsGen) (List.replicate 16 0)
/-- A codeword: data, then parity. -/
def rsEncode (d : List Nat) : List Nat := d ++ rsParity d
/-- Syndromes. -/
def rsSyndromes (c : List Nat) : List Nat := (List.range 16).map fun i => gfEval c (gfExp i)

/-- State of the search for the error locator. -/
structure Locator where
  c : List Nat
  b : List Nat
  len : Nat
  gap : Nat
  last : Nat

/-- Sum of two polynomials from the lowest coefficient. -/
def polyAdd : List Nat → List Nat → List Nat
  | [], q => q
  | p, [] => p
  | a :: p, b :: q => (a ^^^ b) :: polyAdd p q
/-- One step of the Berlekamp-Massey search with syndrome number n. -/
def Locator.step (y : List Nat) (k : Locator) (n : Nat) : Locator :=
  let d := (List.range (k.len + 1)).foldl (fun a i => a ^^^ gfMul (k.c.getD i 0) (if i ≤ n then y.getD (n - i) 0 else 0)) 0
  if d = 0 then { k with gap := k.gap + 1 }
  else
    let f := gfMul d (gfInv k.last)
    let c := polyAdd k.c (List.replicate k.gap 0 ++ k.b.map (gfMul f))
    if 2 * k.len ≤ n then { c := c, b := k.c, len := n + 1 - k.len, gap := 1, last := d }
    else { k with c := c, gap := k.gap + 1 }
/-- Places (powers of x) and values of the errors that syndromes name; nothing where no pattern of at most eight fits. -/
def rsErrors (y : List Nat) : Option (List (Nat × Nat)) :=
  let k := (List.range 16).foldl (Locator.step y) { c := [1], b := [1], len := 0, gap := 1, last := 1 }
  let omega := (List.range 16).map fun n => (List.range (n + 1)).foldl (fun a i => a ^^^ gfMul (k.c.getD i 0) (y.getD (n - i) 0)) 0
  let slope := (List.range 16).map fun i => if i % 2 = 0 then k.c.getD (i + 1) 0 else 0
  let roots := (List.range 272).filter fun j => gfEvalLow k.c (gfInv (gfExp j)) == 0
  if 8 < k.len ∨ roots.length ≠ k.len then none
  else some (roots.map fun j =>
    let x := gfExp j
    let v := gfInv x
    (j, gfMul x (gfMul (gfEvalLow omega v) (gfInv (gfEvalLow slope v)))))
/-- A codeword as received: its data symbols, and whether a symbol was corrected; nothing where it is uncorrectable. -/
def rsDecode (c : List Nat) : Option (List Nat × Bool) :=
  let y := rsSyndromes c
  if y.all (· == 0) then some (c.take 256, false)
  else match rsErrors y with
    | none => none
    | some es =>
      let fixed := es.foldl (fun c e => c.modify (271 - e.1) (· ^^^ e.2)) c
      if (rsSyndromes fixed).all (· == 0) then some (fixed.take 256, true) else none

/-! ### Scramblers (R297) and interleave groups (R299) -/

/-- The next `n` bits of a scrambler x^58 + x^39 + 1, the first in bit 0, and the register after them. -/
def scramble : Nat → Nat → Nat × Nat
  | 0, st => (0, st)
  | n + 1, st =>
    let b := ((st >>> 57) ^^^ (st >>> 38)) % 2
    let r := scramble n ((2 * st + b) % 2 ^ 58)
    (b + 2 * r.1, r.2)
/-- Symbols of A and B through the scramblers of their lanes: pair j on lane j mod 4, A_j before B_j. -/
def scramblePairs : Nat → List Nat → List Nat → List Nat → List Nat × List Nat × List Nat
  | j, a :: as, b :: bs, sts =>
    let ka := scramble 10 (sts.getD (j % 4) 0)
    let kb := scramble 10 ka.2
    let r := scramblePairs (j + 1) as bs (sts.set (j % 4) kb.2)
    ((a ^^^ ka.1) :: r.1, (b ^^^ kb.1) :: r.2.1, r.2.2)
  | _, _, _, sts => ([], [], sts)
/-- Data symbols of A and B from the 640 bytes of a group: A is filled first. -/
def groupSymbols (bytes : List Byte) : List Nat × List Nat :=
  let v := leNat bytes
  let sym (i : Nat) : Nat := (v >>> (10 * i)) % 1024
  ((List.range 256).map sym, (List.range 256).map fun i => sym (256 + i))
/-- The bytes of a group's data symbols. -/
def symbolBytes (a b : List Nat) : List Byte :=
  leBytes 640 ((a ++ b).reverse.foldl (fun v x => v * 1024 + x) 0)
/-- Two codewords as the four lanes carry them: symbol pair j on lane j mod 4. -/
def toLanes (a b : List Nat) : List (List Nat) :=
  (List.range 4).map fun l => (List.range 68).flatMap fun i => [a.getD (4 * i + l) 0, b.getD (4 * i + l) 0]
/-- The two codewords that the lanes carried. -/
def fromLanes (l : List (List Nat)) : List Nat × List Nat :=
  let at_ (k j : Nat) : Nat := ((l.getD (j % 4) []).getD (2 * (j / 4) + k) 0) % 1024
  ((List.range 272).map (at_ 0), (List.range 272).map (at_ 1))
/-- A group of ten units as it leaves: the lanes' symbols, and the scramblers after it. -/
def sendGroup (sts : List Nat) (units : List (List Byte)) : List (List Nat) × List Nat :=
  let d := groupSymbols (units.flatMap id)
  let r := scramblePairs 0 d.1 d.2 sts
  (toLanes (rsEncode r.1) (rsEncode r.2.1), r.2.2)
/-- A group as received: its ten units and whether a symbol was corrected, or nothing where a codeword is uncorrectable; and the
scramblers after it. -/
def receiveGroup (sts : List Nat) (l : List (List Nat)) : Option (List (List Byte) × Bool) × List Nat :=
  let c := fromLanes l
  match rsDecode c.1, rsDecode c.2 with
  | some a, some b =>
    let r := scramblePairs 0 a.1 b.1 sts
    let bytes := symbolBytes r.1 r.2.1
    (some ((List.range 10).map fun i => (bytes.drop (64 * i)).take 64, a.2 || b.2), r.2.2)
  | _, _ => (none, (scramblePairs 0 (List.replicate 256 0) (List.replicate 256 0) sts).2.2)

end Sys2Proof.Machine
end

