-- ==== Sys2Proof/Machine/LinkLayer.lean ====
section
/-! DEFINITION. The link layer of a port: units, sequence numbers, credits, lane choice, keys and failures
(10 R300-R313, R316). -/

namespace Sys2Proof.Machine

/-! ### Numbers, credits and units -/

/-- Number a precedes number b (R310). -/
def precedes (a b : BitVec 16) : Bool := decide (1 ≤ (b - a).toNat ∧ (b - a).toNat < 2 ^ 15)
/-- Flits of a lane that the receive buffer holds (R309). -/
def laneBuffer (vl : Nat) : Nat := if vl = 1 then 32 else 160
/-- Flits that the replay buffer holds (R311). -/
def replayFlitMax : Nat := 128
/-- Sync units that the replay buffer holds (R311). -/
def replaySyncMax : Nat := 64
/-- A device of a chart in start-up mode grants no credits of VL2 and VL3 (R320). -/
def Chart.starting (c : Chart) : Bool := c.st == .aligning || c.st == .startUp
/-- Last flit and last sync unit accepted. -/
def Port.ackNow (x : Port) : BitVec 16 × BitVec 16 := (x.rxSeq - 1, x.rxSync - 1)
/-- The lane whose credits the next CRED byte returns, and how many. -/
def Port.credNext (x : Port) (held : Bool) : Option (Nat × Nat) :=
  match [1, 2, 3].find? fun v => decide (0 < tget 0 x.owed v) && (v == 1 || !held) with
  | some v => some (v, min 63 (tget 0 x.owed v))
  | none => none
/-- The CRED byte (R302), and the port once it has gone. -/
def Port.takeCred (x : Port) (held : Bool) : Nat × Port :=
  match x.credNext held with
  | some (v, k) => (v * 64 + k, { x with owed := tmod 0 x.owed v (· - k) })
  | none => (0, x)
/-- 60 bytes with their CRC (R303). -/
def withCrc (b : List Byte) : List Byte := b ++ leBytes 4 (crc32c b)
/-- A sync unit (R303). -/
def syncUnit (kph : Bool) (seq ack sack : BitVec 16) (body : List Byte) : List Byte :=
  withCrc ([controlByte 2 0 0 kph] ++ leBytes 2 seq.toNat ++ leBytes 2 sack.toNat ++ leBytes 2 ack.toNat ++ [0] ++ body ++
    List.replicate 4 0)
/-- An idle unit (R303). -/
def idleUnit (ack sack : BitVec 16) (cred : Nat) : List Byte :=
  withCrc ([controlByte 0 0 0 false, 0, 0] ++ leBytes 2 ack.toNat ++ leBytes 2 sack.toNat ++ leBytes 1 cred ++
    List.replicate 52 0)
/-- A replay request (R303). -/
def requestUnit (fseq sseq : BitVec 16) : List Byte :=
  withCrc ([controlByte 3 0 0 false] ++ leBytes 2 1 ++ leBytes 2 fseq.toNat ++ leBytes 2 sseq.toNat ++ List.replicate 53 0)

/-! ### Keys (R316, 16 R445): 32 bytes of key, then the salts of the packet and sync streams -/

/-- Key bytes of a slot. -/
def keyOf (k : List Byte) : List Byte := k.take 32
/-- Salt of the packet stream. -/
def packetSalt (k : List Byte) : Nat := leNat ((k.drop 32).take 4)
/-- Salt of the sync stream. -/
def syncSalt (k : List Byte) : Nat := leNat ((k.drop 36).take 4)
/-- Bytes drawn for a key and its salts. -/
def linkKeyBytes : Nat := 40
/-- Invocation counters end at 2^40; a key is replaced from 2^39 on. -/
def countEnd : Nat := 2 ^ 40

/-! ### Failures (R312, R313, R316, R323) -/

/-- A unit failure: what arrives is discarded until the expected unit does, and a replay request is sent in the next slot. -/
def Port.failUnit (x : Port) : Port :=
  if x.awaiting then { x with rxSub := [] }
  else { x with rxSub := [], awaiting := true, mgmtQ := x.mgmtQ ++ [requestUnit x.rxSeq x.rxSync] }
/-- A unit failure on port n. -/
def State.failUnit (s : State) (n : Nat) : State := s.modPort n Port.failUnit
/-- A link fault (R323). -/
def State.linkFault (s : State) (n : Nat) (kind : BitVec 12) : State := s.sendFault { source := portSource n, kind := kind }
/-- A protocol error. -/
def State.linkProtocol (s : State) (n : Nat) : State := (s.linkFault n 0x305).retrain n 0x0A
/-- An authentication failure: a unit failure; four within 1 ms take the port DOWN. -/
def State.linkAuthFail (s : State) (n : Nat) : State :=
  let s := (s.linkFault n 0x304).noteSat (s.port n).authf 3
  let times := s.now :: (s.port n).authTimes.filter fun t => decide (s.now - t ≤ 1000000)
  let s := s.modPort n fun x => { x with authf := satInc x.authf, authTimes := times }
  if 4 ≤ times.length then s.leaveUp n .down 9 else s.failUnit n

/-! ### Acknowledgements and credits received -/

/-- ACK and SACK: nothing where one names a unit not yet sent, else the port with what they release (R310, R311). -/
def Port.takeAck (x : Port) (ack sack : BitVec 16) : Option Port :=
  if !(precedes ack x.txSeq) || !(precedes sack x.txSync) then none
  else
    some
      { x with
        replayFlits := x.replayFlits.filter fun f => precedes ack f.seq
        resendFlits := x.resendFlits.filter fun f => precedes ack f.seq
        replaySyncs := x.replaySyncs.filter fun f => precedes sack f.seq
        resendSyncs := x.resendSyncs.filter fun f => precedes sack f.seq }
/-- A CRED byte received: nothing where it returns more than the buffer holds. -/
def Port.takeCredit (x : Port) (c : Nat) : Option Port :=
  let v := c / 64
  if v = 0 then some x
  else if laneBuffer v < tget 0 x.credits v + c % 64 then none
  else some { x with credits := tmod 0 x.credits v (· + c % 64) }
/-- Flits that leave the receive buffer for the packet they belong to, their credits owed; while a whole packet waits, they stay
(R306, R309). A flit of a packet whose beginning was flushed is dropped. -/
def Port.drain (x : Port) (v : Nat) : List RxFlit → Port
  | [] => { x with rxFlits := tset [] x.rxFlits v [] }
  | f :: fs =>
    if (tget none x.rxPacket v).isSome then { x with rxFlits := tset [] x.rxFlits v (f :: fs) }
    else
      let a := tget {} x.rxAsm v
      let a : RxPacket :=
        if f.need ≠ 0 then { need := f.need, kph := f.kph, count := f.count, bytes := f.pay }
        else if a.need = 0 then {}
        else { a with bytes := a.bytes ++ f.pay }
      let whole := a.need != 0 && a.bytes.length == a.need * flitPayload
      Port.drain
        { x with
          owed := tmod 0 x.owed v (· + 1)
          rxAsm := tset {} x.rxAsm v (if whole then {} else a)
          rxPacket := if whole then tset none x.rxPacket v (some a) else x.rxPacket } v fs
/-- What a lane's receive buffer lets go. -/
def Port.drainLane (x : Port) (v : Nat) : Port := x.drain v (tget [] x.rxFlits v)
/-- An accepted flit enters the receive buffer; the first flit of a packet takes the next invocation number of its key slot
(R309, R316). -/
def Port.flitIn (x : Port) (v : Nat) (kph : Bool) (pay : List Byte) : Port :=
  let left := tget 0 x.rxLeft v
  let sl := tget {} x.rxSlots (b2n kph)
  let need := if left = 0 then packetSpan pay else 0
  Port.drainLane
    { x with
      rxFlits := tmod [] x.rxFlits v (· ++ [{ kph := kph, need := need, count := if left = 0 then sl.count else 0, pay := pay }])
      rxLeft := tset 0 x.rxLeft v (if left = 0 then need - 1 else left - 1)
      rxSlots := if left = 0 && x.encon then tset {} x.rxSlots (b2n kph) { sl with count := sl.count + 1 } else x.rxSlots } v
/-- Everything of both replay buffers is sent again, sync stream first (R312, R313). -/
def Port.resendAll (x : Port) : Port := { x with resendSyncs := x.replaySyncs, resendFlits := x.replayFlits }
/-- What a replay request asks for (R312). -/
def Port.resendFrom (x : Port) (fseq sseq : BitVec 16) : Port :=
  { x with
    resendSyncs := x.replaySyncs.filter fun f => !precedes f.seq sseq
    resendFlits := x.replayFlits.filter fun f => !precedes f.seq fseq }

/-! ### The transmitter (R308) -/

/-- A slot passes: whether it was a sync unit. -/
def Port.slotWas (x : Port) (sync : Bool) : Port :=
  { x with vl0Run := BitVec.ofNat 63 (2 * x.vl0Run.toNat + b2n sync) }
/-- Sync units among the last 63 slots. -/
def Port.syncSlots (x : Port) : Nat := ((List.range 63).filter x.vl0Run.getLsbD).length
/-- Whether flits wait. -/
def Port.flitsWait (x : Port) : Bool := !x.inProgress.isEmpty || !x.resendFlits.isEmpty || x.flitQ.any fun q => !q.2.isEmpty
/-- Lane of a new flit, with the counts of VL1 flits in a row and of VL2 flits since one of VL3: VL1 strictly first for 16
flits while a lower lane waits, then one flit of each waiting lower lane; VL2 and VL3 share 3:1. -/
def Port.lane (x : Port) (w1 w2 w3 : Bool) : Option (Nat × Nat × Nat) :=
  let low := w2 || w3
  if w1 && (decide (x.vl1Run < 16) || !low) then some (1, if low then x.vl1Run + 1 else 0, x.vl2Run)
  else if w1 then
    if w2 && decide (x.vl1Run = 16) then some (2, if w3 then 17 else 0, x.vl2Run)
    else some (if w3 then 3 else 2, 0, x.vl2Run)
  else if w2 && (decide (x.vl2Run < 3) || !w3) then some (2, 0, if w3 then x.vl2Run + 1 else 0)
  else if w3 then some (3, 0, 0)
  else none
/-- Head of a lane. -/
def Port.laneHead (x : Port) (v : Nat) : Option TxPacket := (tget [] x.flitQ v).head?
/-- A packet as its first flit is chosen: sealed where the link encrypts, and cut into flit payloads (R306, R316). -/
def TxPacket.begin (k : TxPacket) (x : Port) : TxPacket :=
  if k.begun then k
  else
    let pk := { k.pk with enc := x.encon }
    let h := packetHeader pk pk.body.length
    let body := if x.encon then Config.gcmSeal (keyOf x.txKey) (gcmIv (packetSalt x.txKey) x.txCount) h pk.body else pk.body
    let bytes := h ++ body
    { pk := pk, begun := true, kph := x.encon && x.kpht
      pieces := chunks flitPayload ((bytes.length + flitPayload - 1) / flitPayload) bytes }
/-- The next flit of a lane, numbered and held for replay. -/
def Port.newFlit (x : Port) (v : Nat) (k : TxPacket) : Port × Flit :=
  let b := k.begin x
  let f : Flit := { seq := x.txSeq, vl := v, ctx := k.pk.ctx, kph := b.kph, pay := b.pieces.headD [] }
  let rest := b.pieces.drop 1
  let q := (tget [] x.flitQ v).drop 1
  ({ x with
     txCount := if x.encon && !k.begun then x.txCount + 1 else x.txCount
     txSeq := x.txSeq + 1
     replayFlits := x.replayFlits ++ [f]
     credits := tmod 0 x.credits v (· - 1)
     flitQ := tset [] x.flitQ v (if rest.isEmpty then q else { b with pieces := rest } :: q) }, f)
/-- A sync message with its transmit stamp, the count (in units of 1/256 ns) at which its unit takes the slot: the integer part as the
count when sent, and of the units of alignment the fraction in bits 7:0 of the operand (R304, 11 R329; log 53). -/
def stampSync (datum : Nat) (m : SyncMsg) : SyncMsg :=
  { m with
    sentAt := BitVec.ofNat 64 (datum / 256)
    operand := if m.stype = syDatum ∨ m.stype = syProbe then BitVec.ofNat 64 (datum % 256) else m.operand }
/-- A sync message as its unit carries it: stamped, and encrypted with its tag where the link encrypts. -/
def Port.newSync (x : Port) (datum : Nat) (m : SyncMsg) : Port × SentSync :=
  let plain := syncBytes (stampSync datum m)
  let body :=
    if x.encon then Config.gcmSeal (keyOf x.txKey) (gcmIv (syncSalt x.txKey) x.txSyncCount) (leBytes 2 x.txSync.toNat) plain
    else plain
  let u : SentSync :=
    { seq := x.txSync, kph := x.encon && x.kpht, body := (body ++ List.replicate 48 0).take 48 }
  ({ x with
     txSyncCount := if x.encon then x.txSyncCount + 1 else x.txSyncCount
     txSync := x.txSync + 1, replaySyncs := x.replaySyncs ++ [u], syncQ := x.syncQ.drop 1 }, u)
/-- Hold mode (11 R346): a packet of VL2 or VL3 leaves once every verdict of the partition's products is clean and no fault
stands against the step. -/
def State.sendHeld (s : State) (n : Nat) : Bool :=
  match s.partOfPort n with
  | none => false
  | some p =>
    (s.part p).hold && (!(s.part p).faults.isEmpty || (s.engineIds p).any fun e => !(s.eng e).verdicts.isEmpty)
/-- A poisoned packet about to leave in hold mode is not sent: a poison commit point (08 R249). -/
def State.dropPoisoned (s : State) (n v : Nat) : State :=
  match s.partOfPort n, (s.port n).laneHead v with
  | some p, some k =>
    if (s.part p).hold && k.pk.poison && !k.begun then
      let c : CtxId := Fin.ofNat 4096 k.pk.ctx.toNat
      let s := s.modPort n fun x => { x with flitQ := tmod [] x.flitQ v (·.drop 1) }
      let s := s.sendFault { source := portSource n, kind := 0x110, ctx := some c }
      match (s.part p).runOf c with
      | some r => if r.chart then s.failEpoch c 0x110 true else (s.finishRun p c stPoison 0x110).contain p c
      | none => s.contain p c
    else s
  | _, _ => s

end Sys2Proof.Machine
end

