-- ==== Sys2Proof/Machine/Links.lean ====
section
/-! DEFINITION. The rows of the Voijo links (10; 14 R391; 16 R445). A row whose condition does not hold leaves the state
unchanged. -/

namespace Sys2Proof.Machine

/-! ### Enabling and training (R318-R322) -/

/-- The RWL fields of a port are locked while its partition runs (R321). -/
def State.portLocked (s : State) (n : Nat) : Bool := match s.partOfPort n with | some p => (s.part p).locked | none => false
/-- A port that is OFF starts training, or loops back (R318, R319). -/
def State.startPort (s : State) (n : Nat) : State :=
  s.modPort n fun x =>
    if x.lstate == .off then
      { x with en := true, tries := 0, quiet := false, lstate := if x.loop == 0 then .detect else .loopback }
    else { x with en := true }
/-- A 1 written to `VJ.EN`. -/
def State.doPortEnable (s : State) (n : Nat) : State := if s.portLocked n then s.hostFault 0x405 else s.startPort n
/-- A 0 written to `VJ.EN`: OFF with cause 0x07. -/
def State.doPortDisable (s : State) (n : Nat) : State :=
  if s.portLocked n then s.hostFault 0x405
  else if (s.port n).en then (s.leaveUp n .off 7).modPort n fun x => { x with en := false, groupEnabled := false }
  else s
/-- A 1 written to `VJ.RETRAIN` (R313; the cause is that of a lock not recovered). -/
def State.doRetrain (s : State) (n : Nat) : State := s.retrain n 5
/-- The DETECT timer: 10 ms of sending, 15 ms quiet; each quiet period counts (R319). -/
def State.doDetectTimer (s : State) (n : Nat) : State :=
  let x := s.port n
  if x.lstate != .detect then s
  else if x.quiet then s.modPort n fun x => { x with quiet := false }
  else (s.noteSat x.tries 3).modPort n fun x => { x with quiet := true, tries := satInc x.tries, cause := 1 }
/-- Signal on all four lanes. -/
def State.doSignal (s : State) (n : Nat) : State :=
  if (s.port n).lstate == .detect then s.modPort n fun x => { x with lstate := .equalise, quiet := false } else s
/-- A failure in training: it counts, raises 0x307, and training goes on from `next`. -/
def State.trainFail (s : State) (n : Nat) (cause : BitVec 8) (next : LinkState) : State :=
  ((s.noteSat (s.port n).tries 3).linkFault n 0x307).modPort n fun x =>
    { x with tries := satInc x.tries, cause := cause, lstate := next, quiet := false }
/-- End of EQUALISE. A retraining port tries again until its limit (R313). -/
def State.doEqualise (s : State) (n : Nat) (ok : Bool) : State :=
  let x := s.port n
  if x.lstate != .equalise then s
  else if ok then s.modPort n fun x => { x with lstate := .align }
  else s.trainFail n 2 (if x.retraining then .equalise else .detect)
/-- End of ALIGN: lane order and polarity (R294). -/
def State.doAlign (s : State) (n : Nat) (ok : Bool) (order : LaneOrder) (pol : BitVec 4) : State :=
  let x := s.port n
  if x.lstate != .align then s
  else if ok && order != .other then s.modPort n fun x => { x with lstate := .param, rev := order == .reversed, pol := pol }
  else s.trainFail n 3 (if x.retraining then .equalise else .detect)
/-- Whether the partner's parameters fit (R316, 11 R327, 16 R445). -/
def State.paramsFit (s : State) (n : Nat) (q : PartnerParams) : Bool :=
  let x := s.port n
  q.chartId == s.chart.reg.chartId && q.devId != s.chart.reg.devId && q.enc == x.enc &&
  (!x.enc || (s.ecb.chartKey.isSome && q.keyUnwraps))
/-- What PARAM settles: identities, delay, precoding in each direction (R295, R296), and the seeds of the lanes' scramblers, `own` those
that this port sends (R297, log 50). -/
def Port.paramDone (x : Port) (q : PartnerParams) (own : Nat) : Port :=
  { x with
    lstate := .up, retraining := false, retrainCause := 0, pdev := q.devId, pport := q.port, delay := q.delayNs
    long := decide (90 < q.delayNs.toNat), precod := x.precode, txPrecode := q.precode
    txScr := (List.range 4).map fun l => (own >>> (58 * l)) % 2 ^ 58, rxScr := q.seeds.map BitVec.toNat }
/-- Encryption under fresh keys, both streams and both directions in phase 0 (R316). `rx` is the partner's key, which the spec gives as it
arrives, wrapped, in a packet without a layout (log 50). -/
def Port.keyed (x : Port) (tx rx : List Byte) : Port :=
  { x with
    encon := true, txKey := tx, rxSlots := tset {} [] 0 { key := rx }, nextKey := [], krdy := false, kpht := false, kphr := false
    phasePkt := false, phaseSync := false, txCount := 0, txSyncCount := 0 }
/-- Without encryption. -/
def Port.plain (x : Port) : Port :=
  { x with encon := false, txKey := [], rxSlots := [], nextKey := [], krdy := false, kpht := false, kphr := false }
/-- The port with fresh streams: numbers at 0, and nothing it may send until the partner grants its receive buffer in CRED bytes, as this
port grants its own (R309, R310, R320; log 49). -/
def Port.freshUp (x : Port) : Port := { x.dropLink with owed := tset 0 (tset 0 (tset 0 [] 1 32) 2 160) 3 160 }
/-- The streams of a retrain that reaches UP within the limit: both keep their numbers and replay from the last ACK and SACK (R313). -/
def Port.upAgain (x : Port) : Port :=
  { x.resendAll with inProgress := [], rxSub := [], mgmtQ := [], awaiting := false, badGroups := 0 }
/-- End of PARAM. Encryption that begins here waits until Ecbumos can draw the port's key; in a retrain it goes on under the keys in
force, begins, or ends, as `VJ.ENC` now is (R316, R318). -/
def State.doParam (s : State) (n : Nat) (q : PartnerParams) : State :=
  let x := s.port n
  if x.lstate != .param then s
  else if !s.paramsFit n q then if x.retraining then s.leaveUp n .down 4 else s.trainFail n 4 .detect
  else
    let own := Config.freeValue s.free
    let up (x : Port) : Port := (if x.retraining then x.upAgain else x.freshUp).paramDone q own
    if x.enc && !(x.retraining && x.encon) then
      let r := ({ s with free := s.free + 1 } : State).drbgDraw linkKeyBytes true (portSource n) 0 0
      match r.2 with
      | none => s
      | some k =>
        let rx := leBytes linkKeyBytes (Config.freeValue r.1.free)
        ({ r.1 with free := r.1.free + 1 } : State).modPort n fun x => (up x).keyed k rx
    else ({ s with free := s.free + 1 } : State).modPort n fun x => if x.enc then up x else (up x).plain
/-- 50 ms of retraining are over: DOWN with the cause that led to it, buffers discarded (R313). -/
def State.doRetrainLimit (s : State) (n : Nat) : State :=
  let x := s.port n
  if x.retraining then s.leaveUp n .down x.retrainCause else s

/-! ### Sending (R308) -/

/-- A unit leaves; ten fill an interleave group, which the four lanes then carry (R297-R299). -/
def State.sendUnit (s : State) (p : PortId) (b : List Byte) (sync : Bool) : State :=
  let g := (s.port p.val).txGroup ++ [b]
  let s := (s.modPort p.val fun x => { x.slotWas sync with txGroup := g }).emit (.linkUnit p b)
  if g.length < 10 then s
  else
    let r := sendGroup (s.port p.val).txScr g
    (s.modPort p.val fun x => { x with txGroup := [], txScr := r.2 }).emit (.linkGroup p r.1)
/-- A sync unit takes the slot. -/
def State.sendSyncUnit (s : State) (p : PortId) (u : SentSync) : State :=
  let x := s.port p.val
  let a := x.ackNow
  let s := s.linkEvent p.val { cls := 7, code := 0x08 }
  let s := if x.inProgress.isEmpty then s else s.linkEvent p.val { cls := 7, code := 0x0C }
  s.sendUnit p (syncUnit u.kph u.seq a.1 a.2 u.body) true
/-- The first sub-flit of a flit takes the slot; the others are in progress. -/
def State.sendFlit (s : State) (p : PortId) (f : Flit) : State :=
  let x := s.port p.val
  let a := x.ackNow
  let c := x.takeCred s.chart.starting
  let us := flitUnits f.vl f.seq a.1 a.2 c.1 f.kph f.pay
  let s := s.modPort p.val fun _ => { c.2 with inProgress := us.drop 1 }
  (s.linkEvent p.val { cls := 7, code := f.vl }).sendUnit p (us.headD []) false
/-- An idle unit takes the slot. -/
def State.sendIdle (s : State) (p : PortId) : State :=
  let x := s.port p.val
  let a := x.ackNow
  let c := x.takeCred s.chart.starting
  (s.modPort p.val fun _ => c.2).sendUnit p (idleUnit a.1 a.2 c.1) false
/-- A new flit, or an idle unit where no lane may send. -/
def State.sendNew (s : State) (p : PortId) : State :=
  let s := (s.dropPoisoned p.val 2).dropPoisoned p.val 3
  let x := s.port p.val
  let held := s.sendHeld p.val
  let may (v : Nat) : Bool := (x.laneHead v).isSome && decide (0 < tget 0 x.credits v) && (v == 1 || !held)
  let pick := if x.replayFlits.length < replayFlitMax then x.lane (may 1) (may 2) (may 3) else none
  match pick with
  | none => s.sendIdle p
  | some (v, r1, r2) =>
    match x.laneHead v with
    | none => s.sendIdle p
    | some k =>
      let y := x.newFlit v k
      (s.modPort p.val fun _ => { y.1 with vl1Run := r1, vl2Run := r2 }).sendFlit p y.2
/-- The flit in progress, then flits to resend, then a new one. -/
def State.sendFlits (s : State) (p : PortId) (ip : List (List Byte)) (rf : List Flit) : State :=
  match ip, rf with
  | b :: rest, _ => (s.modPort p.val fun x => { x with inProgress := rest }).sendUnit p b false
  | [], f :: rest => (s.modPort p.val fun x => { x with resendFlits := rest }).sendFlit p f
  | [], [] => s.sendNew p
/-- The next slot of a port that is UP (R308); encryption ends at 2^40 invocations (R316, 16 R449). A FENCED port sends idle
units (R320). -/
def State.doSlot (s : State) (p : PortId) : State :=
  let n := p.val
  let x := s.port n
  if x.lstate == .fenced then s.sendIdle p
  else if x.lstate != .up then s
  else if x.encon && (decide (countEnd ≤ x.txCount) || decide (countEnd ≤ x.txSyncCount)) then s.leaveUp n .down 0x0A
  else
    match x.mgmtQ with
    | b :: rest =>
      let s := (s.noteSat x.replay 3).linkEvent n { cls := 7, code := 0x0A }
      (s.modPort n fun x => { x with mgmtQ := rest, replay := satInc x.replay }).sendUnit p b false
    | [] =>
      let room := !x.flitsWait || decide (x.syncSlots < 16)
      match x.resendSyncs, x.syncQ, x.inProgress, x.resendFlits with
      | u :: rest, _, ip, rf =>
        if room then (s.modPort n fun x => { x with resendSyncs := rest }).sendSyncUnit p u
        else s.sendFlits p ip rf
      | [], m :: _, ip, rf =>
        if room && decide (x.replaySyncs.length < replaySyncMax) then
          let y := x.newSync s.chart.datum m
          (s.modPort n fun _ => y.1).sendSyncUnit p y.2
        else s.sendFlits p ip rf
      | [], [], ip, rf => s.sendFlits p ip rf

/-- One FENCED sync unit of a port of a device in the safe state: the next unit of the sync stream that its partner expects (R310, R320).
It is not held for replay. -/
def State.doFencedSend (s : State) (p : PortId) : State :=
  let x := s.port p.val
  if x.lstate != .fenced then s
  else
    let a := x.ackNow
    let m : SyncMsg :=
      { stype := syFenced, value := false, src := s.chart.reg.devId, dst := x.pdev, num := 0, operand := 0
        sentAt := BitVec.ofNat 64 s.now, epoch := 0, ctx := 0, gen := 0 }
    let y := x.newSync s.chart.datum m
    (s.modPort p.val fun x => { x with txSync := y.1.txSync, txSyncCount := y.1.txSyncCount }).sendUnit p
      (syncUnit y.2.kph y.2.seq a.1 a.2 y.2.body) true
/-- The partner is fenced: DOWN with cause 0x08 (R320). -/
def State.doFencedReceive (s : State) (n : Nat) : State := if (s.port n).lstate == .up then s.leaveUp n .down 8 else s

/-! ### Receiving (R312) -/

/-- Odd parity of a control byte. -/
def parityOk (c : Nat) : Bool := ((List.range 8).filter (bit c)).length % 2 == 1
/-- A control byte that R301 allows on this link. -/
def controlOk (c : Nat) (encon : Bool) : Bool :=
  let ty := bits c 7 6
  let vl := bits c 3 2
  (if ty = 1 then vl != 0 else vl == 0 && bits c 5 4 == 0) && (encon || !bit c 1)
/-- The next flit came in its order: the wait ends, and requests count for the flit after it (R312, R313). -/
def Port.flitInOrder (x : Port) : Port := { x with awaiting := false, reqFlit := 0, rxSeq := x.rxSeq + 1 }
/-- The next sync unit came in its order. -/
def Port.syncInOrder (x : Port) : Port := { x with awaiting := false, reqSync := 0, rxSync := x.rxSync + 1 }
/-- The key phase of a packet's first flit, or of a sync unit: where a stream is the first to change to it, the slot that KPH names holds
the partner's next key, with counters of its own; the other slot stays for what began under it (R316; log 50). -/
def State.phaseSeen (s : State) (n : Nat) (sync kph : Bool) : State :=
  let x := s.port n
  let s := s.modPort n fun x => if sync then { x with phaseSync := kph } else { x with phasePkt := kph }
  if x.encon && kph != x.phasePkt && kph != x.phaseSync then
    let rx := leBytes linkKeyBytes (Config.freeValue s.free)
    ({ s with free := s.free + 1 } : State).modPort n fun x =>
      { x with kphr := kph, rxSlots := tset {} x.rxSlots (b2n kph) { key := rx } }
  else s
/-- A failed CRC in a group that decoded. -/
def State.badCrc (s : State) (n : Nat) : State := (s.linkFault n 0x303).failUnit n
/-- The acknowledgements of an accepted unit, and credits returned: outside the window is a protocol error. -/
def State.accept (s : State) (n : Nat) (ack sack : BitVec 16) (cred : Nat) (f : State → State) : State :=
  match (s.port n).takeAck ack sack with
  | none => s.linkProtocol n
  | some x => match x.takeCredit cred with
    | none => s.linkProtocol n
    | some x => f (s.modPort n fun _ => x)
/-- Sequence rule of R312 for a number against the next expected one. -/
def State.sequenced (s : State) (n : Nat) (seq want : BitVec 16) (f : State → State) : State :=
  if seq = want then f s
  else if precedes seq want then s
  else s.failUnit n
/-- The four sub-flits of a flit. -/
def State.flitArrives (s : State) (n : Nat) (us : List (List Byte)) : State :=
  let b := us.flatMap id
  let u0 := us.headD []
  let c := recField u0 0 1
  let v := bits c 3 2
  let s := s.modPort n fun x => { x with rxSub := [] }
  if recField b 252 4 ≠ crc32c (b.take 252) then s.badCrc n
  else
    s.sequenced n (BitVec.ofNat 16 (recField u0 1 2)) (s.port n).rxSeq fun s =>
      if laneBuffer v ≤ (tget [] (s.port n).rxFlits v).length + tget 0 (s.port n).owed v then s.linkProtocol n
      else
        s.accept n (BitVec.ofNat 16 (recField u0 3 2)) (BitVec.ofNat 16 (recField u0 5 2)) (recField u0 7 1) fun s =>
          let pay := u0.drop 8 ++ ((us.drop 1).flatMap fun u => u.drop 1).take 185
          let s := if tget 0 (s.port n).rxLeft v = 0 then s.phaseSeen n false (bit c 1) else s
          (s.modPort n fun x => x.flitInOrder.flitIn v (bit c 1) pay).linkEvent n { cls := 7, code := 4 + v }
/-- A sub-flit: the four of a flit in SFPOS order (R301). -/
def State.subFlitArrives (s : State) (n : Nat) (b : List Byte) : State :=
  let c := recField b 0 1
  let pos := bits c 5 4
  let have_ := if pos = 0 then [] else (s.port n).rxSub
  let same := have_.all fun u => bits (recField u 0 1) 3 2 == bits c 3 2
  if have_.length ≠ pos || !same then s.failUnit n
  else if pos = 3 then s.flitArrives n (have_ ++ [b])
  else s.modPort n fun x => { x with rxSub := have_ ++ [b] }
/-- Whether a sync unit is authentic under the slot of its key phase: the tag in bytes 55:40 covers the message and bytes 2:1 (R316). -/
def Port.syncAuthentic (x : Port) (b : List Byte) : Bool :=
  let sl := tget {} x.rxSlots (b2n (bit (recField b 0 1) 1))
  (Config.gcmUnseal (keyOf sl.key) (gcmIv (syncSalt sl.key) sl.syncCount) ((b.drop 1).take 2) ((b.drop 8).take 48)).isSome
/-- A sync unit. The message acts by its own row once accepted (log 50). -/
def State.syncArrives (s : State) (n : Nat) (b : List Byte) : State :=
  let k := bit (recField b 0 1) 1
  s.sequenced n (BitVec.ofNat 16 (recField b 1 2)) (s.port n).rxSync fun s =>
    if (s.port n).encon && !((s.phaseSeen n true k).port n).syncAuthentic b then s.linkAuthFail n
    else
      s.accept n (BitVec.ofNat 16 (recField b 5 2)) (BitVec.ofNat 16 (recField b 3 2)) 0 fun s =>
        ((s.phaseSeen n true k).modPort n fun x =>
          { x.syncInOrder with
            rxSlots := if x.encon then tmod {} x.rxSlots (b2n k) fun sl => { sl with syncCount := sl.syncCount + 1 } else x.rxSlots
            }).linkEvent n { cls := 7, code := 0x09 }
/-- A unit of a group that decoded. -/
def State.unitArrives (s : State) (n : Nat) (b : List Byte) : State :=
  let c := recField b 0 1
  if b.length ≠ 64 || !parityOk c then s.failUnit n
  else if !controlOk c (s.port n).encon then s.linkProtocol n
  else if bits c 7 6 = 1 then s.subFlitArrives n b
  else if recField b 60 4 ≠ crc32c (b.take 60) then s.badCrc n
  else if bits c 7 6 = 2 then s.syncArrives n b
  else if bits c 7 6 = 0 then
    s.accept n (BitVec.ofNat 16 (recField b 3 2)) (BitVec.ofNat 16 (recField b 5 2)) (recField b 7 1) id
  else s
/-- A group with a codeword that is uncorrectable: none of its units is accepted, and eight in a row are loss of lock (R300, R312). -/
def State.groupLost (s : State) (n : Nat) : State :=
  let x := s.port n
  let s := (s.noteSat x.uncorr 3).modPort n fun x => { x with uncorr := satInc x.uncorr, badGroups := x.badGroups + 1 }
  if 8 ≤ x.badGroups + 1 then s.retrain n 5 else s.failUnit n
/-- A group that decoded, and whether a symbol was corrected. -/
def State.groupDecoded (s : State) (n : Nat) (corrected : Bool) : State :=
  let x := s.port n
  let s := s.modPort n fun x => { x with badGroups := 0 }
  if corrected then
    ((s.noteSat x.corrgrp 3).modPort n fun x => { x with corrgrp := satInc x.corrgrp }).linkEvent n { cls := 7, code := 0x0B }
  else s
/-- The units of a group in their order, while the port stays UP. -/
def State.unitsArrive (s : State) (n : Nat) (us : List (List Byte)) : State :=
  s.forEach us fun s b => if (s.port n).lstate == .up then s.unitArrives n b else s
/-- What a port that is UP receives (R297-R300, R312). -/
def State.doUnit (s : State) (n : Nat) (u : GroupUnit) : State :=
  let x := s.port n
  if x.lstate != .up then s
  else
    match u with
    | .uncorrectable => s.groupLost n
    | .bytes b corrected => (s.groupDecoded n corrected).unitArrives n b
    | .wire lanes =>
      let r := receiveGroup x.rxScr (lanes.map fun l => l.map BitVec.toNat)
      let s := s.modPort n fun x => { x with rxScr := r.2 }
      match r.1 with
      | none => s.groupLost n
      | some (us, corrected) => (s.groupDecoded n corrected).unitsArrive n us
/-- A replay request of the partner. -/
def State.doRequest (s : State) (n : Nat) (fseq sseq : BitVec 16) : State :=
  if (s.port n).lstate == .up then s.modPort n fun x => x.resendFrom fseq sseq else s
/-- 2 µs without the expected unit: the request failed for both numbers it named. At the eighth for one number the port retrains; before
it, the request is sent again (R312, R313). -/
def State.doRequestTimeout (s : State) (n : Nat) : State :=
  let x := s.port n
  if x.lstate != .up || !x.awaiting then s
  else if 8 ≤ x.reqFlit + 1 ∨ 8 ≤ x.reqSync + 1 then
    ((s.linkFault n 0x302).modPort n fun x => { x with reqFlit := 0, reqSync := 0 }).retrain n 6
  else
    s.modPort n fun x =>
      { x with reqFlit := x.reqFlit + 1, reqSync := x.reqSync + 1, mgmtQ := x.mgmtQ ++ [requestUnit x.rxSeq x.rxSync] }
/-- 2 µs without progress of ACK: everything outstanding is resent (R312). -/
def State.doAckStall (s : State) (n : Nat) : State :=
  if (s.port n).lstate == .up then s.modPort n Port.resendAll else s
/-- 0x308 for more than 1,024 corrected groups in a millisecond (R323). -/
def State.doCorrectedRate (s : State) (n : Nat) (groups : Nat) : State :=
  if (s.port n).lstate == .up && decide (1024 < groups) then s.linkFault n 0x308 else s

/-! ### Packets (R317) -/

/-- A whole packet leaves: the flits behind it may follow. -/
def State.popPacket (s : State) (n v : Nat) : State :=
  s.modPort n fun x => ({ x with rxPacket := tset none x.rxPacket v none }).drainLane v
/-- Whether a packet belongs on its lane and to a context of the port's partition. -/
def State.packetOk (s : State) (n v : Nat) (pk : Packet) : Bool :=
  packetVl pk.ptype == some v && s.partOfPort n == some (s.ctx pk.ctx.toNat).part.toNat
/-- Whether the epoch rule drops a packet (11 R345). -/
def State.epochDrops (s : State) (pk : Packet) : Bool :=
  let st := (s.epoch pk.ctx.toNat).st
  st == .rollback || (pk.prov && st != .opened && st != .voted)
/-- A TILE body fails its check at the I/O die beside the port. -/
def State.tileFault (s : State) (n : Nat) (pk : Packet) (kind : BitVec 12) : State :=
  s.sendFault { source := devSource (2 + n / 16), kind := kind, ctx := some (Fin.ofNat 4096 pk.ctx.toNat) }
/-- The check of a TILE body (R317, 08 R243, R245): its seal and its header; a packet names no tensor or tile to compare with. -/
def State.sealAtReceipt (s : State) (n : Nat) (pk : Packet) : State × Packet :=
  if pk.ptype = 1 then
    let img := pk.body
    match checkTile (img.take 32) (img.drop 32) { tensor := recTensor img, tile := recTile img, fmt := none } with
    | some k => (s.tileFault n pk k, { pk with poison := true })
    | none => (s, pk)
  else (s, pk)
/-- Forwarding, or delivery to the sheet with POISON and PROV (R317): tiles and contributions reach the sheet's router, hub messages its
hub; DATA and CONTROL packets, whose bodies have no layout, are held by the sheet (log 50). -/
def State.deliverPacket (s : State) (n : Nat) (pk : Packet) : State :=
  let h := pk.dsheet.toNat
  let src : DevId := Fin.ofNat 4096 pk.src.toNat
  if pk.dst != s.chart.reg.devId then s.launchPacket pk n
  else if pk.ptype = 1 ∨ pk.ptype = 3 then
    s.routeSend h pk.route
      { route := pk.route, image := pk.body, poison := pk.poison, tspec := pk.tspec, src := .device src, prov := pk.prov }
  else if pk.ptype = 4 then s.hubArrives h src pk.body
  else s.modSheet h fun x => { x with inPackets := x.inPackets ++ [pk] }
/-- A packet for a sheet whose router does not hold its route yet stays in the receive buffer (log 50). -/
def State.packetWaits (s : State) (pk : Packet) : Bool :=
  pk.dst == s.chart.reg.devId && (pk.ptype == 1 || pk.ptype == 3) &&
  ((s.sheet pk.dsheet.toNat).routeOf pk.route).isNone
/-- A packet in the clear: order of R317. -/
def State.receivePacket (s : State) (n v : Nat) (pk : Packet) : State :=
  if pk.gen != (s.ctx pk.ctx.toNat).gen then
    ((s.popPacket n v).noteSat (s.ctx pk.ctx.toNat).drops 4).modCtx pk.ctx.toNat fun x => { x with drops := satInc x.drops }
  else if s.epochDrops pk then
    ((s.popPacket n v).noteSat (s.epoch pk.ctx.toNat).drops 4).modEpoch pk.ctx.toNat fun e => { e with drops := satInc e.drops }
  else if s.packetWaits pk then s
  else
    let r := (s.popPacket n v).sealAtReceipt n pk
    r.1.deliverPacket n r.2
/-- Header, and body with its tag where there is one, of a whole packet: nothing where the header is malformed (R306). -/
def RxPacket.parse (a : RxPacket) : Option Packet :=
  match parseHeader a.bytes with
  | none => none
  | some (pk, len) => some { pk with body := (a.bytes.drop 32).take (len + (if pk.enc then 16 else 0)) }
/-- Text of a packet that the link encrypted, under the slot and invocation number it came with: nothing where its tag fails (R316). -/
def Port.clear (x : Port) (a : RxPacket) (pk : Packet) : Option Packet :=
  if pk.enc then
    let k := (tget {} x.rxSlots (b2n a.kph)).key
    match Config.gcmUnseal (keyOf k) (gcmIv (packetSalt k) a.count) (packetHeader pk (pk.body.length - 16)) pk.body with
    | some b => some { pk with body := b }
    | none => none
  else some pk
/-- The whole packet of a lane is processed; `d` upset its body in the receive buffer. -/
def State.doPacket (s : State) (n v : Nat) (d : Disturb) : State :=
  let x := s.port n
  if x.lstate != .up then s
  else
    match tget none x.rxPacket v with
    | none => s
    | some raw =>
      match raw.parse with
      | none => (s.popPacket n v).linkFault n 0x306
      | some pk =>
        if !s.packetOk n v pk then (s.popPacket n v).linkFault n 0x306
        else
          match x.clear raw { pk with body := flipBytes pk.body d.transit } with
          | none => (s.popPacket n v).linkAuthFail n
          | some pk => s.receivePacket n v pk
/-- A packet at the head of a lane waits without credit for `HANG.LNKTMO`: kind 0x721, and its context is killed (14 R391). -/
def State.doCreditTimeout (s : State) (n v : Nat) : State :=
  let x := s.port n
  match x.laneHead v with
  | none => s
  | some k =>
    if x.lstate == .up && tget 0 x.credits v == 0 then
      let c : CtxId := Fin.ofNat 4096 k.pk.ctx.toNat
      (s.sendFault { source := portSource n, kind := 0x721, ctx := some c }).startTeardown c true false stHang none
    else s

/-! ### Keys (R316, 16 R445) -/

/-- The partner has reported the next key installed: packets and sync units that begin from here use it. -/
def State.doKeyPhase (s : State) (n : Nat) : State :=
  let x := s.port n
  if x.lstate == .up && x.encon && x.krdy then
    s.modPort n fun x =>
      { x with kpht := !x.kpht, krdy := false, txKey := x.nextKey, nextKey := [], txCount := 0, txSyncCount := 0 }
  else s
/-- A key is replaced from 2^39 invocations on: the next key is drawn and goes, wrapped, to the partner in a CONTROL packet,
whose body has no layout in the spec (log 26). -/
def State.doRekey (s : State) (n : Nat) : State :=
  let x := s.port n
  if x.lstate == .up && x.encon && !x.krdy && (decide (2 ^ 39 ≤ x.txCount) || decide (2 ^ 39 ≤ x.txSyncCount)) then
    let r := s.drbgDraw linkKeyBytes true (portSource n) 0 0
    match r.2 with
    | none => r.1
    | some k =>
      let body := [BitVec.ofNat 8 (Config.freeValue r.1.free)]
      let s : State := { r.1 with free := r.1.free + 1 }
      (s.modPort n fun x => { x with nextKey := k, krdy := true }).sendPacket n
        { ptype := 5, poison := false, prov := false, enc := false, src := s.chart.reg.devId, dst := x.pdev, ctx := 0, gen := 0
          dsheet := 0, route := 0, tspec := 0, body := body }
  else s

/-! ### The rows -/

/-- PORT_ENABLE. -/
def execPortEnable (p : PortId) (s : State) : Res := .next (s.hostWrite fun s => s.doPortEnable p.val)
/-- PORT_DISABLE. -/
def execPortDisable (p : PortId) (s : State) : Res := .next (s.hostWrite fun s => s.doPortDisable p.val)
/-- VJ_RETRAIN. -/
def execVjRetrain (p : PortId) (s : State) : Res := .next (s.hostWrite fun s => s.doRetrain p.val)
/-- DETECT_TIMER. -/
def execDetectTimer (p : PortId) (s : State) : Res := .next (s.doDetectTimer p.val)
/-- SIGNAL_DETECTED. -/
def execSignalDetected (p : PortId) (s : State) : Res := .next (s.doSignal p.val)
/-- EQUALISE_DONE. -/
def execEqualiseDone (p : PortId) (ok : Bool) (s : State) : Res := .next (s.doEqualise p.val ok)
/-- ALIGN_DONE. -/
def execAlignDone (p : PortId) (ok : Bool) (order : LaneOrder) (pol : BitVec 4) (s : State) : Res :=
  .next (s.doAlign p.val ok order pol)
/-- PARAM_DONE. -/
def execParamDone (p : PortId) (par : PartnerParams) (s : State) : Res := .next (s.doParam p.val par)
/-- LINK_SLOT_SELECT. -/
def execLinkSlotSelect (p : PortId) (s : State) : Res := .next (s.doSlot p)
/-- UNIT_RECEIVE. -/
def execUnitReceive (p : PortId) (u : GroupUnit) (s : State) : Res := .next (s.doUnit p.val u)
/-- REPLAY_REQUEST_RECEIVE. -/
def execReplayRequestReceive (p : PortId) (fseq sseq : BitVec 16) (s : State) : Res := .next (s.doRequest p.val fseq sseq)
/-- REPLAY_REQUEST_TIMEOUT. -/
def execReplayRequestTimeout (p : PortId) (s : State) : Res := .next (s.doRequestTimeout p.val)
/-- ACK_STALL_RESEND. -/
def execAckStallResend (p : PortId) (s : State) : Res := .next (s.doAckStall p.val)
/-- RETRAIN_LIMIT_EXPIRY. -/
def execRetrainLimitExpiry (p : PortId) (s : State) : Res := .next (s.doRetrainLimit p.val)
/-- PACKET_RECEIPT. -/
def execPacketReceipt (p : PortId) (vl : Fin 4) (d : Disturb) (s : State) : Res :=
  .next (s.doPacket p.val vl.val d)
/-- FENCED_UNIT_SEND. -/
def execFencedUnitSend (p : PortId) (s : State) : Res := .next (s.doFencedSend p)
/-- FENCED_UNIT_RECEIVE. -/
def execFencedUnitReceive (p : PortId) (s : State) : Res := .next (s.doFencedReceive p.val)
/-- KEY_PHASE_CHANGE. -/
def execKeyPhaseChange (p : PortId) (s : State) : Res := .next (s.doKeyPhase p.val)
/-- LINK_REKEY. -/
def execLinkRekey (p : PortId) (s : State) : Res := .next (s.doRekey p.val)
/-- CORRECTED_GROUP_RATE. -/
def execCorrectedGroupRate (p : PortId) (groups : Nat) (s : State) : Res := .next (s.doCorrectedRate p.val groups)
/-- LINK_CREDIT_TIMEOUT. -/
def execLinkCreditTimeout (p : PortId) (vl : Fin 4) (s : State) : Res := .next (s.doCreditTimeout p.val vl.val)

end Sys2Proof.Machine
end

