-- ==== Sys2Proof/Machine/Memory.lean ====
section
/-! DEFINITION. The memory path's own rows: refresh stalls (08 R253) and the host's window into device memory (08 R239,
R240; 09 R260). -/

namespace Sys2Proof.Machine

/-! ### Refresh (R253) -/

/-- Refresh interval of a sheet in nanoseconds. -/
def MemPath.refreshInterval (m : MemPath) : Nat := if m.hotRef then 7000 else 14000
/-- Longest stall of a refresh in nanoseconds. -/
def MemPath.refreshStall (m : MemPath) : Nat := if m.hotRef then 175 else 350
/-- The next datum count at which slice `i` stalls: congruent to i · 218.75 ns, rounded down, modulo the interval. -/
def nextRefresh (now interval i : Nat) : Nat := now + (i * 875 / 4 % interval + interval - now % interval) % interval
/-- A stall of a slice begins: its count has come, and no more than two slices stall at once. Self-refresh has no stalls. -/
def State.doRefreshStart (s : State) (sheet i : Nat) : State :=
  let m := (s.sheet sheet).mem
  if m.selfRefresh || m.stalled.contains i || decide (2 ≤ m.stalled.length) then s
  else (s.reach (nextRefresh s.now m.refreshInterval i)).modMem sheet fun m => { m with stalled := sinsert m.stalled i }
/-- A stall ends; the slice-nanoseconds it took, a free value up to the longest stall, are counted (17 R453; log 34). -/
def State.doRefreshEnd (s : State) (sheet i : Nat) : State :=
  let m := (s.sheet sheet).mem
  if !m.stalled.contains i then s
  else
    let ns := Config.freeValue s.free % (m.refreshStall + 1)
    let s := ({ s with free := s.free + 1 } : State).modMem sheet fun m => { m with stalled := sremove m.stalled i }
    s.sheetEvent sheet { cls := 3, code := 0x12, inc := ns }

/-! ### WIN_4 (R239, R240) -/

/-- What lies at a device address (R239). -/
inductive DevRegion where
  | dram (sheet a : Nat)
  | store (sheet p a : Nat)
  | acc (sheet p a : Nat)
  | staging (sheet a : Nat)
  | reserved
deriving DecidableEq, Repr

/-- The region that holds the `n` bytes at a device address; a range that does not lie in one region is reserved. -/
def regionOf (a n : Nat) : DevRegion :=
  let last := a + n - 1
  if n = 0 then .reserved
  else if a < 0x18000000000 then
    if a / 0x1800000000 = last / 0x1800000000 then .dram (a / 0x1800000000) (a % 0x1800000000) else .reserved
  else if 0x19000000000 ≤ a ∨ a / 0x100000000 ≠ last / 0x100000000 then .reserved
  else
    let h := (a - 0x18000000000) / 0x100000000
    let o := a % 0x100000000
    let e := o + n
    let p := o / 0x1000000
    let x := o % 0x1000000
    if o < 0x12000000 then
      if x + n ≤ 0xC00000 then .store h p x
      else if 0xC00000 ≤ x ∧ x + n ≤ 0xE00000 then .acc h p (x - 0xC00000)
      else .reserved
    else if e ≤ 0x14000000 then .staging h (o - 0x12000000)
    else .reserved

/-- Device address of a WIN_4 offset: at 2 TiB the offset itself (09 R260). -/
def State.win4Addr (s : State) (offset : Nat) : Nat :=
  if s.w4size = 5 then offset else s.w4base.toNat * 0x1000000000 + offset

/-- An access that R240 does not allow: Unsupported Request, and kind 0x407. -/
def State.win4Refused (s : State) (wr : Bool) : State := (s.emit .unsupportedRequest).hostFault 0x407 (if wr then 8 else 7)

/-- Whether WIN_4 reaches the DRAM pages of a range: raw or free in both copies, and not held after a function level reset
(R240; 09 R289 phase 5). -/
def MemPath.win4Pages (m : MemPath) (pages : List Nat) : Bool :=
  pages.all fun p =>
    !m.differs p && ((m.attr p).1 == 0 || (m.attr p).1 == 1) && !m.lockedOrphans.contains p

/-- Whether WIN_4 reaches the SRAM of a sheet (R240); a sheet that is OFF has no power (log 35). -/
def Sheet.win4Sram (h : Sheet) : Bool := h.mode != .service && h.mode != .off

/-- The upsets of one WIN_4 access to SRAM: corrections are counted, and a double-bit error poisons its store block or the
staging buffer (R238). -/
def State.sramUpset (s : State) (h p : Nat) (d : Disturb) : State :=
  let s := s.forEach d.storeFix fun s w =>
    let ev : CntEvent := { cls := 3, code := 0x04, addr := some (0x18000000000 + h * 0x100000000 + p * 0x1000000 + 8 * w) }
    s.physEvent h p ev 0 none
  s.forEach d.storeDbl fun s w =>
    (s.sendFault
      { source := sourceId 3 h p 2, kind := 0x103, op := 1
        address := BitVec.ofNat 64 (0x18000000000 + h * 0x100000000 + p * 0x1000000 + 8 * w) }).modSheet h fun x =>
      x.modParcel p fun m => { m with blkPoison := sinsert m.blkPoison (8 * w / 65536) }
/-- The same for the accumulator memory of a parcel: its double-bit errors raise 0x105 (03 R88). -/
def State.accUpset (s : State) (h p : Nat) (d : Disturb) : State :=
  let s := s.forEach d.accFix fun s w =>
    let ev : CntEvent := { cls := 3, code := 0x03, addr := some (0x18000000000 + h * 0x100000000 + p * 0x1000000 + 0xC00000 + 8 * w) }
    s.physEvent h p ev 0 none
  s.forEach d.accDbl fun s w =>
    s.sendFault
      { source := sourceId 2 h p 3, kind := 0x105, op := 1
        address := BitVec.ofNat 64 (0x18000000000 + h * 0x100000000 + p * 0x1000000 + 0xC00000 + 8 * w) }
/-- The same for the staging SRAM: kind 0x104, and what it holds is poisoned. -/
def State.stagingUpset (s : State) (h : Nat) (d : Disturb) : State :=
  let s := s.forEach d.storeFix fun s _ => s.sheetEvent h { cls := 3, code := 0x16 }
  s.forEach d.storeDbl fun s w =>
    (s.sendFault
      { source := sheetSource h 5, kind := 0x104, op := 1
        address := BitVec.ofNat 64 (0x18000000000 + h * 0x100000000 + 0x12000000 + 8 * w) }).modSheet h fun x =>
      { x with stagingPoison := true }

/-- A WIN_4 read of `n` bytes. -/
def State.win4Read (s : State) (a n : Nat) (d : Disturb) : State :=
  match regionOf a n with
  | .dram h x =>
    let s := s.upset h d
    let pages := pagesOf x n
    let ok := (s.sheet h).mem.win4Pages pages
    let s := s.lookPages h pages 1
    if !ok then s.win4Refused false
    else
      let s := s.sheetEvent h { cls := 3, code := 0x10, inc := (n + 63) / 64, addr := some a }
      s.emit (.readReply (mread (s.sheet h).mem.dram x n))
  | .store h p x =>
    if !(s.sheet h).win4Sram then s.win4Refused false
    else (s.sramUpset h p d).emit (.readReply (mread ((s.sheet h).parcel p).store x n))
  | .acc h p x =>
    if !(s.sheet h).win4Sram then s.win4Refused false
    else (s.accUpset h p d).emit (.readReply (mread ((s.sheet h).parcel p).acc x n))
  | .staging h x =>
    if !(s.sheet h).win4Sram then s.win4Refused false
    else (s.stagingUpset h d).emit (.readReply (mread (s.sheet h).staging x n))
  | .reserved => s.win4Refused false
/-- A WIN_4 write of some bytes; one that is refused changes nothing. -/
def State.win4Write (s : State) (a : Nat) (b : List Byte) (d : Disturb) : State :=
  match regionOf a b.length with
  | .dram h x =>
    let s := s.upset h d
    let pages := pagesOf x b.length
    let ok := (s.sheet h).mem.win4Pages pages
    let s := s.lookPages h pages 2
    if !ok then s.win4Refused true
    else
      let s := s.sheetEvent h { cls := 3, code := 0x11, inc := (b.length + 63) / 64, addr := some a }
      s.modMem h fun m => { m with dram := mwrite m.dram x b }
  | .store h p x =>
    if !(s.sheet h).win4Sram then s.win4Refused true
    else s.modSheet h fun y => y.modParcel p fun m => { m with store := mwrite m.store x b }
  | .acc h p x =>
    if !(s.sheet h).win4Sram then s.win4Refused true
    else s.modSheet h fun y => y.modParcel p fun m => { m with acc := mwrite m.acc x b }
  | .staging h x =>
    if !(s.sheet h).win4Sram then s.win4Refused true
    else s.modSheet h fun y => { y with staging := mwrite y.staging x b }
  | .reserved => s.win4Refused true
/-- Whether a WIN_4 access to DRAM waits on a slice in a refresh stall (R253). -/
def State.win4Waits (s : State) (a n : Nat) : Bool :=
  match regionOf a n with
  | .dram h x => s.stalls h x n
  | _ => false
/-- A WIN_4 access. In the safe state a read returns 0 and a write is dropped (14 R399). -/
def State.doWin4 (s : State) (offset : Nat) (wr : Option (List Byte)) (len : Nat) (d : Disturb) : State :=
  let a := s.win4Addr offset
  match wr with
  | none =>
    if s.dstate == .safe then s.emit (.readReply (List.replicate len 0))
    else if s.win4Waits a len then s
    else s.win4Read a len d
  | some b =>
    if s.dstate == .safe then s
    else if s.win4Waits a b.length then s
    else s.win4Write a b d

/-! ### The rows -/

/-- REFRESH_STALL_START. -/
def execRefreshStallStart (h : SheetId) (i : Fin 64) (s : State) : Res := .next (s.doRefreshStart h.val i.val)
/-- REFRESH_STALL_END. -/
def execRefreshStallEnd (h : SheetId) (i : Fin 64) (s : State) : Res := .next (s.doRefreshEnd h.val i.val)
/-- WIN4_ACCESS. -/
def execWin4Access (offset : Nat) (wr : Option (List Byte)) (len : Nat) (d : Disturb) (s : State) : Res :=
  .next (s.doWin4 offset wr len d)

end Sys2Proof.Machine
end

