-- ==== Sys2Proof/Machine/Mover.lean ====
section
/-! DEFINITION. The rows of tile movement and combine-at-memory adds (03 "Tile movement", "Combine-at-memory atomics"). -/

namespace Sys2Proof.Machine

/-- TILE_LOAD (03 R96): a DRAM tile into the parcel store, its seal verified. -/
def execTileLoad (e : EngId) (o : MoveOp) (d : Disturb) (s : State) : Res :=
  .next (s.runUop e (.tileLoad o) fun s => s.doTileLoad e o d)

/-- TILE_STORE (03 R96): a parcel-store tile to DRAM, header from the descriptor, seal computed. -/
def execTileStore (e : EngId) (o : MoveOp) (d : Disturb) (s : State) : Res :=
  .next (s.runUop e (.tileStore o) fun s => s.doTileStore e o d)

/-- ACC_STORE (03 R90): an accumulator tile to DRAM. -/
def execAccStore (e : EngId) (o : MoveOp) (d : Disturb) (s : State) : Res :=
  .next (s.runUop e (.accStore o) fun s => s.doAccStore e o d)

/-- ACC_LOAD (03 R90): a DRAM tile into accumulator memory, re-windowed where the exponents differ. -/
def execAccLoad (e : EngId) (o : MoveOp) (d : Disturb) (s : State) : Res :=
  .next (s.runUop e (.accLoad o) fun s => s.doAccLoad e o d)

/-- PS_TO_ACC (03 R96): an A64 or F32 tile from the parcel store into accumulator memory. -/
def execPsToAcc (e : EngId) (o : MoveOp) (d : Disturb) (s : State) : Res :=
  .next (s.runUop e (.psToAcc o) fun s => s.doPsToAcc e o d)

/-- ACC_TO_PS (03 R96): an accumulator tile into the parcel store, unchanged. -/
def execAccToPs (e : EngId) (o : MoveOp) (d : Disturb) (s : State) : Res :=
  .next (s.runUop e (.accToPs o) fun s => s.doAccToPs e o d)

/-- TILE_SEND (03 R96, 01 R29): a tile to a route. -/
def execTileSend (e : EngId) (o : MoveOp) (d : Disturb) (s : State) : Res :=
  .next (s.runUop e (.tileSend o) fun s => s.doTileSend e o d)

/-- TILE_RECV (03 R96, 08 R245): a tile from a route into the parcel store or the accumulator. -/
def execTileRecv (e : EngId) (o : MoveOp) (d : Disturb) (s : State) : Res :=
  .next (s.runUop e (.tileRecv o) fun s => s.doTileRecv e o d)

/-- TILE_ADD_MEM (03 R117): a combine-at-memory add sent to the memory path. -/
def execTileAddMem (e : EngId) (o : MoveOp) (d : Disturb) (s : State) : Res :=
  .next (s.runUop e (.tileAddMem o) fun s => s.doTileAddMem e o d)

/-- SLICE_ADD (03 R118, 08 R252): the slice's adder applies the next add that reached the memory path; it waits while a
slice of the tile is in a refresh stall (08 R253). -/
def execSliceAdd (h : SheetId) (d : Disturb) (s : State) : Res :=
  .next (match (s.sheet h.val).mem.adds with
    | [] => s
    | a :: _ => if s.stalls h.val a.loc.2.1 (tileBytes a.tensor.fmt a.tensor.mx) then s else s.doSliceAdd h.val d)

/-- TABLE_LOAD (03 R96, R501): a function table from the parcel store into a table slot. -/
def execTableLoad (e : EngId) (o : MoveOp) (d : Disturb) (s : State) : Res :=
  .next (s.runUop e (.tableLoad o) fun s => s.doTableLoad e o d)

end Sys2Proof.Machine
end

