-- ==== Sys2Proof/Machine/Power.lean ====
section
/-! DEFINITION. Power feeds, references, clock steps, heat and power-down (18 R465-R484). -/

namespace Sys2Proof.Machine

/-- Change the power state. -/
def State.modPwr (s : State) (f : Power → Power) : State := { s with pwr := f s.pwr }
/-- A fault of the power stage (R485). -/
def State.powerFault (s : State) (kind : BitVec 12) : State := s.sendFault { source := svcSource 5, kind := kind }
/-- A thermal fault of a sheet (R485). -/
def State.thermalFault (s : State) (sheet : Nat) (kind : BitVec 12) : State :=
  s.sendFault { source := sheetSource sheet 0xA, kind := kind }

/-! ### Power-down and the origin (R472, R482-R484) -/

/-- DRAM contents are lost with the sheet rails. -/
def Sheet.loseDram (h : Sheet) : Sheet := { h with mem := {} }
/-- Rails go down: a running dump stops as ABORTED (R486), PG_OUT deasserts. -/
def State.railsDown (s : State) : State :=
  let s := s.forEach sheetIdx fun s h => s.modSheet h Sheet.loseDram
  { s with
    dump := { s.dump with st := if s.dump.st == 1 then 4 else s.dump.st }
    pwr := { s.pwr with rails := [], pgOut := false, down := true, origin := false, configReady := false, released := false } }
/-- A power-down: the safe state, then the rails. -/
def State.powerDown (s : State) (kind : Option (BitVec 12)) : State := if s.pwr.down then s else (s.enterSafe kind).railsDown
/-- The start-up origin: input above 40 V and PWR_DIS low. Nothing but MRAM was kept; the board supplies both references
(log 59). -/
def State.reachOrigin (s : State) : State :=
  if s.pkg.pwrDis || !(s.pwr.aok || s.pwr.bok) || s.pwr.origin then s
  else
    let t := s.coldReset
    { t with pwr := { t.pwr with origin := true, ref100 := true, ref156 := true } }

/-! ### Feeds (R465-R467) -/

/-- Whether the stage of feed A (`false`) or B is closed. -/
def Power.closed (p : Power) (b : Bool) : Bool := if b then p.bok else p.aok
/-- Open or close a stage. -/
def Power.setStage (p : Power) (b up : Bool) : Power := if b then { p with bok := up } else { p with aok := up }
/-- A cap step that falls closes the squall windows (R486). -/
def State.lowerCap (s : State) (c : BitVec 4) : State :=
  if s.pwr.capStep.toNat ≤ c.toNat then s
  else (s.forEach sheetIdx fun s h => s.doSquallLapse h).modPwr fun p => { p with capStep := c }
/-- One feed carries the device: step code 0x0 and the 2,160 W cap (R6, R466). -/
def State.oneFeed (s : State) : State := (s.lowerCap 0).modPwr fun p => { p with lost := true }
/-- Both feeds are below 38 V: unplanned power-down. -/
def State.doBothLow (s : State) : State :=
  let s := s.modPwr fun p => { p with aok := false, bok := false }
  if s.pwr.down || !s.pwr.origin then s else (s.powerFault 0x603).powerDown (some 0x603)
/-- A feed rises through 40 V: its stage closes softly, and the first one with PWR_DIS low is the origin. After a thermal trip
this is the crossing that follows the fall below 35 V (log 59). -/
def State.doFeedRise (s : State) (b : Bool) : State :=
  if s.pwr.closed b then s
  else ({ s with pwr := { s.pwr.setStage b true with tripped := false, lost := false } } : State).reachOrigin
/-- A feed is lost; the loss of the only feed is a loss of both. -/
def State.doFeedLost (s : State) (b : Bool) : State :=
  if !s.pwr.closed b then s
  else if s.pwr.closed (!b) then
    let s := s.modPwr fun p => p.setStage b false
    if s.pwr.down || !s.pwr.origin then s else (s.powerFault 0x601).oneFeed
  else s.doBothLow
/-- A lost or opened feed is back for 10 ms; `lost` falls and the cap controller raises the clock again (R486). -/
def State.doFeedRestored (s : State) (b : Bool) : State :=
  if s.pwr.closed b || s.pwr.tripped then s
  else
    let s := s.modPwr fun p => { p.setStage b true with lost := false }
    let s := if s.pwr.closed (!b) then s else s.modPwr fun p => { p with lost := true }
    if s.pwr.down || !s.pwr.origin then s else s.powerFault 0x602
/-- A feed's overvoltage opens its stage; on one feed the device runs under the cap of R6, on none it is without input. -/
def State.doOvervoltage (s : State) (b : Bool) : State :=
  if !s.pwr.closed b then s
  else
    let s := (s.modPwr fun p => p.setStage b false).powerFault 0x604
    if s.pwr.down || !s.pwr.origin then s
    else if s.pwr.closed (!b) then s.oneFeed
    else s.doBothLow

/-! ### References (R471) -/

/-- The 100 MHz reference is lost: the safe state. -/
def State.doRef100Lost (s : State) : State :=
  if !s.pwr.ref100 then s
  else ((s.modPwr fun p => { p with ref100 := false }).powerFault 0x622).enterSafe (some 0x622)
/-- The 156.25 MHz reference is lost: every port leaves UP, to DOWN as for a lock not recovered (log 59); which I/O die detects it
is free. -/
def State.doRef156Lost (s : State) : State :=
  if !s.pwr.ref156 then s
  else
    let s := s.modPwr fun p => { p with ref156 := false }
    let s := s.forEach ((List.range 64).filter fun n => (s.port n).lstate == .up || (s.port n).retraining) fun s n =>
      s.leaveUp n .down 5
    let die := 2 + Config.freeValue s.free % 4
    ({ s with free := s.free + 1 } : State).sendFault { source := devSource die, kind := 0x623 }
/-- It returns: the enabled ports retrain. -/
def State.doRef156Return (s : State) : State :=
  if s.pwr.ref156 then s
  else
    (s.modPwr fun p => { p with ref156 := true }).forEach (List.range 64) fun s n => s.modPort n fun x =>
      if x.en && x.lstate == .down && x.cause == 5 then { x with lstate := .detect, quiet := false } else x

/-! ### Clock steps, the cap controller and heat (R476-R481) -/

/-- The cap in force in W. -/
def Power.cap (p : Power) : Nat := if p.lost then min p.capw.toNat 2160 else p.capw.toNat
/-- Every sheet that is not OFF runs at step code 0x0. -/
def State.allAtZero (s : State) : Bool := sheetIdx.all fun h => (s.sheet h).mode == .off || (s.sheet h).thm.step == 0
/-- Ticks of 100 µs in the 10 ms after which 0x631 is raised. -/
def overLimit : Nat := 100
/-- The cap controller of R479, on the telemetry of R468. -/
def State.doCapTick (s : State) (t : Telemetry) : State :=
  let s := s.modPwr fun p => { p with inw := t.inW, va := t.va, vb := t.vb, ia := t.ia, ib := t.ib }
  let p := s.pwr
  if !p.capen then s
  else if p.cap < t.inW.toNat then
    if s.allAtZero then
      let s := s.modPwr fun p => { p with overTicks := min overLimit (p.overTicks + 1) }
      let s := s.lowerCap (p.capStep - (if p.capStep = 0 then 0 else 1))
      if s.pwr.overTicks = overLimit && !p.overRaised then (s.modPwr fun p => { p with overRaised := true }).powerFault 0x631 else s
    else s.lowerCap (p.capStep - (if p.capStep = 0 then 0 else 1))
  else
    let s := s.modPwr fun p => { p with overTicks := 0, overRaised := false }
    if t.inW.toNat * 100 < p.cap * 95 ∧ p.capStep.toNat < p.fmax.toNat then s.modPwr fun p => { p with capStep := p.capStep + 1 }
    else s
/-- The step of a sheet: the lowest of three limits (R478). -/
def State.stepOf (s : State) (sheet : Nat) : BitVec 4 :=
  let lim := (s.sheet sheet).thm.limit
  let a := if s.pwr.fmax.toNat ≤ s.pwr.capStep.toNat then s.pwr.fmax else s.pwr.capStep
  if a.toNat ≤ lim.toNat then a else lim
/-- A clock step takes effect: counted, and recorded as CLKSTEP of every RUN in progress (R477). -/
def State.doClockStep (s : State) (sheet : Nat) : State :=
  let c := s.stepOf sheet
  if (s.sheet sheet).thm.step == c then s
  else
    let s := s.modSheet sheet fun h => { h with thm := { h.thm with step := c } }
    let s := if c == 0xA then s else s.doSquallLapse sheet
    let s := s.deviceEvent { cls := 9, code := 2 }
    { s with parts := s.parts.map fun x => (x.1, { x.2 with runs := x.2.runs.map fun r => { r with clkstep := true } }) }
/-- Hot: 100 °C at the junction, or 95 °C at a DRAM die. -/
def isHot (tmax : BitVec 16) (dramt : Byte) : Bool := decide (400 ≤ tmax.toInt) || decide (95 ≤ dramt.toNat)
/-- A sheet's junction limit: the safe state. -/
def State.doJunctionLimit (s : State) (sheet : Nat) : State :=
  let s := s.modSheet sheet fun h => { h with thm := { h.thm with hot := true } }
  (s.thermalFault sheet 0x611).enterSafe (some 0x611)
/-- A thermal move: one step down while hot, one up when cool (R481). A tick is a move that is due: every 100 µs while hot, every
1 ms while cool (log 58). -/
def State.doThermalTick (s : State) (sheet : Nat) (tmax : BitVec 16) (dramt : Byte) : State :=
  let old := (s.sheet sheet).thm
  let s := s.modSheet sheet fun h =>
    { h with
      thm := { h.thm with tmax := tmax, dramt := BitVec.ofNat 8 dramt.toNat, hot := h.thm.hot || decide (420 ≤ tmax.toInt) }
      mem := { h.mem with hotRef := decide (85 < dramt.toNat) } }
  if isHot tmax dramt then
    let dram := decide (95 ≤ dramt.toNat)
    let s := if old.throt then s else (s.thermalFault sheet 0x610).doSquallLapse sheet
    let s := if dram && !old.dramHot then s.thermalFault sheet 0x613 else s
    s.modSheet sheet fun h =>
      let lim := if h.thm.limit = 0 then 0 else h.thm.limit - 1
      { h with thm := { h.thm with limit := lim, throt := true, dramHot := h.thm.dramHot || dram } }
  else if tmax.toInt ≤ 388 then
    s.modSheet sheet fun h =>
      let lim := if h.thm.limit.toNat < 0xA then h.thm.limit + 1 else 0xA
      { h with thm := { h.thm with limit := lim, throt := decide (lim ≠ 0xA), dramHot := h.thm.dramHot && decide (lim ≠ 0xA) } }
  else s
/-- The hardware trip: THERMTRIP_N, the trip flag in the collector record, and both stages open with no power-down sequence;
nothing but MRAM is kept (R482, R486). -/
def State.doThermtrip (s : State) : State :=
  let t := s.coldReset
  { t with
    pwr := { t.pwr with trip := true, thermTrip := true, tripped := true, aok := false, bok := false, down := true, origin := false } }

/-! ### PWR_CTL -/

/-- A write of PWR_CTL: reserved values drop it whole, reserved bits are reported (00 R10); OFFREQ starts a planned power-down. -/
def State.doPwrCtl (s : State) (v : Word) : State :=
  let n := v.toNat
  let capw := bits n 47 32
  let fmax := bits n 27 24
  if capw < 1000 ∨ 3600 < capw ∨ 0xA < fmax then s.hostFault 0x406
  else
    let s := if bits n 62 48 + bits n 31 28 + bits n 23 1 = 0 then s else s.hostFault 0x406
    let s := s.modPwr fun p => { p with capw := BitVec.ofNat 16 capw, fmax := BitVec.ofNat 4 fmax, capen := n.testBit 0 }
    if n.testBit 63 then s.powerDown none else s

/-! ### The rows -/

/-- FEED_RISE. -/
def execFeedRise (b : Bool) (s : State) : Res := .next (s.doFeedRise b)
/-- FEED_LOST. -/
def execFeedLost (b : Bool) (s : State) : Res := .next (s.doFeedLost b)
/-- FEED_RESTORED. -/
def execFeedRestored (b : Bool) (s : State) : Res := .next (s.doFeedRestored b)
/-- FEED_OVERVOLTAGE. -/
def execFeedOvervoltage (b : Bool) (s : State) : Res := .next (s.doOvervoltage b)
/-- FEED_SHARE_IMBALANCE: kind 0x605. -/
def execFeedShareImbalance (s : State) : Res := .next (s.powerFault 0x605)
/-- BOTH_FEEDS_LOW. -/
def execBothFeedsLow (s : State) : Res := .next s.doBothLow
/-- TELEMETRY_LOST: kind 0x621. -/
def execTelemetryLost (s : State) : Res := .next (s.powerFault 0x621)
/-- RAIL_OUT_OF_REGULATION: kind 0x620. -/
def execRailOutOfRegulation (s : State) : Res := .next (s.powerFault 0x620)
/-- REFCLK100_LOST. -/
def execRefclk100Lost (s : State) : Res := .next s.doRef100Lost
/-- REFCLK156_LOST. -/
def execRefclk156Lost (s : State) : Res := .next s.doRef156Lost
/-- REFCLK156_RETURN. -/
def execRefclk156Return (s : State) : Res := .next s.doRef156Return
/-- CAP_CONTROLLER_TICK. -/
def execCapControllerTick (t : Telemetry) (s : State) : Res := .next (s.doCapTick t)
/-- THERMAL_TICK. -/
def execThermalTick (h : SheetId) (tmax : BitVec 16) (dramt : Byte) (s : State) : Res := .next (s.doThermalTick h.val tmax dramt)
/-- JUNCTION_LIMIT. -/
def execJunctionLimit (h : SheetId) (s : State) : Res := .next (s.doJunctionLimit h.val)
/-- THERMTRIP. -/
def execThermtrip (s : State) : Res := .next s.doThermtrip
/-- CLOCK_STEP_DONE. -/
def execClockStepDone (h : SheetId) (s : State) : Res := .next (s.doClockStep h.val)
/-- PWR_OFFREQ: the planned power-down, with the register's other fields as they are. -/
def execPwrOffreq (s : State) : Res := .next (s.powerDown none)
/-- PWR_DIS_ASSERT. -/
def execPwrDisAssert (s : State) : Res :=
  .next (({ s with pkg := { s.pkg with pwrDis := true } } : State).powerDown none)

end Sys2Proof.Machine
end

