-- ==== Sys2Proof/Machine/Package.lean ====
section
/-! DEFINITION. The I3C target and the JTAG port (19 R497-R499). -/

namespace Sys2Proof.Machine

/-- Change the sideband logic. -/
def State.modPkg (s : State) (f : Pkg → Pkg) : State := { s with pkg := f s.pkg }

/-! ### I3C (R497) -/

/-- The target answers once Ecbumos has left reset, 12 ms after the origin. -/
def State.i3cUp (s : State) : Bool := s.ecb.st != .off && !s.pwr.down
/-- Offsets that a private read reaches. -/
def i3cReadable (o : Nat) : Bool := o == 0 || o == 0x10 || o == 0x3000018 || decide (0x3200000 ≤ o ∧ o < 0x3201000)
/-- Offset of PWR_CTL. -/
def pwrCtlOffset : Nat := 0x3200000
/-- A private write: the offset, and data that only PWR_CTL takes. -/
def State.doI3cWrite (s : State) (offset : BitVec 32) (data : Option Word) : State :=
  if !s.i3cUp then s
  else
    let s := s.modPkg fun k => { k with i3cOffset := offset }
    match data with
    | some v => if offset.toNat = pwrCtlOffset then s.doPwrCtl v else s
    | none => s
/-- A private read: the 8 bytes at the last offset, 0 outside the readable set. It works in the safe state too. -/
def State.doI3cRead (s : State) : State :=
  if !s.i3cUp then s
  else
    let o := s.pkg.i3cOffset.toNat
    let v := if i3cReadable o then (match regOf o with | some r => s.readReg r | none => 0) else 0
    s.emit (.i3cReply (leBytes 8 v.toNat))
/-- Which reply a GET code asks for; the contents are the I3C specification's and the part's, free (log 7). -/
def cccReply : I3cCcc → Nat
  | .getpid => 0 | .getbcr => 1 | .getdcr => 2 | _ => 3
/-- The common command codes: dynamic address assignment and the GET codes. SETDASA names the static address; SETNEWDA needs a
dynamic one. -/
def State.doCcc (s : State) (c : I3cCcc) : State :=
  if !s.i3cUp then s
  else match c with
    | .entdaa a => if s.pkg.i3cDv then s else s.modPkg fun k => { k with i3cDyn := a, i3cDv := true }
    | .setdasa a => if s.pkg.i3cDv then s else s.modPkg fun k => { k with i3cDyn := a, i3cDv := true }
    | .setnewda a => if s.pkg.i3cDv then s.modPkg fun k => { k with i3cDyn := a } else s
    | .rstdaa => s.modPkg fun k => { k with i3cDyn := 0, i3cDv := false }
    | .getpid | .getbcr | .getdcr | .getstatus => s.emit (.i3cReply (Config.i3cReply (cccReply c)))

/-! ### JTAG (R498) -/

/-- Bytes of IDCODE. -/
def idcodeBytes : List Byte := leBytes 4 0xA4716001
/-- An instruction scanned in: what the lock state does not decode is BYPASS. -/
def State.doJtag (s : State) (i : JtagInstr) : State :=
  let i := if s.unlockedUntil.isSome || i == .bypass || i == .idcode then i else .bypass
  let s := s.modPkg fun k => { k with jtag := i, dbgRead := if i == .dbgread then k.dbgRead else none }
  if i == .idcode then s.emit (.jtagOut idcodeBytes) else s
/-- DBGREAD of a dump block: after the dump's own read of the same block (R499). -/
def State.doDbgread (s : State) (source : BitVec 16) : State :=
  if s.unlockedUntil.isNone || s.pkg.jtag != .dbgread then s
  else
    let s := s.modPkg fun k => { k with dbgRead := some source }
    if s.dump.st == 1 && s.dump.todo.head? == some source then s else s.serveDebug source
/-- The unlock hour has passed: the port locks, and a read in progress is discarded. -/
def State.doRelock (s : State) : State :=
  match s.ecb.unlockHour with
  | some h =>
    if s.col.svch.toNat < h.toNat then s
    else
      let s : State := { s with ecb := { s.ecb with unlockHour := none } }
      s.modPkg fun k => { k with jtag := .bypass, dbgRead := none }
  | none => s

/-! ### The rows -/

/-- I3C_PRIVATE_WRITE. -/
def execI3cPrivateWrite (offset : BitVec 32) (data : Option Word) (s : State) : Res := .next (s.doI3cWrite offset data)
/-- I3C_PRIVATE_READ. -/
def execI3cPrivateRead (s : State) : Res := .next s.doI3cRead
/-- I3C_CCC. -/
def execI3cCcc (c : I3cCcc) (s : State) : Res := .next (s.doCcc c)
/-- JTAG_DBGREAD. -/
def execJtagDbgread (source : BitVec 16) (s : State) : Res := .next (s.doDbgread source)
/-- JTAG_INSTRUCTION. -/
def execJtagInstruction (i : JtagInstr) (s : State) : Res := .next (s.doJtag i)
/-- JTAG_RELOCK. -/
def execJtagRelock (s : State) : Res := .next s.doRelock

end Sys2Proof.Machine
end

