-- ==== Sys2Proof/Machine/Queues.lean ====
section
/-! DEFINITION. The rows of the queue unit (09). -/

namespace Sys2Proof.Machine

/-- SQ_TAIL_DOORBELL (R262, R265). -/
def execSqTailDoorbell (func : Fin 16) (q : QueueId) (val : Word) (s : State) : Res := .next (s.doSqTail func.val q.val val)
/-- CQ_HEAD_DOORBELL (R262, R265). -/
def execCqHeadDoorbell (func : Fin 16) (q : QueueId) (val : Word) (s : State) : Res := .next (s.doCqHead func.val q.val val)
/-- DESCRIPTOR_FETCH (R265): `data` holds what host memory gave for each entry read. -/
def execDescriptorFetch (q : QueueId) (data : List HostRead) (s : State) : Res := .next (s.doFetch q.val data)
/-- DESCRIPTOR_ARRIVE (R267). -/
def execDescriptorArrive (q : QueueId) (s : State) : Res := .next (s.doArrive q.val)
/-- COMPLETION_WRITE (R268, R269). -/
def execCompletionWrite (q : QueueId) (ok : Bool) (s : State) : Res := .next (s.doCompletion q.val ok)
/-- Q_ENABLE (R279). -/
def execQEnable (q : QueueId) (s : State) : Res := .next (s.unitWrite 0x40B fun s => s.doQEnable q.val)
/-- Q_DISABLE (R279, R293). -/
def execQDisable (q : QueueId) (s : State) : Res := .next (s.unitWrite 0x40B fun s => s.doQDisable q.val)
/-- Q_CLEAR (R279). -/
def execQClear (q : QueueId) (s : State) : Res := .next (s.unitWrite 0x40B fun s => s.doQClear q.val)
/-- QUEUE_DRAINED (R279). -/
def execQueueDrained (q : QueueId) (s : State) : Res := .next (s.doQueueDrained q.val)
/-- PROGRESS_TIMER_EXPIRY (R281, 14 R390). -/
def execProgressTimerExpiry (q : QueueId) (s : State) : Res := .next (s.doProgressTimer q.val)

end Sys2Proof.Machine
end

