-- ==== Sys2Proof/Machine/Resets.lean ====
section
/-! DEFINITION. Reset commands, their completion, and dumps (14 R396-R401). -/

namespace Sys2Proof.Machine

/-! ### Reset commands -/

/-- A reset command is refused and changes nothing (R397). -/
def State.resetRefused (s : State) : State := s.hostFault 0x40E
/-- Sheets of a mask. -/
def maskSheets (m : BitVec 16) : List Nat := sheetIdx.filter m.getLsbD
/-- `RST.SHEET`: refused for a sheet of a partition in RUNNING or RESETTING, and in the safe state (log 54). A sheet that start-up
left OFF stays OFF. -/
def State.doRstSheet (s : State) (mask : BitVec 16) : State :=
  let l := maskSheets mask
  let busy (h : Nat) : Bool := match s.partOf h with | some p => (s.part p).st == .running || (s.part p).st == .resetting | none => false
  if s.dstate == .safe || l.any busy then s.resetRefused
  else
    let s := s.forEach l fun s h => (s.sheetReset h).modSheet h fun x => { x with mode := if x.mode == .off then .off else .recovery }
    { s with rst := { s.rst with last := 2, sheets := l.foldl sinsert s.rst.sheets } }
/-- `RST.PARCEL` on the one sheet of the mask: refused for an in-service parcel of a partition in RUNNING, and in the safe
state. A mask of another number of sheets, and a parcel above 17, are reserved. -/
def State.doRstParcel (s : State) (mask : BitVec 16) (parcel : Nat) : State :=
  match maskSheets mask with
  | [h] =>
    let run := match s.partOf h with | some p => (s.part p).st == .running | none => false
    if 17 < parcel then s.hostFault 0x406
    else if s.dstate == .safe || (run && (s.sheet h).pmap.contains parcel) then s.resetRefused
    else s.parcelReset h parcel
  | _ => s.hostFault 0x406
/-- `RST.FREEALL`: every orphaned page free, zeroed first with `RST.ZERO` (R398). In the safe state DRAM is in self-refresh and
nothing is freed (log 54). -/
def State.doFreeall (s : State) (zero : Bool) : State :=
  if s.dstate == .safe then s
  else
    s.forEach sheetIdx fun s h => s.modMem h fun m =>
      if zero then { m with zeroOrphans := m.zeroOrphans || !m.orphans.isEmpty }
      else { m.orphans.foldl (fun m g => m.freePage false g) m with orphans := [] }
/-- Parcel resets in progress complete. -/
def State.parcelsDone (s : State) : State :=
  let l := s.rst.parcels
  let s : State := { s with rst := { s.rst with parcels := [] } }
  s.closeResetWindows 1 fun w => l.contains (srcSheet w.source, srcParcel w.source)
/-- Sheet resets in progress complete. -/
def State.sheetsDone (s : State) : State :=
  let l := s.rst.sheets
  let s : State := { s with rst := { s.rst with sheets := [] } }
  s.forEach l fun s h => s.sheetReady h
/-- The device is READY after its warm reset, once Ecbumos is; in RECOVERY it stays there (16 R434). -/
def State.warmDone (s : State) : State :=
  match s.ecb.st with
  | .ready =>
    let s : State := { s with dstate := .ready, rst := { s.rst with warm := false } }
    s.forEach sheetIdx fun s h => (s.modMem h fun m => { m with selfRefresh := false }).sheetReady h
  | .recovery => { s with dstate := .recovery, rst := { s.rst with warm := false } }
  | _ => s
/-- RESET_COMPLETE: the reset of a partition, or the smallest other domain in progress. -/
def State.doResetComplete (s : State) (p : Option PartId) : State :=
  match p with
  | some p => if (s.part p.val).st == .resetting && (s.part p.val).sheetsReset then s.partResetDone p.val else s
  | none =>
    if s.dstate == .safe then s
    else if !s.rst.parcels.isEmpty then s.parcelsDone
    else if !s.rst.sheets.isEmpty then s.sheetsDone
    else if s.rst.warm then s.warmDone
    else s

/-! ### Dumps (R400, R401) -/

/-- Change the dump engine. -/
def State.modDump (s : State) (f : Dump → Dump) : State := { s with dump := f s.dump }
/-- Length of the host buffer in bytes. -/
def Dump.room (d : Dump) : Nat := d.len.toNat * 4096
/-- A dump starts: the cursor is past the header; a latched dump schedules its snapshot where none is pending (17 R459, R464). -/
def State.startDump (s : State) : State :=
  let bl := if s.dump.mram then [] else dumpBlocks s.dump.smask
  let t := s.now + 1000
  let use := s.dump.latch && !s.dump.mram && s.snapOk t
  let s := if use then s.schedule t none else s
  s.modDump fun d =>
    { d with st := 1, noresp := 0, blocks := 0, todo := bl, done := [], used := 64, start := BitVec.ofNat 64 s.now, downSeen := []
             stopAsked := false, latched := use }
/-- A write to DUMP_CTL (00 R10): `DUMP.GO` while a dump runs is refused, and the write with it. -/
def State.doDumpCtl (s : State) (val : Word) : State :=
  let v := val.toNat
  let s := if bits v 59 48 ≠ 0 ∨ bits v 31 28 ≠ 0 then s.hostFault 0x406 else s
  if bit v 63 && s.dump.st == 1 then s.resetRefused
  else
    let s := s.modDump fun d =>
      { d with latch := bit v 61, mram := bit v 60, smask := BitVec.ofNat 16 (bits v 47 32), len := BitVec.ofNat 28 (bits v 27 0)
               stopAsked := d.stopAsked || (bit v 62 && d.st == 1) }
    if bit v 63 then s.startDump else s
/-- DUMP_ABORT. -/
def State.doDumpAbort (s : State) : State := if s.dump.st == 1 then s.modDump fun d => { d with stopAsked := true } else s
/-- A dump ends in a state: its header is written. -/
def State.endDump (s : State) (st : BitVec 4) (cause : Nat) : State :=
  let d := s.dump
  let h := s.imageHeader cause d.start.toNat d.blocks.toNat d.noresp.toNat
  let s := if 64 ≤ d.room then s.dmaWrite (d.base.toNat * 4096) h else s
  s.modDump fun d => { d with st := st, todo := [] }
/-- The whole records at the front of some that fit a length (R401); `fuel` bounds their number. -/
def wholeRecords : Nat → Nat → List Byte → List Byte
  | 0, _, _ => []
  | k + 1, room, b =>
    let n := 16 + (recField b 4 4 + 15) / 16 * 16
    if b.length < n ∨ b.isEmpty ∨ room < n then [] else b.take n ++ wholeRecords k (room - n) (b.drop n)
/-- The copy of the MRAM areas: the records of the last-gasp area under a header of their own, then the halt capture. -/
def State.copyAreas (s : State) : State :=
  let d := s.dump
  let n := d.lastGasp.length / 16
  let img := d.lastGasp ++ d.haltArea
  let room := d.room - 64
  let gasp := wholeRecords 4573 room d.lastGasp
  let fit :=
    if gasp.length < d.lastGasp.length ∨ room < gasp.length + 64 then gasp
    else gasp ++ d.haltArea.take 64 ++ wholeRecords 512 (room - gasp.length - 64) (d.haltArea.drop 64)
  let s := s.dmaWrite (d.base.toNat * 4096 + 64) fit
  (s.modDump fun d => { d with blocks := BitVec.ofNat 16 n }).endDump (if fit.length < img.length then 3 else 2) 1
/-- The record of the front block is written, where it fits. -/
def State.putRecord (s : State) (r : List Byte) (bad : Bool) : State :=
  let d := s.dump
  if d.room < d.used + r.length then s.endDump 3 0
  else
    let s := s.dmaWrite (d.base.toNat * 4096 + d.used) r
    let s := s.modDump fun d =>
      { d with used := d.used + r.length, blocks := d.blocks + 1, noresp := if bad then d.noresp + 1 else d.noresp
               todo := d.todo.drop 1, done := d.done ++ [r] }
    if s.dump.stopAsked then s.endDump 4 0 else if s.dump.todo.isEmpty then s.endDump 2 0 else s
/-- The set of a block: the latched one where the dump latched a snapshot that has been taken. -/
def State.dumpSet (s : State) (b : BitVec 16) : List Byte :=
  match (if s.dump.latched && !s.cnt.pend then s.cnt.latched.find? fun x => x.1 == b else none) with
  | some x => x.2
  | none => s.snapshotSet b
/-- The die whose debug link serves a block: a sheet's, an I/O die's, or the service die. -/
def dieOf (b : BitVec 16) : BitVec 16 :=
  if srcLevel b ≤ 4 then sheetSource (srcSheet b) 0
  else if srcLevel b = 6 then devSource (2 + bits b.toNat 12 4 % 64 / 16)
  else if srcLevel b = 5 then (if 2 ≤ b.toNat % 16 ∧ b.toNat % 16 ≤ 5 then b else devSource 2)
  else svcSource 0
/-- DUMP_BLOCK_DONE: the front block answered, was found gated, or its die's link is down. -/
def State.doDumpBlock (s : State) (linkUp crcOk : Bool) : State :=
  if s.dump.st != 1 then s
  else if s.dump.mram then s.copyAreas
  else
    match s.dump.todo with
    | [] => s.endDump 2 0
    | b :: _ =>
      if s.gated b then (s.putRecord (dumpRecord b 3 [] s.now) false).serveDebug b
      else if !linkUp then
        let die := dieOf b
        let s :=
          if s.dump.downSeen.contains die then s
          else (s.dumpFault 0x741 0).modDump fun d => { d with downSeen := d.downSeen ++ [die] }
        (s.putRecord (dumpRecord b 2 [] s.now) true).serveDebug b
      else (s.putRecord (dumpRecord b (if crcOk then 0 else 4) (s.dumpSet b) s.now) false).serveDebug b
/-- DUMP_BLOCK_TIMEOUT: NO_RESPONSE, kind 0x740. -/
def State.doDumpTimeout (s : State) : State :=
  if s.dump.st != 1 then s
  else
    match s.dump.todo with
    | [] => s
    | b :: _ => (s.dumpFault 0x740 (b.setWidth 64)).putRecord (dumpRecord b 1 [] s.now) true |>.serveDebug b

/-! ### The rows -/

/-- RST_WARM. -/
def execRstWarm (s : State) : Res := .next s.warmCommand
/-- RST_COLD. -/
def execRstCold (s : State) : Res := .next s.coldCommand
/-- RST_SHEET. -/
def execRstSheet (mask : BitVec 16) (s : State) : Res := .next (s.doRstSheet mask)
/-- RST_PARCEL. -/
def execRstParcel (mask : BitVec 16) (parcel : BitVec 5) (s : State) : Res := .next (s.doRstParcel mask parcel.toNat)
/-- RST_FREEALL. -/
def execRstFreeall (zero : Bool) (s : State) : Res := .next (s.doFreeall zero)
/-- RESET_COMPLETE. -/
def execResetComplete (p : Option PartId) (s : State) : Res := .next (s.doResetComplete p)
/-- DUMP_GO: the write to DUMP_CTL that carries it. -/
def execDumpGo (val : Word) (s : State) : Res := .next (s.doDumpCtl (val ||| BitVec.ofNat 64 (2 ^ 63)))
/-- DUMP_ABORT. -/
def execDumpAbort (s : State) : Res := .next s.doDumpAbort
/-- DUMP_BLOCK_DONE. -/
def execDumpBlockDone (linkUp crcOk : Bool) (s : State) : Res := .next (s.doDumpBlock linkUp crcOk)
/-- DUMP_BLOCK_TIMEOUT. -/
def execDumpBlockTimeout (s : State) : Res := .next s.doDumpTimeout

end Sys2Proof.Machine
end

