-- ==== Sys2Proof/Machine/Startup.lean ====
section
/-! DEFINITION. The start-up sequence (18 R469-R475; 16 R419, R434, R446). -/

namespace Sys2Proof.Machine

/-! ### Rails (R469): 0 the service die, 1 the I/O dies, 2 + g the sheets 4g to 4g + 3 -/

/-- Rail groups. -/
def railGroups : Nat := 6
/-- Static I3C address from the straps (19 R497). -/
def staticAddress : BitVec 7 := 0x58 + Config.straps.setWidth 7
/-- A rail group starts: those before it are up. With the service die PG_OUT is high and the straps are sampled. -/
def State.doRailStart (s : State) (rail : Nat) : State :=
  if !s.pwr.origin || s.pwr.down || decide (railGroups ≤ rail) || s.pwr.rails.contains rail
      || !(List.range rail).all s.pwr.rails.contains then s
  else
    let s := s.modPwr fun p => { p with rails := p.rails ++ [rail], pgOut := true }
    if rail = 0 then { s with pkg := { s.pkg with i3cSta := staticAddress } } else s

/-! ### Ecbumos -/

/-- Ecbumos leaves reset: self-tests. -/
def State.doEcbRelease (s : State) : State :=
  if s.pwr.rails.contains 0 && s.ecb.st == .off then s.modEcb fun e => { e with st := .selftest } else s
/-- The known-answer tests end: BOOT, with the noise sources in STARTUP; or ERROR. -/
def State.doSelftestDone (s : State) (ok : Bool) : State :=
  if s.ecb.st != .selftest then s
  else if ok then s.modEcb fun e => { e.trngStart with st := .boot }
  else s.ecbError 0x540
/-- The parcel map of a sheet from its MRAM record. -/
def Sheet.loadMap (h : Sheet) (o : Option (List Nat × Option Nat × Option Nat × BitVec 18)) : Sheet :=
  match o with
  | some m => { h with pmap := m.1, standing := m.2.1, test := m.2.2.1, fenced := m.2.2.2 }
  | none => h
/-- MRAM records are loaded and firmware is released; a trip flag is reported and cleared (R472, R482). -/
def State.loadRecords (s : State) : State :=
  let s := s.forEach sheetIdx fun s h =>
    let rcd := (s.ecb.fenceRecs.find? fun x => x.1 == h).map Prod.snd
    s.modSheet h fun x => x.loadMap rcd
  let s : State := { s with chart := { s.chart with reg := s.chart.saved.getD s.chart.reg } }
  let s := s.modPwr fun p => { p with released := true }
  if s.pwr.trip then (s.modPwr fun p => { p with trip := false }).powerFault 0x612 else s
/-- BOOT ends. With a valid slot Ecbumos is READY; in a start-up the records are loaded. After a SELFTEST service the active image
stays until a reset (16 R435). A failed key reconstruction is kind 0x561, and no record can then be read; each record copy that
fails its tag is kind 0x560, and a lost SVN or identity record puts Ecbumos into ERROR (16 R442). -/
def State.doBootDone (s : State) (r : BootRead) : State :=
  if s.ecb.st != .boot then s
  else
    let s := s.modEcb fun e => { e with pufOk := r.pufOk }
    if !r.pufOk then s.ecbError 0x561
    else
      let s := s.readRecords r (!s.pwr.released)
      let s := s.forEach (List.range s.recordFailures) fun s _ => s.ecbFault 0x560
      if s.recordLost .svn || s.recordLost .identity then s.ecbHalt
      else
      let old := s.ecb
      let s := s.ecbBoot
      if s.ecb.st != .ready then s
      else if !s.pwr.released then s.loadRecords
      else if s.rst.warm then s
      else s.modEcb fun e => { e with actB := old.actB, fwsvn := old.fwsvn }

/-! ### Host interface and ports -/

/-- PCI Express configuration is ready: not before PERST_N deasserts. -/
def State.doConfigReady (s : State) : State :=
  if s.pwr.released && !s.pkg.perst then s.modPwr fun p => { p with configReady := true } else s
/-- PERST_N asserts: once training has begun, a cold reset (R474). -/
def State.doPerst (s : State) : State :=
  let began := s.pwr.released && !s.pkg.perst
  let s : State := { s with pkg := { s.pkg with perst := true } }
  if began then s.coldCommand else s
/-- PERST_N deasserts. -/
def State.doPerstOff (s : State) : State := { s with pkg := { s.pkg with perst := false } }
/-- PWR_DIS falls: with the input above 40 V this is the origin. -/
def State.doPwrDisOff (s : State) : State := ({ s with pkg := { s.pkg with pwrDis := false } } : State).reachOrigin
/-- One group of ports is enabled: firmware sets `VJ.EN`. -/
def State.doPortGroup (s : State) (g : Nat) : State :=
  if !s.pwr.released then s
  else s.forEach ((List.range 64).filter fun n => n % 4 == g) fun s n =>
    (s.startPort n).modPort n fun x => { x with groupEnabled := true }

/-! ### Sheets -/

/-- A sheet that fails start-up stays OFF: kind 0x630 (R475). -/
def State.sheetOff (s : State) (sheet : Nat) : State :=
  (s.modSheet sheet fun h => { h with mode := .off }).sendFault { source := sheetSource sheet 4, kind := 0x630 }
/-- Training has ended on the last sheet: datum alignment begins in a chart of more than one device (R472, 11 R326). -/
def State.trainingOver (s : State) : State :=
  let ended := sheetIdx.all fun h => (s.sheet h).mode != .startUp || (s.sheet h).trained
  if ended && s.chart.st == .alone && decide (1 < s.chart.reg.size.toNat) then s.alignChart else s
/-- DRAM training of a sheet ends or fails; three failures leave it OFF. -/
def State.doTraining (s : State) (sheet : Nat) (ok : Bool) : State :=
  let h := s.sheet sheet
  if !s.pwr.released || h.mode != .startUp || h.trained then s
  else if ok then (s.modSheet sheet fun h => { h with trained := true }).trainingOver
  else
    let s := s.modSheet sheet fun h => { h with dramTries := h.dramTries + 1 }
    if (s.sheet sheet).dramTries < 3 then s else (s.sheetOff sheet).trainingOver
/-- Start-up ends for the device once every sheet is in SERVICE or OFF. -/
def State.startupOver (s : State) : State :=
  if s.dstate == .startUp && s.ecb.st != .recovery && sheetIdx.all fun h => (s.sheet h).mode == .service || (s.sheet h).mode == .off then
    { s with dstate := .ready }
  else s
/-- The memory test of a sheet ends: the rated area reads zero, every page is free, nothing in the seal table is WRITTEN. -/
def State.doMemoryTest (s : State) (sheet : Nat) (ok : Bool) : State :=
  let h := s.sheet sheet
  if h.mode != .startUp || !h.trained || h.tested then s
  else if ok then
    s.modSheet sheet fun h => { h with tested := true, mem := { sbOk := true, hotRef := h.mem.hotRef, sealFail := h.mem.sealFail } }
  else (s.sheetOff sheet).startupOver
/-- The start-up known-answer kernels of a sheet end; failures are handled by 15 R413 before the sheet enters SERVICE. Which item
failed with which kind is not reported by the row: free (log 59). -/
def State.doStartupKak (s : State) (sheet : Nat) (failed : List Nat) : State :=
  let h := s.sheet sheet
  if h.mode != .startUp || !h.tested then s
  else
    let s := s.modFt sheet fun f => { f with st := .sheetKak, sheetKakLeft := h.ring }
    let s := s.forEach h.ring fun s p =>
      let s : State := { s with free := s.free + 1 }
      if failed.contains p then
        s.sheetKakItem sheet p false (BitVec.ofNat 12 (Config.freeValue s.free)) (BitVec.ofNat 16 (Config.freeValue s.free / 0x1000)) false
      else s.sheetKakItem sheet p true 0 0 false
    (s.endSheetKak sheet).startupOver

/-! ### The rows -/

/-- RAIL_START. -/
def execRailStart (rail : Nat) (s : State) : Res := .next (s.doRailStart rail)
/-- ECBUMOS_RESET_RELEASE. -/
def execEcbumosResetRelease (s : State) : Res := .next s.doEcbRelease
/-- ECB_SELFTEST_DONE. -/
def execEcbSelftestDone (ok : Bool) (s : State) : Res := .next (s.doSelftestDone ok)
/-- ECB_BOOT_DONE. -/
def execEcbBootDone (r : BootRead) (s : State) : Res := .next (s.doBootDone r)
/-- PCIE_CONFIG_READY. -/
def execPcieConfigReady (s : State) : Res := .next s.doConfigReady
/-- PERST_N_ASSERT. -/
def execPerstNAssert (s : State) : Res := .next s.doPerst
/-- PERST_N_DEASSERT. -/
def execPerstNDeassert (s : State) : Res := .next s.doPerstOff
/-- PWR_DIS_DEASSERT. -/
def execPwrDisDeassert (s : State) : Res := .next s.doPwrDisOff
/-- PORT_GROUP_ENABLE. -/
def execPortGroupEnable (g : Fin 4) (s : State) : Res := .next (s.doPortGroup g.val)
/-- DRAM_TRAINING_DONE. -/
def execDramTrainingDone (h : SheetId) (ok : Bool) (s : State) : Res := .next (s.doTraining h.val ok)
/-- MEMORY_TEST_DONE. -/
def execMemoryTestDone (h : SheetId) (ok : Bool) (s : State) : Res := .next (s.doMemoryTest h.val ok)
/-- STARTUP_KAK_DONE. -/
def execStartupKakDone (h : SheetId) (failed : List PhysParcel) (s : State) : Res :=
  .next (s.doStartupKak h.val (failed.map Fin.val))

end Sys2Proof.Machine
end

