-- ==== Sys2Proof/Machine/Registers.lean ====
section
/-! DEFINITION. Host writes to the registers of WIN_0 (00 R7-R10, 09 R261, and every chapter's register tables). -/

namespace Sys2Proof.Machine

/-! ### Reserved bits (00 R10) -/

/-- Reserved bits of a queue register. -/
def queueReserved (r : Nat) : Nat :=
  match r with
  | 0 | 1 => 0xFFF
  | 2 => 0xE0E00E3F000EFFFF
  | 3 | 5 => 0xFFFFFFFF00000000
  | 4 => 0
  | _ => 0x1FFFFFFFFFFF00F0
/-- Reserved bits of a partition or context register. -/
def ownerReserved : Reg → Nat
  | .part _ 0 => 0xFFFF0000FFFFFFFC
  | .part _ 1 => 0
  | .part _ _ => 0xFFFFFFFFFFFFFF10
  | .ctx _ 0 => 0xF000000700000000
  | .ctx _ 1 => 0x000000FF00000000
  | .ctx _ 2 => 0
  | .ctx _ _ => 0x1FFFFFFFFFFFFF00
  | _ => 0
/-- Reserved bits of a slot or chain register. -/
def unitReserved : Reg → Nat
  | .slot _ _ 1 => 0xFFFE
  | .slot _ _ 2 => 0x3FFE0000
  | .slot _ _ 3 => 0x0000FFFF80000000
  | .slot _ _ 4 => 0xFFFF00F0
  | .chain _ _ 4 => 0xFF
  | .chain _ _ 5 => 0xFF
  | _ => 0
/-- Reserved bits of a port register. -/
def portReserved (r : Nat) : Nat :=
  match r with
  | 0 => 0xFFFFFFFFFFFFFF06
  | 1 => 0x00003FFF0000F000
  | 2 => 0
  | 3 => 0xFF000000FFFFFFFF
  | _ => 0xFFFFFFFF0000FFF8
/-- Reserved bits of a counter's registers. -/
def counterReserved (r : Nat) : Nat :=
  match r with
  | 0 => 0xFFFFFFF
  | 1 => 0x3E
  | _ => 0xFFFF000000000000
/-- Reserved bits of the registers of a sheet. -/
def sheetReserved : Reg → Nat
  | .sheetState _ => 0xFFE0FFF0
  | .sheetSpares _ => 0xFFFC0000E0E0FFFF
  | .engStatus _ _ => 0xFFFFFF00E000F8F0
  | .keyStatus _ => 0xFFFF0000FFE003F8
  | .keyEntry _ _ => 0xFFC
  | .memStatus _ => 0xFFFF00000000FFF8
  | .ftCtl _ => 0x1FFF00FF00000000
  | .ftStatus _ => 0x0000FFE0FFFFFF00
  | r => unitReserved r
/-- Reserved bits of the collector, dump, counter and power registers. -/
def serviceReserved : Reg → Nat
  | .colRbase => 0xFE0
  | .colRptr => 0xFFFF0000000F0000
  | .colStatus => 0x0FFFF800
  | .colSvch => 0xFFFFFFFF00000000
  | .colWin _ => 0xFFC
  | .colHist _ 0 => 0xFFFFFFFE
  | .dumpBase => 0xFFF
  | .dumpStatus => 0xFFFFFFF0
  | .cntGctl => 0x07FF000F00000000
  | .cntSatf => 0xFFFFFFFFFFFFFC00
  | .bstat b => 2 ^ 64 - 2 ^ bankSize b
  | .sample _ => 0x001F000000000000
  | .counter _ _ r => counterReserved r
  | .pwrStatus => 0xFF
  | .thmSheet _ => 0xFFFF0000FF0F00FC
  | _ => 0
/-- Reserved bits of the registers of Ecbumos. -/
def ecbReserved : Reg → Nat
  | .ecbStatus => 0xFF030FF0
  | .ecbDrbg => 1
  | .ecbTrng => 0xFFFFFF0F
  | .ecbRngStat => 0xFFFFFFFFFFFFFFF8
  | .ecbRaw => 0x3FFFFFFC00000000
  | .ecbSignext | .ecbSigres => 0xFFFFFE0000000000
  | .ecbCmd => 0x3FFF00FFE000FF00
  | _ => 0
/-- Reserved bits of the identity, chart, hang, reset and field-test registers. -/
def lowReserved : Reg → Nat
  | .idDevice => 0xFFFF
  | .idShape => 0xFF0000000000FFFF
  | .globCtl => 0xFFFFFFFF0000FFF0
  | .globW4base => 0xFFFFFE0FFFFFFFFF
  | .pkgStatus => 0x0000FFFF00000000
  | .chartId => 0x0000F000F000E000
  | .chartTree => 0x00FFFFFF00000000
  | .chartCtl => 0x3FFFFFFFFFFFFFF0
  | .chartStatus => 0x00000FFF0007FFFC
  | .chartRoute _ => 0x7FFFC0FFFFFFFFFF
  | .chartEpoch _ => 0xF0
  | .hangWdog _ => 0xFFFFFFFFFF000000
  | .hangIso _ => 0xFF000FFF0000FFF0
  | .rstCtl => 0x03FFFFFFFFE00000
  | .rstStatus => 0x7F0000FFFFFFFFFE
  | .ftPack _ => 0x7E
  | .ftLognext => 0xFFFFFFFFFFFFFC00
  | .queue _ r => queueReserved r
  | .vj _ r => portReserved r
  | r => ownerReserved r
/-- Reserved bits of a register; the tables of the chapters name them. -/
def Reg.reserved (r : Reg) : Nat := lowReserved r ||| sheetReserved r ||| serviceReserved r ||| ecbReserved r

/-! ### Reserved encodings (00 R10) -/

/-- Parcel events of 17 R453. -/
def parcelEvents (cls code : Nat) : Bool :=
  decide (cls = 1 ∧ 1 ≤ code ∧ code ≤ 0xF) || decide (cls = 2 ∧ 1 ≤ code ∧ code ≤ 6) || decide (cls = 3 ∧ 1 ≤ code ∧ code ≤ 4) ||
  decide (cls = 5 ∧ 0x10 ≤ code ∧ code ≤ 0x1F) || decide (cls = 6 ∧ code = 1)
/-- Link events. -/
def linkEvents (cls code : Nat) : Bool := decide (cls = 7 ∧ 1 ≤ code ∧ code ≤ 0xD ∧ code ≠ 4)
/-- Events that a bank accepts (17 R450, R453). -/
def bankEvents (b : BankId) (cls code : Nat) : Bool :=
  match b with
  | .parcel _ _ => parcelEvents cls code
  | .sheet _ =>
    parcelEvents cls code || decide (cls = 3 ∧ 0x10 ≤ code ∧ code ≤ 0x16) || decide (cls = 4 ∧ 1 ≤ code ∧ code ≤ 5) ||
    decide (cls = 6 ∧ code = 0x10)
  | .port _ => linkEvents cls code
  | .device =>
    linkEvents cls code || decide (cls = 6 ∧ (code = 0x20 ∨ code = 0x21)) || decide (cls = 8 ∧ 1 ≤ code ∧ code ≤ 6) ||
    decide (cls = 9 ∧ 1 ≤ code ∧ code ≤ 4)
/-- A reserved value of CNT_SEL: an event the bank does not accept, PRIV 0b11, CHAIN on an even counter, SAMP outside a parcel
bank (17 R452, R455, R456). -/
def selIllegal (b : BankId) (i v : Nat) : Bool :=
  let parcel := match b with | .parcel _ _ => true | _ => false
  !bankEvents b (bits v 59 56) (bits v 55 48) || bits v 47 46 == 3 || (bit v 62 && i % 2 == 0) || (bit v 60 && !parcel)
/-- A value outside the encodings of a register. -/
def Reg.illegal (r : Reg) (v : Nat) : Bool :=
  match r with
  | .globCtl => bits v 31 16 == 0
  | .queue _ 2 => !logOk (BitVec.ofNat 5 (bits v 60 56)) || !logOk (BitVec.ofNat 5 (bits v 52 48))
  | .queue _ 5 => bits v 31 0 == 0
  | .hangWdog _ => bits v 23 0 == 0 || decide (10000000 < bits v 23 0)
  | .hangTmo => bits v 63 32 == 0 || bits v 31 0 == 0
  | .ftCtl _ => decide (bits v 47 40 < 60) || decide (99 < bits v 47 40) || bits v 31 16 == 0 || bits v 15 0 == 0
  | .colRbase => decide (bits v 4 0 < 6) || decide (16 < bits v 4 0)
  | .vj _ 0 => bits v 5 4 == 3
  | .chartId => bits v 12 0 == 0 || decide (4096 < bits v 12 0)
  | .chartTree => decide (0x3F < bits v 63 56) && bits v 63 56 != 0xFF
  | .counter b i 0 => selIllegal b i v
  | .rstCtl => decide (17 < bits v 20 16)
  | .ecbCmd => bits v 7 0 == 0 || decide (0x14 ≤ bits v 7 0)
  | _ => false

/-! ### What a write does -/

/-- Apply `f` where a bit is written 1. -/
def State.onBit (s : State) (v i : Nat) (f : State → State) : State := if bit v i then f s else s
/-- Registers of a queue (09 R278, R279). -/
def State.writeQueue (s : State) (q r v : Nat) : State :=
  let b52 := BitVec.ofNat 52 (v / 4096)
  if r = 5 then s.modQueue q fun x => { x with ptlim := BitVec.ofNat 32 v }
  else if r = 6 then
    ((s.onBit v 63 fun s => s.doQEnable q).onBit v 62 fun s => s.doQDisable q).onBit v 61 fun s => s.doQClear q
  else if r = 4 then s
  else if (s.queue q).st != .disabled then s.hostFault 0x40B
  else if r = 0 then s.modQueue q fun x => { x with sqbase := b52 }
  else if r = 1 then s.modQueue q fun x => { x with cqbase := b52 }
  else if r = 2 then s.modQueue q fun x =>
    { x with
      sqlog := BitVec.ofNat 5 (bits v 60 56), cqlog := BitVec.ofNat 5 (bits v 52 48), func := BitVec.ofNat 4 (bits v 47 44)
      prio := BitVec.ofNat 3 (bits v 40 38), vector := BitVec.ofNat 12 (bits v 31 20), irqen := bit v 16 }
  else s.modQueue q fun x => { x with nextSeq := BitVec.ofNat 32 v }
/-- Registers of a partition (09 R282). -/
def State.writePart (s : State) (p r v : Nat) : State :=
  if r = 0 then s.doPartCfg p (BitVec.ofNat 64 v)
  else if r = 1 then
    if (s.part p).locked then s.hostFault 0x405 else s.modPart p fun x => { x with ports := BitVec.ofNat 64 v }
  else ((s.onBit v 7 fun s => s.doPartGo p).onBit v 6 fun s => s.doPartStop p).onBit v 5 fun s => s.doPartReset p
/-- Registers of a context (09 R283, R287, R288): SETGEN before OPEN. -/
def State.writeCtx (s : State) (c r v : Nat) : State :=
  if r = 0 then
    if (s.ctx c).idle then s.modCtx c fun x =>
      { x with
        part := BitVec.ofNat 4 (bits v 59 56), func := BitVec.ofNat 4 (bits v 55 52), slotBase := BitVec.ofNat 7 (bits v 51 45)
        slotCnt := BitVec.ofNat 8 (bits v 44 37), scrub := bit v 36, cntrd := bit v 35, quota := BitVec.ofNat 32 v }
    else s.ctxRefused
  else if r = 3 then
    ((s.onBit v 61 fun s => s.doCtxSetgen c (BitVec.ofNat 8 v)).onBit v 63 fun s => s.doCtxOpen c).onBit v 62 fun s =>
      s.doCtxKill (Fin.ofNat 4096 c)
  else s
/-- VJ_CTL (10 R313, R318): the RWL fields of a port whose partition runs keep their values. -/
def State.writeVj (s : State) (p v : Nat) : State :=
  let s :=
    if s.portLocked p then s.hostFault 0x405
    else
      let s := s.modPort p fun x => { x with enc := bit v 6, loop := BitVec.ofNat 2 (bits v 5 4), precode := bit v 3 }
      if bit v 0 then s.startPort p else s.doPortDisable p
  s.onBit v 7 fun s => s.doRetrain p
/-- Change the chart registers in ALONE or UNLOCKED (11 R325). -/
def State.writeChart (s : State) (f : ChartRegs → ChartRegs) : State :=
  if s.chart.writable then { s with chart := { s.chart with reg := f s.chart.reg } } else s.hostFault 0x40D
/-- A route entry, unless the partition that owns it runs (11 R334). -/
def State.writeRoute (s : State) (d v : Nat) : State :=
  let e := tget ({} : RouteEntry) s.chart.routes d
  if s.portLocked e.port.toNat then s.hostFault 0x405
  else
    { s with chart := { s.chart with
        routes := tset {} s.chart.routes d { valid := bit v 63, port := BitVec.ofNat 6 (bits v 45 40) } } }
/-- A counter (17 R451, R455). -/
def State.writeCounter (s : State) (b : BankId) (i r v : Nat) : State :=
  let x := s.bankOf b
  let c := tget ({} : Counter) x.ctrs i
  let c := match r with
    | 0 => { c with sel := BitVec.ofNat 64 v &&& ~~~0xFFFFFFF#64 }
    | 1 => { c with filt := BitVec.ofNat 64 v &&& ~~~0x3E#64 }
    | 2 => { c with val := BitVec.ofNat 48 v }
    | _ => c
  s.setBank b { x with ctrs := tset {} x.ctrs i c }
/-- The mailbox's command register (16 R421). While a command runs the write is dropped (log 60); a command that the state or
the role does not allow completes at once. -/
def State.writeMailbox (s : State) (v : Nat) : State :=
  if s.ecb.busy then s
  else
    let cmd := bits v 7 0
    let s := s.modEcb fun e => { e with cmd := BitVec.ofNat 8 cmd, len := BitVec.ofNat 13 (bits v 28 16) }
    if !bit v 63 then s
    else if !s.ecb.allows cmd then s.mbRefuse mbState
    else if !s.ecb.mayRun cmd then s.mbRefuse mbAuth
    else s.modEcb fun e => { e with busy := true }
/-- RST_CTL (14 R397): the smaller domains first. -/
def State.writeRst (s : State) (v : Nat) : State :=
  let mask := BitVec.ofNat 16 v
  let s := s.onBit v 60 fun s => s.doRstParcel mask (bits v 20 16)
  let s := s.onBit v 61 fun s => s.doRstSheet mask
  let s := s.onBit v 59 fun s => s.doFreeall (bit v 58)
  let s := s.onBit v 63 State.warmCommand
  s.onBit v 62 State.coldCommand
/-- Identity, chart, hang, reset and partition registers. -/
def State.writeLow (s : State) (r : Reg) (v : Nat) : State :=
  match r with
  | .globCtl => { s with qtmo := BitVec.ofNat 16 (bits v 31 16) }
  | .globW4base => { s with w4base := BitVec.ofNat 5 (bits v 40 36) }
  | .chartId => s.writeChart fun c =>
    { c with chartId := BitVec.ofNat 16 (bits v 63 48), devId := BitVec.ofNat 12 (bits v 43 32)
             datumDev := BitVec.ofNat 12 (bits v 27 16), size := BitVec.ofNat 13 (bits v 12 0) }
  | .chartTree => s.writeChart fun c => { c with upport := BitVec.ofNat 8 (bits v 63 56), lmargin := BitVec.ofNat 32 v }
  | .chartDown => s.writeChart fun c => { c with down := BitVec.ofNat 64 v }
  | .chartCtl => (s.onBit v 62 State.doChartSave).onBit v 63 State.doChartAlign
  | .chartRoute d => s.writeRoute d v
  | .rstCtl => s.writeRst v
  | .hangWdog p => if (s.part p).locked then s.hostFault 0x405 else s.modPart p fun x => { x with wdog := BitVec.ofNat 24 v }
  | .hangTmo => { s with rst := { s.rst with dmatmo := BitVec.ofNat 32 (bits v 63 32), lnktmo := BitVec.ofNat 32 v } }
  | .queue q r => s.writeQueue q r v
  | .part p r => s.writePart p r v
  | .ctx c r => s.writeCtx c r v
  | .vj p 0 => s.writeVj p v
  | _ => s
/-- Whether a step runs on a sheet: from its start-of-step barrier to its end (01 R35). -/
def State.stepRuns (s : State) (h : Nat) : Bool :=
  match s.partOf h with
  | some p => (s.part p).phase == .running
  | none => false
/-- A write to the active set of a sheet's units: during a step it is dropped with kind 0x408 (01 R35, 09 R292); at other times
the fields are read only. -/
def State.writeActive (s : State) (h : Nat) : State := if s.stepRuns h then s.hostFault 0x408 else s
/-- Sheet, counter, collector, power and security registers. -/
def State.writeHigh (s : State) (r : Reg) (v : Nat) : State :=
  match r with
  | .keyStatus h => s.onBit v 2 fun s => s.modSheet h fun x => { x with key := { x.key with mismatch := false } }
  | .memStatus h => s.onBit v 1 fun s => s.modMem h fun m => { m with attrErr := false }
  | .ftCtl h =>
    let s := s.modFt h fun f =>
      { f with roten := bit v 62, sqen := bit v 61, tmin := BitVec.ofNat 8 (bits v 47 40), period := BitVec.ofNat 16 (bits v 31 16)
               spareKak := BitVec.ofNat 16 v }
    s.onBit v 63 fun s => s.doKakgo h
  | .bstat b => s.setBank b { s.bankOf b with ovf := (s.bankOf b).ovf &&& ~~~BitVec.ofNat 64 v }
  | .sample b => s.setBank b { s.bankOf b with sample := (s.bankOf b).sample &&& ~~~BitVec.ofNat 64 (v / 2 ^ 62 * 2 ^ 62) }
  | .counter b i r => s.writeCounter b i r v
  | .colRbase =>
    if s.col.ringen then s.hostFault 0x411
    else s.modCol fun k => { k with rbase := BitVec.ofNat 52 (v / 4096), rlog := BitVec.ofNat 5 (bits v 4 0) }
  | .colRptr => s.modCol fun k => { k with rvec := BitVec.ofNat 12 (bits v 31 20), rhead := BitVec.ofNat 16 v }
  | .dumpBase => s.modDump fun d => { d with base := BitVec.ofNat 52 (v / 4096) }
  | .cntGctl =>
    let s : State := { s with cnt := { s.cnt with frzmode := bit v 61, vec := BitVec.ofNat 12 (bits v 47 36) } }
    (s.onBit v 63 State.doArm).onBit v 62 State.doUnfreeze
  | .cntSnapat => { s with cnt := { s.cnt with snapat := BitVec.ofNat 64 v } }
  | .cntSatf => { s with cnt := { s.cnt with satf := s.cnt.satf &&& ~~~BitVec.ofNat 10 v } }
  | .thmSheet h => s.onBit v 0 fun s => s.modSheet h fun x => { x with thm := { x.thm with hot := false } }
  | .ecbRngStat => s.onBit v 2 fun s => s.modEcb fun e => { e with err := false }
  | .ecbRaw => s.onBit v 62 fun s => s.modEcb fun e => { e with rawlost := false }
  | .ecbCmd => s.writeMailbox v
  | .ecbArg0 => if s.ecb.busy then s else s.modEcb fun e => { e with arg0 := BitVec.ofNat 64 v }
  | .ecbArg1 => if s.ecb.busy then s else s.modEcb fun e => { e with arg1 := BitVec.ofNat 64 v }
  | .ecbBuffer a => if s.ecb.busy then s else s.modEcb fun e => { e with buf := mwrite e.buf a (leBytes 8 v) }
  | .td h _ _ _ | .engStatus h _ | .slot h _ _ | .chain h _ _ | .keyEntry h _ => s.writeActive h
  | _ => s
/-- A write whose encodings are legal, for its defined fields. -/
def State.writeReg (s : State) (r : Reg) (v : Nat) : State := (s.writeLow r v).writeHigh r v

/-! ### An accepted write -/

/-- The kind with which a register is refused in START-UP (18 R474). -/
def Reg.startUpKind : Reg → Option (BitVec 12)
  | .queue _ _ => some 0x40B
  | .part _ _ => some 0x409
  | .ctx _ _ => some 0x40A
  | _ => none
/-- Registers that the safe state takes writes to (14 R399). -/
def Reg.safeWritable : Reg → Bool
  | .rstCtl | .dumpBase | .dumpCtl => true
  | _ => false
/-- The rules of 00 R10 around a write: a reserved encoding drops it whole, a reserved bit is reported and stays 0. -/
def State.checkedWrite (s : State) (r : Reg) (v : Nat) : State :=
  if r.illegal v then s.hostFault 0x406
  else
    let s := if v &&& r.reserved = 0 then s else s.hostFault 0x406
    s.writeReg r v
/-- An 8-byte aligned write to a register. A write that the unit refuses in START-UP raises the unit's kind alone, whatever its
reserved bits and encodings hold (log 60). -/
def State.regWrite (s : State) (r : Reg) (val : Word) : State :=
  if s.dstate == .safe && !r.safeWritable then s
  else match (if s.dstate == .startUp then r.startUpKind else none), r with
    | some k, _ => s.hostFault k
    | none, .colCtl => s.doRingen val
    | none, .colAck => s.doAck val
    | none, .dumpCtl => s.doDumpCtl val
    | none, .pwrCtl => s.doPwrCtl val
    | none, r => s.checkedWrite r val.toNat
/-- REGISTER_WRITE: a write to an unmapped offset is dropped; one that is not aligned is refused (09 R261). -/
def State.doRegisterWrite (s : State) (o : Nat) (val : Word) : State :=
  if o % 8 ≠ 0 then (if s.dstate == .safe then s else s.hostFault 0x406)
  else match regOf o with
    | some r => s.regWrite r val
    | none => s
/-- Whether an access is one of the three forms of 09 R261; the mailbox buffer takes 8-byte accesses only (16 R421). On a doorbell page,
an 8-byte write to one of the two doorbells, which act by their own rows, and any read (R262). -/
def accessAccepted (a : BadAccess) : Bool :=
  let buffer := decide (0x3301000 ≤ a.offset ∧ a.offset < 0x3302000)
  if a.page.isSome then !a.write || (a.width == 8 && (a.offset == 0 || a.offset == 8))
  else (a.width == 8 && a.offset % 8 == 0) || (!a.write && a.width == 4 && a.offset % 4 == 0 && !buffer)
/-- What an accepted read returns: an 8-byte register, or the half of it at a 4-byte offset as it is at that moment (R261); 0 from a
doorbell page (R262). -/
def State.readBytes (s : State) (a : BadAccess) : List Byte :=
  if a.page.isSome then List.replicate a.width 0
  else ((leBytes 8 (s.readWin0 (a.offset / 8 * 8)).toNat).drop (a.offset % 8)).take a.width
/-- What a read does to the register it reads: random bits and raw samples are consumed (16 R429, R432). -/
def State.readEffect (s : State) (a : BadAccess) : State :=
  if a.page.isSome || s.dstate == .safe then s
  else match regOf (a.offset / 8 * 8) with
    | some .ecbRngData => s.consumeRng
    | some .ecbRaw => s.consumeRaw
    | _ => s
/-- WIN0_ACCESS_REFUSED: of an access not accepted, a read returns 0 and a write is dropped; kind 0x406, or 0x401 on a doorbell page,
outside the safe state. An accepted read returns its bytes; an accepted write has rows of its own. -/
def State.doBadAccess (s : State) (a : BadAccess) : State :=
  if accessAccepted a then (if a.write then s else (s.emit (.readReply (s.readBytes a))).readEffect a)
  else
    let s := if a.write then s else s.emit (.readReply (List.replicate a.width 0))
    if s.dstate == .safe then s else if a.page.isSome then s.hostFault 0x401 8 else s.hostFault 0x406

/-! ### The rows -/

/-- WIN0_ACCESS_REFUSED. -/
def execWin0AccessRefused (a : BadAccess) (s : State) : Res := .next (s.doBadAccess a)
/-- REGISTER_WRITE. -/
def execRegisterWrite (offset : Nat) (val : Word) (s : State) : Res := .next (s.doRegisterWrite offset val)

end Sys2Proof.Machine
end

