-- ==== Sys2Proof/Machine/RowUnit.lean ====
section
/-! DEFINITION. The rows of the row unit: chains, reductions and conversions (03 R99-R102). -/

namespace Sys2Proof.Machine

/-- ROW_CHAIN (03 R100): scale, bias and function of accumulator rows with one rounding. -/
def execRowChain (e : EngId) (o : ChainOp) (d : Disturb) (s : State) : Res :=
  .next (s.runUop e (.rowChain o) fun s => s.doRowChain e o d)

/-- RED_SUM (03 R101): sums along rows or columns. -/
def execRedSum (e : EngId) (o : RedOp) (d : Disturb) (s : State) : Res :=
  .next (s.runUop e (.redSum o) fun s => s.doReduce e o d false 1)

/-- RED_MOMENTS (03 R101): sums and sums of squares. -/
def execRedMoments (e : EngId) (o : RedOp) (d : Disturb) (s : State) : Res :=
  .next (s.runUop e (.redMoments o) fun s => s.doReduce e o d true 2)

/-- RED_FINISH (03 R101): mean and variance from the sums. -/
def execRedFinish (e : EngId) (o : RedOp) (d : Disturb) (s : State) : Res :=
  .next (s.runUop e (.redFinish o) fun s => s.doRedFinish e o d)

/-- CONVERT (03 R102): rounding into another format. -/
def execConvert (e : EngId) (o : ConvOp) (d : Disturb) (s : State) : Res :=
  .next (s.runUop e (.convert o) fun s => s.doConvert e o d false 1)

/-- REWINDOW (03 R102): A64 to A64 at another exponent. -/
def execRewindow (e : EngId) (o : ConvOp) (d : Disturb) (s : State) : Res :=
  .next (s.runUop e (.rewindow o) fun s => s.doConvert e o d true 2)

end Sys2Proof.Machine
end

