-- ==== Sys2Proof/Machine/Sampling.lean ====
section
/-! DEFINITION. The rows of the sampling stage and its hub (04). -/

namespace Sys2Proof.Machine

/-- SMP_MAX (04 R133): pass A. -/
def execSmpMax (e : EngId) (o : PassOp) (d : Disturb) (s : State) : Res :=
  .next (s.runUop e (.smpMax o) fun s => s.doSmpMax e o d)

/-- SMP_WEIGH (04 R133): pass B. -/
def execSmpWeigh (e : EngId) (o : PassOp) (d : Disturb) (s : State) : Res :=
  .next (s.runUop e (.smpWeigh o) fun s => s.doLaterPass e o d .maxed 2)

/-- SMP_CUT (04 R135): pass C, with the refinement passes the hub needs. -/
def execSmpCut (e : EngId) (o : PassOp) (d : Disturb) (s : State) : Res :=
  .next (s.runUop e (.smpCut o) fun s => s.doLaterPass e o d .weighed 3)

/-- SMP_DRAW (04 R136): pass D. -/
def execSmpDraw (e : EngId) (o : PassOp) (d : Disturb) (s : State) : Res :=
  .next (s.runUop e (.smpDraw o) fun s => s.doSmpDraw e o d)

/-- HUB_REDUCTION (04 R133): the hub of a sheet combines the reports of a pass once every participant has reported. -/
def execHubReduction (h : SheetId) (slot : Fin 128) (d : Disturb) (s : State) : Res := .next (s.doHubReduction h.val slot.val d)

/-- SMP_BERNOULLI (04 R147): binary decisions from log-odds. -/
def execSmpBernoulli (e : EngId) (o : BinOp) (d : Disturb) (s : State) : Res :=
  .next (s.runUop e (.bernoulli o) fun s => s.doBinary e o d .bernoulli 5)

/-- SMP_HEATBATH (04 R147): binary decisions of a heat bath. -/
def execSmpHeatbath (e : EngId) (o : BinOp) (d : Disturb) (s : State) : Res :=
  .next (s.runUop e (.heatbath o) fun s => s.doBinary e o d .heatbath 6)

/-- SMP_METROPOLIS (04 R147): binary Metropolis decisions. -/
def execSmpMetropolis (e : EngId) (o : BinOp) (d : Disturb) (s : State) : Res :=
  .next (s.runUop e (.metropolis o) fun s => s.doBinary e o d .metropolis 7)

end Sys2Proof.Machine
end

