-- ==== Sys2Proof/Machine/Quantile.lean ====
section
/-! DEFINITION. The values that scribe code forms from the streams (05 R162-R166): dropout, uniform and normal initial values,
with the quantile tables computed from the standard normal distribution. -/

namespace Sys2Proof.Machine

/-! ### Dropout and uniform values (R162, R163) -/

/-- Dropout: element x is dropped when its n bits of G are below P. `g` is G at the element's counter. -/
def dropout (g n x p : Nat) : Bool :=
  let i := x % (128 / n)
  decide ((g >>> (n * i)) % 2 ^ n < p)
/-- Product of dyadics n · 2^t. -/
def dyMul (a b : Int × Int) : Int × Int := (a.1 * b.1, a.2 + b.2)
/-- The uniform value on [lo, hi): lo + (hi − lo) · (2U + 1) · 2^−24 with U bits 63:41 of G, exact. -/
def uniformVal (g : Nat) (lo hi : Int × Int) : Int × Int :=
  dyAdd lo (dyMul (dyAdd hi (-lo.1, lo.2)) (((2 * bits g 63 41 + 1 : Nat) : Int), -24))

/-! ### The normal quantile (R164, R165) -/

/-- floor(√(2π) · 2^256). -/
def sqrtTwoPi : Nat := 0x281b263fec4e0b2caf9483f5ce459dc5f19f3ea6416000b50dc2f412ddeeb948b
/-- Terms of the series of ∫ exp(−t²/2) dt from 0 to x, with 256 fraction bits: t_k = x^(2k+1) / (2^k · k!), each over 2k + 1 and
of alternating sign; `a` and `b` take the terms in turn. -/
def gaussSum : Nat → Nat → Nat → Nat → Nat → Nat → Nat
  | 0, _, _, _, a, b => a - b
  | n + 1, k, t, x2, a, b => gaussSum n (k + 1) (((t * x2) >>> 256) / (2 * (k + 1))) x2 b (a + t / (2 * k + 1))
/-- The integral from 0 to j · 2^−25, below 8: the terms that are left out and the roundings stay below 2^−190. -/
def gaussArea (j : Nat) : Nat := gaussSum 220 0 (j <<< 231) (((j <<< 231) * (j <<< 231)) >>> 256) 0 0
/-- Whether (2m − 1) · 2^−25 is at most the quantile of y = a · 2^−33. -/
def belowQuantile (a m : Nat) : Bool := decide (gaussArea (2 * m - 1) <<< 33 ≤ (a - 2 ^ 32) * sqrtTwoPi)
/-- The largest m of n bits above `lo` that stays at or below the quantile. -/
def quantileBits (a : Nat) : Nat → Nat → Nat
  | 0, lo => lo
  | n + 1, lo => quantileBits a n (if belowQuantile a (lo + 2 ^ n) then lo + 2 ^ n else lo)
/-- Q(y) = floor(2^24 · Φ⁻¹(y) + 1/2) for y = a · 2^−33, a from 2^32 to 2^33 − 1. -/
def quantile (a : Nat) : Nat := quantileBits a 27 0
/-- The coarse table: CT[j] = Q(0.5 + j · 2^−11). -/
def coarseTable (j : Nat) : Nat := quantile (2 ^ 32 + j * 2 ^ 22)
/-- The fine table: FT[i] = Q(1 − 2^−11 + i · 2^−21). -/
def fineTable (i : Nat) : Nat := quantile (2 ^ 33 - 2 ^ 22 + i * 2 ^ 12)
/-- The tail table: TT[q] = Q(1 − 2^−21 + (q + 0.5) · 2^−32). -/
def tailTable (q : Nat) : Nat := quantile (2 ^ 33 - 2 ^ 12 + (2 * q + 1))
/-- normal_mag. -/
def normalMag (w : Nat) : Nat :=
  let j := w >>> 21
  if j ≤ 1022 then
    let c := coarseTable j
    c + (((coarseTable (j + 1) - c) * (w % 2 ^ 21) + 2 ^ 20) >>> 21)
  else
    let i := (w >>> 11) % 1024
    if i ≤ 1022 then
      let c := fineTable i
      c + (((fineTable (i + 1) - c) * (w % 2 ^ 11) + 2 ^ 10) >>> 11)
    else tailTable (w % 2 ^ 11)
/-- The normal value μ ± σ · Z · 2^−24, exact: V is bits 31:0 of G, its bit 31 the sign. -/
def normalVal (g : Nat) (mu sigma : Int × Int) : Int × Int :=
  let z : Int := normalMag (g % 2 ^ 31)
  dyAdd mu (dyMul sigma (if bit g 31 then -z else z, -24))

/-! ### One element (R162-R166) -/

/-- The first of the attempts `a`, `a + 1`, … whose magnitude is at most c (R166). -/
def firstWithin (g : Nat → Nat) (c : Nat) : Nat → Nat → Option Nat
  | 0, _ => none
  | n + 1, a => if normalMag (g a % 2 ^ 31) ≤ c then some (g a) else firstWithin g c n (a + 1)
/-- Element index of the counter that serves element x. -/
def initElement (k : InitKind) (x : Nat) : Nat := match k with
  | .dropout n _ => x / (128 / n)
  | _ => x
/-- The value of element x, exact, and whether CLAMP is set; `g` gives G at the element's counter for a draw field. A dropped
element is 0 and a kept one 1 (log 78). -/
def initValue (k : InitKind) (x draw : Nat) (g : Nat → Nat) : (Int × Int) × Bool :=
  match k with
  | .dropout n p => ((if dropout (g draw) n x p then 0 else 1, 0), false)
  | .uniform lo hi => (uniformVal (g draw) lo hi, false)
  | .normal mu sigma => (normalVal (g draw) mu sigma, false)
  | .truncated mu sigma c => match firstWithin g c 16 draw with
    | some y => (normalVal y mu sigma, false)
    | none => (mu, true)

end Sys2Proof.Machine
end

