-- ==== Sys2Proof/Machine/ScribeOps.lean ====
section
/-! DEFINITION. What a scribe core's loads and stores reach (07 R217, R218): parcel store, accumulator memory, handshake registers
(R219-R222), stream port (R228), fault port (R229), record port (R225), its clock, and the DRAM windows (R223, R224, R226). -/

namespace Sys2Proof.Machine

/-- How an access of a core ends: it is done, with the bytes of a load; it waits and leaves no trace; or it raises an exception. -/
inductive CoreAcc where
  | done (s : State) (v : List Byte)
  | wait
  | fault (cause : Nat)

/-- A core runs: its parcel is in service, and it is neither in reset nor halted (07 R222, R230). -/
def State.coreLive (s : State) (c : CoreId) : Bool :=
  let k := s.core c
  !k.inReset && !k.halted && ((s.sheet c.eng.sheet.val).phys c.eng.parcel.val).isSome
/-- A read of a core returns bytes. -/
def State.scribeData (s : State) (c : CoreId) (b : List Byte) : State := s.emit (.scribeData c b)
/-- A fault of a core, source level 3, unit 4 + core (R229). -/
def State.scribeFault (s : State) (c : CoreId) (kind : BitVec 12) (op : BitVec 16) (addr : Word) (sent : Bool)
    (sev : BitVec 4) : State :=
  s.engFault c.eng 3 (4 + c.core.val) kind op addr sent sev
/-- A host-family fault of one of the core's registers (00 R10, R224). -/
def State.portFault (s : State) (c : CoreId) (kind : BitVec 12) : State :=
  let sheet := c.eng.sheet.val
  s.sendFault { source := sourceId 3 sheet (((s.sheet sheet).phys c.eng.parcel.val).getD 0x1F) (4 + c.core.val), kind := kind
                ctx := s.curCtx sheet, op := 9 }
/-- A register value as a load returns it. -/
def CoreAcc.word (s : State) (v : Nat) : CoreAcc := .done s (leBytes 8 v)

/-! ### Handshake registers (R219, R221) -/

/-- A core rings its engine: with 255 doorbells pending the store waits (03 R105). -/
def State.scribeRing (s : State) (c : CoreId) : CoreAcc :=
  let n := tget 0 (s.eng c.eng).ring c.core.val
  if 255 ≤ n then .wait else .done (s.modEng c.eng fun g => { g with ring := tset 0 g.ring c.core.val (n + 1) }) []
/-- A core reads SCR_DB_IN: the oldest doorbell leaves the FIFO; an empty FIFO reads 0. -/
def State.scribeDoorbell (s : State) (c : CoreId) : CoreAcc :=
  match (s.core c).fifo with
  | [] => .word s 0
  | v :: r => .word (s.modCore c fun k => { k with fifo := r, meip := !r.isEmpty }) (2 ^ 16 + v.toNat)

/-! ### Record port (R225) -/

/-- A write of SCR_REC_REQ. RGO captures handle and tile; one request is outstanding at a time. -/
def State.recordRequest (s : State) (c : CoreId) (go : Bool) (handle : BitVec 16) (tile : BitVec 32) : CoreAcc :=
  if go && (s.core c).recBusy then .wait
  else .done (s.modCore c fun k =>
    let k := { k with recHandle := handle, recTile := tile }
    if go then { k with recAsked := (handle, tile), recBusy := true, recErr := false } else k) []
/-- SCR_REC_REQ as read. -/
def Scribe.recWord (k : Scribe) : Nat :=
  (if k.recBusy then 2 ^ 62 else 0) + (if k.recErr then 2 ^ 61 else 0) + k.recHandle.toNat * 2 ^ 32 + k.recTile.toNat
/-- The record of a tile of a sealed tensor of the running context; nothing where the request is refused. -/
def State.recordLoc (s : State) (sheet : Nat) (handle : BitVec 16) (tile : Nat) : Option TileLoc :=
  match s.tensorAt sheet handle with
  | none => none
  | some t => if t.isSealed then t.tileLoc sheet tile else none
/-- An event of a core: privileged in machine mode (17 R452), its sample the core's pc. -/
def State.coreEvent (s : State) (c : CoreId) (ev : CntEvent) : State :=
  s.parcelEvent c.eng { ev with priv := (s.core c).machine } (some c.core.val)
/-- The record arrives as stored, or the request is refused; it waits for a slice of its tile in a refresh stall (08 R253; log 82). -/
def State.recordArrive (s : State) (c : CoreId) (d : Disturb) : State :=
  let k := s.core c
  if !k.recBusy then s
  else match s.recordLoc c.eng.sheet.val k.recAsked.1 k.recAsked.2.toNat with
    | none => s.modCore c fun k => { k with recBusy := false, recErr := true, recWords := List.replicate 32 0 }
    | some l =>
      if (s.tensorAt c.eng.sheet.val k.recAsked.1).any fun t => s.tileStalls t k.recAsked.2.toNat then s else
      let s := s.upset l.sheet d
      let r := (s.sheet l.sheet).mem.record l.sealIx
      s.modCore c fun k => { k with recBusy := false, recErr := false, recWords := r }

/-! ### Stream port (R228, 05 R161) -/

/-- Requests outstanding or unread. -/
def Scribe.outst (k : Scribe) : Nat := k.spReqs.length + k.spOuts.length
/-- A write of SCR_SP_REQ: with seven results outstanding or unread a GO waits. -/
def State.streamGo (s : State) (c : CoreId) (go : Bool) (entry : BitVec 10) : CoreAcc :=
  let k := s.core c
  if !go then .done (s.modCore c fun k => { k with entry := entry }) []
  else if 7 ≤ k.outst then .wait
  else
    .done ((s.modCore c fun k => { k with entry := entry, spReqs := k.spReqs ++ [(entry, k.c0, k.c1)] }).coreEvent c
      { cls := 5, code := 0x1C + c.core.val }) []
/-- The oldest request is answered: G of the entry's key, or 0 with kind 0x522 where the entry is not bound. A mismatch in the
generator raises 0x521 (05 R160). -/
def State.streamResult (s : State) (c : CoreId) (d : Disturb) : State :=
  match (s.core c).spReqs with
  | [] => s
  | (en, c0, c1) :: r =>
    let e := tget {} (s.sheet c.eng.sheet.val).key.tab en.toNat
    let g := if e.valid then laneGen e.k0.toNat e.k1.toNat c0.toNat c1.toNat else 0
    let s := s.modCore c fun k => { k with spReqs := r, spOuts := k.spOuts ++ [BitVec.ofNat 128 g] }
    let s := if d.residue.isSome then s.engFault c.eng 2 6 0x521 0x0C 0 else s
    if e.valid then s else s.unboundStream c.eng 0x0C
/-- A read of OUT0 or OUT1 (`hi`), which takes the oldest result: it waits for one in flight, and faults with nothing outstanding. -/
def State.streamOut (s : State) (c : CoreId) (hi : Bool) : CoreAcc :=
  let k := s.core c
  match k.spOuts with
  | v :: r => if hi then .word (s.modCore c fun k => { k with spOuts := r }) (v.toNat / 2 ^ 64) else .word s (v.toNat % 2 ^ 64)
  | [] => if k.spReqs.isEmpty then .fault 5 else .wait

/-! ### Fault port (R224, R229) -/

/-- The sealed tile of the running plan on a sheet whose bytes hold a device address. -/
def State.tileAtAddr (s : State) (sheet a : Nat) : Option TileLoc :=
  match s.curPlan sheet with
  | none => none
  | some l => l.plan.tensors.findSome? fun t =>
      if !t.isSealed then none
      else t.parts.findSome? fun p =>
        let lo := dramDevAddr sheet p.base
        let i := (a - lo) / t.stride
        if p.sheet.val == sheet && decide (lo ≤ a ∧ i < p.count ∧ (a - lo) % t.stride < tileBytes t.fmt t.mx) then
          some { sheet := sheet, addr := p.base + i * t.stride, sealIx := p.sealBase + i }
        else none
/-- A write of SCR_FLT_CTL. SEND: kinds 0x101 and 0x2F0 to 0x2FF alone; any other is dropped with kind 0x242. A seal mismatch
marks the tile poisoned at the memory path (R224; log 32). SEND waits while the message before is still leaving the core. -/
def State.scribeSend (s : State) (c : CoreId) (go : Bool) (kind : BitVec 12) (sev : BitVec 4) : CoreAcc :=
  if go && (s.core c).fltBusy then .wait
  else
    let s := s.modCore c fun k => { k with fltKind := kind, fltSev := sev }
    let addr := (s.core c).fltAddr
    let n := kind.toNat
    if !go then .done s []
    else if n = 0x101 ∨ 0x2F0 ≤ n ∧ n ≤ 0x2FF then
      let s := (s.scribeFault c kind 0 addr true sev).modCore c fun k => { k with fltBusy := true }
      .done (if n = 0x101 then
        match s.tileAtAddr c.eng.sheet.val addr.toNat with
        | some l => s.poisonMem l.sheet fun m => m.poisonRecord l.sealIx
        | none => s
      else s) []
    else .done (s.scribeFault c 0x242 0 0 false 0) []

/-! ### DRAM windows (R223, R224, R226) -/

/-- HANDLE of a window register. -/
def winHandle (w : Word) : BitVec 16 := BitVec.ofNat 16 (bits w.toNat 63 48)
/-- OFFSET in bytes. -/
def winOffset (w : Word) : Nat := 65536 * bits w.toNat 47 20
/-- A write of SCR_DWIN. One that sets WEN for a sealed tensor is dropped with kind 0x40C (R224). -/
def State.dwinWrite (s : State) (c : CoreId) (w : Nat) (val : Word) : State :=
  let isSealed := match s.tensorAt c.eng.sheet.val (winHandle val) with | some t => t.isSealed | none => false
  if val.getLsbD 0 && isSealed then s.portFault c 0x40C
  else s.modCore c fun k => { k with dwin := tset 0 k.dwin w (val &&& 0xFFFFFFFFFFF00001) }
/-- Where a window access lies: the tensor, and the address on the core's own sheet of `n` bytes (R223). -/
def State.windowAddr (s : State) (c : CoreId) (w a n : Nat) : Option (Tensor × Nat) :=
  let r := tget 0 (s.core c).dwin w
  let sheet := c.eng.sheet.val
  if winHandle r = 0 then none
  else match s.tensorAt sheet (winHandle r) with
    | none => none
    | some t =>
      let b := winOffset r + a
      let stop (p : TensorPart) : Nat := if t.isSealed then (p.first + p.count) * t.stride else p.first * t.stride + t.bytes
      match t.parts.find? fun p => p.sheet.val == sheet && decide (p.first * t.stride ≤ b ∧ b + n ≤ stop p) with
      | none => none
      | some p => some (t, p.base + (b - p.first * t.stride))
/-- Whether a range of a tensor on a sheet holds poison. -/
def State.rangePoison (s : State) (t : Tensor) (sheet a n : Nat) : Bool :=
  let m := (s.sheet sheet).mem
  (pagesOf a n).any m.differs ||
  if t.isSealed then
    t.parts.any fun p =>
      p.sheet.val == sheet && (List.range p.count).any fun i =>
        decide (p.base + i * t.stride < a + n ∧ a < p.base + (i + 1) * t.stride) && recPoison (m.record (p.sealBase + i))
  else (pagesOf a n).any fun g => (m.attr g).1 == 2
/-- A core whose load met poison is tainted for the rest of the step (R226). -/
def State.taintIf (s : State) (c : CoreId) (bad : Bool) : State :=
  if bad then s.modCore c fun k => { k with tainted := true } else s
/-- A load through a window, once no slice of it is stalled (08 R253): no seal check; poison taints the core. -/
def State.windowLoad (s : State) (c : CoreId) (w a n : Nat) (d : Disturb) : CoreAcc :=
  match s.windowAddr c w a n with
  | none => .fault 5
  | some (t, at') =>
    let sheet := c.eng.sheet.val
    if s.stalls sheet at' n then .wait else
    let s := s.upset sheet d
    let bad := s.rangePoison t sheet at' n
    let s := s.lookPages sheet (pagesOf at' n) 0x0A
    let s := s.noteRead sheet t
    let dev := dramDevAddr sheet at'
    let s := s.sheetEvent sheet { cls := 3, code := 0x10, inc := (n + 63) / 64, addr := some dev, priv := (s.core c).machine }
    let s := s.coreEvent c { cls := 5, code := 0x18 + c.core.val, addr := some dev }
    .done (s.taintIf c bad) (mread (s.sheet sheet).mem.dram at' n)
/-- A store through a window: WEN must be 1 and the tensor raw; a tainted core poisons the page. -/
def State.windowStore (s : State) (c : CoreId) (w a : Nat) (b : List Byte) (d : Disturb) : CoreAcc :=
  match s.windowAddr c w a b.length with
  | none => .fault 7
  | some (t, at') =>
    if !(tget 0 (s.core c).dwin w).getLsbD 0 || t.isSealed then .fault 7
    else if s.stalls c.eng.sheet.val at' b.length then .wait
    else
      let sheet := c.eng.sheet.val
      let s := s.upset sheet d
      let r := partRange t sheet at'
      let s := s.noteTensor sheet t.number
      let s := s.sheetEvent sheet
        { cls := 3, code := 0x11, inc := (b.length + 63) / 64, addr := some (dramDevAddr sheet at'), priv := (s.core c).machine }
      .done (s.writeRaw sheet at' b (s.core c).tainted false r.1 r.2 0x0B) []

/-! ### Parcel store and accumulator memory (R218, R226) -/

/-- A load from the parcel store. -/
def State.coreStoreLoad (s : State) (c : CoreId) (a n : Nat) (d : Disturb) : CoreAcc :=
  let s := s.sramRead c.eng d [(a, n)] []
  let bad := s.readPoison c.eng [(a, n)] []
  .done (s.taintIf c bad) (mread (s.pmem c.eng).store a n)
/-- Reservations of the parcel's cores on bytes that a store writes are lost. -/
def Engine.breakResv (g : Engine) (a n : Nat) : Engine :=
  { g with cores := (List.range 4).foldl (fun t i => tmod {} t i fun (k : Scribe) =>
      match k.resv with
      | some r => if r.1 < a + n ∧ a < r.1 + r.2 then { k with resv := none } else k
      | none => k) g.cores }
/-- A store into the parcel store: never into the engine's program region. A tainted core poisons the blocks. -/
def State.coreStoreStore (s : State) (c : CoreId) (a : Nat) (b : List Byte) : CoreAcc :=
  let g := s.eng c.eng
  if a < 64 * g.progUnit + progBytes ∧ 64 * g.progUnit < a + b.length ∧ g.setup.isSome then .fault 7
  else
    let t := (s.core c).tainted
    let s := s.modPmem c.eng fun m => { m with store := mwrite m.store a b }
    .done ((s.modEng c.eng fun g => g.breakResv a b.length).wroteStore c.eng a b.length t) []
/-- Descriptors whose tile meets bytes of accumulator memory. -/
def Engine.tdsMeeting (g : Engine) (a n : Nat) : List Nat :=
  (g.tds.map Prod.fst).filter fun i =>
    let t := g.td i
    t.inAcc && decide (t.accRange.1 < a + n ∧ a < t.accRange.1 + t.accRange.2)
/-- A load from accumulator memory, of any size. -/
def State.coreAccLoad (s : State) (c : CoreId) (a n : Nat) (d : Disturb) : CoreAcc :=
  let s := s.sramRead c.eng d [] [(a, n)]
  let bad := s.readPoison c.eng [] ((s.eng c.eng).tdsMeeting a n)
  .done (s.taintIf c bad) (mread (s.pmem c.eng).acc a n)
/-- A store into accumulator memory: whole aligned 64-bit elements alone (`ew` is the element's size). A tainted core poisons the
tiles it meets (08 R248). -/
def State.coreAccStore (s : State) (c : CoreId) (a ew : Nat) (b : List Byte) : CoreAcc :=
  if ew ≠ 8 ∨ a % 8 ≠ 0 ∨ b.length % 8 ≠ 0 then .fault 7
  else
    let t := (s.core c).tainted
    let s := s.modPmem c.eng fun m => { m with acc := mwrite m.acc a b }
    .done (s.forEach ((s.eng c.eng).tdsMeeting a b.length) fun s i => s.wroteTd c.eng i t) []

/-! ### The register blocks -/

/-- A counter of the core's parcel bank (17 R458): machine mode may read it, user mode while `CTX.CNTRD` of the running context is 1. -/
def State.counterMirror (s : State) (c : CoreId) (i : Nat) : CoreAcc :=
  let h := c.eng.sheet.val
  let may := (s.core c).dataMachine || (match s.curCtx h with | some x => (s.ctx x.val).cntrd | none => false)
  match (s.sheet h).phys c.eng.parcel.val with
  | some p => if may then .word s (tget ({} : Counter) (s.bankOf (.parcel h p)).ctrs i).val.toNat else .fault 5
  | none => .fault 5
/-- A 64-bit load at an offset of the blocks from 0x0200_0000 on. An offset without a register reads 0 (log 83). -/
def State.portRead (s : State) (c : CoreId) (o : Nat) : CoreAcc :=
  let k := s.core c
  if o = 0x0000 then s.scribeDoorbell c
  else if o = 0x0008 then .word s (tget 0 (s.eng c.eng).ring c.core.val).toNat
  else if o = 0x0010 then .word s k.step.toNat
  else if o = 0x1000 then .word s k.c0.toNat
  else if o = 0x1008 then .word s k.c1.toNat
  else if o = 0x1010 then .word s (k.outst * 2 ^ 10 + k.entry.toNat)
  else if o = 0x1018 then s.streamOut c false
  else if o = 0x1020 then s.streamOut c true
  else if 0x0800 ≤ o ∧ o < 0x0880 then s.counterMirror c ((o - 0x0800) / 8)
  else if o < 0x2000 then .word s 0
  else if !k.dataMachine then .fault 5
  else if o = 0x2000 then .word s k.fltAddr.toNat
  else if o = 0x2008 then .word s ((if k.fltBusy then 2 ^ 62 else 0) + k.fltKind.toNat * 2 ^ 16 + k.fltSev.toNat)
  else if 0x3000 ≤ o ∧ o < 0x3080 then .word s (tget 0 k.dwin ((o - 0x3000) / 8)).toNat
  else if o = 0x3080 then .word s k.recWord
  else if 0x3088 ≤ o ∧ o ≤ 0x30A0 then
    if k.recBusy then .wait else .word s (recField k.recWords (o - 0x3088) 8)
  else if o = 0x4000 then .word s (s.now % 2 ^ 64)
  else if o = 0x4008 then .word s k.mtimecmp.toNat
  else .word s 0
/-- Reserved bits of the register at an offset. -/
def scribeReserved (o : Nat) : Nat :=
  if o = 0x0008 then 0x7FFFFFFFFFFFFF00
  else if o = 0x1010 then 0x7FFFFFFFFFFFE000
  else if o = 0x2008 then 0x3FFFFFFFF000FFF0
  else if 0x3000 ≤ o ∧ o < 0x3080 then 0xFFFFE
  else if o = 0x3080 then 0x1FFF000000000000
  else 0
/-- A register's own effect of a 64-bit store; registers that are read-only ignore it. -/
def State.portPut (s : State) (c : CoreId) (o : Nat) (v : Word) : CoreAcc :=
  let n := v.toNat
  if o = 0x0008 then if bit n 63 then s.scribeRing c else .done s []
  else if o = 0x1000 then .done (s.modCore c fun k => { k with c0 := v }) []
  else if o = 0x1008 then .done (s.modCore c fun k => { k with c1 := v }) []
  else if o = 0x1010 then s.streamGo c (bit n 63) (BitVec.ofNat 10 n)
  else if o = 0x2000 then .done (s.modCore c fun k => { k with fltAddr := v }) []
  else if o = 0x2008 then s.scribeSend c (bit n 63) (BitVec.ofNat 12 (bits n 27 16)) (BitVec.ofNat 4 n)
  else if 0x3000 ≤ o ∧ o < 0x3080 then .done (s.dwinWrite c ((o - 0x3000) / 8) v) []
  else if o = 0x3080 then s.recordRequest c (bit n 63) (BitVec.ofNat 16 (bits n 47 32)) (BitVec.ofNat 32 n)
  else if o = 0x4008 then .done (s.modCore c fun k => { k with mtimecmp := v }) []
  else .done s []
/-- A 64-bit store into the blocks. A reserved severity drops the write, and a 1 in a reserved bit is left out of it; each raises
kind 0x406 once the write is taken (00 R10). -/
def State.portWrite (s : State) (c : CoreId) (o : Nat) (v : Word) : CoreAcc :=
  if 0x2000 ≤ o ∧ !(s.core c).dataMachine then .fault 7
  else if o = 0x2008 ∧ 8 ≤ v.toNat % 16 then .done (s.portFault c 0x406) []
  else
    let rv := scribeReserved o
    match s.portPut c o (v &&& ~~~(BitVec.ofNat 64 rv)) with
    | .done t b => .done (if v.toNat &&& rv = 0 then t else t.portFault c 0x406) b
    | r => r

/-! ### The address map (R217) -/

/-- Where window 0 starts in the map. -/
def winBase : Nat := 0x1000000000
/-- A load of `n` bytes in elements of `ew`. Outside the parcel store an element must be aligned; a load that no region holds, or that
PMP refuses, raises a load access fault (5). -/
def State.coreLoad (s : State) (c : CoreId) (a n ew : Nat) (d : Disturb) : CoreAcc :=
  if !(s.core c).pmpOk 0 a n then .fault 5
  else if a + n ≤ storeBytes then s.coreStoreLoad c a n d
  else if 0x1000000 ≤ a ∧ a + n ≤ 0x1200000 then
    if a % ew ≠ 0 then .fault 4 else s.coreAccLoad c (a - 0x1000000) n d
  else if 0x2000000 ≤ a ∧ a + n ≤ 0x2005000 then
    if n = 8 ∧ ew = 8 ∧ a % 8 = 0 then s.portRead c (a - 0x2000000) else .fault 5
  else if winBase ≤ a ∧ a + n ≤ winBase + 0x100000000 ∧ (a - winBase) % 0x10000000 + n ≤ 0x10000000 then
    if a % ew ≠ 0 then .fault 4 else s.windowLoad c ((a - winBase) / 0x10000000) ((a - winBase) % 0x10000000) n d
  else .fault 5
/-- A store; what refuses it raises a store access fault (7). -/
def State.coreStore (s : State) (c : CoreId) (a ew : Nat) (b : List Byte) (d : Disturb) : CoreAcc :=
  let n := b.length
  if !(s.core c).pmpOk 1 a n then .fault 7
  else if a + n ≤ storeBytes then s.coreStoreStore c a b
  else if 0x1000000 ≤ a ∧ a + n ≤ 0x1200000 then s.coreAccStore c (a - 0x1000000) ew b
  else if 0x2000000 ≤ a ∧ a + n ≤ 0x2005000 then
    if n = 8 ∧ ew = 8 ∧ a % 8 = 0 then s.portWrite c (a - 0x2000000) (BitVec.ofNat 64 (leNat b)) else .fault 7
  else if winBase ≤ a ∧ a + n ≤ winBase + 0x100000000 ∧ (a - winBase) % 0x10000000 + n ≤ 0x10000000 then
    if a % ew ≠ 0 then .fault 6 else s.windowStore c ((a - winBase) / 0x10000000) ((a - winBase) % 0x10000000) b d
  else .fault 7

/-! ### Exceptions (R230) -/

/-- The core halts in machine mode, with kind 0x242, once it has trapped (R230). -/
def State.scribeHalt (s : State) (c : CoreId) (cause tval : Nat) : State :=
  (s.scribeFault c 0x242 0 0 false 0).modCore c fun k => { k.trap false cause tval with halted := true }
/-- Exceptions that the runtime does not return from: an illegal instruction, an access fault, and a misaligned access outside the
parcel store (R230). -/
def fatalCause (cause : Nat) (inStore : Bool) : Bool :=
  cause == 1 || cause == 2 || cause == 5 || cause == 7 || ((cause == 4 || cause == 6) && !inStore)
/-- An exception of a core: the trap, or the halt. -/
def State.coreException (s : State) (c : CoreId) (cause tval : Nat) : State :=
  if fatalCause cause (decide (tval < storeBytes)) then s.scribeHalt c cause tval
  else s.modCore c fun k => k.trap false cause tval

end Sys2Proof.Machine
end

