-- ==== Sys2Proof/Machine/ScribeCode.lean ====
section
/-! DEFINITION. The instructions of a scribe core (07 R215, R216, R218): RV64IMA and Zicsr by their own rules, loads and stores of
every register file through the map of R217, floating-point and vector results as operands (log 83). -/

namespace Sys2Proof.Machine

/-! ### Integer operations -/

/-- An integer operation at a register width. -/
def aluN {n : Nat} (op : AluOp) (a b : BitVec n) : BitVec n :=
  let sh := b.toNat % n
  match op with
  | .add => a + b
  | .sub => a - b
  | .sll => a <<< sh
  | .slt => if a.toInt < b.toInt then 1 else 0
  | .sltu => if a.toNat < b.toNat then 1 else 0
  | .xor => a ^^^ b
  | .srl => a >>> sh
  | .sra => a.sshiftRight sh
  | .or => a ||| b
  | .and => a &&& b
  | .mul => a * b
  | .mulh => BitVec.ofInt n ((a.toInt * b.toInt).fdiv (2 ^ n))
  | .mulhsu => BitVec.ofInt n ((a.toInt * b.toNat).fdiv (2 ^ n))
  | .mulhu => BitVec.ofNat n (a.toNat * b.toNat / 2 ^ n)
  | .div => if b.toNat = 0 then BitVec.ofInt n (-1) else BitVec.ofInt n (a.toInt.tdiv b.toInt)
  | .divu => if b.toNat = 0 then BitVec.ofInt n (-1) else BitVec.ofNat n (a.toNat / b.toNat)
  | .rem => if b.toNat = 0 then a else BitVec.ofInt n (a.toInt.tmod b.toInt)
  | .remu => if b.toNat = 0 then a else BitVec.ofNat n (a.toNat % b.toNat)
/-- Operations that have a 32-bit form. -/
def hasWordForm (op : AluOp) : Bool := match op with
  | .add | .sub | .sll | .srl | .sra | .mul | .div | .divu | .rem | .remu => true
  | _ => false
/-- An integer operation of a core: the 32-bit form works on the low halves, and its result is sign-extended. -/
def alu (op : AluOp) (w : Bool) (a b : Word) : Word :=
  if w then (aluN op (a.setWidth 32) (b.setWidth 32)).signExtend 64 else aluN op a b
/-- Whether a branch is taken. -/
def branchTaken (c : BranchCond) (a b : Word) : Bool := match c with
  | .eq => a == b
  | .ne => a != b
  | .lt => decide (a.toInt < b.toInt)
  | .ge => decide (b.toInt ≤ a.toInt)
  | .ltu => decide (a.toNat < b.toNat)
  | .geu => decide (b.toNat ≤ a.toNat)
/-- What an atomic operation stores. -/
def amoValue {n : Nat} (op : AmoKind) (old v : BitVec n) : BitVec n := match op with
  | .swap => v
  | .add => old + v
  | .xor => old ^^^ v
  | .and => old &&& v
  | .or => old ||| v
  | .min => if old.toInt ≤ v.toInt then old else v
  | .max => if old.toInt ≤ v.toInt then v else old
  | .minu => if old.toNat ≤ v.toNat then old else v
  | .maxu => if old.toNat ≤ v.toNat then v else old

/-! ### One instruction -/

/-- How an instruction ends: as an access does, an exception with its trap value. -/
inductive CoreEnd where
  | done (s : State)
  | wait
  | fault (cause tval : Nat)

/-- Write a register of a core; a vector or floating-point result makes its unit's state dirty. -/
def Scribe.setReg (k : Scribe) (r : CoreReg) (v : Nat) : Scribe := match r with
  | .x n => k.setX n (BitVec.ofNat 64 v)
  | .f n => { k.setCsr 0x300 (k.csr 0x300 ||| 0x6000) with fregs := tset 0 k.fregs n.val (BitVec.ofNat 64 v) }
  | .v n => { k.setCsr 0x300 (k.csr 0x300 ||| 0x600) with vregs := tset 0 k.vregs n.val (BitVec.ofNat 512 v) }
/-- Whether a register's unit is switched on. -/
def Scribe.regOn (k : Scribe) (r : CoreReg) : Bool := match r with
  | .x _ => true
  | .f _ => k.unitOn true
  | .v _ => k.unitOn false
/-- A register as a store sends it. -/
def Scribe.regNat (k : Scribe) (r : CoreReg) : Nat := match r with
  | .x n => (k.xreg n).toNat
  | .f n => (tget 0 k.fregs n.val).toNat
  | .v n => (tget 0 k.vregs n.val).toNat
/-- A loaded value as its register holds it: an integer extended, a single-precision value boxed. -/
def loadValue (r : CoreReg) (n : Nat) (signed : Bool) (b : List Byte) : Nat := match r with
  | .x _ => if signed then (BitVec.ofInt 64 (sext (8 * n) (leNat b))).toNat else leNat b
  | .f _ => if n = 4 then leNat b + 0xFFFFFFFF * 2 ^ 32 else leNat b
  | .v _ => leNat b
/-- Bytes in order put into consecutive vector registers, 64 to each. -/
def Scribe.setVecs (k : Scribe) (vd : Nat) (b : List Byte) : Scribe :=
  (List.range ((b.length + 63) / 64)).foldl (fun k i =>
    let old := leBytes 64 (tget (0 : BitVec 512) k.vregs ((vd + i) % 32)).toNat
    let new := (b.drop (64 * i)).take 64
    k.setReg (.v (Fin.ofNat 32 (vd + i))) (leNat (new ++ old.drop new.length))) k
/-- Bytes of consecutive vector registers. -/
def Scribe.vecBytes (k : Scribe) (vs n : Nat) : List Byte :=
  ((List.range ((n + 63) / 64)).flatMap fun i => leBytes 64 (tget (0 : BitVec 512) k.vregs ((vs + i) % 32)).toNat).take n
/-- The next instruction. -/
def Scribe.next (k : Scribe) (len : Nat) : Scribe := { k with pc := k.pc + BitVec.ofNat 64 len }
/-- A load into registers. -/
def State.coreLoadReg (s : State) (c : CoreId) (a n ew : Nat) (d : Disturb) (put : Scribe → List Byte → Scribe) : CoreEnd :=
  match s.coreLoad c a n ew d with
  | .done t b => .done (t.modCore c fun k => put k b)
  | .wait => .wait
  | .fault cause => .fault cause a
/-- A store, and the next instruction. -/
def State.coreStoreReg (s : State) (c : CoreId) (a ew : Nat) (b : List Byte) (d : Disturb) (len : Nat) : CoreEnd :=
  match s.coreStore c a ew b d with
  | .done t _ => .done (t.modCore c fun k => k.next len)
  | .wait => .wait
  | .fault cause => .fault cause a
/-- An atomic access of a core: allowed in the parcel store alone (R218), aligned. -/
def atomicFault (a n : Nat) (load : Bool) : Option Nat :=
  if storeBytes < a + n then some (if load then 5 else 7) else if a % n ≠ 0 then some (if load then 4 else 6) else none
/-- An atomic memory operation. -/
def State.coreAmo (s : State) (c : CoreId) (op : AmoKind) (rd : Fin 32) (a v n len : Nat) (d : Disturb) : CoreEnd :=
  match atomicFault a n false with
  | some cause => .fault cause a
  | none => match s.coreLoad c a n n d with
    | .wait => .wait
    | .fault _ => .fault 7 a
    | .done t b =>
      let new := if n = 4 then (amoValue op (BitVec.ofNat 32 (leNat b)) (BitVec.ofNat 32 v)).toNat
        else (amoValue op (BitVec.ofNat 64 (leNat b)) (BitVec.ofNat 64 v)).toNat
      match t.coreStore c a n (leBytes n new) {} with
      | .done t _ => .done (t.modCore c fun k => (k.setReg (.x rd) (loadValue (.x rd) n true b)).next len)
      | .wait => .wait
      | .fault cause => .fault cause a
/-- SC: it stores where the core's reservation still covers the bytes, and gives up the reservation. -/
def State.coreSc (s : State) (c : CoreId) (rd : Fin 32) (a v n len : Nat) : CoreEnd :=
  match atomicFault a n false with
  | some cause => .fault cause a
  | none =>
    let held := (s.core c).resv == some (a, n)
    let s := s.modCore c fun k => { k with resv := none }
    if !held then .done (s.modCore c fun k => (k.setX rd 1).next len)
    else match s.coreStore c a n (leBytes n v) {} with
      | .done t _ => .done (t.modCore c fun k => (k.setX rd 0).next len)
      | .wait => .wait
      | .fault cause => .fault cause a
/-- A CSR instruction: a clock that is read takes a free count. -/
def State.coreCsr (s : State) (c : CoreId) (op : CsrKind) (rd : Fin 32) (num : Nat) (src : Nat) (writes : Bool) (len : Nat) : CoreEnd :=
  let hart := 4 * c.eng.parcel.val + c.core.val
  let k := s.core c
  match k.csrRead hart s.now (Config.freeValue s.free) num with
  | none => .fault 2 0
  | some old =>
    let s := if clockCsr num then { s with free := s.free + 1 } else s
    let new := match op with
      | .write => src
      | .set => old ||| src
      | .clear => old - (old &&& src)
    match if writes then k.csrWrite num new else some k with
    | none => .fault 2 0
    | some k' => .done (s.modCore c fun _ => (k'.setX rd (BitVec.ofNat 64 old)).next len)
/-- An element that scribe code forms from the stream of a descriptor's tensor (05 R162-R166): purpose 3 for dropout, 4 for initial
values. An identifier that is not bound reads 0 at the port, and raises 0x522. CLAMP and the rounding's flags go to the descriptor. -/
def State.coreElement (s : State) (c : CoreId) (rd : Fin 32) (k : InitKind) (x draw td : Nat) (f : BitVec 4) (len : Nat) : CoreEnd :=
  let purpose : BitVec 4 := match k with | .dropout _ _ => 3 | _ => 4
  let key := s.streamOn c.eng.sheet.val { purpose := purpose, slot := 0, tensor := ((s.eng c.eng).td td).tensor }
  let step := (s.core c).step.toNat
  let g (dr : Nat) : Nat := match key with
    | some y => laneAt y.1 y.2 step (initElement k x) dr
    | none => 0
  let v := initValue k x draw g
  let r := roundDyTo f 1 0 v.1.1 v.1.2
  let s := if key.isSome then s else s.unboundStream c.eng 0x0C
  let s := s.modEng c.eng fun e => e.modTd td fun t => t.collect (r.2.1 ||| flagIf v.2 fCLAMP) 0
  .done (s.modCore c fun k => (k.setX rd (BitVec.ofNat 64 r.1)).next len)

/-- The effect of an instruction. -/
def State.coreExec (s : State) (c : CoreId) (i : CoreInstr) (d : Disturb) : CoreEnd :=
  let len := if i.half then 2 else 4
  let k := s.core c
  let put (f : Scribe → Scribe) : CoreEnd := .done (s.modCore c f)
  let addr (r : Fin 32) (off : Word) : Nat := (k.xreg r + off).toNat
  let jump (rd : Fin 32) (to' : Word) : CoreEnd := put fun k => { k.setX rd (k.pc + BitVec.ofNat 64 len) with pc := to' }
  match i.op with
  | .int op w rd a b => if w && !hasWordForm op then .fault 2 0 else put fun k => (k.setX rd (alu op w (k.xreg a) (k.xreg b))).next len
  | .intImm op w rd a imm => if w && !hasWordForm op then .fault 2 0 else put fun k => (k.setX rd (alu op w (k.xreg a) imm)).next len
  | .lui rd imm => put fun k => (k.setX rd imm).next len
  | .auipc rd imm => put fun k => (k.setX rd (k.pc + imm)).next len
  | .jal rd off => jump rd (k.pc + off)
  | .jalr rd a off => jump rd ((k.xreg a + off) &&& ~~~1)
  | .branch cnd a b off => put fun k => if branchTaken cnd (k.xreg a) (k.xreg b) then { k with pc := k.pc + off } else k.next len
  | .load rd a off n sg =>
    if !k.regOn rd then .fault 2 0
    else s.coreLoadReg c (addr a off) n n d fun k b => (k.setReg rd (loadValue rd n sg b)).next len
  | .store r a off n =>
    if !k.regOn r then .fault 2 0 else s.coreStoreReg c (addr a off) n (leBytes n (k.regNat r)) d len
  | .vload vd a n ew =>
    if !k.unitOn false then .fault 2 0
    else s.coreLoadReg c (addr a 0) n ew d fun k b => (k.setVecs vd.val b).next len
  | .vstore vs a n ew =>
    if !k.unitOn false then .fault 2 0 else s.coreStoreReg c (addr a 0) ew (k.vecBytes vs.val n) d len
  | .lr rd a dbl =>
    let n := if dbl then 8 else 4
    let x := addr a 0
    match atomicFault x n true with
    | some cause => .fault cause x
    | none => s.coreLoadReg c x n n d fun k b => { (k.setReg (.x rd) (loadValue (.x rd) n true b)).next len with resv := some (x, n) }
  | .sc rd a b dbl => s.coreSc c rd (addr a 0) (k.xreg b).toNat (if dbl then 8 else 4) len
  | .amo op rd a b dbl => s.coreAmo c op rd (addr a 0) (k.xreg b).toNat (if dbl then 8 else 4) len d
  | .csr op rd num imm src =>
    let v := if imm then src.val else (k.xreg src).toNat
    s.coreCsr c op rd num.toNat v (decide (op = .write) || src.val != 0) len
  | .vset rd vl vt =>
    if !k.unitOn false then .fault 2 0
    else put fun k => (((k.setCsr 0xC20 vl.toNat).setCsr 0xC21 vt.toNat).setX rd vl).next len
  | .fence => put fun k => k.next len
  | .ecall => .fault (if k.machine then 11 else 8) 0
  | .ebreak => .fault 3 k.pc.toNat
  | .mret => if k.machine then put Scribe.mret else .fault 2 0
  | .wfi => if !k.machine && bit (k.csr 0x300) 21 then .fault 2 0 else put fun k => { k.next len with wfi := true }
  | .illegal => .fault 2 0
  | .result r v fl =>
    if !k.regOn r then .fault 2 0
    else put fun k => ((if fl = 0 then k else k.setCsr 3 (k.csr 3 ||| fl.toNat)).setReg r v.toNat).next len
  | .element rd kd x draw td f => s.coreElement c rd kd x draw td.val f len

/-! ### Running code -/

/-- A core meets its interrupts. -/
def State.pollCore (s : State) (c : CoreId) : State :=
  let now := s.now
  s.modCore c fun k => k.poll now
/-- An instruction of a core has retired (17 R453). -/
def State.retired (s : State) (c : CoreId) : State := s.coreEvent c { cls := 5, code := 0x10 + c.core.val }
/-- Whether a core executes: it runs and does not wait in WFI. -/
def State.coreRuns (s : State) (c : CoreId) : Bool := s.coreLive c && !(s.core c).wfi
/-- One instruction of a core that runs, and whether the core goes on: one that waits leaves no trace. -/
def State.coreInstr (s : State) (c : CoreId) (i : CoreInstr) (d : Disturb) : State × Bool :=
  if !s.coreLive c then (s, false)
  else
    let s := s.pollCore c
    if (s.core c).wfi then (s, false)
    else match s.coreExec c i d with
      | .done t => (t.retired c, true)
      | .wait => (s, false)
      | .fault cause tval => (s.coreException c cause tval, true)
/-- Instructions of a core in turn; `true`: the core came to the end of them and runs on. -/
def State.runCode (s : State) (c : CoreId) (d : Disturb) : List CoreInstr → State × Bool
  | [] =>
    if !s.coreLive c then (s, false)
    else
      let s := s.pollCore c
      (s, s.coreRuns c)
  | i :: r =>
    let x := s.coreInstr c i d
    if x.2 then x.1.runCode c {} r else (x.1, false)

/-! ### The accesses of the rows -/

/-- What an access of a core leaves: a load returns its bytes; one that waits leaves no trace; an exception is taken. -/
def State.endAccess (s : State) (c : CoreId) (load : Bool) (a : Nat) (r : CoreAcc) : State := match r with
  | .done t b => (if load then t.scribeData c b else t).retired c
  | .wait => s
  | .fault cause => s.coreException c cause a
/-- A core runs its code and then loads. -/
def State.rowLoad (s : State) (w : CoreWork) (a n ew : Nat) (d : Disturb) : State :=
  let x := s.runCode w.core w.d w.code
  if x.2 then x.1.endAccess w.core true a (x.1.coreLoad w.core a n ew d) else x.1
/-- A core runs its code and then stores. -/
def State.rowStore (s : State) (w : CoreWork) (a ew : Nat) (b : List Byte) (d : Disturb) : State :=
  let x := s.runCode w.core w.d w.code
  if x.2 then x.1.endAccess w.core false a (x.1.coreStore w.core a ew b d) else x.1
/-- Stores of register words of the blocks from 0x0200_0000 on, each at an offset, one after the other: the first that waits or
raises an exception is the last. -/
def State.storePorts (s : State) (c : CoreId) : List (Nat × Nat) → State
  | [] => s
  | (o, v) :: r => match s.coreStore c (0x2000000 + o) 8 (leBytes 8 v) {} with
    | .done t _ => (t.retired c).storePorts c r
    | .wait => s
    | .fault cause => s.coreException c cause (0x2000000 + o)
/-- A core runs its code and then stores register words. -/
def State.rowPorts (s : State) (w : CoreWork) (l : List (Nat × Nat)) : State :=
  let x := s.runCode w.core w.d w.code
  if x.2 then x.1.storePorts w.core l else x.1

end Sys2Proof.Machine
end

