-- ==== Sys2Proof/Machine/ScribePorts.lean ====
section
/-! DEFINITION. The rows of the scribe cores (07): a core runs its code, and then makes the access of the row. A core that is halted,
in reset, out of service or in WFI makes none. -/

namespace Sys2Proof.Machine

/-- SCR_RING_WRITE (07 R219): a store of SCR.RING. -/
def execScrRingWrite (c : CoreWork) (s : State) : Res := .next (s.rowPorts c [(0x0008, 2 ^ 63)])
/-- SCR_DB_IN_READ (07 R221). -/
def execScrDbInRead (c : CoreWork) (s : State) : Res := .next (s.rowLoad c 0x2000000 8 8 {})
/-- SCR_REC_REQUEST (07 R225): a store of SCR.RGO. -/
def execScrRecRequest (c : CoreWork) (handle : BitVec 16) (tile : BitVec 32) (s : State) : Res :=
  .next (s.rowPorts c [(0x3080, 2 ^ 63 + handle.toNat * 2 ^ 32 + tile.toNat)])
/-- SCR_RECORD_ARRIVE (07 R225): the memory path answers; the core's code runs beside it. -/
def execScrRecordArrive (c : CoreWork) (d : Disturb) (s : State) : Res :=
  .next ((s.runCode c.core c.d c.code).1.recordArrive c.core d)
/-- SCR_STREAM_GO (07 R228): stores of C0 and C1, then of SCR.GO. -/
def execScrStreamGo (c : CoreWork) (entry : BitVec 10) (c0 c1 : Word) (s : State) : Res :=
  .next (s.rowPorts c [(0x1000, c0.toNat), (0x1008, c1.toNat), (0x1010, 2 ^ 63 + entry.toNat)])
/-- SCR_STREAM_RESULT (07 R228, 05 R160, R161): the port answers; the core's code runs beside it, and `c.d` says that the generator's
own check fired. -/
def execScrStreamResult (c : CoreWork) (s : State) : Res :=
  .next ((s.runCode c.core { c.d with residue := none } c.code).1.streamResult c.core c.d)
/-- SCR_OUT1_READ (07 R228). -/
def execScrOut1Read (c : CoreWork) (s : State) : Res := .next (s.rowLoad c 0x2001020 8 8 {})
/-- SCR_FAULT_SEND (07 R229): a store of SCR.FADDR, then of SCR.SEND. -/
def execScrFaultSend (c : CoreWork) (addr : Word) (kind : BitVec 12) (sev : BitVec 4) (s : State) : Res :=
  .next (s.rowPorts c [(0x2000, addr.toNat), (0x2008, 2 ^ 63 + kind.toNat * 2 ^ 16 + sev.toNat)])
/-- SCR_DWIN_WRITE (07 R224). -/
def execScrDwinWrite (c : CoreWork) (w : Fin 16) (val : Word) (s : State) : Res :=
  .next (s.rowPorts c [(0x3000 + 8 * w.val, val.toNat)])
/-- SCRIBE_WINDOW_LOAD (07 R223). -/
def execScribeWindowLoad (c : CoreWork) (w : Fin 16) (addr : BitVec 28) (len : Nat) (d : Disturb) (s : State) : Res :=
  .next (s.rowLoad c (winBase + w.val * 0x10000000 + addr.toNat) len 1 d)
/-- SCRIBE_WINDOW_STORE (07 R224). -/
def execScribeWindowStore (c : CoreWork) (w : Fin 16) (addr : BitVec 28) (bytes : List Byte) (d : Disturb) (s : State) : Res :=
  .next (s.rowStore c (winBase + w.val * 0x10000000 + addr.toNat) 1 bytes d)
/-- SCRIBE_EXCEPTION (07 R230): an exception that the runtime cannot return from. -/
def execScribeException (c : CoreWork) (cause : Word) (s : State) : Res :=
  let x := s.runCode c.core c.d c.code
  .next (if x.2 then x.1.scribeHalt c.core cause.toNat 0 else x.1)
/-- SCRIBE_PARITY_ERROR (07 R230). -/
def execScribeParityError (c : CoreWork) (s : State) : Res :=
  let x := s.runCode c.core c.d c.code
  .next (if x.1.coreLive c.core then x.1.scribeFault c.core 0x241 0 0 false 0 else x.1)

end Sys2Proof.Machine
end

