-- ==== Sys2Proof/Machine/Steps.lean ====
section
/-! DEFINITION. The rows of step control (01, 09, 13). -/

namespace Sys2Proof.Machine

/-- STEP_PROGRAM (01 R34, 05 R155, 06 R180): `keyBad` names the keys whose two derivations differ, and errors of staging. -/
def execStepProgram (p : PartId) (prog : Nat) (keyBad : ProgUpset) (s : State) : Res := .next (s.doStepProgram p.val prog keyBad)
/-- STEP_PROGRAM_TIMEOUT (14 R395): kind 0x730 from the plan sequencer of a sheet whose partition has a step to program. -/
def execStepProgramTimeout (sh : SheetId) (s : State) : Res :=
  .next (match s.partOf sh.val with
    | none => s
    | some p =>
      if (s.part p).runs.isEmpty then s
      else s.sheetFault sh.val 0 0x730 0 0)
/-- START_OF_STEP_BARRIER (03 R501, 01 R31, 07 R222, 14 R387). -/
def execStartOfStepBarrier (p : PartId) (s : State) : Res := .next (s.doStartStep p.val)
/-- END_OF_STEP_BARRIER (01 R36): `journalBad` names engines whose journal fails its check, `histBad` a failed history write. -/
def execEndOfStepBarrier (p : PartId) (journalBad : List EngId) (histBad : Bool) (s : State) : Res :=
  .next (s.doEndStep p.val journalBad histBad)
/-- STEP_REPEAT (13 R380). -/
def execStepRepeat (w : RepeatWork) (s : State) : Res := .next (s.doRepeat w.part.val w.upset)
/-- PARCEL_MAP_CHANGE (01 R21). -/
def execParcelMapChange (sh : SheetId) (s : State) : Res := .next (s.doMapChange sh.val)
/-- RUN_DISPATCH (05 R168, 12 R358). -/
def execRunDispatch (q : QueueId) (arg : HostRead) (s : State) : Res := .next (s.doDispatch q.val arg)

end Sys2Proof.Machine
end

