-- ==== Sys2Proof/Machine/Dispatch.lean ====
section
/-! DEFINITION. One arm for each command: one direct call of its meaning. -/

namespace Sys2Proof.Machine
open Sys2Proof

def exec (i : Instr) (s : State) : Host.Outcome State Fault Refusal :=
  match i with
  | .instructionDecode e => Sys2Proof.Machine.execInstructionDecode e s
  | .tileLoad e o d => Sys2Proof.Machine.execTileLoad e o d s
  | .tileStore e o d => Sys2Proof.Machine.execTileStore e o d s
  | .accStore e o d => Sys2Proof.Machine.execAccStore e o d s
  | .accLoad e o d => Sys2Proof.Machine.execAccLoad e o d s
  | .psToAcc e o d => Sys2Proof.Machine.execPsToAcc e o d s
  | .accToPs e o d => Sys2Proof.Machine.execAccToPs e o d s
  | .tileSend e o d => Sys2Proof.Machine.execTileSend e o d s
  | .tileRecv e o d => Sys2Proof.Machine.execTileRecv e o d s
  | .tileAddMem e o d => Sys2Proof.Machine.execTileAddMem e o d s
  | .sliceAdd sh d => Sys2Proof.Machine.execSliceAdd sh d s
  | .tableLoad e o d => Sys2Proof.Machine.execTableLoad e o d s
  | .mma e o d => Sys2Proof.Machine.execMma e o d s
  | .arithmeticCheckVerdict e => Sys2Proof.Machine.execArithmeticCheckVerdict e s
  | .rowChain e o d => Sys2Proof.Machine.execRowChain e o d s
  | .redSum e o d => Sys2Proof.Machine.execRedSum e o d s
  | .redMoments e o d => Sys2Proof.Machine.execRedMoments e o d s
  | .redFinish e o d => Sys2Proof.Machine.execRedFinish e o d s
  | .convert e o d => Sys2Proof.Machine.execConvert e o d s
  | .rewindow e o d => Sys2Proof.Machine.execRewindow e o d s
  | .smpMax e o d => Sys2Proof.Machine.execSmpMax e o d s
  | .smpWeigh e o d => Sys2Proof.Machine.execSmpWeigh e o d s
  | .smpCut e o d => Sys2Proof.Machine.execSmpCut e o d s
  | .smpDraw e o d => Sys2Proof.Machine.execSmpDraw e o d s
  | .hubReduction sh slot d => Sys2Proof.Machine.execHubReduction sh slot d s
  | .smpBernoulli e o d => Sys2Proof.Machine.execSmpBernoulli e o d s
  | .smpHeatbath e o d => Sys2Proof.Machine.execSmpHeatbath e o d s
  | .smpMetropolis e o d => Sys2Proof.Machine.execSmpMetropolis e o d s
  | .cplFields e o d => Sys2Proof.Machine.execCplFields e o d s
  | .cplPropose e o d => Sys2Proof.Machine.execCplPropose e o d s
  | .cplSettle e o d => Sys2Proof.Machine.execCplSettle e o d s
  | .cplApply e o d => Sys2Proof.Machine.execCplApply e o d s
  | .cplGroup e o d => Sys2Proof.Machine.execCplGroup e o d s
  | .cplEnergy e o d => Sys2Proof.Machine.execCplEnergy e o d s
  | .hubEnergyCombine sh slot => Sys2Proof.Machine.execHubEnergyCombine sh slot s
  | .sweepEnd sh slot d => Sys2Proof.Machine.execSweepEnd sh slot d s
  | .cplExchange e o d => Sys2Proof.Machine.execCplExchange e o d s
  | .hubExchangeDecide sh slot d => Sys2Proof.Machine.execHubExchangeDecide sh slot d s
  | .nop e => Sys2Proof.Machine.execNop e s
  | .flagSet e flag => Sys2Proof.Machine.execFlagSet e flag s
  | .flagClear e flag => Sys2Proof.Machine.execFlagClear e flag s
  | .flagWait e flag => Sys2Proof.Machine.execFlagWait e flag s
  | .flagWaitRelease e flag => Sys2Proof.Machine.execFlagWaitRelease e flag s
  | .scribeRing e core value => Sys2Proof.Machine.execScribeRing e core value s
  | .scribeWait e core => Sys2Proof.Machine.execScribeWait e core s
  | .scribeWaitDoorbell e core => Sys2Proof.Machine.execScribeWaitDoorbell e core s
  | .unitDrain e => Sys2Proof.Machine.execUnitDrain e s
  | .stepEnd e => Sys2Proof.Machine.execStepEnd e s
  | .loopBegin e count => Sys2Proof.Machine.execLoopBegin e count s
  | .loopEnd e => Sys2Proof.Machine.execLoopEnd e s
  | .branch e p offs => Sys2Proof.Machine.execBranch e p offs s
  | .agSet e ag g => Sys2Proof.Machine.execAgSet e ag g s
  | .eflagFromTd e td ef mask => Sys2Proof.Machine.execEflagFromTd e td ef mask s
  | .eflagSet e ef val => Sys2Proof.Machine.execEflagSet e ef val s
  | .stepProgram p prog keyBad => Sys2Proof.Machine.execStepProgram p prog keyBad s
  | .stepProgramTimeout sh => Sys2Proof.Machine.execStepProgramTimeout sh s
  | .startOfStepBarrier p => Sys2Proof.Machine.execStartOfStepBarrier p s
  | .endOfStepBarrier p journalBad histBad => Sys2Proof.Machine.execEndOfStepBarrier p journalBad histBad s
  | .stepRepeat p => Sys2Proof.Machine.execStepRepeat p s
  | .parcelMapChange sh => Sys2Proof.Machine.execParcelMapChange sh s
  | .runDispatch q arg => Sys2Proof.Machine.execRunDispatch q arg s
  | .scrRingWrite c => Sys2Proof.Machine.execScrRingWrite c s
  | .scrDbInRead c => Sys2Proof.Machine.execScrDbInRead c s
  | .scrRecRequest c handle tile => Sys2Proof.Machine.execScrRecRequest c handle tile s
  | .scrRecordArrive c d => Sys2Proof.Machine.execScrRecordArrive c d s
  | .scrStreamGo c entry c0 c1 => Sys2Proof.Machine.execScrStreamGo c entry c0 c1 s
  | .scrStreamResult c => Sys2Proof.Machine.execScrStreamResult c s
  | .scrOut1Read c => Sys2Proof.Machine.execScrOut1Read c s
  | .scrFaultSend c addr kind sev => Sys2Proof.Machine.execScrFaultSend c addr kind sev s
  | .scrDwinWrite c w val => Sys2Proof.Machine.execScrDwinWrite c w val s
  | .scribeWindowLoad c w addr len d => Sys2Proof.Machine.execScribeWindowLoad c w addr len d s
  | .scribeWindowStore c w addr bytes d => Sys2Proof.Machine.execScribeWindowStore c w addr bytes d s
  | .scribeException c cause => Sys2Proof.Machine.execScribeException c cause s
  | .scribeParityError c => Sys2Proof.Machine.execScribeParityError c s
  | .refreshStallStart sh slice => Sys2Proof.Machine.execRefreshStallStart sh slice s
  | .refreshStallEnd sh slice => Sys2Proof.Machine.execRefreshStallEnd sh slice s
  | .win4Access offset wr len d => Sys2Proof.Machine.execWin4Access offset wr len d s
  | .win0AccessRefused a => Sys2Proof.Machine.execWin0AccessRefused a s
  | .registerWrite offset val => Sys2Proof.Machine.execRegisterWrite offset val s
  | .sqTailDoorbell func q val => Sys2Proof.Machine.execSqTailDoorbell func q val s
  | .cqHeadDoorbell func q val => Sys2Proof.Machine.execCqHeadDoorbell func q val s
  | .descriptorFetch q data => Sys2Proof.Machine.execDescriptorFetch q data s
  | .descriptorArrive q => Sys2Proof.Machine.execDescriptorArrive q s
  | .loadPlan q img d => Sys2Proof.Machine.execLoadPlan q img d s
  | .run q => Sys2Proof.Machine.execRun q s
  | .copy q blk data d => Sys2Proof.Machine.execCopy q blk data d s
  | .seed q bytes => Sys2Proof.Machine.execSeed q bytes s
  | .fence q => Sys2Proof.Machine.execFence q s
  | .fenceComplete q => Sys2Proof.Machine.execFenceComplete q s
  | .checkpoint q d => Sys2Proof.Machine.execCheckpoint q d s
  | .restore q img d => Sys2Proof.Machine.execRestore q img d s
  | .snapshot q => Sys2Proof.Machine.execSnapshot q s
  | .query q => Sys2Proof.Machine.execQuery q s
  | .sealManifest q => Sys2Proof.Machine.execSealManifest q s
  | .teardown q => Sys2Proof.Machine.execTeardown q s
  | .deviceSeedServe q => Sys2Proof.Machine.execDeviceSeedServe q s
  | .completionWrite q ok => Sys2Proof.Machine.execCompletionWrite q ok s
  | .qEnable q => Sys2Proof.Machine.execQEnable q s
  | .qDisable q => Sys2Proof.Machine.execQDisable q s
  | .qClear q => Sys2Proof.Machine.execQClear q s
  | .queueDrained q => Sys2Proof.Machine.execQueueDrained q s
  | .progressTimerExpiry q => Sys2Proof.Machine.execProgressTimerExpiry q s
  | .partCfgWrite p val => Sys2Proof.Machine.execPartCfgWrite p val s
  | .partGo p => Sys2Proof.Machine.execPartGo p s
  | .partStop p => Sys2Proof.Machine.execPartStop p s
  | .partReset p => Sys2Proof.Machine.execPartReset p s
  | .ctxOpen c => Sys2Proof.Machine.execCtxOpen c s
  | .ctxKill c => Sys2Proof.Machine.execCtxKill c s
  | .ctxSetgen c gen => Sys2Proof.Machine.execCtxSetgen c gen s
  | .quiesceRequestReceive port dev c gen => Sys2Proof.Machine.execQuiesceRequestReceive port dev c gen s
  | .quiesceAck c dev => Sys2Proof.Machine.execQuiesceAck c dev s
  | .quiesceTimeout c => Sys2Proof.Machine.execQuiesceTimeout c s
  | .teardownReleaseDone c d => Sys2Proof.Machine.execTeardownReleaseDone c d s
  | .functionLevelReset f => Sys2Proof.Machine.execFunctionLevelReset f s
  | .pcieTlpIntegrityFail q => Sys2Proof.Machine.execPcieTlpIntegrityFail q s
  | .perstNAssert => Sys2Proof.Machine.execPerstNAssert s
  | .portEnable p => Sys2Proof.Machine.execPortEnable p s
  | .portDisable p => Sys2Proof.Machine.execPortDisable p s
  | .vjRetrain p => Sys2Proof.Machine.execVjRetrain p s
  | .detectTimer p => Sys2Proof.Machine.execDetectTimer p s
  | .signalDetected p => Sys2Proof.Machine.execSignalDetected p s
  | .equaliseDone p ok => Sys2Proof.Machine.execEqualiseDone p ok s
  | .alignDone p ok order pol => Sys2Proof.Machine.execAlignDone p ok order pol s
  | .paramDone p par => Sys2Proof.Machine.execParamDone p par s
  | .linkSlotSelect p => Sys2Proof.Machine.execLinkSlotSelect p s
  | .unitReceive p u => Sys2Proof.Machine.execUnitReceive p u s
  | .replayRequestReceive p fseq sseq => Sys2Proof.Machine.execReplayRequestReceive p fseq sseq s
  | .replayRequestTimeout p => Sys2Proof.Machine.execReplayRequestTimeout p s
  | .ackStallResend p => Sys2Proof.Machine.execAckStallResend p s
  | .retrainLimitExpiry p => Sys2Proof.Machine.execRetrainLimitExpiry p s
  | .packetReceipt p vl d => Sys2Proof.Machine.execPacketReceipt p vl d s
  | .fencedUnitSend p => Sys2Proof.Machine.execFencedUnitSend p s
  | .fencedUnitReceive p => Sys2Proof.Machine.execFencedUnitReceive p s
  | .keyPhaseChange p => Sys2Proof.Machine.execKeyPhaseChange p s
  | .linkRekey p => Sys2Proof.Machine.execLinkRekey p s
  | .correctedGroupRate p groups => Sys2Proof.Machine.execCorrectedGroupRate p groups s
  | .linkCreditTimeout p vl => Sys2Proof.Machine.execLinkCreditTimeout p vl s
  | .chartAlign => Sys2Proof.Machine.execChartAlign s
  | .chartSave => Sys2Proof.Machine.execChartSave s
  | .datumSend => Sys2Proof.Machine.execDatumSend s
  | .datumReceive p sentAt frac state arrived => Sys2Proof.Machine.execDatumReceive p sentAt frac state arrived s
  | .datumTimeout => Sys2Proof.Machine.execDatumTimeout s
  | .delayProbeSend p => Sys2Proof.Machine.execDelayProbeSend p s
  | .delayProbeReceive p => Sys2Proof.Machine.execDelayProbeReceive p s
  | .delayEchoReceive p t1 t2 t3 t4 => Sys2Proof.Machine.execDelayEchoReceive p t1 t2 t3 t4 s
  | .barrierArriveReceive p m => Sys2Proof.Machine.execBarrierArriveReceive p m s
  | .triggerReceive p m => Sys2Proof.Machine.execTriggerReceive p m s
  | .triggerCountReached c => Sys2Proof.Machine.execTriggerCountReached c s
  | .syncFlagReceive p m => Sys2Proof.Machine.execSyncFlagReceive p m s
  | .epochCommitArrive c => Sys2Proof.Machine.execEpochCommitArrive c s
  | .barrierReleaseReceive p m => Sys2Proof.Machine.execBarrierReleaseReceive p m s
  | .rollbackDrainComplete c => Sys2Proof.Machine.execRollbackDrainComplete c s
  | .drainTimeout c => Sys2Proof.Machine.execDrainTimeout c s
  | .faultRaise checkOk regsOk histBad => Sys2Proof.Machine.execFaultRaise checkOk regsOk histBad s
  | .sheetCollectorReceive sh regsOk => Sys2Proof.Machine.execSheetCollectorReceive sh regsOk s
  | .sheetCollectorForward sh => Sys2Proof.Machine.execSheetCollectorForward sh s
  | .faultRingWrite => Sys2Proof.Machine.execFaultRingWrite s
  | .colRingenWrite val => Sys2Proof.Machine.execColRingenWrite val s
  | .historyWriteRetry ok => Sys2Proof.Machine.execHistoryWriteRetry ok s
  | .serviceHourTick => Sys2Proof.Machine.execServiceHourTick s
  | .windowExpiry w => Sys2Proof.Machine.execWindowExpiry w s
  | .colAckWrite val => Sys2Proof.Machine.execColAckWrite val s
  | .watchdogExpiry p => Sys2Proof.Machine.execWatchdogExpiry p s
  | .haltCaptureDone p silent => Sys2Proof.Machine.execHaltCaptureDone p silent s
  | .isolationTrialDone p => Sys2Proof.Machine.execIsolationTrialDone p s
  | .dmaStallTimeout c => Sys2Proof.Machine.execDmaStallTimeout c s
  | .hostWriteHoldTimeout c => Sys2Proof.Machine.execHostWriteHoldTimeout c s
  | .rstWarm => Sys2Proof.Machine.execRstWarm s
  | .rstCold => Sys2Proof.Machine.execRstCold s
  | .rstSheet mask => Sys2Proof.Machine.execRstSheet mask s
  | .rstParcel mask parcel => Sys2Proof.Machine.execRstParcel mask parcel s
  | .rstFreeall zero => Sys2Proof.Machine.execRstFreeall zero s
  | .resetComplete p => Sys2Proof.Machine.execResetComplete p s
  | .dumpGo val => Sys2Proof.Machine.execDumpGo val s
  | .dumpAbort => Sys2Proof.Machine.execDumpAbort s
  | .dumpBlockDone linkUp crcOk => Sys2Proof.Machine.execDumpBlockDone linkUp crcOk s
  | .dumpBlockTimeout => Sys2Proof.Machine.execDumpBlockTimeout s
  | .ftKakgo sh => Sys2Proof.Machine.execFtKakgo sh s
  | .spareKakTimer sh => Sys2Proof.Machine.execSpareKakTimer sh s
  | .roundStart sh => Sys2Proof.Machine.execRoundStart sh s
  | .testItemDone sh parcel out ckind item histBad => Sys2Proof.Machine.execTestItemDone sh parcel out ckind item histBad s
  | .squallWindowOpen sh => Sys2Proof.Machine.execSquallWindowOpen sh s
  | .squallWindowLapse sh => Sys2Proof.Machine.execSquallWindowLapse sh s
  | .roundPeriodEnd sh => Sys2Proof.Machine.execRoundPeriodEnd sh s
  | .rotationAdvance sh => Sys2Proof.Machine.execRotationAdvance sh s
  | .challenge => Sys2Proof.Machine.execChallenge s
  | .loginOfficer => Sys2Proof.Machine.execLoginOfficer s
  | .loginUser => Sys2Proof.Machine.execLoginUser s
  | .loginLockoutEnd => Sys2Proof.Machine.execLoginLockoutEnd s
  | .logout => Sys2Proof.Machine.execLogout s
  | .enrollOfficer => Sys2Proof.Machine.execEnrollOfficer s
  | .enrollHwk => Sys2Proof.Machine.execEnrollHwk s
  | .enrollChartkey => Sys2Proof.Machine.execEnrollChartkey s
  | .config => Sys2Proof.Machine.execConfig s
  | .rawEnter => Sys2Proof.Machine.execRawEnter s
  | .rawLeave => Sys2Proof.Machine.execRawLeave s
  | .ecbRawRead => Sys2Proof.Machine.execEcbRawRead s
  | .rawSampleDiscard bits => Sys2Proof.Machine.execRawSampleDiscard bits s
  | .zeroise => Sys2Proof.Machine.execZeroise s
  | .selftest => Sys2Proof.Machine.execSelftest s
  | .fwInstall img => Sys2Proof.Machine.execFwInstall img s
  | .fwCommit => Sys2Proof.Machine.execFwCommit s
  | .packInstall img => Sys2Proof.Machine.execPackInstall img s
  | .recordApply img => Sys2Proof.Machine.execRecordApply img s
  | .random => Sys2Proof.Machine.execRandom s
  | .ideKeys => Sys2Proof.Machine.execIdeKeys s
  | .getCert => Sys2Proof.Machine.execGetCert s
  | .signatureDone => Sys2Proof.Machine.execSignatureDone s
  | .reservationRetry ok => Sys2Proof.Machine.execReservationRetry ok s
  | .doeGetCert => Sys2Proof.Machine.execDoeGetCert s
  | .doeQuote nonce => Sys2Proof.Machine.execDoeQuote nonce s
  | .trngHealthFailure apt src => Sys2Proof.Machine.execTrngHealthFailure apt src s
  | .trngRestart => Sys2Proof.Machine.execTrngRestart s
  | .trngStartupDone fail block => Sys2Proof.Machine.execTrngStartupDone fail block s
  | .trngBlockReady block => Sys2Proof.Machine.execTrngBlockReady block s
  | .ecbRngDataRead => Sys2Proof.Machine.execEcbRngDataRead s
  | .ecbStateMismatch => Sys2Proof.Machine.execEcbStateMismatch s
  | .ecbRestartDone => Sys2Proof.Machine.execEcbRestartDone s
  | .cntArm => Sys2Proof.Machine.execCntArm s
  | .cntUnfreeze => Sys2Proof.Machine.execCntUnfreeze s
  | .countersResume => Sys2Proof.Machine.execCountersResume s
  | .snapshotLatch => Sys2Proof.Machine.execSnapshotLatch s
  | .counterOverflow bank ix => Sys2Proof.Machine.execCounterOverflow bank ix s
  | .feedRise b => Sys2Proof.Machine.execFeedRise b s
  | .feedLost b => Sys2Proof.Machine.execFeedLost b s
  | .feedRestored b => Sys2Proof.Machine.execFeedRestored b s
  | .feedOvervoltage b => Sys2Proof.Machine.execFeedOvervoltage b s
  | .feedShareImbalance => Sys2Proof.Machine.execFeedShareImbalance s
  | .bothFeedsLow => Sys2Proof.Machine.execBothFeedsLow s
  | .telemetryLost => Sys2Proof.Machine.execTelemetryLost s
  | .railOutOfRegulation => Sys2Proof.Machine.execRailOutOfRegulation s
  | .refclk100Lost => Sys2Proof.Machine.execRefclk100Lost s
  | .refclk156Lost => Sys2Proof.Machine.execRefclk156Lost s
  | .refclk156Return => Sys2Proof.Machine.execRefclk156Return s
  | .capControllerTick t => Sys2Proof.Machine.execCapControllerTick t s
  | .thermalTick sh tmax dramt => Sys2Proof.Machine.execThermalTick sh tmax dramt s
  | .junctionLimit sh => Sys2Proof.Machine.execJunctionLimit sh s
  | .thermtrip => Sys2Proof.Machine.execThermtrip s
  | .clockStepDone sh => Sys2Proof.Machine.execClockStepDone sh s
  | .pwrOffreq => Sys2Proof.Machine.execPwrOffreq s
  | .pwrDisAssert => Sys2Proof.Machine.execPwrDisAssert s
  | .railStart rail => Sys2Proof.Machine.execRailStart rail s
  | .ecbumosResetRelease => Sys2Proof.Machine.execEcbumosResetRelease s
  | .ecbSelftestDone ok => Sys2Proof.Machine.execEcbSelftestDone ok s
  | .ecbBootDone read => Sys2Proof.Machine.execEcbBootDone read s
  | .pcieConfigReady => Sys2Proof.Machine.execPcieConfigReady s
  | .portGroupEnable g => Sys2Proof.Machine.execPortGroupEnable g s
  | .dramTrainingDone sh ok => Sys2Proof.Machine.execDramTrainingDone sh ok s
  | .memoryTestDone sh ok => Sys2Proof.Machine.execMemoryTestDone sh ok s
  | .startupKakDone sh failed => Sys2Proof.Machine.execStartupKakDone sh failed s
  | .i3cPrivateWrite offset data => Sys2Proof.Machine.execI3cPrivateWrite offset data s
  | .i3cPrivateRead => Sys2Proof.Machine.execI3cPrivateRead s
  | .i3cCcc c => Sys2Proof.Machine.execI3cCcc c s
  | .jtagDbgread source => Sys2Proof.Machine.execJtagDbgread source s
  | .jtagInstruction ix => Sys2Proof.Machine.execJtagInstruction ix s
  | .jtagRelock => Sys2Proof.Machine.execJtagRelock s
  | .pwrDisDeassert => Sys2Proof.Machine.execPwrDisDeassert s
  | .perstNDeassert => Sys2Proof.Machine.execPerstNDeassert s
  | .identityKeyGenerated ok => Sys2Proof.Machine.execIdentityKeyGenerated ok s
  | .orphanPagesZeroed => Sys2Proof.Machine.execOrphanPagesZeroed s
  | .ideKeySwitch => Sys2Proof.Machine.execIdeKeySwitch s

end Sys2Proof.Machine
end

