-- ==== Sys2Proof/Machine/Tick.lean ====
section
/-! DEFINITION. One cycle of the datum clock with no command waiting (log 1): the count rises by one nanosecond, and what the spec counts
by time is counted (17 R453, R457; log 88). -/

namespace Sys2Proof.Machine

/-- The queued word that is oldest in program order. -/
def Engine.oldest (g : Engine) : Option Uop :=
  (g.queued.foldl (fun (a : Option (Nat × Uop)) x =>
    match a with
    | some y => if y.1 ≤ x.1 then a else some x
    | none => some x) none).map Prod.snd
/-- Whether the array or the row unit has a word that it takes now. -/
def State.working (s : State) (e : EngId) : Bool :=
  ((s.eng e).arrayQ ++ (s.eng e).rowQ).any fun x => s.ready e x.1 x.2
/-- The account of a cycle of an engine in its step (R457): what its units do, then what its oldest incomplete word waits on. Which unit
blocks the fetch of words the rule does not say: the mover (DESIGN CHOICE, log 88). -/
def State.account (s : State) (e : EngId) : Account :=
  let g := s.eng e
  if s.working e then .productive
  else match g.oldest with
    | none => if g.arrived || g.st == .wait then .sync else .feed 0
    | some u =>
      match u with
      | .tileRecv _ => .feed 4
      | .tileSend _ => .drain 4
      | .tileStore _ | .accStore _ | .accToPs _ | .tileAddMem _ => .drain 0
      | .smpMax _ => .drain 3
      | _ => if uopUnit u = 2 then .sync else .feed 0
/-- Whether the row unit's next word waits for a hub context (R141). -/
def State.waitsHub (s : State) (e : EngId) : Bool := match (s.eng e).rowQ with
  | (_, .smpMax o) :: _ => s.passWaits e o true && !s.passOutstanding (s.homeOf e.sheet.val o.slot.val) o.slot.val e
  | _ => false
/-- The cycles of one engine: charged to its ledger where it is in a step, those that scan re-decided variables first, else counted as
outside any step. -/
def State.tickEngine (s : State) (e : EngId) (n : Nat) : State :=
  let g := s.eng e
  if (g.st == .run || g.st == .wait) && g.setup.isSome then
    let k := min n g.rescan
    let a := s.account e
    let s := if s.waitsHub e && n != 0 then s.parcelEvent e { cls := 2, code := 0x04, inc := n } else s
    let s := (s.cycleEvent e 0x01 n).modEng e fun g => { g with rescan := g.rescan - k }
    s.modSheet e.sheet.val fun h =>
      { h with ledgers := tmod {} h.ledgers e.parcel.val fun l => (l.charge k .discarded).charge (n - k) a }
  else s.cycleEvent e 0x06 n
/-- The SCR cycles of the cores of an engine that are not in WFI. -/
def State.tickCores (s : State) (e : EngId) (n : Nat) : State :=
  s.forEach (List.range 4) fun s i =>
    let c : CoreId := { eng := e, core := Fin.ofNat 4 i }
    if n != 0 && s.coreLive c && !(s.core c).wfi then s.coreEvent c { cls := 5, code := 0x14 + i, inc := n } else s
/-- One nanosecond of a sheet: slices in a refresh stall, and its parcels. -/
def State.tickSheet (s : State) (h : Nat) : State :=
  let stalled := (s.sheet h).mem.stalled.length
  let s := if stalled = 0 then s else s.sheetEvent h { cls := 3, code := 0x12, inc := stalled }
  let eng := Config.engCycles h s.now
  let scr := Config.scrCycles h s.now
  s.forEach (List.range (s.sheet h).pmap.length) fun s l =>
    let e : EngId := { sheet := Fin.ofNat 16 h, parcel := Fin.ofNat 16 l }
    (s.tickEngine e eng).tickCores e scr
/-- One nanosecond of a port: whether a packet waits for credit on any lane. -/
def State.tickPort (s : State) (n : Nat) : State :=
  let x := s.port n
  if x.lstate == .up && [1, 2, 3].any fun v => (x.laneHead v).isSome && tget 0 x.credits v == 0 then s.linkEvent n { cls := 7, code := 0x0D }
  else s
/-- One nanosecond of the device: the datum, a power cap that holds the clock below its design step, and a throttle (18 R477-R481). -/
def State.tickDevice (s : State) : State :=
  let s := s.deviceEvent { cls := 9, code := 1 }
  let s := if s.pwr.capen && decide (s.pwr.capStep.toNat < 0xA) then s.deviceEvent { cls := 9, code := 3 } else s
  if sheetIdx.any fun h => (s.sheet h).thm.throt then s.deviceEvent { cls := 9, code := 4 } else s
/-- One cycle of the datum clock. -/
def State.idle (s : State) : State :=
  let s : State := { s with chart := { s.chart with datum := s.chart.datum + 256 } }
  let s := (s.tickDevice).forEach (s.ports.map Prod.fst) State.tickPort
  s.forEach (s.sheets.map Prod.fst) State.tickSheet

end Sys2Proof.Machine
end

