-- ==== Sys2Proof/Safety.lean ====
section
/-! DEFINITION. What statements call a good state: registers that hold no reserved encoding, memories in canonical form. -/

namespace Sys2Proof.Machine

/-- Legal values of the chart registers (11 R325). -/
def ChartRegs.legal (c : ChartRegs) : Bool :=
  decide (1 ≤ c.size.toNat ∧ c.size.toNat ≤ 4096) && (decide (c.upport.toNat ≤ 0x3F) || c.upport == 0xFF)

/-- No device-level register holds a reserved encoding (00 R10): `GLOB.QTMO`, `PWR.CAPW`, `PWR.FMAX`, `COL.HISTWIN`,
`COL.WINUS`, `HANG.DMATMO`, `HANG.LNKTMO`, the chart registers, and the chart record that start-up loads into them. -/
def State.regsLegal (s : State) : Bool :=
  s.qtmo != 0 && decide (1000 ≤ s.pwr.capw.toNat ∧ s.pwr.capw.toNat ≤ 3600) && decide (s.pwr.fmax.toNat ≤ 0xA) &&
  s.col.histwin != 0 && decide (1 ≤ s.col.winus.toNat ∧ s.col.winus.toNat ≤ 1000000) &&
  s.rst.dmatmo != 0 && s.rst.lnktmo != 0 && s.chart.reg.legal &&
  match s.chart.saved with
  | some r => r.legal
  | none => true

/-- The canonical form of a memory: addresses strictly rising, no entry equal to what an unlisted address reads as. -/
def memWf (m : Mem) : Bool := twf (0 : Byte) m

/-! ### The words of the statements -/

/-- The command runs from `s`: exec answers a next state, of which `P` holds. -/
def Leads (c : Instr) (s : State) (P : State → Prop) : Prop := ∃ t, exec c s = .next t ∧ P t
/-- The command leaves the state as it is: it waits, or what it reports has not come about. -/
def Holds (c : Instr) (s : State) : Prop := exec c s = .next s
/-- Everything but the sheets. -/
def State.outside (s : State) : State := { s with sheets := [] }
/-- `t` is `s` but for sheet `i`. -/
def OnlySheet (i : Nat) (s t : State) : Prop := t.outside = s.outside ∧ ∀ j, j ≠ i → t.sheet j = s.sheet j
/-- Engines other than `e` read as before. -/
def OtherEngines (e : EngId) (s t : State) : Prop := ∀ g : EngId, g ≠ e → t.eng g = s.eng g
/-- `t` is `s` but for engine `e`. -/
def OnlyEngine (e : EngId) (s t : State) : Prop :=
  OnlySheet e.sheet.val s t ∧ OtherEngines e s t ∧
  { t.sheet e.sheet.val with engines := [] } = { s.sheet e.sheet.val with engines := [] }
/-- A byte of a sheet's DRAM. -/
def State.dramAt (s : State) (h a : Nat) : Byte := mget (s.sheet h).mem.dram a
/-- A byte of a physical parcel's store. -/
def State.storeAt (s : State) (h p a : Nat) : Byte := mget ((s.sheet h).parcel p).store a
/-- A byte of a physical parcel's accumulator memory. -/
def State.accAt (s : State) (h p a : Nat) : Byte := mget ((s.sheet h).parcel p).acc a
/-- Every byte of DRAM reads as before. -/
def SameDram (s t : State) : Prop := ∀ h a, t.dramAt h a = s.dramAt h a
/-- Every byte of the parcel stores reads as before. -/
def SameStores (s t : State) : Prop := ∀ h p a, t.storeAt h p a = s.storeAt h p a
/-- Every byte of the accumulator memories reads as before. -/
def SameAccs (s t : State) : Prop := ∀ h p a, t.accAt h p a = s.accAt h p a
/-- Bytes of a raw tensor's one byte sequence, as a hub reads them (06 R201): a byte outside the tensor reads 0. -/
def State.rawBytes (s : State) (t : Tensor) (h off n : Nat) : List Byte :=
  (List.range n).map fun k => match t.rawAt h (off + k) with
    | some x => s.dramAt x.1 x.2
    | none => 0
/-- `n` bytes of a sheet's DRAM are those of `f`; every other byte of DRAM is as in `s`. -/
def DramTakes (h a n : Nat) (f : Nat → Byte) (s t : State) : Prop :=
  ∀ i b, t.dramAt i b = if i = h ∧ a ≤ b ∧ b < a + n then f (b - a) else s.dramAt i b
/-- `n` bytes of a parcel store are those of `f`; every other byte of the stores is as in `s`. -/
def StoreTakes (h p a n : Nat) (f : Nat → Byte) (s t : State) : Prop :=
  ∀ i q b, t.storeAt i q b = if i = h ∧ q = p ∧ a ≤ b ∧ b < a + n then f (b - a) else s.storeAt i q b
/-- Accumulator bytes outside one parcel's range read as before. -/
def AccsBut (h p a n : Nat) (s t : State) : Prop :=
  ∀ i q b, ¬(i = h ∧ q = p ∧ a ≤ b ∧ b < a + n) → t.accAt i q b = s.accAt i q b

/-- Store bytes outside one parcel's range read as before. -/
def StoresBut (h p a n : Nat) (s t : State) : Prop :=
  ∀ i q b, ¬(i = h ∧ q = p ∧ a ≤ b ∧ b < a + n) → t.storeAt i q b = s.storeAt i q b

/-- A fault message of kind `k` and address `a` is the one that a sheet's path to its collector gains. -/
def Raises (h : Nat) (k : BitVec 12) (a : Word) (s u : State) : Prop :=
  ∃ m : FaultMsg, (u.sheet h).wire = (s.sheet h).wire ++ [m] ∧ m.kind = k ∧ m.address = a
/-- A fault message of kind `k` is the one that the path to the device collector gains. -/
def RaisesDev (k : BitVec 12) (s u : State) : Prop := ∃ m : FaultMsg, u.devWire = s.devWire ++ [m] ∧ m.kind = k
/-- No byte of the memories changes. -/
def SameMemories (s t : State) : Prop := SameDram s t ∧ SameStores s t ∧ SameAccs s t

/-- Whether something put out is a unit on a link. -/
def Out.isUnit : Out → Bool
  | .linkUnit _ _ => true
  | _ => false
/-- The units that have left on the links. -/
def State.unitsOut (s : State) : List Out := s.out.filter Out.isUnit
/-- `t` is `s` but for port `n`. -/
def OnlyPort (n : Nat) (s t : State) : Prop :=
  (∀ k, k ≠ n → t.port k = s.port k) ∧ { t with ports := [] } = { s with ports := [] }

/-! ### Coupled models (06) -/

/-- The field of variable i (06 R184) under couplings `q` of `n` variables. -/
def modelField (h : Nat → Int) (q : Nat → Nat → Int) (n : Nat) (x : Nat → Bool) (i : Nat) : Int :=
  h i + ((List.range n).map fun j => if j = i then 0 else q i j * b2n (x j)).sum
/-- The energy of a state (06 R176). -/
def modelEnergy (h : Nat → Int) (q : Nat → Nat → Int) (n : Nat) (x : Nat → Bool) : Int :=
  ((List.range n).map fun i => h i * b2n (x i)).sum +
  ((List.range n).flatMap fun j => (List.range j).map fun i => q i j * (b2n (x i) * b2n (x j))).sum
/-- The sequential sweep (06 R193): the variables `js` visited in order, each decided by the rule `acc` on the field that
results from every earlier decision; the states it leaves. -/
def seqSweep (q : Nat → Nat → Int) (acc : Nat → Int → Bool) (heat : Bool) :
    List Nat → (Nat → Bool) → (Nat → Int) → Nat → Bool
  | [], x, _ => x
  | j :: r, x, f =>
    let y := acc j (if heat then f j else if x j then -f j else f j)
    let z := if heat then y else x j != y
    let dl : Int := (b2n z : Int) - b2n (x j)
    seqSweep q acc heat r (fun i => if i = j then z else x i) (fun i => f i + q i j * dl)
/-- The registers of a chain after sweep_end (06 R203), written from the procedure there; `t s p` is the schedule entry. -/
def sweepEnd (h : SchedHeader) (t : Nat → Nat → Nat) (r : ChainRegs) : ChainRegs :=
  let better := decide (r.energy.toInt < r.best.toInt)
  let rise := !better && h.stallmax != 0 && decide (h.stallmax ≤ r.stall.toNat + 1)
  let gust : BitVec 32 := if better then 0 else if rise then BitVec.ofNat 32 (min (r.gust.toNat + h.gstep) h.gcap) else r.gust
  let stall : Nat := if better || rise then 0 else if h.stallmax = 0 then min (r.stall.toNat + 1) 65535 else r.stall.toNat + 1
  let sweep := r.sweep + 1
  let teff := min (t (min sweep.toNat (h.nsched - 1)) (min r.rung.toNat (h.nrung - 1)) + gust.toNat) (2 ^ 32 - 1)
  { r with
    sweep := sweep, best := if better then r.energy else r.best, gust := gust
    stall := BitVec.ofNat 16 stall, accept := r.runAccept, redec := r.runRedec, runAccept := 0, runRedec := 0
    cflags := if better then r.cflags ||| cNEWBEST else r.cflags &&& ~~~cNEWBEST
    teff := BitVec.ofNat 32 teff, invt := BitVec.ofNat 32 (if teff = 0 then 0 else min (2 ^ 32 / teff) (2 ^ 32 - 1)) }

/-! ### Counting and scribe cores (07, 17) -/

/-- A sheet without its event counters. -/
def Sheet.uncounted (h : Sheet) : Sheet := { h with bank := {}, parcelBanks := [] }
/-- A state without its sheets and without what counting moves: counters, and what is put out or pends as an interrupt. -/
def State.uncounted (s : State) : State :=
  { s with sheets := [], out := [], msixPend := [], cnt := { s.cnt with bank := {}, portBanks := [] } }
/-- Nothing but event counters and their interrupts moved. -/
def OnlyCounters (s t : State) : Prop :=
  t.uncounted = s.uncounted ∧ ∀ h, (t.sheet h).uncounted = (s.sheet h).uncounted
/-- Only the collector of sheet `h`, the device collector, the wire to it and what reports counts differ. -/
def OnlyEvents (h : Nat) (s t : State) : Prop :=
  (∀ j, j ≠ h → (t.sheet j).uncounted = (s.sheet j).uncounted) ∧
  { (t.sheet h).uncounted with wire := [], col := {} } = { (s.sheet h).uncounted with wire := [], col := {} } ∧
  { t.uncounted with col := {}, devWire := [], cnt := {} } = { s.uncounted with col := {}, devWire := [], cnt := {} }

/-- Whether something put out is what a core loaded. -/
def Out.isLoad : Out → Bool
  | .scribeData _ _ => true
  | _ => false
/-- What the cores have loaded. -/
def State.loads (s : State) : List Out := s.out.filter Out.isLoad
/-- Whether something put out is a write to host memory. -/
def Out.isDma : Out → Bool
  | .dmaWrite _ _ => true
  | _ => false
/-- The writes to host memory so far. -/
def State.dmas (s : State) : List Out := s.out.filter Out.isDma
/-- Whether something put out answers a host's access. -/
def Out.isReply : Out → Bool
  | .readReply _ => true
  | .unsupportedRequest => true
  | _ => false
/-- The answers to the host's accesses so far. -/
def State.replies (s : State) : List Out := s.out.filter Out.isReply
/-- A core reads `k` afterwards; beside it nothing but event counters and their interrupts moved. -/
def CoreBecomes (c : CoreId) (k : Scribe) (s u : State) : Prop :=
  let h := c.eng.sheet.val
  u.uncounted = s.uncounted ∧ (∀ j, j ≠ h → (u.sheet j).uncounted = (s.sheet j).uncounted) ∧
  { (u.sheet h).uncounted with engines := [] } = { (s.sheet h).uncounted with engines := [] } ∧ OtherEngines c.eng s u ∧
  { u.eng c.eng with cores := [] } = { s.eng c.eng with cores := [] } ∧
  ∀ i, tget {} (u.eng c.eng).cores i = if i = c.core.val then k else tget {} (s.eng c.eng).cores i
/-- No interrupt that a core would take is pending (07 R222): none is enabled, or machine mode has them off. -/
def Scribe.quiet (k : Scribe) (now : Nat) : Prop :=
  k.mip now &&& k.csr 0x304 = 0 ∨ (k.machine = true ∧ bit (k.csr 0x300) 3 = false)
/-- A core that runs, waits for nothing and meets no interrupt. -/
def State.coreReady (s : State) (c : CoreId) : Prop :=
  s.coreLive c = true ∧ (s.core c).wfi = false ∧ (s.core c).quiet s.now
/-- The kinds of the messages that a sheet's path to its collector gains. -/
def GainsKinds (h : Nat) (l : List (BitVec 12)) (s u : State) : Prop :=
  ∃ x : List FaultMsg, (u.sheet h).wire = (s.sheet h).wire ++ x ∧ x.map (·.kind) = l

/-- An engine that has moved to its next word, with nothing else of it changed. -/
def Engine.stepOn (g : Engine) : Engine := { g with pc := g.pc + 1, st := .run, awaits := none }

end Sys2Proof.Machine
end

