-- ==== Sys2Proof/Certificates/Slice0/Obligations.lean ====
section
/-! DEFINITION. The statements for the provers: what each family of commands does, what it leaves alone, what the block keeps. -/

open Sys2Proof Sys2Proof.Machine

/-- A step takes the command at the front of the queue and runs it on the state with the queue's rest (the model's queue, log 1); no command is refused and none faults;
with no command waiting, one cycle of the datum clock passes (the model's choice, log 1; what counts by time, log 88). -/
def Obligations.StepRunsFront : Prop :=
  ∀ (c : Instr) (s : State) (rest : List Instr), (∃ t, exec c s = .next t) ∧ (step { s with pending := c :: rest } = exec c { s with pending := rest }) ∧
    (s.pending = [] → ∃ u, step s = .next u ∧ SameMemories s u ∧
      { u with out := [], msixPend := [], sheets := [], cnt := { u.cnt with bank := {}, portBanks := [] } } =
        { s with out := [], msixPend := [], sheets := [], cnt := { s.cnt with bank := {}, portBanks := [] }, chart := { s.chart with datum := s.chart.datum + 256 } } ∧
      (∀ h, { u.sheet h with engines := [], bank := {}, parcelBanks := [], ledgers := [] } =
        { s.sheet h with engines := [], bank := {}, parcelBanks := [], ledgers := [] }) ∧
      ∀ e : EngId, { u.eng e with rescan := 0 } = { s.eng e with rescan := 0 })

/-- Reset: the values of the register tables; legal values (the invariant of the next statement); memories with nothing listed,
whose bytes read 0 by the model's choice (log 5). -/
def Obligations.ResetHoldsStatedValues : Prop :=
  let s := State.reset
  s.regsLegal = true ∧ s.pending = [] ∧ s.dstate = .startUp ∧
  (∀ x ∈ ([(.idDevice, 0x471641A100010000), (.idShape, 0x0010101280400000), (.globCtl, 0x640000), (.chartId, 1),
      (.chartTree, 0xFF000000000007D0), (.colCtl, 0x000002D0000003E8), (.hangTmo, 0x00002710000003E8),
      (.rstStatus, 0x0005000000000000), (.ecbRngStat, 2), (.ecbDrbg, 0xA0), (.ecbTrng, 0xC0), (.pwrCtl, 0x00000E100A000001)] :
      List (Reg × Nat)), (s.readReg x.1).toNat = x.2) ∧
  (∀ h, h < 16 → ∀ x ∈ ([(.sheetState h, 0x00100001), (.sheetPmap h 0, 0x8786858483828180), (.sheetPmap h 1, 0x8F8E8D8C8B8A8988),
      (.sheetSpares h, 0x10110000), (.ftCtl h, 0x60005A00003C000A), (.ftStatus h, 0x0000001100000000), (.thmSheet h, 0xA00000),
      (.hangWdog h, 0xF4240)] : List (Reg × Nat)), (s.readReg x.1).toNat = x.2) ∧
  (∀ h n, h < 16 → n < 128 → (s.readReg (.slot h n 2)).toNat = 0x0001000000010000 ∧
    (s.readReg (.slot h n 4)).toNat = 0xFFFFFFFF00000000) ∧
  (∀ q, (s.readReg (.queue q 5)).toNat = 0xF4240) ∧
  (∀ h a, s.dramAt h a = 0) ∧ (∀ h p a, s.storeAt h p a = 0 ∧ s.accAt h p a = 0) ∧
  ∀ h p, memWf (s.sheet h).mem.dram = true ∧ memWf ((s.sheet h).parcel p).store = true ∧ memWf ((s.sheet h).parcel p).acc = true

/-- Reserved encodings are never stored (00 R10, with the ranges of 09, 11 R325, 13, 14 and 18 R479). -/
def Obligations.LegalRegistersStayLegal : Prop :=
  ∀ s s' : State, s.regsLegal = true → step s = .next s' → s'.regsLegal = true

/-- START_OF_STEP_BARRIER (01 R31, R34; 03 R501). -/
def Obligations.StepsStartClean : Prop :=
  ∀ (p : PartId) (s : State),
    let x := s.part p.val
    let starts (swap : Prop) (c : CtxId) (u : State) : Prop :=
      SameDram s u ∧ SameAccs s u ∧ (u.part p.val).phase = .running ∧ (u.part p.val).cur = some c ∧
      (∀ h ∈ x.sheetList, (u.sheet h).flags = 0) ∧
      (∀ h q a, (∀ e ∈ s.engineIds p.val, ∀ y, e.sheet.val = h → (s.sheet h).phys e.parcel.val = some q →
          (s.eng e).shadow = some y → ¬(64 * y.progUnit ≤ a ∧ a < 64 * y.progUnit + 16 * y.words.length)) →
        u.storeAt h q a = s.storeAt h q a) ∧
      ∀ e ∈ s.engineIds p.val,
        let g := u.eng e
        ((s.sheet e.sheet.val).phys e.parcel.val = none → g.st = .fenced) ∧
        ((s.sheet e.sheet.val).phys e.parcel.val ≠ none →
          g.st = .run ∧ g.loops = [] ∧ g.eflags = 0 ∧ g.awaits = none ∧ g.moverQ = [] ∧ g.arrayQ = [] ∧ g.rowQ = [] ∧
          g.journal ≠ none ∧ g.arrived = g.setup.isNone ∧
          (swap → ∀ y, (s.eng e).shadow = some y → g.setup = some y ∧ g.pc = y.pc ∧ g.progLen = y.words.length) ∧
          (¬swap → g.setup = (s.eng e).setup ∧ g.pc = (s.eng e).pc ∧ g.progLen = (s.eng e).progLen))
    (x.phase = .none →
      (x.next = none → Holds (.startOfStepBarrier p) s) ∧
      ∀ c prog ns bad, x.next = some (c, prog, ns, bad) →
        let chart := match x.runOf c with | some r => r.chart | none => false
        (s.mayStart p.val c prog = false → Holds (.startOfStepBarrier p) s) ∧
        (chart = true → (s.epoch c.val).st ≠ .opened → Holds (.startOfStepBarrier p) s) ∧
        (s.mayStart p.val c prog = true → (chart = true → (s.epoch c.val).st = .opened) →
          (ns = s.division p.val → bad = [] → Leads (.startOfStepBarrier p) s fun u =>
            starts (x.swapped ≠ some (c, prog)) c u ∧ (u.part p.val).next = none) ∧
          (ns = s.division p.val → bad ≠ [] → x.again = false → x.noCommit = false → chart = false →
            (s.modPart p.val fun y => { y with faults := [] }).poisonAtEnd p.val c = false →
            Leads (.startOfStepBarrier p) s fun u => SameDram s u ∧ (u.part p.val).phase = .abandoned ∧
              (u.part p.val).next = none ∧ (u.ctx c.val).step = (s.ctx c.val).step) ∧
          (ns ≠ s.division p.val → Leads (.startOfStepBarrier p) s fun u =>
            SameMemories s u ∧ u.part p.val = { x with next := none }))) ∧
    (∀ c, x.phase = .programmed → x.cur = some c →
      (s.mayStart p.val c x.prog = true → Leads (.startOfStepBarrier p) s (starts True c)) ∧
      (s.mayStart p.val c x.prog = false → Holds (.startOfStepBarrier p) s))

/-- END_OF_STEP_BARRIER (01 R36; 13 R379, R380; 04 R126, R127). -/
def Obligations.StepsCommitOrAbandon : Prop :=
  ∀ (p : PartId) (c : CtxId) (r : RunState) (s : State),
    let x := s.part p.val
    let all := (s.stepEngines p.val).all fun e => (s.eng e).arrived || (s.eng e).st == .halt
    x.phase = .running → x.cur = some c → x.next = none → x.runOf c = some r → r.chart = false → x.noCommit = false →
    let endCmd : Instr := .endOfStepBarrier p [] false
    let slot (u : State) (h n : Nat) : Slot := (u.sheet h).slot n
    let mine (h n : Nat) : Prop := h ∈ x.sheetList ∧ (slot s h n).ctx = some c
    (all = false → x.faults = [] → x.parcelReset = false → Holds endCmd s) ∧
    (all = true → x.faults = [] → x.parcelReset = false → x.again = false → s.poisonAtEnd p.val c = false →
      Leads endCmd s fun u => SameMemories s u ∧
        (u.ctx c.val).step = (s.ctx c.val).step + 1 ∧ (u.part p.val).phase = .none ∧ (u.part p.val).cur = none ∧
        (r.committed + 1 < r.total → ∃ r', (u.part p.val).runOf c = some r' ∧ r'.committed = r.committed + 1) ∧
        (r.total ≤ r.committed + 1 → (u.part p.val).runOf c = none) ∧
        ∀ h n, mine h n →
          (slot u h n).reg = (slot u h n).pend ∧ (slot u h n).phase = .idle ∧
          (slot u h n).pend = { (slot s h n).pend with
            step := (slot s h n).pend.step + if (slot s h n).drew then 1 else 0 }) ∧
    (∀ f rest, x.faults = f :: rest → x.again = false → s.poisonAtEnd p.val c = false →
      (∀ g ∈ x.faults, (kindSeverity g.kind.toNat x.contain false).getD 0 ≠ 3) →
      (∀ h ∈ x.sheetList, (s.sheet h).pmap.Nodup) →
      Leads endCmd s fun u => SameDram s u ∧ (u.part p.val).phase = .abandoned ∧ (u.part p.val).firstFaults = x.faults ∧
        (u.ctx c.val).step = (s.ctx c.val).step ∧
        (∀ h n, mine h n → (slot u h n).reg = (slot s h n).reg ∧ (slot u h n).pend = (slot s h n).start) ∧
        (∀ y ∈ suspectsOf x.faults, MapChange.substitute y.2 ∈ (u.sheet y.1).changes) ∧
        ∀ e ∈ s.engineIds p.val, ∀ q j, (s.sheet e.sheet.val).phys e.parcel.val = some q → (s.eng e).journal = some j →
          (u.eng e).tds = j.tds ∧ (u.eng e).journal = none ∧
          ∀ b ∈ (s.eng e).carriedBlocks, ∀ i, i < 65536 →
            u.storeAt e.sheet.val q (65536 * b + i) = mget j.mem.store (65536 * b + i)) ∧
    (x.again = false → s.poisonAtEnd p.val c = false →
      (∃ g ∈ x.faults, (kindSeverity g.kind.toNat x.contain false).getD 0 = 3) → Leads endCmd s fun u =>
        SameDram s u ∧ (u.ctx c.val).step = (s.ctx c.val).step ∧ (u.part p.val).runOf c = none)

/-- STEP_PROGRAM, STEP_PROGRAM_TIMEOUT, STEP_REPEAT and RUN_DISPATCH (01 R34, 13 R380, 14 R395, 05 R153, R168). -/
def Obligations.StepsArePrepared : Prop :=
  (∀ (p : PartId) (prog : Nat) (s : State),
    let x := s.part p.val
    (x.st ≠ .running → Holds (.stepProgram p prog {}) s) ∧
    (s.pickRun p.val prog = none → Holds (.stepProgram p prog {}) s) ∧
    (∀ r l g, x.st = .running → (x.phase = .none ∨ x.phase = .running) → x.noCommit = false → x.next = none →
      s.inService p.val = true → s.pickRun p.val prog = some r → s.runPlan p.val r.ctx = some l →
      s.stepProg p.val r.ctx prog = some g →
      (∀ st, x.phase = .none → s.stepStop p.val r.ctx prog = some st → Leads (.stepProgram p prog {}) s fun u =>
        SameMemories s u ∧ (u.part p.val).runOf r.ctx = none) ∧
      (x.phase = .running ∨ s.stepStop p.val r.ctx prog = none → r.chart = false →
        (r.scanned = true ∨ ∀ v ∈ l.plan.progs, ∀ d ∈ v.divs, d.scan = []) → s.progStalls p.val l g r.scanned = false →
        l.poison = false → (∀ h ∈ x.sheetList, (s.sheet h).stagingPoison = false) → Leads (.stepProgram p prog {}) s fun u =>
          SameMemories s u ∧ (u.part p.val).next = some (r.ctx, prog, s.division p.val, []) ∧
          (u.part p.val).phase = x.phase ∧ (u.part p.val).cur = x.cur))) ∧
  (∀ (h : SheetId) (s : State),
    (s.partOf h.val = none → Holds (.stepProgramTimeout h) s) ∧
    (∀ p, s.partOf h.val = some p →
      ((s.part p).runs = [] → Holds (.stepProgramTimeout h) s) ∧
      ((s.part p).runs ≠ [] → Leads (.stepProgramTimeout h) s fun u => SameMemories s u ∧ Raises h.val 0x730 0 s u))) ∧
  (∀ (p : PartId) (s : State),
    let x := s.part p.val
    (x.phase ≠ .abandoned → ∀ v, Holds (.stepRepeat ⟨p, v⟩) s) ∧
    (∀ c r l g, x.phase = .abandoned → x.cur = some c → x.runOf c = some r → s.runPlan p.val c = some l →
      s.stepProg p.val c x.prog = some g → x.hang = .normal → x.halted = false → x.noCommit = false →
      s.inService p.val = true → s.portsUp p.val c x.prog = true → (∀ h ∈ x.sheetList, (s.sheet h).changes = []) →
      (∀ h ∈ x.sheetList, max 12 l.plan.minInsvc ≤ (s.sheet h).pmap.length) →
      s.progStalls p.val l g true = false → l.poison = false → (∀ h ∈ x.sheetList, (s.sheet h).stagingPoison = false) →
      Leads (.stepRepeat ⟨p, {}⟩) s fun u => SameMemories s u ∧ (u.part p.val).phase = .programmed ∧ (u.part p.val).again = true ∧
        (u.part p.val).cur = some c ∧ (u.ctx c.val).step = (s.ctx c.val).step)) ∧
  (∀ (q : QueueId) (arg : HostRead) (s : State),
    (s.head q.val = none → Holds (.runDispatch q arg) s) ∧
    (∀ d l seed dev, s.head q.val = some d →
      let c := dCtx d
      let p := s.ctxPart c
      d.started = true → d.status = none → dOp d = 2 → d.wants = 0 → (s.part p).runOf c = none → (s.part p).st = .running →
      s.inService p = true → (s.ctx c.val).planOf (dPlan d) = some l → (planIsChart l.plan = true → s.chart.st = .service) →
      (arg = none → dSeedSel d ≠ 1 ∧ dArgPtr d = 0) → s.runSeed d arg = some (seed, dev) →
      (∀ h ∈ (s.part p).sheetList, max 12 l.plan.minInsvc ≤ (s.sheet h).pmap.length) →
      (dSeedSel d = 0 → (s.ctx c.val).step.toNat ≠ 2 ^ 64 - 1) →
      (∀ v ∈ l.plan.progs, ∀ w ∈ v.divs, ∀ b ∈ w.binds, b.draws = true →
        ((s.sheet b.home.val).slot b.slot.val).reg.step.toNat ≠ 2 ^ 64 - 1) →
      Leads (.runDispatch q arg) s fun u => SameMemories s u ∧
        (u.ctx c.val).step = (if dSeedSel d = 0 then (s.ctx c.val).step else 0) ∧
        ∃ r, (u.part p).runOf c = some r ∧ r.seed = seed ∧ r.devSeed = dev ∧ r.total = dArg0 d ∧ r.committed = 0 ∧
          r.plan = dPlan d ∧ r.queue = q.val))

/-- PARCEL_MAP_CHANGE (01 R19, R21; 13 R380). -/
def Obligations.ParcelMapChanges : Prop :=
  ∀ (h : SheetId) (s : State),
    let y := s.sheet h.val
    let boundary : Prop := ∀ n, s.partOf h.val = some n → (s.part n).phase ≠ .running
    (¬boundary → Holds (.parcelMapChange h) s) ∧
    (boundary → ∀ (l p q : Nat), y.pmap[l]? = some p → y.pmap.Nodup → q ∉ y.pmap → y.standing = some q → p < 18 → q < 18 →
      let moved (u : State) : Prop :=
        SameDram s u ∧ (u.sheet h.val).changes = [] ∧ (u.sheet h.val).phys l = some q ∧
        (∀ k, k ≠ l → (u.sheet h.val).phys k = y.phys k) ∧
        (∀ a, u.storeAt h.val q a = s.storeAt h.val p a) ∧ (∀ a, u.accAt h.val q a = s.accAt h.val p a)
      (y.changes = [.fence p] → Leads (.parcelMapChange h) s fun u =>
        moved u ∧ (u.sheet h.val).fenced = y.fenced ||| fenceBit p ∧ (u.sheet h.val).standing = none ∧
        (u.sheet h.val).test = y.test) ∧
      (y.changes = [.substitute p] → Leads (.parcelMapChange h) s fun u =>
        moved u ∧ (u.sheet h.val).fenced = y.fenced ∧ (u.sheet h.val).standing = some p ∧ (u.sheet h.val).test = y.test)) ∧
    (boundary → ∀ p, y.changes = [.fence p] → p ∈ y.pmap → y.pmap.Nodup → y.standing = none → y.test = none →
      Leads (.parcelMapChange h) s fun u => SameMemories s u ∧ (u.sheet h.val).changes = [] ∧ p ∉ (u.sheet h.val).pmap ∧
        (u.sheet h.val).pmap.length + 1 = y.pmap.length ∧ (u.sheet h.val).fenced = y.fenced ||| fenceBit p) ∧
    (∀ n, s.partOf h.val = some n → (s.part n).phase = .programmed →
      Leads (.parcelMapChange h) s fun u => (u.part n).phase = .abandoned)

/-- Words that decode carries out and that move on (03 R104; SCRIBE_RING 07 R221): each result, and that nothing outside the
engine changes. -/
def Obligations.ControlWordsAdvance : Prop :=
  ∀ (e : EngId) (s : State), s.decodes e none = true → (s.eng e).pc.toNat < 8191 →
    Leads (.nop e) s (fun t => OnlyEngine e s t ∧ t.eng e = (s.eng e).stepOn) ∧
    (∀ (ag : Fin 16) (g : AddrGen), Leads (.agSet e ag g) s fun t =>
      OnlyEngine e s t ∧ t.eng e = { (s.eng e).stepOn with ags := (t.eng e).ags } ∧
      ∀ k, tget {} (t.eng e).ags k = if k = ag.val then g else tget {} (s.eng e).ags k) ∧
    (∀ (ef : Fin 8) (v : Bool), Leads (.eflagSet e ef v) s fun t =>
      OnlyEngine e s t ∧ t.eng e = { (s.eng e).stepOn with eflags := (t.eng e).eflags } ∧
      ∀ k : Nat, k < 8 → (t.eng e).eflags.getLsbD k = if k = ef.val then v else (s.eng e).eflags.getLsbD k) ∧
    (∀ (c : Fin 4) (v : BitVec 16),
      ((s.core ⟨e, c⟩).fifo.length < 16 → Leads (.scribeRing e c v) s fun t =>
        OnlyEngine e s t ∧ t.eng e = { (s.eng e).stepOn with cores := (t.eng e).cores } ∧
        t.core ⟨e, c⟩ = ({ s.core ⟨e, c⟩ with fifo := (s.core ⟨e, c⟩).fifo ++ [v], meip := true } : Scribe).poll s.now ∧
        ∀ k, k ≠ c → t.core ⟨e, k⟩ = s.core ⟨e, k⟩) ∧
      (16 ≤ (s.core ⟨e, c⟩).fifo.length → Holds (.scribeRing e c v) s)) ∧
    (∀ (td : Fin 32) (ef : Fin 8) (m : BitVec 5),
      (((s.eng e).queued.any fun x => (uopUses (s.eng e) x.2).wtd.contains td.val) = false →
        Leads (.eflagFromTd e td ef m) s fun t =>
          OnlyEngine e s t ∧ t.eng e = { (s.eng e).stepOn with eflags := (t.eng e).eflags } ∧
          ∀ k : Nat, k < 8 → (t.eng e).eflags.getLsbD k =
            if k = ef.val then ((s.eng e).td td.val).nflags &&& m != 0 else (s.eng e).eflags.getLsbD k) ∧
      (((s.eng e).queued.any fun x => (uopUses (s.eng e) x.2).wtd.contains td.val) = true → Holds (.eflagFromTd e td ef m) s))

/-- Sheet flags (03 R104, 01 R31): set, cleared, waited for; and the other words that wait (03 R104, R105): SCRIBE_WAIT, its
doorbell, UNIT_DRAIN and STEP_END. -/
def Obligations.FlagAndWaitWords : Prop :=
  (∀ (e : EngId) (n : Fin 64) (s : State), (s.eng e).pc.toNat < 8191 →
     let h := e.sheet.val
     let put (v : Bool) (t : State) : Prop :=
       OnlySheet h s t ∧ OtherEngines e s t ∧
       { t.sheet h with engines := [], flags := 0 } = { s.sheet h with engines := [], flags := 0 } ∧
       t.eng e = (s.eng e).stepOn ∧
       ∀ k : Nat, k < 64 → (t.sheet h).flags.getLsbD k = if k = n.val then v else (s.sheet h).flags.getLsbD k
     (s.decodes e none = true →
       Leads (.flagSet e n) s (put true) ∧ Leads (.flagClear e n) s (put false) ∧
       ((s.sheet h).flags.getLsbD n.val = true →
         Leads (.flagWait e n) s fun t => OnlyEngine e s t ∧ t.eng e = (s.eng e).stepOn) ∧
       ((s.sheet h).flags.getLsbD n.val = false →
         Leads (.flagWait e n) s fun t =>
           OnlyEngine e s t ∧ t.eng e = { s.eng e with st := .wait, awaits := some (.flag n.val) })) ∧
     (s.running e = true → (s.eng e).awaits = some (.flag n.val) →
       ((s.sheet h).flags.getLsbD n.val = true →
         Leads (.flagWaitRelease e n) s fun t => OnlyEngine e s t ∧ t.eng e = (s.eng e).stepOn) ∧
       ((s.sheet h).flags.getLsbD n.val = false →
         Leads (.flagWaitRelease e n) s fun t =>
           OnlyEngine e s t ∧ t.eng e = { s.eng e with st := .wait, awaits := some (.flag n.val) }))) ∧
  (∀ (e : EngId) (s : State), (s.eng e).pc.toNat < 8191 →
     let took (c : Fin 4) (t : State) : Prop :=
       OnlyEngine e s t ∧ t.eng e = { (s.eng e).stepOn with ring := (t.eng e).ring } ∧
       ∀ k, tget 0 (t.eng e).ring k = if k = c.val then tget 0 (s.eng e).ring k - 1 else tget 0 (s.eng e).ring k
     (∀ c : Fin 4,
       (s.decodes e none = true → tget 0 (s.eng e).ring c.val ≠ 0 → Leads (.scribeWait e c) s (took c)) ∧
       (s.decodes e none = true → tget 0 (s.eng e).ring c.val = 0 → Leads (.scribeWait e c) s fun t =>
         OnlyEngine e s t ∧ t.eng e = { s.eng e with st := .wait, awaits := some (.scribe c.val) }) ∧
       (s.running e = true → (s.eng e).awaits = some (.scribe c.val) → tget 0 (s.eng e).ring c.val ≠ 0 →
         Leads (.scribeWaitDoorbell e c) s (took c))) ∧
     (s.decodes e none = true →
       (s.drained e = true → Leads (.unitDrain e) s fun t => OnlyEngine e s t ∧ t.eng e = (s.eng e).stepOn) ∧
       (s.drained e = false → Holds (.unitDrain e) s) ∧
       Leads (.stepEnd e) s fun t =>
         OnlyEngine e s t ∧
         t.eng e = { s.eng e with st := .wait, awaits := some .stepEnd, arrived := s.drained e && (s.eng e).verdicts.isEmpty }))

/-- Loops and branches (03 R104, R502): where each word goes, and what it leaves of the loop stack. -/
def Obligations.LoopWords : Prop :=
  ∀ (e : EngId) (s : State), s.decodes e none = true →
    let g := s.eng e
    let inside := g.pc.toNat < 8191
    (∀ n : BitVec 24, inside → n ≠ 0 → g.loops.length < 4 → Leads (.loopBegin e n) s fun t =>
      OnlyEngine e s t ∧
      t.eng e = { g.stepOn with loops := g.loops ++ [{ start := g.pc.toNat, count := n.toNat, iter := 0 }] }) ∧
    (∀ n : BitVec 24, n ≠ 0 → 4 ≤ g.loops.length → Leads (.loopBegin e n) s fun t => (t.eng e).st = .halt) ∧
    (∀ j, matchEnd (s.wordAt e) (g.progLen - (g.pc.toNat + 1)) (g.pc.toNat + 1) 0 = some j → j < 8191 →
      Leads (.loopBegin e 0) s fun t => OnlyEngine e s t ∧ t.eng e = { g.stepOn with pc := BitVec.ofNat 13 (j + 1) }) ∧
    (∀ f, g.loops.getLast? = some f → f.iter + 1 < f.count → f.start < 8191 → Leads (.loopEnd e) s fun t =>
      OnlyEngine e s t ∧
      t.eng e = { g.stepOn with pc := BitVec.ofNat 13 (f.start + 1), loops := g.loops.dropLast ++ [{ f with iter := f.iter + 1 }] }) ∧
    (∀ f, inside → g.loops.getLast? = some f → f.count ≤ f.iter + 1 → Leads (.loopEnd e) s fun t =>
      OnlyEngine e s t ∧ t.eng e = { g.stepOn with loops := g.loops.dropLast }) ∧
    (g.loops = [] → Leads (.loopEnd e) s fun t => (t.eng e).st = .halt) ∧
    (∀ (p : Pred) (o : BitVec 13), inside → o ≠ 0 → g.holds p = false → Leads (.branch e p o) s fun t =>
      OnlyEngine e s t ∧ t.eng e = g.stepOn) ∧
    (∀ (p : Pred) (o : BitVec 13) (n : Nat), o ≠ 0 → g.holds p = true → (n : Int) = g.pc.toNat + o.toInt → n < g.progLen →
      n < 8192 → Leads (.branch e p o) s fun t =>
        OnlyEngine e s t ∧ t.eng e = { g.stepOn with pc := BitVec.ofNat 13 n, loops := (t.eng e).loops } ∧
        (t.eng e).loops <+: g.loops) ∧
    ∀ (p : Pred) (o : BitVec 13), o ≠ 0 → g.holds p = true →
      ((g.pc.toNat : Int) + o.toInt < 0 ∨ (g.progLen : Int) ≤ g.pc.toNat + o.toInt) →
      Leads (.branch e p o) s fun t => (t.eng e).st = .halt

/-- INSTRUCTION_DECODE (03 R94): a queued word, a full queue, a predicate that does not hold, a reserved encoding. -/
def Obligations.DecodeQueuesOrRefuses : Prop :=
  ∀ (e : EngId) (s : State), s.decodes e none = true → (s.eng e).pc.toNat < 8191 →
    let g := s.eng e
    let w := s.wordAt e g.pc.toNat
    let word := decodeEngWord g.operandAddr (fun d => (g.loops[d]?).map LoopFrame.iter) g.pc.toNat w
    (g.pc.toNat < g.progLen →
      (∀ u, word = some (.queued u) → g.holds (decodePred w) = true →
        ((g.queueOf (uopUnit u)).length < queueDepth (uopUnit u) → Leads (.instructionDecode e) s fun t =>
          OnlyEngine e s t ∧ t.eng e =
            { g.setQueueOf (uopUnit u) (g.queueOf (uopUnit u) ++ [(g.seq, u)]) with
              seq := g.seq + 1, pc := g.pc + 1, st := .run, awaits := none }) ∧
        (queueDepth (uopUnit u) ≤ (g.queueOf (uopUnit u)).length → Holds (.instructionDecode e) s)) ∧
      (∀ c, word = some (.control c) → g.holds (decodePred w) = true → exec (.instructionDecode e) s = .next (s.runCtl e c)) ∧
      (∀ x, word = some x → g.holds (decodePred w) = false → Leads (.instructionDecode e) s fun t =>
        OnlyEngine e s t ∧ t.eng e = g.stepOn) ∧
      (word = none → Leads (.instructionDecode e) s fun t => (t.eng e).st = .halt)) ∧
    (g.progLen ≤ g.pc.toNat → Leads (.instructionDecode e) s fun t => (t.eng e).st = .halt)

/-- TILE_LOAD, TILE_STORE and ACC_STORE (03 R90, R96; 08 R244, R245): the bytes they write, the bytes they leave, the record with
its new seal, and where the engine halts (R91). -/
def Obligations.TilesMoveBetweenDramAndStore : Prop :=
  (∀ (e : EngId) (o : MoveOp) (d : Disturb) (s : State) (p : Nat),
      s.starts e (.tileLoad o) = true → (s.sheet e.sheet.val).phys e.parcel.val = some p →
      let n := tileBytes o.fmt o.mx
      let a := unitByte o.ps
      (∀ t l, s.wordTile e o = some (t, l) → inStore o.ps n = true → missesProg (s.eng e) o.ps n = true →
        let s' := s.upset l.sheet d
        let k := tileBytes t.fmt t.mx
        let m := (s'.sheet l.sheet).mem
        Leads (.tileLoad e o d) s fun u =>
          StoreTakes e.sheet.val p a (min n k) (fun i => s'.dramAt l.sheet (l.addr + i)) s u ∧
          SameAccs s u ∧ SameDram s' u ∧
          (t.isSealed = true →
            checkTile (m.record l.sealIx) (mread m.dram l.addr k)
              { tensor := t.number.toNat, tile := o.tileIdx.toNat, fmt := some (o.fmt, o.mx) } ≠ none →
            ∀ b ∈ storeBlocks a n, b ∈ ((u.sheet e.sheet.val).parcel p).blkPoison)) ∧
      ((s.wordTile e o = none ∨ inStore o.ps n = false ∨ missesProg (s.eng e) o.ps n = false) →
        Leads (.tileLoad e o d) s fun u => (u.eng e).st = .halt ∧ SameStores s u ∧ SameAccs s u ∧ SameDram s u)) ∧
  ∀ (e : EngId) (o : MoveOp) (d : Disturb) (s : State) (t : Tensor) (l : TileLoc),
      ((s.sheet e.sheet.val).phys e.parcel.val).isSome → s.wordTile e o = some (t, l) →
      let td := (s.eng e).td o.td.val
      let s' := s.upset l.sheet d
      let wrote (f : BitVec 4) (mx : Bool) (bytes : List Byte) (u : State) : Prop :=
        let h := tdHeader td t.number o.tileIdx.toNat f mx
        DramTakes l.sheet l.addr bytes.length (fun i => bytes.getD i 0) s' u ∧ SameStores s u ∧ SameAccs s u ∧
        (t.isSealed = true → ∃ poison, (u.sheet l.sheet).mem.record l.sealIx = mkRecord h poison (sealOf h bytes))
      (s.starts e (.tileStore o) = true →
        (inStore o.ps (tileBytes o.fmt o.mx) = true → t.fmt = o.fmt → t.mx = o.mx →
          Leads (.tileStore e o d) s
            (wrote o.fmt o.mx (mread (s.pmem e).store (unitByte o.ps) (tileBytes o.fmt o.mx)))) ∧
        ((inStore o.ps (tileBytes o.fmt o.mx) = false ∨ t.fmt ≠ o.fmt ∨ t.mx ≠ o.mx) →
          Leads (.tileStore e o d) s fun u => (u.eng e).st = .halt ∧ SameDram s u)) ∧
      (s.starts e (.accStore o) = true →
        (t.fmt = td.fmt → t.mx = false → Leads (.accStore e o d) s (wrote td.fmt false (tdBytes (s.pmem e).acc td))) ∧
        ((t.fmt ≠ td.fmt ∨ t.mx = true) →
          Leads (.accStore e o d) s fun u => (u.eng e).st = .halt ∧ SameDram s u))

/-- ACC_LOAD (03 R90), same exponent and another one. -/
def Obligations.AccLoadTakesTile : Prop :=
  ∀ (e : EngId) (o : MoveOp) (s : State) (t : Tensor) (l : TileLoc) (p : Nat),
    s.starts e (.accLoad o) = true → (s.sheet e.sheet.val).phys e.parcel.val = some p → s.wordTile e o = some (t, l) →
    t.isSealed = true → ((s.eng e).td o.td.val).used = true →
    let td := (s.eng e).td o.td.val
    let m := (s.sheet l.sheet).mem
    let r := m.record l.sealIx
    let bytes := mread m.dram l.addr (tileBytes t.fmt t.mx)
    let frame (u : State) : Prop :=
      AccsBut e.sheet.val p td.accRange.1 td.accRange.2 s u ∧ SameStores s u ∧ SameDram s u
    ((td.f32 = true ∨ recExp r = td.wexp) → Leads (.accLoad e o {}) s fun u =>
      frame u ∧
      (∀ i j, i < min (recRows r) td.vrows.toNat → j < min (recCols r) td.vcols.toNat →
        accElem ((u.sheet e.sheet.val).parcel p).acc td i j = storeElem (bytesMem bytes) 0 td.fmt i j % 2 ^ (8 * td.elemBytes)) ∧
      let td' := (u.eng e).td o.td.val
      td'.nflags = BitVec.ofNat 5 (recFlags r) ∧ td'.bwcnt = BitVec.ofNat 32 (recBw r) ∧ td'.satcnt = BitVec.ofNat 16 (recSat r)) ∧
    (∀ k, td.f32 = false → recExp r ≠ td.wexp → s.roundKey e (o.rm == 0) td.tensor = some k →
      Leads (.accLoad e o {}) s fun u =>
        frame u ∧
        let td' := (u.eng e).td o.td.val
        (∀ b, (BitVec.ofNat 5 (recFlags r)).getLsbD b = true → td'.nflags.getLsbD b = true) ∧
        td'.satcnt.toNat = satCount ((u.sheet e.sheet.val).parcel p).acc td')

/-- PS_TO_ACC, ACC_TO_PS, TABLE_LOAD (03 R96). -/
def Obligations.MoverCopiesOnDie : Prop :=
  ∀ (e : EngId) (o : MoveOp) (s : State) (p : Nat), (s.sheet e.sheet.val).phys e.parcel.val = some p →
    let td := (s.eng e).td o.td.val
    let a := unitByte o.ps
    let r := td.accRange
    let h := e.sheet.val
    (s.starts e (.psToAcc o) = true → inStore o.ps (tileElemBytes td.fmt) = true → Leads (.psToAcc e o {}) s fun u =>
      (∀ i, i < r.2 → u.accAt h p (r.1 + i) = s.storeAt h p (a + i)) ∧ AccsBut h p r.1 r.2 s u ∧ SameStores s u ∧ SameDram s u) ∧
    (s.starts e (.accToPs o) = true → inStore o.ps (tileElemBytes td.fmt) = true →
      missesProg (s.eng e) o.ps (tileElemBytes td.fmt) = true → Leads (.accToPs e o {}) s fun u =>
        let b := tdBytes (s.pmem e).acc td
        StoreTakes h p a b.length (fun i => b.getD i 0) s u ∧ SameAccs s u ∧ SameDram s u) ∧
    (s.starts e (.tableLoad o) = true → inStore o.ps tableBytes = true → Leads (.tableLoad e o {}) s fun u =>
      let old := ((s.sheet h).parcel p).fnTables
      let new := ((u.sheet h).parcel p).fnTables
      (∀ k, tget {} new k = if k = o.td.val % 8 then readTable (s.pmem e).store a else tget {} old k) ∧
      SameStores s u ∧ SameAccs s u ∧ SameDram s u)

/-- TILE_SEND and TILE_RECV (03 R96; 08 R243, R245). -/
def Obligations.TilesTravelRoutes : Prop :=
  ∀ (e : EngId) (o : MoveOp) (s : State) (p : Nat), (s.sheet e.sheet.val).phys e.parcel.val = some p →
    let h := e.sheet.val
    let td := (s.eng e).td o.td.val
    let f := if o.src then td.fmt else o.fmt
    let mx := !o.src && o.mx
    let n := tileBytes f mx
    (∀ (r : Route) (g : EngId), s.starts e (.tileSend o) = true → (o.src = true ∨ inStore o.ps n = true) →
      (s.sheet h).routeOf o.handle = some r → r.dests = [.engine g] → r.reduces = false →
      Leads (.tileSend e o {}) s fun u =>
        let bytes := if o.src then tdBytes (s.pmem e).acc td else mread (s.pmem e).store (unitByte o.ps) n
        SameDram s u ∧
        ∃ (a : Arrival) (l : List Arrival), (u.eng g).inbox = (s.eng g).inbox ++ a :: l ∧
          ((∀ i, i < 16 → (s.sheet i).readyNode = none) → l = []) ∧ a.route = r.handle ∧ a.src = .engine e ∧
          a.image.length = 32 + bytes.length ∧ a.image.drop 32 = bytes ∧ recTensor a.image = td.tensor.toNat ∧
          recTile a.image = o.tileIdx.toNat) ∧
    (∀ a, s.starts e (.tileRecv o) = true → (s.eng e).firstArrival o.handle = some a →
      (o.src = true ∨ inStore o.ps n = true ∧ missesProg (s.eng e) o.ps n = true) →
      checkTile (a.image.take 32) (a.image.drop 32)
        { tensor := td.tensor.toNat, tile := o.tileIdx.toNat, fmt := some (f, mx) } = none →
      Leads (.tileRecv e o {}) s fun u =>
        SameDram s u ∧ (u.eng e).inbox = takeArrival o.handle (s.eng e).inbox ∧
        (o.src = false →
          let b := (a.image.drop 32).take n
          StoreTakes h p (unitByte o.ps) b.length (fun i => b.getD i 0) s u ∧ SameAccs s u) ∧
        (o.src = true → td.used = true → SameStores s u ∧ AccsBut h p td.accRange.1 td.accRange.2 s u ∧
          ∀ i j, i < min (recRows a.image) td.vrows.toNat → j < min (recCols a.image) td.vcols.toNat →
            accElem ((u.sheet h).parcel p).acc td i j =
              storeElem (bytesMem (a.image.drop 32)) 0 td.fmt i j % 2 ^ (8 * td.elemBytes)))

/-- Combine-at-memory (03 R117, R118; 08 R252). -/
def Obligations.CombineAtMemoryAdds : Prop :=
  (∀ (e : EngId) (o : MoveOp) (s : State) (t : Tensor) (l : TileLoc),
    s.starts e (.tileAddMem o) = true → s.wordTile e o = some (t, l) → t.fmt = ((s.eng e).td o.td.val).fmt → t.mx = false →
    ((s.sheet e.sheet.val).phys e.parcel.val).isSome →
    let td := (s.eng e).td o.td.val
    Leads (.tileAddMem e o {}) s fun u =>
      SameDram s u ∧ SameStores s u ∧ SameAccs s u ∧
      ∃ x : AddReq, (u.sheet l.sheet).mem.adds = (s.sheet l.sheet).mem.adds ++ [x] ∧ x.eng = e ∧ x.tensor = t ∧
        x.tile = o.tileIdx.toNat ∧ x.loc = (l.sheet, l.addr, l.sealIx) ∧ x.bytes = tdBytes (s.pmem e).acc td ∧
        x.header = tdHeader td t.number o.tileIdx.toNat td.fmt false) ∧
  ∀ (h : SheetId) (s : State) (a : AddReq),
    a ∈ (s.sheet h.val).mem.adds → nextAdd (s.sheet h.val).mem.adds = some a →
    (∀ b ∈ (s.sheet h.val).mem.adds, b.before a = false) ∧ ( a.tensor.isSealed = true → a.tensor.fmt = 10 → a.tensor.mx = false → a.loc.1 = h.val →
    s.stalls h.val a.loc.2.1 (tileBytes a.tensor.fmt a.tensor.mx) = false →
    let m := (s.sheet h.val).mem
    let r := m.record a.loc.2.2
    let old := mread m.dram a.loc.2.1 (tileBytes a.tensor.fmt a.tensor.mx)
    recWritten r = true → checkTile r old { tensor := a.tensor.number.toNat, tile := a.tile, fmt := none } = none →
    Leads (.sliceAdd h {}) s fun u =>
      let new := (addA64 16384 old (clipBytes 10 (recRows a.header) (recCols a.header) a.bytes)).1
      (u.sheet h.val).mem.adds = (s.sheet h.val).mem.adds.erase a ∧ DramTakes h.val a.loc.2.1 new.length (fun i => new.getD i 0) s u ∧
      SameStores s u ∧ SameAccs s u)

/-- MMA (03 R97, R98): each element of the product. -/
def Obligations.MmaAccumulates : Prop :=
  ∀ (e : EngId) (o : MmaOp) (s : State) (p : Nat),
    s.starts e (.mma o) = true → (s.sheet e.sheet.val).phys e.parcel.val = some p →
    let td := (s.eng e).td o.td
    let ok := inStore o.a (tileBytes o.afmt o.amx) && (o.bkeep || inStore o.b (tileBytes o.bfmt o.bmx)) && td.used &&
      decide (o.roff + o.rows ≤ td.vrows.toNat)
    (∀ k, ok = true → s.roundKey e (!td.f32 || td.frm == 0) td.tensor = some k → Leads (.mma e o {}) s fun u =>
      let b := s.bOperand e o
      AccsBut e.sheet.val p td.accRange.1 td.accRange.2 s u ∧ SameStores s u ∧ SameDram s u ∧
      (u.eng e).bReg = some b ∧
      (∃ v : Verdict, (u.eng e).verdicts = (s.eng e).verdicts ++ [v] ∧ v.td = o.td ∧ v.kblk = o.kblk ∧ v.pc = o.pc) ∧
      ∀ i j x y, (s.aRows e o)[i]? = some x → (b.rows td.vcols.toNat)[j]? = some y →
        let w := if !td.f32 || td.frm == 0 then
          roundThreshold k.1 k.2 (s.stepNo e.sheet.val) (td.elemIndex (o.roff + i) j) o.kblk else 0
        let old := if o.init then 0 else accElem (s.pmem e).acc td (o.roff + i) j
        accElem ((u.sheet e.sheet.val).parcel p).acc td (o.roff + i) j =
          (takeBlock td w old (partialOf x y)).1 % 2 ^ (8 * td.elemBytes)) ∧
    (ok = false → Leads (.mma e o {}) s fun u => (u.eng e).st = .halt ∧ SameAccs s u ∧ SameStores s u ∧ SameDram s u)

/-- The arithmetic check (03 R108-R111) answers clean for every product of undisturbed partials: it raises no false alarm. -/
def Obligations.CheckHasNoFalseAlarm : Prop :=
  ∀ as bs : List (List Val), (∀ r ∈ as, r.length = 128) → (∀ r ∈ bs, r.length = 128) →
    checkProduct as bs (partialsOf as bs) [] = none

/-- The arithmetic check (03 R110, R112) finds a single upset partial, where the amount added has a residue other than 0. -/
def Obligations.CheckFindsOneUpset : Prop :=
  ∀ (as bs : List (List Val)) (i j : Nat) (x : Int), (∀ r ∈ as, r.length = 128) → (∀ r ∈ bs, r.length = 128) →
    i < as.length → j < bs.length → residue x (-512) ≠ 0 →
    checkProduct as bs (upsetPartials (partialsOf as bs) [(i, j, x)]) [] = some (i, j)

/-- ARITHMETIC_CHECK_VERDICT (03 R112, R113; address 13 R368). -/
def Obligations.VerdictRaisesMismatch : Prop :=
  ∀ (e : EngId) (s : State) (v : Verdict) (rest : List Verdict), (s.eng e).verdicts = v :: rest →
    (∀ p, (s.sheet e.sheet.val).phys e.parcel.val = some p → p < 18) →
    let h := e.sheet.val
    (v.bad = none → Leads (.arithmeticCheckVerdict e) s fun u =>
      (u.eng e).verdicts = rest ∧ (u.sheet h).wire = (s.sheet h).wire ∧ u.parts = s.parts ∧ SameDram s u ∧ SameStores s u ∧
      SameAccs s u) ∧
    (∀ r c, v.bad = some (r, c) → Leads (.arithmeticCheckVerdict e) s fun u =>
      (u.eng e).verdicts = rest ∧ SameDram s u ∧ SameStores s u ∧ SameAccs s u ∧
      ∃ m : FaultMsg, (u.sheet h).wire = (s.sheet h).wire ++ [m] ∧ m.kind = 0x201 ∧ m.address = checkAddr v.td v.kblk r c)

/-- ROW_CHAIN (03 R99, R100). -/
def Obligations.RowChainIntoRows : Prop :=
  ∀ (e : EngId) (o : ChainOp) (s : State) (p : Nat),
    s.starts e (.rowChain o) = true → (s.sheet e.sheet.val).phys e.parcel.val = some p →
    let h := e.sheet.val
    let x : RowDest := { dst := o.dst.val, dsel := o.dsel, dadr := o.dadr, dfmt := o.dfmt, dmx := o.dmx }
    let src := (s.eng e).td o.src.val
    let dst := (s.eng e).td o.dst.val
    let d64 := { dst with f32 := false }
    let ok := s.destOk e x && (o.scmode.toNat == 0 || inStore o.scadr 512) && (o.bmode.toNat == 0 || inStore o.badr 1024)
    (∀ k, ok = true → dst.used = true → s.roundKey e (o.rm == 0) dst.tensor = some k → Leads (.rowChain e o {}) s fun u =>
      SameDram s u ∧
      (o.dsel = true → SameStores s u ∧ AccsBut h p d64.accRange.1 d64.accRange.2 s u ∧
        ∀ i j, i < o.nrows → o.frow + i < dst.vrows.toNat → j < dst.vcols.toNat →
          let pm := s.pmem e
          let v := (chainElem o src pm (tget {} pm.fnTables (o.fn.toNat - 8)) (o.frow + i) j).1
          let w := if o.rm.toNat = 0 then
            roundThreshold k.1 k.2 (s.stepNo h) (dst.elemIndex (o.frow + i) j) mConv else 0
          accElem ((u.sheet h).parcel p).acc d64 (o.frow + i) j = a64Code (rowToA64 o.rm w dst.wexp v).1 % 2 ^ 64) ∧
      (o.dsel = false → SameAccs s u ∧ StoresBut h p (unitByte o.dadr) x.bytes s u)) ∧
    (ok = false → Leads (.rowChain e o {}) s fun u => (u.eng e).st = .halt ∧ SameAccs s u ∧ SameStores s u ∧ SameDram s u)

/-- RED_SUM, RED_MOMENTS, RED_FINISH (03 R101; 02 R63, R64) with an accumulator destination. -/
def Obligations.ReductionsIntoRows : Prop :=
  ∀ (e : EngId) (o : RedOp) (s : State) (p : Nat) (k : Nat × Nat),
    (s.sheet e.sheet.val).phys e.parcel.val = some p → o.dsel = true →
    let h := e.sheet.val
    let src := (s.eng e).td o.src.val
    let dst := (s.eng e).td o.dst.val
    let d64 := { dst with f32 := false }
    let pm := s.pmem e
    let inside (q : Nat × Nat) : Prop := q.1 < dst.vrows.toNat ∧ q.2 < dst.vcols.toNat
    let frame (u : State) : Prop :=
      SameDram s u ∧ SameStores s u ∧ AccsBut h p d64.accRange.1 d64.accRange.2 s u
    let elem (u : State) (q : Nat × Nat) : Nat := accElem ((u.sheet h).parcel p).acc d64 q.1 q.2
    let thr (i j : Nat) : Nat :=
      if o.rm.toNat = 0 then roundThreshold k.1 k.2 (s.stepNo h) (src.elemIndex i j) mRed else 0
    let join (q : Nat × Nat) (v : A64) : Nat :=
      a64Code (if o.cont then (a64Sum (a64Of (accElem pm.acc d64 q.1 q.2)) v).1 else v) % 2 ^ 64
    dst.used = true →
    (s.starts e (.redSum o) = true → s.roundKey e (o.rm == 0 && src.f32) dst.tensor = some k →
      Leads (.redSum e o {}) s fun u => frame u ∧
        ∀ g ∈ redSums o src pm.acc thr false, inside (redPlace o.dir g.1 0) →
          elem u (redPlace o.dir g.1 0) = join (redPlace o.dir g.1 0) g.2.s1) ∧
    (s.starts e (.redMoments o) = true → s.roundKey e (o.rm == 0) dst.tensor = some k →
      Leads (.redMoments e o {}) s fun u => frame u ∧
        ∀ g ∈ redSums o src pm.acc thr true,
          (inside (redPlace o.dir g.1 0) → elem u (redPlace o.dir g.1 0) = join (redPlace o.dir g.1 0) g.2.s1) ∧
          (inside (redPlace o.dir g.1 1) → elem u (redPlace o.dir g.1 1) = join (redPlace o.dir g.1 1) g.2.s2)) ∧
    (s.starts e (.redFinish o) = true → s.roundKey e (o.rm == 0) dst.tensor = some k →
      Leads (.redFinish e o {}) s fun u => frame u ∧
        ∀ g, (if o.dir then g < src.vcols.toNat else o.frow ≤ g ∧ g < o.frow + o.nrows) →
          let at_ (n : Nat) : A64 :=
            let q := redPlace o.dir g n
            if q.1 < src.vrows.toNat ∧ q.2 < src.vcols.toNat then a64Of (accElem pm.acc { src with f32 := false } q.1 q.2)
            else .int 0
          let res := finishSums src.wexp o.dsh o.count (at_ 0) (at_ 1)
          let w (q : Nat × Nat) : Nat :=
            if o.rm.toNat = 0 then roundThreshold k.1 k.2 (s.stepNo h) (dst.elemIndex q.1 q.2) mConv else 0
          let put (q : Nat × Nat) (v : RowVal) : Prop :=
            inside q → elem u q = a64Code (rowToA64 o.rm (w q) dst.wexp v).1 % 2 ^ 64
          put (redPlace o.dir g 0) res.1 ∧ put (redPlace o.dir g 1) res.2.1)

/-- CONVERT and REWINDOW (03 R102; 02 R61). -/
def Obligations.ConversionsIntoRows : Prop :=
  ∀ (e : EngId) (o : ConvOp) (s : State) (p : Nat) (k : Nat × Nat),
    (s.sheet e.sheet.val).phys e.parcel.val = some p →
    let h := e.sheet.val
    let src := (s.eng e).td o.src.val
    let dst := (s.eng e).td o.dst.val
    let d64 := { dst with f32 := false }
    let pm := s.pmem e
    let dest (a64 : Bool) : RowDest :=
      { dst := o.dst.val, dsel := o.dsel, dadr := o.dadr, dfmt := if a64 then 10 else o.dfmt, dmx := !a64 && o.dmx }
    let val (i j : Nat) : RowVal :=
      if src.f32 = false ∧ i < src.vrows.toNat ∧ j < src.vcols.toNat then
        match a64Of (accElem pm.acc src i j) with
        | .int v => if a64IsSat (.int v) then .sat (decide (v < 0)) else rowOfVal (srcVal pm.acc src i j)
        | .nan => rowOfVal (srcVal pm.acc src i j)
      else rowOfVal (srcVal pm.acc src i j)
    let did (a64 : Bool) (u : State) : Prop :=
      SameDram s u ∧
      (o.dsel = true → SameStores s u ∧ AccsBut h p d64.accRange.1 d64.accRange.2 s u ∧
        ∀ i j, i < o.nrows → o.frow + i < dst.vrows.toNat → j < dst.vcols.toNat →
          let w := if o.rm.toNat = 0 then
            roundThreshold k.1 k.2 (s.stepNo h) (dst.elemIndex (o.frow + i) j) mConv else 0
          accElem ((u.sheet h).parcel p).acc d64 (o.frow + i) j =
            a64Code (rowToA64 o.rm w dst.wexp (val (o.frow + i) j)).1 % 2 ^ 64) ∧
      (o.dsel = false → SameAccs s u ∧ StoresBut h p (unitByte o.dadr) (dest a64).bytes s u)
    dst.used = true → s.roundKey e (o.rm == 0) dst.tensor = some k →
    (s.starts e (.convert o) = true → s.destOk e (dest false) = true → Leads (.convert e o {}) s (did false)) ∧
    (s.starts e (.rewindow o) = true → s.destOk e (dest true) = true → Leads (.rewindow e o {}) s (did true))

/-- The four pass words of a draw with weights (04 R133, R140): what each reports to the hub. -/
def Obligations.PassWordsReport : Prop :=
  ∀ (e : EngId) (o : PassOp) (s : State),
    let home := s.homeOf e.sheet.val o.slot.val
    let r := ((s.sheet home).slot o.slot.val).pend
    let mask := s.maskUnit e.sheet.val r.mask
    let els := (readVector (s.pmem e) ((s.eng e).td o.src.val) mask o.vbase o.nelem).1
    let same (u : State) : Prop := SameDram s u ∧ SameStores s u ∧ SameAccs s u
    let hub (u : State) : Option HubCtx := (u.sheet home).hubOf o.slot.val
    ((s.sheet e.sheet.val).phys e.parcel.val).isSome →
    (s.starts e (.smpMax o) = true → (s.participants home o.slot.val).contains e = true →
      let c := (hub s).getD { slot := o.slot.val }
      (c.stage = .idle → (∀ x ∈ c.opened, x.1 ≠ e) → Leads (.smpMax e o {}) s fun u => same u ∧
        ∃ p : PassReport, p.eng = e ∧ p.logits = (els.filterMap fun x => x.2.map fun l => (x.1, l)) ∧
          hub u = some { c with opened := c.opened ++ [(e, o)], arrived := c.arrived ++ [p] }) ∧
      (c.stage ≠ .idle → Leads (.smpMax e o {}) s fun u => same u ∧ (u.sheet home).hubs = (s.sheet home).hubs)) ∧
    (∀ c, hub s = some c → r.greedy = false → c.empty = false → (c.opened.any fun x => x.1 == e && sameFields x.2 o) = true →
      let weighs (u : State) : Prop := same u ∧
        ∃ p : PassReport, p.eng = e ∧ p.weights = (els.map fun x => (x.1, (weightOf r (c.lmax.getD 0) x.2).1)) ∧
          hub u = some { c with arrived := c.arrived ++ [p] }
      let refused (u : State) : Prop := same u ∧ (u.sheet home).hubs = (s.sheet home).hubs
      (s.starts e (.smpWeigh o) = true →
        (c.stage = .maxed → Leads (.smpWeigh e o {}) s weighs) ∧ (c.stage ≠ .maxed → Leads (.smpWeigh e o {}) s refused)) ∧
      (s.starts e (.smpCut o) = true →
        (c.stage = .weighed → Leads (.smpCut e o {}) s weighs) ∧ (c.stage ≠ .weighed → Leads (.smpCut e o {}) s refused)) ∧
      (s.starts e (.smpDraw o) = true →
        (c.stage = .cut ∨ c.stage = .drawn → Leads (.smpDraw e o {}) s fun u => same u ∧
          ∃ b : Bool, hub u = some { c with draws := c.draws ++ [(e, o)], poison := b, scan := c.scan ++ els.map fun x => (x.1, (weightOf r (c.lmax.getD 0) x.2).1) }) ∧
        (c.stage ≠ .cut ∧ c.stage ≠ .drawn → Leads (.smpDraw e o {}) s refused)))

/-- HUB_REDUCTION (04 R133), passes A to C of a draw with weights, at a slot's home hub, and the part that another device sends to it
(R121, R144). -/
def Obligations.HubDecidesPasses : Prop :=
  ∀ (h : SheetId) (n : Fin 128) (s : State) (c : HubCtx), (s.sheet h.val).hubOf n.val = some c →
    let r := ((s.sheet h.val).slot n.val).pend
    let hub (u : State) : Option HubCtx := (u.sheet h.val).hubOf n.val
    let frame (u : State) : Prop :=
      SameDram s u ∧ SameStores s u ∧ SameAccs s u ∧ ((u.sheet h.val).slot n.val).reg = ((s.sheet h.val).slot n.val).reg
    let phase (u : State) : SlotPhase := ((u.sheet h.val).slot n.val).phase
    let home := ((s.sheet h.val).slot n.val).homeDev
    (home ≠ none → s.allHere h.val n.val c = false ∨ c.sentPass = some c.pass → Holds (.hubReduction h n {}) s) ∧
    (home ≠ none → s.allHere h.val n.val c = true → c.sentPass ≠ some c.pass →
      Leads (.hubReduction h n {}) s fun u => frame u ∧ hub u = some { c with sentPass := some c.pass }) ∧
    (home = none → s.allArrived h.val n.val c = false → Holds (.hubReduction h n {}) s) ∧
    (home = none → c.draws = [] → s.allArrived h.val n.val c = true →
      (c.stage = .idle → rangesOk 0 c.ranges = true →
        Leads (.hubReduction h n {}) s fun u => frame u ∧ phase u = .maxed ∧
          ∃ c', hub u = some c' ∧ c'.stage = .maxed ∧ c'.arrived = [] ∧
            (∀ x ∈ c.arrived.flatMap fun p => p.logits, ∃ m, c'.lmax = some m ∧ x.2 ≤ m) ∧
            (∀ m, c'.lmax = some m → ∃ x ∈ c.arrived.flatMap fun p => p.logits, x.2 = m)) ∧
      (c.stage = .maxed → r.greedy = false →
        Leads (.hubReduction h n {}) s fun u => frame u ∧ phase u = .weighed ∧
          let ws := sortDesc ((c.arrived.flatMap fun p => p.weights).map Prod.snd)
          ∃ c', hub u = some c' ∧ c'.stage = .weighed ∧ c'.arrived = [] ∧ c'.sAll = ws.sum ∧ (c'.empty = true ↔ ws.sum = 0) ∧
            (ws.sum ≠ 0 → (c'.qk, c'.tau) = ((cutK ws r.topk.toNat).1, (cutK ws r.topk.toNat).2.1) ∧
              c'.qp = (cutP ws ws.sum r.topp.toNat).1)) ∧
      (c.stage = .weighed → c.empty = false →
        Leads (.hubReduction h n {}) s fun u => frame u ∧ phase u = .cut ∧
          ∃ c', hub u = some c' ∧ c'.stage = .cut ∧ c'.arrived = [] ∧
            c'.kept = keptOf c.qk c.tau c.qp 0 (sortIdx (c.arrived.flatMap fun p => p.weights)) ∧
            c'.total = (c'.kept.map Prod.snd).sum))

/-- HUB_REDUCTION of pass D (04 R136, R139): the index, KEPT and TARGET. Where the weights read again do not reach the target the
index is a free value (log 61). -/
def Obligations.HubDrawsIndex : Prop :=
  (∀ (h : SheetId) (n : Fin 128) (s : State) (c : HubCtx) (o : PassOp) (k0 k1 p : Nat),
     (s.sheet h.val).hubOf n.val = some c → ((s.sheet h.val).slot n.val).homeDev = none → c.draws ≠ [] → s.allArrived h.val n.val c = true → c.empty = false →
     let hp := s.homeParcel h.val n.val
     let r := ((s.sheet h.val).slot n.val).pend
     (c.draws.find? fun x => x.1 == hp) = some (hp, o) → r.greedy = false →
     s.streamOn h.val { purpose := 1, slot := r.gslot, tensor := r.tensor } = some (k0, k1) →
     let a := 64 * o.ibuf.toNat + 4 * o.iword
     0 ≤ o.ibuf → a + 4 ≤ storeBytes → missesProg (s.eng hp) (o.ibuf + (4 * o.iword / 64 : Nat)) 4 = true →
     (s.sheet hp.sheet.val).phys hp.parcel.val = some p →
     Leads (.hubReduction h n {}) s fun u =>
       let t := (laneAt k0 k1 r.step.toNat (2 ^ 48 - 1) o.draw % 2 ^ 64 * c.total) >>> 64
       let idx := c.scanIndex t (Config.freeValue s.free % 2 ^ 32)
       let x := (u.sheet h.val).slot n.val
       x.pend.index = BitVec.ofNat 32 idx ∧ x.pend.kept = BitVec.ofNat 64 c.total ∧ x.pend.target = BitVec.ofNat 64 t ∧
       x.reg = ((s.sheet h.val).slot n.val).reg ∧ x.phase = .drawn ∧
       StoreTakes hp.sheet.val p a 4 (fun i => (leBytes 4 idx).getD i 0) s u ∧ SameAccs s u ∧ SameDram s u) ∧
  (∀ (c : HubCtx) (t w : Nat), rangesOk 0 c.ranges = true → c.weights.Pairwise (fun a b => a.1 < b.1) →
     (∀ x ∈ c.weights, x.1 < (c.ranges.map Prod.snd).sum) → c.kept = keptOf c.qk c.tau c.qp 0 c.weights →
     c.scan.Perm c.weights → t < (c.kept.map Prod.snd).sum → c.scanIndex t w = pickIndex t 0 c.kept) ∧
  (∀ (kept : List (Nat × Nat)) (t : Nat), t < (kept.map Prod.snd).sum →
     ∃ (a b : List (Nat × Nat)) (i q : Nat), kept = a ++ (i, q) :: b ∧ pickIndex t 0 kept = i ∧
       (a.map Prod.snd).sum ≤ t ∧ t < (a.map Prod.snd).sum + q)

/-- Top-k (04 R135) keeps exactly the TOPK largest weights above 0, equal ones by lower index. -/
def Obligations.TopKKeepsExactly : Prop :=
  ∀ (ws : List Nat) (topk : Nat), 0 < topk →
    let l := ws.zipIdx.map fun x => (x.2, x.1)
    let c := cutK (sortDesc ws) topk
    let kept := keptOf c.1 c.2.1 0 0 l
    kept.length = min topk (ws.filter (0 < ·)).length ∧ kept.Sublist l ∧
    ∀ i j, i < ws.length → j < ws.length → (i, ws.getD i 0) ∈ kept → (j, ws.getD j 0) ∉ kept → 0 < ws.getD j 0 →
      ws.getD j 0 ≤ ws.getD i 0 ∧ (ws.getD j 0 = ws.getD i 0 → i < j)

/-- Top-p (04 R135): the kept weight reaches the target, and without the elements at the threshold it does not. -/
def Obligations.TopPCoversItsMass : Prop :=
  ∀ (ws : List Nat) (topp : Nat), ws.sum ≠ 0 → topp < 65536 →
    let qp := (cutP (sortDesc ws) ws.sum topp).1
    let kept := keptOf 0 none qp 0 (ws.zipIdx.map fun x => (x.2, x.1))
    let m := (ws.sum * topp + 65535) / 65536
    m ≤ (kept.map Prod.snd).sum ∧ (0 < m → (ws.filter (qp < ·)).sum < m)

/-- SMP_BERNOULLI, SMP_HEATBATH, SMP_METROPOLIS (04 R147). -/
def Obligations.BinaryDecisions : Prop :=
  ∀ (e : EngId) (o : BinOp) (s : State) (p : Nat) (k : Nat × Nat),
    (s.sheet e.sheet.val).phys e.parcel.val = some p →
    let h := e.sheet.val
    let r := ((s.sheet h).slot o.slot.val).pend
    let src := (s.eng e).td o.src.val
    let dst := (s.eng e).td o.dst.val
    let d64 := { dst with f32 := false }
    let bound (purpose : BitVec 4) : Prop :=
      s.streamOn h { purpose := purpose, slot := r.gslot, tensor := r.tensor } = some k
    let did (kd : BinKind) (u : State) : Prop :=
      SameDram s u ∧ SameStores s u ∧ AccsBut h p d64.accRange.1 d64.accRange.2 s u ∧
      ((u.sheet h).slot o.slot.val).drew = true ∧
      ∀ i j, i < o.nrows → o.frow + i < src.vrows.toNat → o.frow + i < dst.vrows.toNat → j < src.vcols.toNat →
        j < dst.vcols.toNat →
        accElem ((u.sheet h).parcel p).acc d64 (o.frow + i) j =
          match q24Val (accVal (s.pmem e).acc src (o.frow + i) j) with
          | none => 0
          | some y =>
            b2n (decide1 kd o.b2 r y.1 (uniform32 k r.step.toNat (dst.elemIndex (o.frow + i) j) o.draw)).1
    dst.used = true →
    (s.starts e (.bernoulli o) = true → bound 1 → Leads (.smpBernoulli e o {}) s (did .bernoulli)) ∧
    (s.starts e (.heatbath o) = true → (r.greedy = false → bound 1) → Leads (.smpHeatbath e o {}) s (did .heatbath)) ∧
    (s.starts e (.metropolis o) = true → (r.greedy = false → bound 6) → Leads (.smpMetropolis e o {}) s (did .metropolis))

/-- The acceptance bound (06 R190): the set of accepted operands is closed downward and ends at the bound. -/
def Obligations.AcceptanceBoundDecides : Prop :=
  ∀ (r : ChainRegs) (b2 heat : Bool) (u : Nat), u < 2 ^ 32 →
    let β := acceptBound (chainAccepts r b2 heat u)
    (∀ x : Int, -a64Max ≤ x → x ≤ a64Max → (chainAccepts r b2 heat u x = true ↔ x ≤ β)) ∧
    (β = -(2 ^ 63) ∨ (-a64Max ≤ β ∧ β ≤ a64Max ∧ chainAccepts r b2 heat u β = true)) ∧
    (∀ r' : ChainRegs, r'.invt = r.invt → r'.eexp = r.eexp → (r'.teff = 0 ↔ r.teff = 0) →
      acceptBound (chainAccepts r' b2 heat u) = β)

/-- Settled mode equals the sequential sweep (06 R195), over one block. -/
def Obligations.SettledBlockIsSequential : Prop :=
  ∀ (r : ChainRegs) (b2 heat : Bool) (u : Nat → Nat) (q : Nat → Nat → Int) (js : List Nat) (x : Nat → Bool) (f : Nat → Int)
    (c : Nat),
    js.Nodup → (∀ j, u j < 2 ^ 32) →
    (∀ j ∈ js, (f j).natAbs + (js.map fun i => (q j i).natAbs).sum ≤ 2 ^ 63 - 1) →
    let out := settleVars q heat false [] (js.map fun j => proposeVar r b2 heat (u j) c j (x j) (some (f j)))
    out.map (fun v => v.j) = js ∧
    ∀ v ∈ out, v.final = seqSweep q (fun j => chainAccepts r b2 heat (u j)) heat js x f v.j

/-- The sum of δ_i · F'_i is the exact energy change (06 R194, R195, R196). -/
def Obligations.AppliedEnergyIsTheChange : Prop :=
  ∀ (h : Nat → Int) (q : Nat → Nat → Int) (n : Nat) (x : Nat → Bool) (heat sync : Bool) (vars : List SettleVar),
    (∀ i j, q i j = q j i) → (∀ i, q i i = 0) → (vars.map fun v => v.j).Nodup →
    (∀ v ∈ vars, v.j < n ∧ v.x = x v.j ∧ v.field = some (modelField h q n x v.j)) →
    (∀ v ∈ vars, (modelField h q n x v.j).natAbs + (vars.map fun w => (q v.j w.j).natAbs).sum ≤ 2 ^ 63 - 1) →
    let out := settleVars q heat sync [] vars
    let y (i : Nat) : Bool := match out.find? fun v => v.j == i with | some v => v.final | none => x i
    (out.map fun v => ((b2n v.final : Int) - b2n v.x) * v.fprime).sum = modelEnergy h q n y - modelEnergy h q n x

/-- CPL_FIELDS (06 R185, R186, R211). -/
def Obligations.FieldsSetAndCompared : Prop :=
  ∀ (e : EngId) (o : FieldsOp) (s : State) (p : Nat), (s.sheet e.sheet.val).phys e.parcel.val = some p → p < 18 →
    let h := e.sheet.val
    let src := (s.eng e).td o.src.val
    let dst := (s.eng e).td o.dst.val
    s.starts e (.fields o) = true → s.slotsOk e o.slot.val o.nch = true → fieldTileOk src o.nch = true →
    fieldTileOk dst o.nch = true →
    (o.mode = false → inStore o.hadr 1024 = true → Leads (.cplFields e o {}) s fun u =>
      SameDram s u ∧ SameStores s u ∧ AccsBut h p dst.accRange.1 dst.accRange.2 s u ∧
      ∀ c j, c < o.nch → j < dst.vcols.toNat →
        accElem ((u.sheet h).parcel p).acc dst c j = a64Code (hElem (s.pmem e).store o.hadr j) % 2 ^ 64) ∧
    (o.mode = true →
      let same (c j : Nat) : Prop := accElem (s.pmem e).acc src c j = accElem (s.pmem e).acc dst c j
      let inside (c j : Nat) : Prop := c < o.nch ∧ j < src.vcols.toNat ∧ j < dst.vcols.toNat
      ((∀ c j, inside c j → same c j) → Leads (.cplFields e o {}) s fun u =>
        SameMemories s u ∧ (u.sheet h).wire = (s.sheet h).wire) ∧
      ((∃ c j, inside c j ∧ ¬same c j) → Leads (.cplFields e o {}) s fun u =>
        SameMemories s u ∧ Raises h 0x230 (BitVec.ofNat 64 o.dst.val) s u))

/-- The three words of one block (06 R193, R194, R196, R211). -/
def Obligations.BlockIsProposedSettledApplied : Prop :=
  ∀ (e : EngId) (s : State) (p : Nat), (s.sheet e.sheet.val).phys e.parcel.val = some p → p < 18 →
    let h := e.sheet.val
    let store (u : State) : Mem := ((u.sheet h).parcel p).store
    let broken (c : Instr) (pc : Nat) : Prop := Leads c s fun u =>
      SameMemories s u ∧ Raises h 0x233 (BitVec.ofNat 64 (pc % 8192)) s u ∧ (u.eng e).settle = (s.eng e).settle
    (∀ o : ProposeOp, s.starts e (.propose o) = true →
      let src := (s.eng e).td o.src.val
      let home := s.homeOf h o.slot.val
      let mask := s.maskBytes e o
      let js := (List.range src.vcols.toNat).filter (proposedBit (store s) mask)
      ((s.eng e).settle ≠ none → broken (.cplPropose e o {}) o.pc) ∧
      (∀ key : Nat → (Nat × Nat) × Nat, (s.eng e).settle = none → s.slotsOk e o.slot.val o.nch = true →
        fieldTileOk src o.nch = true → (o.cchk = true → s.proposalListed e o = true) →
        inStore o.radr (recordBytes o.nch) = true → (o.aux = 0 ∨ mask ≠ none) →
        (∀ c, c < o.nch → s.slotKey e 6 (o.slot.val + c) = some (key c)) →
        Leads (.cplPropose e o {}) s fun u => SameMemories s u ∧
          ∃ b, (u.eng e).settle = some b ∧ b.slot = o.slot.val ∧ b.nch = o.nch ∧ b.src = o.src.val ∧ b.heat = o.heat ∧
            b.sync = o.sync ∧ b.done = false ∧
            b.vars = (List.range o.nch).flatMap fun c => js.map fun j =>
              proposeVar (s.chainAt home (o.slot.val + c)).pend ((s.sheet h).slot (o.slot.val + c)).pend.base2 o.heat
                (uniform32 (key c).1 (key c).2 (src.elemIndex c j) o.draw) c j (stateBit (store s) o.radr c j)
                (fieldAt (s.pmem e).acc src c j))) ∧
    (∀ o : SettleOp, s.starts e (.settle o) = true →
      let src := (s.eng e).td o.src.val
      let home := s.homeOf h o.slot.val
      ((s.eng e).settle = none → broken (.cplSettle e o {}) o.pc) ∧
      (∀ (b : SettleBuf) (q : Nat → Nat → Int), (s.eng e).settle = some b → b.done = false → b.slot = o.slot.val →
        b.nch = o.nch → b.src = o.src.val → s.slotsOk e o.slot.val o.nch = true → fieldTileOk src o.nch = true →
        inStore o.qadr (tileBytes o.qfmt false) = true →
        (∀ c, ((b.vars.filter fun v => v.chain == c).map fun v => v.j).Pairwise (· < ·)) →
        (∀ v ∈ b.vars, ∀ w ∈ b.vars, w.j < v.j → coefAt (store s) o.qadr o.qfmt src.wexp v.j w.j = .ok (q v.j w.j)) →
        (b.sync = true → ∀ v ∈ b.vars, ∀ w ∈ b.vars, v.j < w.j →
          coefAt (store s) o.qadr o.qfmt src.wexp v.j w.j = .ok (q v.j w.j)) →
        Leads (.cplSettle e o {}) s fun u => SameMemories s u ∧
          (∃ b' : SettleBuf, (u.eng e).settle = some { b with done := true, vars := b'.vars, poison := b'.poison } ∧
            b'.vars = (List.range o.nch).flatMap fun c => settleVars q b.heat b.sync [] (b.vars.filter fun v => v.chain == c)) ∧
          ∀ c, c < o.nch → (u.chainAt home (o.slot.val + c)).pend.conflict =
            satInc (s.chainAt home (o.slot.val + c)).pend.conflict
              (if b.sync then
                ((conflictPairs (b.vars.map fun v => v.j).eraseDups).filter fun x => q x.1 x.2 != 0).length else 0))) ∧
    (∀ o : ApplyOp, s.starts e (.apply o) = true →
      let src := (s.eng e).td o.src.val
      let home := s.homeOf h o.slot.val
      ((s.eng e).settle = none → broken (.cplApply e o {}) o.pc) ∧
      (∀ b : SettleBuf, (s.eng e).settle = some b → b.done = true → b.slot = o.slot.val → b.nch = o.nch →
        b.src = o.src.val → s.slotsOk e o.slot.val o.nch = true → fieldTileOk src o.nch = true →
        inStore o.radr (recordBytes o.nch) = true → missesProg (s.eng e) o.radr (recordBytes o.nch) = true →
        (b.vars.map fun v => (v.chain, v.j)).Nodup → (∀ v ∈ b.vars, v.chain < o.nch ∧ v.j < 128) →
        let delta (v : SettleVar) : Int := (b2n v.final : Int) - b2n v.x
        let deltaAt (u : State) (c j : Nat) : Nat := storeElem (store u) (unitByte (o.radr + o.nch)) 0 c j
        Leads (.cplApply e o {}) s fun u =>
          SameDram s u ∧ SameAccs s u ∧ StoresBut h p (unitByte o.radr) (recordBytes o.nch) s u ∧ (u.eng e).settle = none ∧
          (∀ v ∈ b.vars, stateBit (store u) o.radr v.chain v.j = v.final ∧ deltaAt u v.chain v.j = twos 4 (delta v)) ∧
          (∀ c j, c < o.nch → j < 128 → (∀ v ∈ b.vars, (v.chain, v.j) ≠ (c, j)) →
            stateBit (store u) o.radr c j = stateBit (store s) o.radr c j ∧ deltaAt u c j = 0) ∧
          ∀ c, c < o.nch →
            let vs := b.vars.filter fun v => v.chain == c
            let r := (s.chainAt home (o.slot.val + c)).pend
            (u.chainAt home (o.slot.val + c)).pend =
              { addEnergy r ((vs.map fun v => delta v * v.fprime).sum) with
                runAccept := r.runAccept + BitVec.ofNat 24 (vs.filter fun v => v.final != v.x).length
                runRedec := r.runRedec + BitVec.ofNat 24 (vs.filter fun v => v.final != v.prop).length }))

/-- CPL_GROUP (06 R198 to R200). -/
def Obligations.GroupsMoveTheirHotMember : Prop :=
  ∀ (e : EngId) (o : GroupOp) (s : State) (p : Nat), (s.sheet e.sheet.val).phys e.parcel.val = some p → p < 18 →
    let h := e.sheet.val
    let home := s.homeOf h o.slot.val
    let hot (c : Nat) (x : Nat × Nat) : Nat := ((s.membersOf e o c x).filter fun m => m.x).length
    let out (c : Nat) (x : Nat × Nat) : GroupOut := s.groupOut e o c x.1 (s.membersOf e o c x)
    s.starts e (.group o) = true → s.groupFits e o = true → inStore o.gadr (4 * (o.gidx + o.ng)) = true →
    s.groupSpans e o = true → inStore o.radr (s.groupBytes e o) = true → missesProg (s.eng e) o.radr (s.groupBytes e o) = true →
    (s.groupVars e o).Nodup →
    ((∀ c x, c < o.nch → x ∈ s.groupsOf e o → hot c x = 1) → s.groupBound e o = true → Leads (.cplGroup e o {}) s fun u =>
      SameDram s u ∧ SameAccs s u ∧ StoresBut h p (unitByte o.radr) (s.groupBytes e o) s u ∧
      ∀ c, c < o.nch →
        (u.chainAt home (o.slot.val + c)).pend.energy =
          BitVec.ofInt 64 ((s.chainAt home (o.slot.val + c)).pend.energy.toInt + ((s.groupsOf e o).map fun x => (out c x).dE).sum) ∧
        ∀ x ∈ s.groupsOf e o, ∀ i b j, i < x.2 → memberAt (s.groupBase e o) (x.1 + i) = some (b, j) →
          stateBit ((u.sheet h).parcel p).store (recordOf o b) c j = decide (i = (out c x).new)) ∧
    ((∃ c x, c < o.nch ∧ x ∈ s.groupsOf e o ∧ hot c x ≠ 1) → Leads (.cplGroup e o {}) s fun u =>
      SameMemories s u ∧ ∃ a, Raises h 0x232 a s u)

/-- CPL_ENERGY and HUB_ENERGY_COMBINE (06 R202, R203, R211). -/
def Obligations.EnergiesReachTheHub : Prop :=
  (∀ (e : EngId) (o : EnergyOp) (s : State), s.starts e (.energy o) = true → (s.sheet e.sheet.val).phys e.parcel.val ≠ none →
    let src := (s.eng e).td o.src.val
    let home := s.homeOf e.sheet.val o.slot.val
    let flagged := o.init || o.echk || o.fin
    let counts : Bool := src.vrows != 0 && (o.echk || !flagged)
    let own (c : Nat) : RunSums := if counts then (chainSums (s.pmem e) src o.radr o.hadr c).1 else {}
    let old (c : Nat) : RunSums := tget {} (s.eng e).sums (o.slot.val + c)
    let grown (c : Nat) : RunSums := { xh := (old c).xh + (own c).xh, xf := (old c).xf + (own c).xf }
    s.slotsOk e o.slot.val o.nch = true → (src.vrows ≠ 0 → fieldTileOk src o.nch = true) →
    (counts = true → inStore o.radr (64 * o.nch) = true ∧ inStore o.hadr 1024 = true) → (o.init = true → o.echk = true) →
    (flagged = false → Leads (.cplEnergy e o {}) s fun u => SameMemories s u ∧
      ∀ c, c < o.nch → tget {} (u.eng e).sums (o.slot.val + c) = grown c) ∧
    (flagged = true →
      let sent (old : List EngId) (sums : Table RunSums) (u : State) : Prop := SameMemories s u ∧
        (∀ c, c < o.nch → tget ({} : RunSums) (u.eng e).sums (o.slot.val + c) = {}) ∧
        ∃ g, (u.sheet home).energyGroup o.slot.val = some g ∧ g.arrived = old ++ [e] ∧ g.nch = o.nch ∧ g.aux = o.aux ∧
          g.init = o.init ∧ g.echk = o.echk ∧ g.fin = o.fin ∧ g.prof = o.prof ∧
          ∀ c, c < o.nch → tget {} g.sums (o.slot.val + c) =
            { xh := (tget {} sums (o.slot.val + c)).xh + (grown c).xh, xf := (tget {} sums (o.slot.val + c)).xf + (grown c).xf }
      ((s.sheet home).energyGroup o.slot.val = none → Leads (.cplEnergy e o {}) s (sent [] [])) ∧
      (∀ g, (s.sheet home).energyGroup o.slot.val = some g → g.nch = o.nch → g.aux = o.aux → g.init = o.init →
        g.echk = o.echk → g.fin = o.fin → g.prof = o.prof → e ∉ g.arrived →
        Leads (.cplEnergy e o {}) s (sent g.arrived g.sums)))) ∧
  (∀ (h : SheetId) (n : Fin 128) (s : State) (g : HubGroup), (s.sheet h.val).energyGroup n.val = some g → g.combined = false →
    let en (c : Nat) : Int := recomputed (tget {} g.sums (n.val + c))
    let full := s.groupFull h.val n.val g.arrived
    (full = false → Holds (.hubEnergyCombine h ⟨n, {}⟩) s) ∧
    (full = true → g.init = false → g.echk = true →
      let r (c : Nat) : Int := (s.chainAt h.val (n.val + c)).pend.energy.toInt
      ((∀ c, c < g.nch → en c = r c) → Leads (.hubEnergyCombine h ⟨n, {}⟩) s fun u =>
        SameMemories s u ∧ (u.sheet h.val).wire = (s.sheet h.val).wire) ∧
      (∀ c, c < g.nch → en c ≠ r c → (∀ d, d < c → en d = r d) → Leads (.hubEnergyCombine h ⟨n, {}⟩) s fun u =>
        SameMemories s u ∧ Raises h.val 0x231 (BitVec.ofNat 64 (n.val + c)) s u)) ∧
    (∀ (t : Tensor) (hd : SchedHeader), full = true → g.init = true → s.tensorAt h.val g.aux = some t →
      t.isSealed = false → s.tensorStalls t = false → parseSched (s.rawBytes t h.val 0 32) = some hd →
      Leads (.hubEnergyCombine h ⟨n, {}⟩) s fun u => SameMemories s u ∧
        ∀ c, c < g.nch → c < 128 →
          let r := (u.chainAt h.val (n.val + c)).pend
          r.eexp = hd.eexp ∧ r.sweep = 0 ∧ r.rung.toNat = c ∧ r.energy = BitVec.ofInt 64 (en c) ∧ r.best = r.energy ∧
          r.gust = 0 ∧ r.stall = 0 ∧ r.phead = 0 ∧ r.cflags = 0 ∧ r.conflict = 0 ∧
          (r.teff, r.invt) =
            tempOf (leNat (s.rawBytes t h.val (32 + 4 * min c (hd.nrung - 1)) 4)) 0))

/-- SWEEP_END (06 R203, R209). -/
def Obligations.SweepsEnd : Prop :=
  ∀ (h : SheetId) (n : Fin 128) (s : State) (g : HubGroup), (s.sheet h.val).energyGroup n.val = some g →
    let r (c : Nat) : ChainRegs := (s.chainAt h.val (n.val + c)).pend
    (g.fin = false ∨ g.combined = false → Holds (.sweepEnd h n {}) s) ∧
    (∀ (t : Tensor) (hd : SchedHeader), g.fin = true → g.combined = true →
      s.tensorAt h.val g.aux = some t → t.isSealed = false → s.auxStalls h.val g.aux g.prof = false →
      parseSched (s.rawBytes t h.val 0 32) = some hd →
      let entry (i k : Nat) : Nat := leNat (s.rawBytes t h.val (32 + 4 * (i * hd.nrung + k)) 4)
      let done (u : State) : Prop :=
        SameStores s u ∧ SameAccs s u ∧ (u.sheet h.val).energyGroup n.val = none ∧
        ∀ c, c < g.nch →
          (u.chainAt h.val (n.val + c)).reg = (s.chainAt h.val (n.val + c)).reg ∧
          { (u.chainAt h.val (n.val + c)).pend with phead := 0 } = { sweepEnd hd entry (r c) with phead := 0 }
      (g.prof = false ∨ hd.profh = 0 → Leads (.sweepEnd h n {}) s fun u => done u ∧ SameDram s u ∧
        ∀ c, c < g.nch → (u.chainAt h.val (n.val + c)).pend.phead = (r c).phead) ∧
      (∀ (ring : Tensor) (at_ : Nat → Nat × Nat), g.prof = true → hd.profh ≠ 0 → s.tensorAt h.val hd.profh = some ring →
        ring.isSealed = false → (∀ c, c < g.nch → (r c).phead.toNat < hd.plen) →
        let size := g.nch * hd.plen
        (∀ k i, k < size → i < 32 → ring.rawAt h.val (32 * k + i) = some ((at_ k).1, (at_ k).2 + i)) →
        (∀ k l i j, k < size → l < size → i < 32 → j < 32 → (at_ k).1 = (at_ l).1 → (at_ k).2 + i = (at_ l).2 + j → k = l) →
        (∀ k m i, k < size → m < 32 + 4 * hd.nsched * hd.nrung → i < 32 → t.rawAt h.val m ≠ some ((at_ k).1, (at_ k).2 + i)) →
        Leads (.sweepEnd h n {}) s fun u => done u ∧
          (∀ i b, (∀ k j, k < size → j < 32 → (i, b) ≠ ((at_ k).1, (at_ k).2 + j)) → u.dramAt i b = s.dramAt i b) ∧
          ∀ c, c < g.nch → (u.chainAt h.val (n.val + c)).pend.phead.toNat = ((r c).phead.toNat + 1) % hd.plen ∧
            let x := at_ (c * hd.plen + (r c).phead.toNat)
            ∀ i, i < 32 → u.dramAt x.1 (x.2 + i) = (profBytes (r c) (sweepEnd hd entry (r c)).best).getD i 0))

/-- CPL_EXCHANGE and HUB_EXCHANGE_DECIDE (06 R205, R211). -/
def Obligations.RungsExchange : Prop :=
  (∀ (e : EngId) (o : ExchangeOp) (s : State), s.starts e (.exchange o) = true → s.slotsOk e o.slot.val o.nch = true →
    let home := s.homeOf e.sheet.val o.slot.val
    (s.sheet home).exchGroup o.slot.val = none → Leads (.cplExchange e o {}) s fun u => SameMemories s u ∧
      ∃ g, (u.sheet home).exchGroup o.slot.val = some g ∧ g.exch = [e] ∧ g.nch = o.nch ∧ g.aux = o.aux ∧ g.par = o.par ∧
        g.draw = o.draw) ∧
  (∀ (h : SheetId) (n : Fin 128) (s : State) (g : HubGroup), (s.sheet h.val).exchGroup n.val = some g →
    let sl := ((s.sheet h.val).slot n.val).pend
    let r (c : Nat) : ChainRegs := (s.chainAt h.val (n.val + c)).pend
    (s.groupFull h.val n.val g.exch = false ∨ (s.sheet h.val).energyGroup n.val ≠ none → Holds (.hubExchangeDecide h n {}) s) ∧
    (∀ (t : Tensor) (hd : SchedHeader) (k : Nat × Nat), s.groupFull h.val n.val g.exch = true →
      (s.sheet h.val).energyGroup n.val = none → s.tensorAt h.val g.aux = some t →
      s.streamOn h.val { purpose := 7, slot := sl.gslot, tensor := sl.tensor } = some k →
      t.isSealed = false → s.tensorStalls t = false → parseSched (s.rawBytes t h.val 0 32) = some hd →
      (∀ c d, c < g.nch → d < g.nch → (r c).rung = (r d).rung → c = d) →
      let temp (x : ChainRegs) (rung : BitVec 8) : BitVec 32 × BitVec 32 :=
        tempOf (leNat (s.rawBytes t h.val
          (32 + 4 * (min x.sweep.toNat (hd.nsched - 1) * hd.nrung + min rung.toNat (hd.nrung - 1))) 4)) x.gust.toNat
      let pair (j a b : Nat) : Prop :=
        a < g.nch ∧ b < g.nch ∧ 2 * j + 1 + b2n g.par < g.nch ∧ (r a).rung.toNat = 2 * j + b2n g.par ∧
        (r b).rung.toNat = 2 * j + 1 + b2n g.par
      let yes (j a b : Nat) : Bool := exchSwaps (r a) (r b) sl.base2 (uniform32 k sl.step.toNat (2 * j + b2n g.par) g.draw)
      Leads (.hubExchangeDecide h n {}) s fun u => SameMemories s u ∧ (u.sheet h.val).exchGroup n.val = none ∧
        let v (c : Nat) : ChainRegs := (u.chainAt h.val (n.val + c)).pend
        (∀ c, c < g.nch → (v c).energy = (r c).energy ∧ (v c).best = (r c).best ∧ (v c).sweep = (r c).sweep) ∧
        (∀ j a b, pair j a b → yes j a b = true → (v a).rung = (r b).rung ∧ (v b).rung = (r a).rung ∧
          ((v a).teff, (v a).invt) = temp (r a) (r b).rung ∧ ((v b).teff, (v b).invt) = temp (r b) (r a).rung ∧
          (v a).cflags.getLsbD 0 = true ∧ (v b).cflags.getLsbD 0 = true) ∧
        ∀ c, c < g.nch → (∀ j a b, pair j a b → yes j a b = true → c ≠ a ∧ c ≠ b) →
          (v c).rung = (r c).rung ∧ (v c).teff = (r c).teff ∧ (v c).invt = (r c).invt ∧ (v c).cflags.getLsbD 0 = false))

/-- SCR_RING_WRITE, SCR_DB_IN_READ, SCR_REC_REQUEST, SCR_RECORD_ARRIVE, SCR_STREAM_GO, SCR_STREAM_RESULT and SCR_OUT1_READ
(07 R219, R221, R225, R228; 05 R161). Trap entry is the RISC-V one (PRESUMED, log 83). -/
def Obligations.ScribePortsAnswer : Prop :=
  ∀ (c : CoreId) (s : State),
    let w : CoreWork := { core := c }
    let k := s.core c
    let e := c.eng
    let n := tget 0 (s.eng e).ring c.core.val
    let may (right o : Nat) : Prop := k.pmpOk right (0x2000000 + o) 8 = true
    let waits (u : State) : Prop := CoreBecomes c k s u ∧ u.out = s.out
    let gives (b : List Byte) (k' : Scribe) (u : State) : Prop := CoreBecomes c k' s u ∧ u.loads = s.loads ++ [.scribeData c b]
    let rows (hd : BitVec 16) (tl : BitVec 32) (en : BitVec 10) (c0 c1 : Word) : List (CoreWork → Instr) :=
      [.scrRingWrite, .scrDbInRead, (.scrRecRequest · hd tl), (.scrStreamGo · en c0 c1), .scrOut1Read]
    (∀ hd tl en c0 c1, ∀ row ∈ rows hd tl en c0 c1,
      (s.coreLive c = false → Holds (row w) s) ∧
      ∀ i r d, let x := s.coreInstr c i d
        (x.2 = false → exec (row ⟨c, i :: r, d⟩) s = .next x.1) ∧
        (x.2 = true → exec (row ⟨c, i :: r, d⟩) s = exec (row ⟨c, r, {}⟩) x.1)) ∧
    (s.coreReady c →
      (may 1 0x0008 → n < 255 → Leads (.scrRingWrite w) s fun u => SameMemories s u ∧ u.uncounted = s.uncounted ∧
        u.core c = k ∧ OtherEngines e s u ∧
        ∀ i, tget 0 (u.eng e).ring i = if i = c.core.val then n + 1 else tget 0 (s.eng e).ring i) ∧
      (may 1 0x0008 → 255 ≤ n → Leads (.scrRingWrite w) s waits) ∧
      (may 0 0 → k.fifo = [] → Leads (.scrDbInRead w) s (gives (leBytes 8 0) k)) ∧
      (∀ v r, may 0 0 → k.fifo = v :: r →
        Leads (.scrDbInRead w) s (gives (leBytes 8 (2 ^ 16 + v.toNat)) { k with fifo := r, meip := !r.isEmpty })) ∧
      (∀ hd tl, may 1 0x3080 → k.dataMachine = true →
        (k.recBusy = true → Leads (.scrRecRequest w hd tl) s waits) ∧
        (k.recBusy = false → Leads (.scrRecRequest w hd tl) s
          (CoreBecomes c { k with recHandle := hd, recTile := tl, recAsked := (hd, tl), recBusy := true, recErr := false } s))) ∧
      (∀ en c0 c1, may 1 0x1000 → may 1 0x1008 → may 1 0x1010 →
        (7 ≤ k.outst → Leads (.scrStreamGo w en c0 c1) s (CoreBecomes c { k with c0 := c0, c1 := c1 } s)) ∧
        (k.outst < 7 → Leads (.scrStreamGo w en c0 c1) s
          (CoreBecomes c { k with entry := en, c0 := c0, c1 := c1, spReqs := k.spReqs ++ [(en, c0, c1)] } s))) ∧
      (may 0 0x1020 →
        (∀ v r, k.spOuts = v :: r → Leads (.scrOut1Read w) s (gives (leBytes 8 (v.toNat / 2 ^ 64)) { k with spOuts := r })) ∧
        (k.spOuts = [] → k.spReqs ≠ [] → Leads (.scrOut1Read w) s waits) ∧
        (k.spOuts = [] → k.spReqs = [] → Leads (.scrOut1Read w) s fun u =>
          SameMemories s u ∧ Raises e.sheet.val 0x242 0 s u ∧ u.core c = { k.trap false 5 0x2001020 with halted := true }))) ∧
    (k.quiet s.now → k.wfi = false →
      (k.recBusy = false → Leads (.scrRecordArrive w {}) s waits) ∧
      (k.recBusy = true →
        let t? := s.tensorAt e.sheet.val k.recAsked.1
        let tile := k.recAsked.2.toNat
        (∀ t l, t? = some t → t.isSealed = true → t.tileLoc e.sheet.val tile = some l →
          (s.tileStalls t tile = true → Leads (.scrRecordArrive w {}) s waits) ∧
          (s.tileStalls t tile = false → Leads (.scrRecordArrive w {}) s (CoreBecomes c
            { k with recBusy := false, recErr := false, recWords := mread (s.sheet l.sheet).mem.recs (32 * l.sealIx) 32 } s))) ∧
        ((∀ t, t? = some t → t.isSealed = false ∨ t.tileLoc e.sheet.val tile = none) → Leads (.scrRecordArrive w {}) s
          (CoreBecomes c { k with recBusy := false, recErr := true, recWords := List.replicate 32 0 } s))) ∧
      (k.spReqs = [] → Leads (.scrStreamResult w) s waits) ∧
      (∀ en c0 c1 r, k.spReqs = (en, c0, c1) :: r →
        let y := tget {} (s.sheet e.sheet.val).key.tab en.toNat
        (y.valid = true → Leads (.scrStreamResult w) s (CoreBecomes c
          { k with spReqs := r, spOuts := k.spOuts ++ [BitVec.ofNat 128 (laneGen y.k0.toNat y.k1.toNat c0.toNat c1.toNat)] } s)) ∧
        (y.valid = false → Leads (.scrStreamResult w) s fun u => SameMemories s u ∧ Raises e.sheet.val 0x522 0 s u ∧
          u.core c = { k with spReqs := r, spOuts := k.spOuts ++ [0] })))

/-- SCR_DWIN_WRITE, SCRIBE_WINDOW_LOAD, SCRIBE_WINDOW_STORE, SCR_FAULT_SEND, SCRIBE_EXCEPTION and SCRIBE_PARITY_ERROR
(07 R223, R224, R226, R229, R230). Trap entry is the RISC-V one (PRESUMED, log 83). -/
def Obligations.ScribeWindowsAndFaults : Prop :=
  ∀ (c : CoreId) (s : State) (p : Nat), (s.sheet c.eng.sheet.val).phys c.eng.parcel.val = some p → p < 18 →
    let cw : CoreWork := { core := c }
    let h := c.eng.sheet.val
    let k := s.core c
    let may (right a n : Nat) : Prop := k.pmpOk right a n = true
    let waits (u : State) : Prop := CoreBecomes c k s u ∧ u.out = s.out
    let halts (cause tval : Nat) (u : State) : Prop :=
      SameMemories s u ∧ Raises h 0x242 0 s u ∧ u.core c = { k.trap false cause tval with halted := true }
    let at_ (w : Fin 16) (a : BitVec 28) : Nat := 0x1000000000 + w.val * 0x10000000 + a.toNat
    (∀ w val a n b addr kind sev cause, ∀ row ∈
        ([(.scrDwinWrite · w val), (.scribeWindowLoad · w a n {}), (.scribeWindowStore · w a b {}), (.scrFaultSend · addr kind sev),
          (.scribeException · cause), .scribeParityError] : List (CoreWork → Instr)),
      (s.coreLive c = false → Holds (row cw) s) ∧
      ∀ i r d, let x := s.coreInstr c i d
        x.2 = true → exec (row ⟨c, i :: r, d⟩) s = exec (row ⟨c, r, {}⟩) x.1) ∧
    (s.coreReady c →
      (k.dataMachine = true →
        (∀ w val, may 1 (0x2003000 + 8 * w.val) 8 →
          let extra : List (BitVec 12) := if val &&& 0xFFFFE = 0 then [] else [0x406]
          let wen := val.getLsbD 0 && (match s.tensorAt h (winHandle val) with | some t => t.isSealed | none => false)
          (wen = false → Leads (.scrDwinWrite cw w val) s fun u => SameMemories s u ∧ GainsKinds h extra s u ∧
            (∀ i, tget 0 (u.core c).dwin i = if i = w.val then val &&& 0xFFFFFFFFFFF00001 else tget 0 k.dwin i) ∧
            { u.core c with dwin := [] } = { k with dwin := [] }) ∧
          (wen = true → Leads (.scrDwinWrite cw w val) s fun u =>
            u.core c = k ∧ SameMemories s u ∧ GainsKinds h (0x40C :: extra) s u)) ∧
        (∀ addr kind sev, may 1 0x2002000 8 → may 1 0x2002008 8 →
          let n := kind.toNat
          let sends := n = 0x101 ∨ (0x2F0 ≤ n ∧ n ≤ 0x2FF)
          (8 ≤ sev.toNat → Leads (.scrFaultSend cw addr kind sev) s fun u =>
            SameMemories s u ∧ GainsKinds h [0x406] s u ∧ u.core c = { k with fltAddr := addr }) ∧
          (sev.toNat < 8 → k.fltBusy = true →
            Leads (.scrFaultSend cw addr kind sev) s (CoreBecomes c { k with fltAddr := addr } s)) ∧
          (sev.toNat < 8 → k.fltBusy = false → sends → Leads (.scrFaultSend cw addr kind sev) s fun u =>
            SameMemories s u ∧ Raises h kind addr s u ∧
            u.core c = { k with fltAddr := addr, fltKind := kind, fltSev := sev, fltBusy := true }) ∧
          (sev.toNat < 8 → k.fltBusy = false → ¬sends → Leads (.scrFaultSend cw addr kind sev) s fun u =>
            SameMemories s u ∧ Raises h 0x242 0 s u))) ∧
      (∀ w (a : BitVec 28) n, may 0 (at_ w a) n →
        (2 ^ 28 < a.toNat + n ∨ s.windowAddr c w a.toNat n = none →
          Leads (.scribeWindowLoad cw w a n {}) s (halts 5 (at_ w a))) ∧
        (∀ t b, a.toNat + n ≤ 2 ^ 28 → s.windowAddr c w a.toNat n = some (t, b) →
          (s.stalls h b n = true → Leads (.scribeWindowLoad cw w a n {}) s waits) ∧
          (s.stalls h b n = false → Leads (.scribeWindowLoad cw w a n {}) s fun u => SameMemories s u ∧
            u.loads = s.loads ++ [.scribeData c (mread (s.sheet h).mem.dram b n)] ∧
            u.core c = { k with tainted := k.tainted || s.rangePoison t h b n }))) ∧
      (∀ w (a : BitVec 28) (b : List Byte), may 1 (at_ w a) b.length →
        let open_ (t : Tensor) : Prop := (tget 0 k.dwin w.val).getLsbD 0 = true ∧ t.isSealed = false
        (∀ t x, a.toNat + b.length ≤ 2 ^ 28 → s.windowAddr c w a.toNat b.length = some (t, x) → open_ t →
          (s.stalls h x b.length = true → Leads (.scribeWindowStore cw w a b {}) s waits) ∧
          (s.stalls h x b.length = false → Leads (.scribeWindowStore cw w a b {}) s fun u =>
            SameStores s u ∧ SameAccs s u ∧ DramTakes h x b.length (fun i => b.getD i 0) s u ∧ u.core c = k)) ∧
        (2 ^ 28 < a.toNat + b.length ∨ (∀ t x, s.windowAddr c w a.toNat b.length = some (t, x) → ¬open_ t) →
          Leads (.scribeWindowStore cw w a b {}) s (halts 7 (at_ w a)))) ∧
      (∀ cause, Leads (.scribeException cw cause) s (halts cause.toNat 0)) ∧
      Leads (.scribeParityError cw) s fun u => SameMemories s u ∧ Raises h 0x241 0 s u ∧ u.core c = k)

/-- WIN4_ACCESS (08 R239, R240; 09 R260; 14 R399), WIN0_ACCESS_REFUSED and unmapped writes (09 R261, R262, 00 R8),
REFRESH_STALL_START and REFRESH_STALL_END (08 R253). That a sheet that is OFF refuses is the model's choice (log 35). -/
def Obligations.HostAccessesMemory : Prop :=
  (∀ (o : Nat) (s : State),
     let dev := s.win4Addr o
     let refused (u : State) : Prop := SameMemories s u ∧ u.replies = s.replies ++ [.unsupportedRequest] ∧ RaisesDev 0x407 s u
     let reply (b : List Byte) (u : State) : Prop := SameMemories s u ∧ u.replies = s.replies ++ [.readReply b]
     (s.dstate = .safe → (∀ n, Leads (.win4Access o none n {}) s (reply (List.replicate n 0))) ∧
       ∀ b n, Holds (.win4Access o (some b) n {}) s) ∧
     (s.dstate ≠ .safe →
       (∀ n h a, regionOf dev n = .dram h a → s.stalls h a n = false →
         let m := (s.sheet h).mem
         (m.win4Pages (pagesOf a n) = true → Leads (.win4Access o none n {}) s (reply (mread m.dram a n)) ∧
           ∀ b k, b.length = n → Leads (.win4Access o (some b) k {}) s fun u =>
             DramTakes h a n (fun i => b.getD i 0) s u ∧ SameStores s u ∧ SameAccs s u) ∧
         (m.win4Pages (pagesOf a n) = false → (∀ p ∈ pagesOf a n, m.differs p = false) →
           Leads (.win4Access o none n {}) s refused ∧
           ∀ b k, b.length = n → Leads (.win4Access o (some b) k {}) s refused)) ∧
       (∀ n h p a, regionOf dev n = .store h p a →
         ((s.sheet h).win4Sram = true →
           Leads (.win4Access o none n {}) s (reply (mread ((s.sheet h).parcel p).store a n)) ∧
           ∀ b k, b.length = n → Leads (.win4Access o (some b) k {}) s fun u =>
             StoreTakes h p a n (fun i => b.getD i 0) s u ∧ SameDram s u ∧ SameAccs s u) ∧
         ((s.sheet h).win4Sram = false → Leads (.win4Access o none n {}) s refused ∧
           ∀ b k, b.length = n → Leads (.win4Access o (some b) k {}) s refused)) ∧
       (∀ n h p a, regionOf dev n = .acc h p a →
         ((s.sheet h).win4Sram = true → Leads (.win4Access o none n {}) s (reply (mread ((s.sheet h).parcel p).acc a n)) ∧
           ∀ b k, b.length = n → Leads (.win4Access o (some b) k {}) s fun u => SameDram s u ∧ SameStores s u ∧
             ∀ i q x, u.accAt i q x = if i = h ∧ q = p ∧ a ≤ x ∧ x < a + n then b.getD (x - a) 0 else s.accAt i q x) ∧
         ((s.sheet h).win4Sram = false → Leads (.win4Access o none n {}) s refused ∧
           ∀ b k, b.length = n → Leads (.win4Access o (some b) k {}) s refused)) ∧
       (∀ n h a, regionOf dev n = .staging h a →
         ((s.sheet h).win4Sram = true → Leads (.win4Access o none n {}) s (reply (mread (s.sheet h).staging a n)) ∧
           ∀ b k, b.length = n → Leads (.win4Access o (some b) k {}) s fun u => SameMemories s u ∧
             ∀ i x, mget (u.sheet i).staging x =
               if i = h ∧ a ≤ x ∧ x < a + n then b.getD (x - a) 0 else mget (s.sheet i).staging x) ∧
         ((s.sheet h).win4Sram = false → Leads (.win4Access o none n {}) s refused ∧
           ∀ b k, b.length = n → Leads (.win4Access o (some b) k {}) s refused)) ∧
       (∀ n, regionOf dev n = .reserved → Leads (.win4Access o none n {}) s refused ∧
         ∀ b k, b.length = n → Leads (.win4Access o (some b) k {}) s refused))) ∧
  (∀ (s : State),
     (∀ o v, o % 8 = 0 → regOf o = none → Holds (.registerWrite o v) s) ∧
     (s.dstate ≠ .safe → (∀ o v, o % 8 ≠ 0 → Leads (.registerWrite o v) s fun u => SameMemories s u ∧ RaisesDev 0x406 s u) ∧
       ∀ a : BadAccess, accessAccepted a = false → Leads (.win0AccessRefused a) s fun u =>
         SameMemories s u ∧ RaisesDev (if a.page.isSome then 0x401 else 0x406) s u ∧
         u.replies = s.replies ++ (if a.write then [] else [.readReply (List.replicate a.width 0)])) ∧
     ∀ a : BadAccess, accessAccepted a = true →
       (a.write = true → Holds (.win0AccessRefused a) s) ∧
       (a.write = false → Leads (.win0AccessRefused a) s fun u => SameMemories s u ∧
         u.replies = s.replies ++ [.readReply (if a.page.isSome then List.replicate a.width 0
           else ((leBytes 8 (s.readWin0 (a.offset / 8 * 8)).toNat).drop (a.offset % 8)).take a.width)])) ∧
  (∀ (h : SheetId) (i : Fin 64) (s : State),
     let m := (s.sheet h.val).mem
     (m.selfRefresh = true ∨ i.val ∈ m.stalled ∨ 2 ≤ m.stalled.length → Holds (.refreshStallStart h i) s) ∧
     (m.selfRefresh = false → i.val ∉ m.stalled → m.stalled.length < 2 → Leads (.refreshStallStart h i) s fun u =>
       SameMemories s u ∧ (∀ k, k ∈ (u.sheet h.val).mem.stalled ↔ k = i.val ∨ k ∈ m.stalled) ∧
       (u.sheet h.val).mem.stalled.length = m.stalled.length + 1) ∧
     (i.val ∉ m.stalled → Holds (.refreshStallEnd h i) s) ∧
     (i.val ∈ m.stalled → m.stalled.Nodup → Leads (.refreshStallEnd h i) s fun u =>
       SameMemories s u ∧ ∀ k, k ∈ (u.sheet h.val).mem.stalled ↔ k ≠ i.val ∧ k ∈ m.stalled))

/-- Partitions (09 R282), contexts (R287, R288), teardown (R289, R290), function level reset (R291) and PCI Express
integrity (R257). -/
def Obligations.ContextsFollowTheirCommands : Prop :=
  (∀ (p : PartId) (v : Word) (s : State), s.dstate = .ready →
    let x := s.part p.val
    let put (c : Instr) (y : Part) : Prop := Leads c s fun u =>
      u.part p.val = y ∧ (∀ k, k ≠ p.val → u.part k = s.part k) ∧ { u with parts := [] } = { s with parts := [] }
    let refused (c : Instr) (k : BitVec 12) : Prop := Leads c s fun u => u.parts = s.parts ∧ SameMemories s u ∧ RaisesDev k s u
    let sheets := BitVec.ofNat 16 (bits v.toNat 47 32)
    let go := x.st = .setup ∧ x.sheets ≠ 0 ∧ x.ports ≠ 0 ∧ s.partShares p.val = false ∧ s.transitOk p.val x.sheets = true ∧
      s.holdsOff x = false
    (v &&& 0xFFFF0000FFFFFFFC = 0 →
      (x.locked = false → put (.partCfgWrite p v)
        { x with sheets := sheets, contain := v.getLsbD 1, hold := v.getLsbD 0, st := if sheets = 0 then .unused else .setup }) ∧
      (x.locked = true → refused (.partCfgWrite p v) 0x405)) ∧
    (go → put (.partGo p) { x with st := .running }) ∧ (¬go → refused (.partGo p) 0x409) ∧
    (x.st = .running ∧ s.partIdle p.val = true → put (.partStop p) { x with st := .setup }) ∧
    (¬(x.st = .running ∧ s.partIdle p.val = true) → refused (.partStop p) 0x409) ∧
    (x.st = .running ∨ x.st = .setup → Leads (.partReset p) s fun u => (u.part p.val).st = .resetting ∧
      ∀ c : CtxId, (s.ctx c.val).part.toNat = p.val → (s.ctx c.val).st = .opened →
        (u.ctx c.val).st = .tearing ∧ (u.ctx c.val).killing = true) ∧
    (x.st ≠ .running → x.st ≠ .setup → refused (.partReset p) 0x409)) ∧
  (∀ (c : CtxId) (s : State),
    let x := s.ctx c.val
    let idle : Prop := x.st = .free ∨ x.st = .killed
    let put (i : Instr) (y : Ctx) : Prop := Leads i s fun u =>
      u.ctx c.val = y ∧ (∀ k, k ≠ c.val → u.ctx k = s.ctx k) ∧ { u with ctxs := [] } = { s with ctxs := [] }
    let refused (i : Instr) : Prop := Leads i s fun u => u.ctxs = s.ctxs ∧ SameMemories s u ∧ RaisesDev 0x40A s u
    let home := s.part x.part.toNat
    let opens : Prop := idle ∧ home.st ≠ .unused ∧ home.st ≠ .resetting ∧ s.slotRangeOk c.val = true
    (s.dstate = .ready →
      (opens → Leads (.ctxOpen c) s fun u =>
        u.ctx c.val = { x with st := .opened, cause := 0 } ∧ (∀ k, k ≠ c.val → u.ctx k = s.ctx k) ∧
        u.epoch c.val = { s.epoch c.val with drops := 0, rbcnt := 0 } ∧ SameMemories s u ∧ u.devWire = s.devWire) ∧ (¬opens → refused (.ctxOpen c)) ∧
      (∀ g : Byte, (idle ∧ g ≠ x.gen ∧ g ≠ x.gen - 1 → put (.ctxSetgen c g) { x with gen := g }) ∧
        (¬(idle ∧ g ≠ x.gen ∧ g ≠ x.gen - 1) → refused (.ctxSetgen c g))) ∧
      (x.st = .opened → Leads (.ctxKill c) s fun u => (u.ctx c.val).st = .tearing ∧ (u.ctx c.val).killing = true) ∧
      (x.st = .tearing → Leads (.ctxKill c) s fun u => (u.ctx c.val).st = .tearing ∧ (u.ctx c.val).killing = true ∧
        (u.ctx c.val).tphase = x.tphase ∧ (u.ctx c.val).gen = x.gen) ∧
      (idle → Holds (.ctxKill c) s)) ∧
    (∀ q d, s.headReady q.val 11 = some d → dCtx d = c →
      let ends (st : Byte) (u : State) : Prop := u.ctxs = s.ctxs ∧ u.parts = s.parts ∧ SameMemories s u ∧
        ∃ e, u.head q.val = some e ∧ e.bytes = d.bytes ∧ e.status = some st
      (x.st = .tearing → Leads (.teardown q) s (ends stTorn)) ∧ (idle → Leads (.teardown q) s (ends stOk))) ∧
    (∀ dev, (x.st = .tearing ∧ x.tphase = 4 ∧ dev ∈ x.acks →
        put (.quiesceAck c dev) { x with
          acks := x.acks.filter (· != dev), tphase := if (x.acks.filter (· != dev)).isEmpty then 5 else 4 }) ∧
      (¬(x.st = .tearing ∧ x.tphase = 4 ∧ dev ∈ x.acks) → Holds (.quiesceAck c dev) s)) ∧
    (x.st = .tearing → x.tphase = 4 → x.acks ≠ [] → x.timedOut = false → Leads (.quiesceTimeout c) s fun u =>
      SameMemories s u ∧ RaisesDev 0x403 s u ∧ u.ctx c.val = { x with timedOut := true }) ∧
    (x.st ≠ .tearing ∨ x.tphase ≠ 4 ∨ x.acks = [] ∨ x.timedOut = true → Holds (.quiesceTimeout c) s) ∧
    (∀ n dev gen, ((s.ports.any fun y => y.2.owes c.val) = true → Holds (.quiesceRequestReceive n dev c gen) s) ∧
      ((s.ports.any fun y => y.2.owes c.val) = false → Leads (.quiesceRequestReceive n dev c gen) s fun u =>
        SameMemories s u ∧ u.ctxs = s.ctxs)) ∧
    (x.st ≠ .tearing ∨ x.tphase ≠ 5 → Holds (.teardownReleaseDone c {}) s) ∧
    (x.st = .tearing → x.tphase = 5 → Leads (.teardownReleaseDone c {}) s fun u =>
      let y := u.ctx c.val
      y.st = (if x.killing then .killed else .free) ∧ y.gen = x.gen ∧ y.tphase = 0 ∧ y.seed = none ∧ y.plans = [] ∧
      y.cause = (if x.killing then x.pendCause else 0) ∧
      ∀ h n, h < 16 → ((s.sheet h).slot n).ctx = some c →
        ((u.sheet h).slot n).ctx = none ∧ ((u.sheet h).slot n).reg.bound = false)) ∧
  (∀ (f : Fin 16) (s : State),
    (s.flr.contains (BitVec.ofNat 4 f.val) = true → Holds (.functionLevelReset f) s) ∧
    (s.flr.contains (BitVec.ofNat 4 f.val) = false → Leads (.functionLevelReset f) s fun u =>
      (∀ q : QueueId, (s.queue q.val).func.toNat = f.val →
        (u.queue q.val).st = .error ∧ (u.queue q.val).err = 4 ∧ (u.queue q.val).fetched = []) ∧
      ∀ c : CtxId, (s.ctx c.val).func.toNat = f.val → (s.ctx c.val).st = .opened ∨ (s.ctx c.val).st = .tearing →
        (u.ctx c.val).st = .tearing ∧ (u.ctx c.val).killing = true)) ∧
  (∀ (q : Option QueueId) (s : State), s.ecb.ideKeys = none → Holds (.pcieTlpIntegrityFail q) s) ∧
  (∀ s : State, s.ecb.ideKeys ≠ none → Leads (.pcieTlpIntegrityFail none) s fun u => u = { s with out := s.out ++ [.aer] }) ∧
  (∀ (q : QueueId) (d : Desc) (s : State), s.ecb.ideKeys ≠ none → s.head q.val = some d → d.checked = true → d.status = none →
    ((s.part (s.ctxPart (dCtx d))).runs.any fun r => r.queue == q.val) = false →
    Leads (.pcieTlpIntegrityFail (some q)) s fun u => SameMemories s u ∧ RaisesDev 0x402 s u ∧ u.out = s.out ++ [.aer] ∧
      ∃ e, u.head q.val = some e ∧ e.status = some stBad ∧ e.bytes = d.bytes) ∧
  (∀ s : State, Leads .orphanPagesZeroed s fun u => SameStores s u ∧ SameAccs s u ∧
    ∀ h, h < 16 →
      let m := (s.sheet h).mem
      let l := m.lockedOrphans ++ if m.zeroOrphans then m.orphans else []
      (u.sheet h).mem.lockedOrphans = [] ∧
      (∀ g ∈ l, (u.sheet h).mem.attr g = (0, 0) ∧ ∀ i, i < 4096 → u.dramAt h (4096 * g + i) = 0) ∧
      ∀ a, a / 4096 ∉ l → u.dramAt h a = s.dramAt h a)

/-- The configuration registers of a queue and of a context (09 R278, R283), through REGISTER_WRITE. -/
def Obligations.QueueConfigurationWrites : Prop :=
  (∀ (c : CtxId) (v : Word) (s : State), s.dstate ≠ .safe → s.dstate ≠ .startUp →
    let x := s.ctx c.val
    let n := v.toNat
    n &&& 0xF000000700000000 = 0 →
    (x.st = .free ∨ x.st = .killed → Leads (.registerWrite (0x900000 + 64 * c.val) v) s fun u =>
      u.ctx c.val = { x with
        part := BitVec.ofNat 4 (bits n 59 56), func := BitVec.ofNat 4 (bits n 55 52), slotBase := BitVec.ofNat 7 (bits n 51 45)
        slotCnt := BitVec.ofNat 8 (bits n 44 37), scrub := bit n 36, cntrd := bit n 35, quota := BitVec.ofNat 32 n } ∧
      (∀ k, k ≠ c.val → u.ctx k = s.ctx k) ∧ { u with ctxs := [] } = { s with ctxs := [] }) ∧
    (x.st ≠ .free → x.st ≠ .killed → Leads (.registerWrite (0x900000 + 64 * c.val) v) s fun u =>
      u.ctxs = s.ctxs ∧ SameMemories s u ∧ RaisesDev 0x40A s u)) ∧
  ∀ (q : QueueId) (v : Word) (s : State), s.dstate ≠ .safe → s.dstate ≠ .startUp →
    let base := 0x100000 + 64 * q.val
    let x := s.queue q.val
    let n := v.toNat
    let fits (r : Nat) : Prop := n &&& queueReserved r = 0
    let sets (off : Nat) (y : Queue) : Prop :=
      (x.st = .disabled → Leads (.registerWrite (base + off) v) s fun u =>
        u.queue q.val = y ∧ (∀ k, k ≠ q.val → u.queue k = s.queue k) ∧ { u with queues := [] } = { s with queues := [] }) ∧
      (x.st ≠ .disabled → Leads (.registerWrite (base + off) v) s fun u =>
        u.queues = s.queues ∧ SameMemories s u ∧ RaisesDev 0x40B s u)
    (fits 0 → sets 0x00 { x with sqbase := BitVec.ofNat 52 (n / 4096) }) ∧
    (fits 1 → sets 0x08 { x with cqbase := BitVec.ofNat 52 (n / 4096) }) ∧
    (fits 2 → 4 ≤ bits n 60 56 → bits n 60 56 ≤ 16 → 4 ≤ bits n 52 48 → bits n 52 48 ≤ 16 → sets 0x10
      { x with sqlog := BitVec.ofNat 5 (bits n 60 56), cqlog := BitVec.ofNat 5 (bits n 52 48)
               func := BitVec.ofNat 4 (bits n 47 44), prio := BitVec.ofNat 3 (bits n 40 38)
               vector := BitVec.ofNat 12 (bits n 31 20), irqen := bit n 16 }) ∧
    (fits 3 → sets 0x18 { x with nextSeq := BitVec.ofNat 32 n }) ∧
    (fits 5 → n ≠ 0 → Leads (.registerWrite (base + 0x28) v) s fun u =>
      u.queue q.val = { x with ptlim := BitVec.ofNat 32 n } ∧ (∀ k, k ≠ q.val → u.queue k = s.queue k) ∧
      { u with queues := [] } = { s with queues := [] })

/-- Q_ENABLE, Q_DISABLE, Q_CLEAR, QUEUE_DRAINED, SQ_TAIL_DOORBELL and CQ_HEAD_DOORBELL (09 R262, R265, R279). -/
def Obligations.QueuesFollowTheirCommands : Prop :=
  (∀ (q : QueueId) (s : State), s.dstate = .ready →
     let x := s.queue q.val
     let valid := logOk x.sqlog && logOk x.cqlog && x.sqbase != 0 && x.cqbase != 0
     let put (c : Instr) (P : Queue → Prop) : Prop := Leads c s fun u =>
       P (u.queue q.val) ∧ (∀ k, k ≠ q.val → u.queue k = s.queue k) ∧ { u with queues := [] } = { s with queues := [] }
     let refused (c : Instr) : Prop := Leads c s fun u => u.queues = s.queues ∧ SameMemories s u ∧ RaisesDev 0x40B s u
     (x.st = .disabled ∧ valid = true → put (.qEnable q) fun y => y.st = .active ∧ y.sqhead = 0 ∧ y.sqtail = 0 ∧
       y.cqtail = 0 ∧ y.cqhead = 0 ∧ y.phase = true ∧ y.sqbase = x.sqbase ∧ y.cqbase = x.cqbase ∧ y.nextSeq = x.nextSeq) ∧
     (¬(x.st = .disabled ∧ valid = true) → refused (.qEnable q)) ∧
     (x.st = .active → put (.qDisable q) fun y =>
       y = { x with st := .draining, drainFetch := y.drainFetch, bells := y.bells }) ∧
     (x.st ≠ .active → refused (.qDisable q)) ∧
     (x.st = .error → put (.qClear q) fun y => y = { x with st := .disabled, err := 0 }) ∧
     (x.st ≠ .error → refused (.qClear q)) ∧
     (x.st = .draining → x.fetched = [] → x.drainFetch = false → put (.queueDrained q) fun y =>
       y = { x with st := .disabled }) ∧
     (x.st ≠ .draining ∨ x.fetched ≠ [] → Holds (.queueDrained q) s)) ∧
  (∀ (f : Fin 16) (q : QueueId) (v : Word) (s : State), s.dstate ≠ .safe →
     let x := s.queue q.val
     let n := v.toNat
     let others (u : State) : Prop := SameMemories s u ∧ ∀ k, k ≠ q.val → u.queue k = s.queue k
     let dropped (c : Instr) : Prop := Leads c s fun u => others u ∧ u.queue q.val = x ∧ RaisesDev 0x401 s u
     let fails (c : Instr) (cause : BitVec 8) : Prop := Leads c s fun u => others u ∧ RaisesDev 0x401 s u ∧
       (u.queue q.val).st = .error ∧ (u.queue q.val).err = cause ∧ (u.queue q.val).cqhead = x.cqhead ∧
       (u.queue q.val).sqtail = x.sqtail
     (x.func.toNat ≠ f.val ∨ 65536 ≤ n → dropped (.sqTailDoorbell f q v) ∧ dropped (.cqHeadDoorbell f q v)) ∧
     (x.func.toNat = f.val → n < 65536 →
       (x.st = .draining → Holds (.sqTailDoorbell f q v) s ∧ Holds (.cqHeadDoorbell f q v) s) ∧
       (x.st = .disabled ∨ x.st = .error → dropped (.sqTailDoorbell f q v) ∧ dropped (.cqHeadDoorbell f q v)) ∧
       (x.st = .active →
         (n < x.sqSize → Leads (.sqTailDoorbell f q v) s fun u => others u ∧
           u.queue q.val = { x with sqtail := v.setWidth 16, bells := (u.queue q.val).bells }) ∧
         (x.sqSize ≤ n → fails (.sqTailDoorbell f q v) 1) ∧
         (let ring (k : Nat) : Nat := (k + x.cqSize - x.cqhead.toNat) % x.cqSize
          (n < x.cqSize → ring n ≤ ring x.cqtail.toNat → Leads (.cqHeadDoorbell f q v) s fun u => others u ∧
             u.queue q.val = { x with cqhead := v.setWidth 16 }) ∧
          (x.cqSize ≤ n ∨ ring x.cqtail.toNat < ring n → fails (.cqHeadDoorbell f q v) 5)))))

/-- DESCRIPTOR_FETCH and DESCRIPTOR_ARRIVE (09 R265, R267; device seeds 05 R169). -/
def Obligations.DescriptorsFetchedAndChecked : Prop :=
  (∀ (q : QueueId) (data : List (List Byte)) (s : State),
    let x := s.queue q.val
    (s.fetchNext q.val = false → Holds (.descriptorFetch q (data.map some)) s) ∧
    (s.fetchNext q.val = true → 0 < data.length → data.length ≤ 8 → data.length ≤ x.ringPending →
      (∀ b ∈ data, b.length = 64) → Leads (.descriptorFetch q (data.map some)) s fun u => SameMemories s u ∧
        (∀ k, k ≠ q.val → u.queue k = s.queue k) ∧
        (u.queue q.val).fetched.map (fun d => d.bytes) = x.fetched.map (fun d => d.bytes) ++ data ∧
        (u.queue q.val).sqhead = BitVec.ofNat 16 ((x.sqhead.toNat + data.length) % x.sqSize) ∧
        (u.queue q.val).st = x.st)) ∧
  (∀ (q : QueueId) (d : Desc) (s : State), s.head q.val = some d → s.validateNext q.val = true → d.bytes.length = 64 →
    d.status = none →
    let x := s.queue q.val
    let c := s.ctx (dCtx d).val
    let tear := dOp d == 11
    let first : Option Byte :=
      if d.seq ≠ x.nextSeq then some stBad
      else if descWellFormed d = false then some stBad
      else if c.func ≠ x.func then some stBad
      else if tear = false ∧ c.st = .free then some stTorn
      else if tear = false ∧ (c.st = .killed ∨ (c.st = .tearing ∧ c.killing = true)) then some stKilled
      else if tear = false ∧ c.st = .tearing then some stTorn
      else if tear = false ∧ dGen d ≠ c.gen then some stTorn
      else if descArgs d c.plans = false then some stBad
      else none
    (∀ st, first = some st → Leads (.descriptorArrive q) s fun u => SameMemories s u ∧
      (u.queue q.val).nextSeq = d.seq + 1 ∧ ∃ d', u.head q.val = some d' ∧ d'.status = some st ∧ d'.bytes = d.bytes) ∧
    (first = none → ¬((dOp d = 2 ∨ dOp d = 4) ∧ dSeedSel d = 2) → Leads (.descriptorArrive q) s fun u => SameMemories s u ∧
      (u.queue q.val).nextSeq = d.seq + 1 ∧ u.head q.val = some { d with checked := true }) ∧
    (first = none → (dOp d = 2 ∨ dOp d = 4) → dSeedSel d = 2 →
      let ends (st : Byte) (u : State) : Prop := SameMemories s u ∧ (u.queue q.val).nextSeq = d.seq + 1 ∧
        ∃ d', u.head q.val = some d' ∧ d'.status = some st ∧ d'.bytes = d.bytes
      let quick := s.ecb.notrdy && dFailFast d
      (s.ecb.tst = .halted → Leads (.descriptorArrive q) s (ends stRngFailed)) ∧
      (s.ecb.tst ≠ .halted → quick = true → Leads (.descriptorArrive q) s (ends stRngNotReady)) ∧
      (s.ecb.tst ≠ .halted → quick = false → Leads (.descriptorArrive q) s fun u => SameMemories s u ∧
        (u.queue q.val).nextSeq = d.seq + 1 ∧ u.head q.val = some { d with checked := true, wants := 1 } ∧
        u.ecb.seedWait = s.ecb.seedWait ++ [q.val])))

/-- COMPLETION_WRITE and PROGRESS_TIMER_EXPIRY (09 R268, R269, R281). -/
def Obligations.CompletionsInTheirRing : Prop :=
  ∀ (q : QueueId) (s : State),
    let x := s.queue q.val
    (∀ ok, s.head q.val = none → Holds (.completionWrite q ok) s) ∧
    (∀ d ok, s.head q.val = some d → d.checked = false ∨ d.status = none ∨ x.cqRoom = false →
      Holds (.completionWrite q ok) s) ∧
    (∀ d, s.head q.val = some d → d.checked = true → d.status ≠ none → x.cqRoom = true → s.dstate ≠ .safe →
      let t := (x.cqtail.toNat + 1) % x.cqSize
      (Leads (.completionWrite q true) s fun u => SameMemories s u ∧
        (∃ more, u.out = s.out ++ Out.dmaWrite (BitVec.ofNat 64 (x.cqbase.toNat * 4096 + 32 * x.cqtail.toNat))
          (completionBytes q.val x.phase d) :: more) ∧
        (u.queue q.val).cqtail = BitVec.ofNat 16 t ∧ (u.queue q.val).phase = (if t = 0 then !x.phase else x.phase) ∧
        (u.queue q.val).fetched = x.fetched.drop 1 ∧ (u.queue q.val).st = x.st) ∧
      Leads (.completionWrite q false) s fun u => SameMemories s u ∧ (u.queue q.val).st = .error ∧
        (u.queue q.val).err = 3 ∧ (u.queue q.val).cqtail = x.cqtail ∧
        ∃ m : FaultMsg, m ∈ u.devWire ∧ m.kind = 0x404) ∧
    (x.st = .disabled ∨ (x.ringPending = 0 ∧ x.fetched = []) → Holds (.progressTimerExpiry q) s) ∧
    (∀ d, s.head q.val = some d → x.st ≠ .disabled → d.started = false → d.status = none →
      Leads (.progressTimerExpiry q) s fun u => SameMemories s u ∧ RaisesDev 0x710 s u ∧
        ∃ d', u.head q.val = some d' ∧ d'.status = some stHang ∧ d'.kind = 0x710 ∧ d'.bytes = d.bytes)

/-- The descriptor opcodes (09 R270, R271, R275, R290; 05 R153, R168; 17 R459; 12 R361). -/
def Obligations.DescriptorsRun : Prop :=
  ∀ (q : QueueId) (d : Desc) (s : State),
    let c := dCtx d
    let x := s.ctx c.val
    let at_ (op : Nat) : Prop := s.headReady q.val op = some d ∧ s.mayDispatch c = true
    let ends (st : Byte) (info : Nat) (u : State) : Prop :=
      ∃ e, u.head q.val = some e ∧ e.bytes = d.bytes ∧ e.status = some st ∧ e.info = BitVec.ofNat 32 info
    let noHost (u : State) : Prop := SameMemories s u ∧ ends stBad 0 u ∧ RaisesDev 0x402 s u
    let bad (u : State) : Prop := SameMemories s u ∧ ends stBad 0 u
    let wrote (a : Nat) (b : List Byte) (u : State) : Prop := u.dmas = s.dmas ++ [.dmaWrite (BitVec.ofNat 64 a) b]
    (at_ 2 → Leads (.run q) s fun u => SameMemories s u ∧ u.head q.val = some { d with started := true }) ∧
    (at_ 5 → Leads (.fence q) s fun u => SameMemories s u ∧ u.head q.val = some { d with started := true }) ∧
    (s.head q.val = some d → d.started = true → d.status = none → dOp d = 5 →
      let clear : Prop := ∀ y ∈ s.queues, (∀ b ∈ y.2.bells, d.doorbell ≤ b.2) ∧
        ∀ e ∈ y.2.fetched, dCtx e = c → e.bytes.length = 64 → d.doorbell ≤ e.doorbell
      (clear → Leads (.fenceComplete q) s fun u => SameMemories s u ∧ ends stOk 0 u) ∧
      (¬clear → Holds (.fenceComplete q) s)) ∧
    (at_ 4 → dSeedSel d = 1 →
      Leads (.seed q none) s noHost ∧
      ∀ b, b.length = 32 → Leads (.seed q (some b)) s fun u => SameMemories s u ∧ ends stOk 0 u ∧
        (u.ctx c.val).seed = some (b, false) ∧ (u.ctx c.val).step = 0) ∧
    (at_ 4 → dSeedSel d ≠ 1 →
      (d.seedBytes = none → Holds (.seed q none) s) ∧
      ∀ b, d.seedBytes = some b → Leads (.seed q none) s fun u => SameMemories s u ∧ ends stOk 0 u ∧
        (u.ctx c.val).seed = some (b, true) ∧ (u.ctx c.val).step = 0) ∧
    (at_ 3 →
      Leads (.copy q none none {}) s noHost ∧
      (∀ b data, copyBlock b = none → Leads (.copy q (some b) data {}) s bad) ∧
      ∀ b data off len h dir l, copyBlock b = some (off, len, h, dir) → x.planOf (dPlan d) = some l →
        ((l.plan.tensors.find? fun t => t.handle == h) = none → Leads (.copy q (some b) data {}) s bad) ∧
        ∀ t, (l.plan.tensors.find? fun t => t.handle == h) = some t →
          (copyRangeOk t off len = false → Leads (.copy q (some b) data {}) s bad) ∧
          (copyRangeOk t off len = true → s.copyStalls t off len = true → Holds (.copy q (some b) data {}) s) ∧
          ∀ p, copyRangeOk t off len = true → s.copyStalls t off len = false → t.isSealed = false → t.parts = [p] →
            (dir = 0 → ∀ v, v.length = len → Leads (.copy q (some b) (some v) {}) s fun u =>
              ends stOk len u ∧ SameStores s u ∧ SameAccs s u ∧
              DramTakes p.sheet.val (p.base + off) len (fun i => v.getD i 0) s u) ∧
            (dir ≠ 0 → 0 < len →
              (∀ g ∈ pagesOf (p.base + off) len, (s.sheet p.sheet.val).mem.differs g = false ∧
                ((s.sheet p.sheet.val).mem.attr g).1 ≠ 2) →
              Leads (.copy q (some b) data {}) s fun u => ends stOk len u ∧ SameMemories s u ∧
                wrote (dArg0 d) (mread (s.sheet p.sheet.val).mem.dram (p.base + off) len) u)) ∧
    (at_ 1 →
      let known := (x.planOf (dPlan d)).isSome
      (known = true → dArg1 d = 0 → ∀ i, Leads (.loadPlan q i {}) s bad) ∧
      (known = false → 64 ≤ x.plans.length → ∀ i, Leads (.loadPlan q i {}) s fun u =>
        SameMemories s u ∧ ends stRejected 0 u) ∧
      (known = false → x.plans.length < 64 →
        Leads (.loadPlan q none {}) s noHost ∧
        ∀ b, b.length = dArg0 d →
          (Config.parsePlan b = none → Leads (.loadPlan q (some b) {}) s fun u => SameMemories s u ∧ ends stRejected 0 u) ∧
          ∀ pl, Config.parsePlan b = some pl →
            let ok := s.planOk c pl && quotaOk x [] pl.tensors && s.pagesFree [] pl.tensors
            (ok = false → Leads (.loadPlan q (some b) {}) s fun u => SameMemories s u ∧ ends stRejected 0 u) ∧
            (ok = true → Leads (.loadPlan q (some b) {}) s fun u => SameMemories s u ∧
              ends stOk ((planClass pl).toNat * 2 ^ 24 + pl.tensors.length % 2 ^ 24) u ∧
              ∃ l, (u.ctx c.val).planOf (dPlan d) = some l ∧ l.plan = pl ∧ l.hash = shake256 32 b))) ∧
    let waits : Bool := ((x.tensors.filter fun t => t.ckpt).flatMap fun t => (List.range (tileCount t)).map fun i => (t, i)).any
      fun y => s.tileStalls y.1 y.2
    (at_ 6 → waits = true → Holds (.checkpoint q {}) s) ∧
    (at_ 6 → waits = false → Leads (.checkpoint q {}) s fun u => SameMemories s u ∧ ∃ tiles,
      let img := Config.checkpointImage
        { seed := x.seed, step := x.step, slots := (s.ctxSlots c).map s.slotImage, tiles := tiles }
      if dArg1 d < img.length then ends stBad 0 u ∧ u.dmas = s.dmas
      else wrote (dArg0 d) img u ∧ (ends stOk ((img.length + 4095) / 4096) u ∨ ends stCheckFailed ((img.length + 4095) / 4096) u)) ∧
    (at_ 7 →
      Leads (.restore q none {}) s noHost ∧
      ∀ b, b.length = dArg1 d →
        (Config.parseCheckpoint b = none → Leads (.restore q (some b) {}) s bad) ∧
        ∀ k, Config.parseCheckpoint b = some k →
          (s.imageFits c k = false → Leads (.restore q (some b) {}) s bad) ∧
          (s.imageFits c k = true → s.imageStalls c k = true → Holds (.restore q (some b) {}) s) ∧
          (s.imageFits c k = true → s.imageStalls c k = false → s.divisionsHeld c = false → Leads (.restore q (some b) {}) s fun u =>
            SameMemories s u ∧ ends stRejected 0 u) ∧
          (s.imageFits c k = true → s.imageStalls c k = false → s.divisionsHeld c = true → k.tiles = [] → Leads (.restore q (some b) {}) s fun u =>
            ends stOk 0 u ∧ (u.ctx c.val).seed = k.seed ∧ (u.ctx c.val).step = k.step)) ∧
    (at_ 8 →
      (s.snapOk (dArg0 d) = false → Leads (.snapshot q) s bad) ∧
      (s.snapOk (dArg0 d) = true → Leads (.snapshot q) s fun u => SameMemories s u ∧ u.cnt.pend = true ∧
        u.cnt.at0 = dArg0 d ∧ u.cnt.waiter = some q.val ∧ u.head q.val = some { d with started := true, wants := 3 })) ∧
    (at_ 9 → Leads (.query q) s fun u => SameMemories s u ∧ wrote (dArgPtr d) (s.queryBytes q.val d) u ∧
      ends stOk (s.queryBytes q.val d).length u) ∧
    (at_ 10 → ∀ l, x.planOf (dPlan d) = some l →
      let cover := coverOf (BitVec.ofNat 64 (dArg0 d)) (BitVec.ofNat 64 (dArg1 d)) (x.records.filter fun r => r.run.plan == dPlan d)
      (cover = none → Leads (.sealManifest q) s bad) ∧
      ∀ rs a z, cover = some rs → rs.head? = some a → rs.getLast? = some z → s.ecb.st ≠ .error → s.ecb.signext.toNat < sigEnd →
        (∀ r ∈ s.ecb.signing, r.queue ≠ some q.val) → s.ecb.signing.length < 64 →
        Leads (.sealManifest q) s fun u => SameMemories s u ∧ u.head q.val = some { d with started := true, wants := 2 } ∧
          u.ecb.signing = insertSign
            { queue := some q.val, addr := BitVec.ofNat 64 (dArgPtr d), body := s.manifestBody a z rs l.plan.span.length, came := s.now }
            s.ecb.signing) ∧
    (s.headReady q.val 11 = some d →
      (x.st = .tearing → Leads (.teardown q) s fun u => SameMemories s u ∧ ends stTorn 0 u) ∧
      (x.st = .free ∨ x.st = .killed → Leads (.teardown q) s fun u => SameMemories s u ∧ ends stOk x.drops.toNat u ∧
        (u.ctx c.val).st = x.st) ∧
      (x.st = .opened → Leads (.teardown q) s fun u => (u.ctx c.val).st = .tearing)) ∧
    ((s.ecb.seedWait.head? ≠ some q.val ∨ s.ecb.st ≠ .ready → Holds (.deviceSeedServe q) s) ∧
      (s.ecb.seedWait.head? = some q.val → s.ecb.st = .ready → s.head q.val = some d → d.wants = 1 → d.status = none →
        ∀ b, (s.drbgDraw 32 false (devSource 0) c.val d.seq.toNat).2 = some b →
          Leads (.deviceSeedServe q) s fun u => SameMemories s u ∧ u.ecb.seedWait = s.ecb.seedWait.drop 1 ∧
            (Out.dmaWrite (BitVec.ofNat 64 (dSeedPtr d)) b) ∈ u.out ∧
            u.head q.val = some { d with wants := 0, seedBytes := some b, cflags := d.cflags ||| cfSeedWr }))

/-- Link states and training (10 R313, R318 to R323, 11 R332). What a retraining port does at a failure in PARAM, and the
cause of a commanded retrain, are readings of the model (log 55); the credits at UP are its choice (log 49). -/
def Obligations.PortsTrainAndLeaveUp : Prop :=
  ∀ (p : PortId) (s : State),
    let n := p.val
    let x := s.port n
    let put (c : Instr) (y : Port) : Prop := Leads c s fun u => u.port n = y ∧ OnlyPort n s u
    let fails (c : Instr) (cause : BitVec 8) (next : LinkState) : Prop := Leads c s fun u =>
      u.port n = { x with tries := satInc x.tries, cause := cause, lstate := next, quiet := false } ∧
      (∀ k, k ≠ n → u.port k = s.port k) ∧ SameMemories s u ∧ RaisesDev 0x307 s u
    let was : Prop := x.lstate = .up ∨ x.retraining = true
    let goes (c : Instr) (st : LinkState) (cause : BitVec 8) (en : Bool) : Prop :=
      (s.chart.reg.upport.toNat ≠ n → Leads c s fun u =>
        let y := u.port n
        (y.lstate = st ∧ y.cause = cause ∧ y.en = en ∧ y.retraining = false ∧ y.txSeq = 0 ∧ y.rxSeq = 0 ∧ y.txSync = 0 ∧
          y.rxSync = 0 ∧ y.replayFlits = [] ∧ y.replaySyncs = [] ∧ y.flitQ = [] ∧ y.syncQ = [] ∧ y.encon = false) ∧
        (∀ k, k ≠ n → u.port k = s.port k) ∧ u.chart = s.chart ∧ SameMemories s u ∧
        (was → RaisesDev 0x301 s u) ∧ (¬was → u.devWire = s.devWire)) ∧
      (s.chart.reg.upport.toNat = n → was → Leads c s fun u => u.chart.lock = false)
    let fit : Prop := ∀ q : PartnerParams, s.paramsFit n q = true →
      let draws : Bool := x.enc && !(x.retraining && x.encon)
      let able : Prop := s.ecb.notrdy = false ∧ 2 ≤ s.ecb.pool.length
      let comes (u : State) : Prop :=
        let y := u.port n
        (∀ k, k ≠ n → u.port k = s.port k) ∧ SameMemories s u ∧ y.lstate = .up ∧ y.retraining = false ∧ y.encon = x.enc ∧
        y.pdev = q.devId ∧ y.pport = q.port ∧ y.delay = q.delayNs ∧ (y.long = true ↔ 90 < q.delayNs.toNat) ∧
        y.precod = x.precode ∧ y.txPrecode = q.precode ∧ y.rxScr = q.seeds.map BitVec.toNat ∧
        (draws = true → y.txKey.length = 40 ∧ y.txCount = 0 ∧ y.txSyncCount = 0) ∧
        (x.retraining = true → y.txSeq = x.txSeq ∧ y.rxSeq = x.rxSeq ∧ y.txSync = x.txSync ∧ y.rxSync = x.rxSync ∧
          y.replayFlits = x.replayFlits ∧ y.replaySyncs = x.replaySyncs ∧ y.resendFlits = x.replayFlits ∧
          y.resendSyncs = x.replaySyncs ∧ y.flitQ = x.flitQ ∧ y.syncQ = x.syncQ ∧ y.credits = x.credits) ∧
        (x.retraining = false → y.txSeq = 0 ∧ y.rxSeq = 0 ∧ y.txSync = 0 ∧ y.rxSync = 0 ∧
          ∀ v, tget 0 y.credits v = 0 ∧ tget 0 y.owed v = if v = 1 then 32 else if v = 2 ∨ v = 3 then 160 else 0)
      (draws = true → ¬able → Holds (.paramDone p q) s) ∧
      (draws = true → able → Leads (.paramDone p q) s comes) ∧
      (draws = false → Leads (.paramDone p q) s fun u => comes u ∧
        { u with ports := [], free := 0 } = { s with ports := [], free := 0 })
    (s.dstate ≠ .safe →
      (s.portLocked n = true → ∀ c ∈ [Instr.portEnable p, Instr.portDisable p],
        Leads c s fun u => u.ports = s.ports ∧ SameMemories s u ∧ RaisesDev 0x405 s u) ∧
      (s.portLocked n = false →
        (x.lstate = .off → put (.portEnable p)
          { x with en := true, tries := 0, quiet := false, lstate := if x.loop = 0 then .detect else .loopback }) ∧
        (x.lstate ≠ .off → put (.portEnable p) { x with en := true }) ∧
        (x.en = false → Holds (.portDisable p) s) ∧ (x.en = true → goes (.portDisable p) .off 7 false)) ∧
      (x.lstate = .up → put (.vjRetrain p)
        { x with lstate := .align, retraining := true, retrainCause := 5, badGroups := 0 }) ∧
      (x.lstate ≠ .up → Holds (.vjRetrain p) s)) ∧
    (x.lstate ≠ .detect → Holds (.detectTimer p) s ∧ Holds (.signalDetected p) s) ∧
    (x.lstate = .detect →
      (x.quiet = true → put (.detectTimer p) { x with quiet := false }) ∧
      (x.quiet = false → Leads (.detectTimer p) s fun u =>
        u.port n = { x with quiet := true, tries := satInc x.tries, cause := 1 } ∧ (∀ k, k ≠ n → u.port k = s.port k) ∧
        { u with ports := [], cnt := {} } = { s with ports := [], cnt := {} }) ∧
      put (.signalDetected p) { x with lstate := .equalise, quiet := false }) ∧
    (∀ ok, x.lstate ≠ .equalise → Holds (.equaliseDone p ok) s) ∧
    (x.lstate = .equalise → put (.equaliseDone p true) { x with lstate := .align } ∧
      fails (.equaliseDone p false) 2 (if x.retraining then .equalise else .detect)) ∧
    (∀ ok order pol, (x.lstate ≠ .align → Holds (.alignDone p ok order pol) s) ∧
      (x.lstate = .align → ok = true → order ≠ .other → put (.alignDone p ok order pol)
        { x with lstate := .param, rev := order == .reversed, pol := pol }) ∧
      (x.lstate = .align → ok = false ∨ order = .other →
        fails (.alignDone p ok order pol) 3 (if x.retraining then .equalise else .detect))) ∧
    (∀ q, (x.lstate ≠ .param → Holds (.paramDone p q) s) ∧
      (x.lstate = .param → s.paramsFit n q = false → (x.retraining = false → fails (.paramDone p q) 4 .detect) ∧
        (x.retraining = true → goes (.paramDone p q) .down 4 x.en))) ∧
    (x.lstate = .param → fit) ∧
    (x.retraining = false → Holds (.retrainLimitExpiry p) s) ∧
    (x.retraining = true → goes (.retrainLimitExpiry p) .down x.retrainCause x.en) ∧
    (x.lstate ≠ .up → Holds (.fencedUnitReceive p) s) ∧ (x.lstate = .up → goes (.fencedUnitReceive p) .down 8 x.en) ∧
    (x.lstate ≠ .fenced → Holds (.fencedUnitSend p) s) ∧
    (x.lstate = .fenced → Leads (.fencedUnitSend p) s fun u => (u.port n).txSync = x.txSync + 1 ∧
      (∀ k, k ≠ n → u.port k = s.port k) ∧
      { u with ports := [], out := [] } = { s with ports := [], out := [] } ∧
      ∃ b : List Byte, u.unitsOut = s.unitsOut ++ [.linkUnit p b] ∧ b.length = 64 ∧ bits (recField b 0 1) 7 6 = 2 ∧
        recField b 1 2 = x.txSync.toNat ∧ (x.encon = false → recField b 8 1 = 8) ∧ b.drop 60 = leBytes 4 (crc32c (b.take 60))) ∧
    (∀ g, (x.lstate = .up → 1024 < g → Leads (.correctedGroupRate p g) s fun u =>
        u.ports = s.ports ∧ SameMemories s u ∧ RaisesDev 0x308 s u) ∧
      (x.lstate ≠ .up ∨ g ≤ 1024 → Holds (.correctedGroupRate p g) s))

/-- The link layer (10 R300 to R313, R316, R317, R324; 14 R391; 16 R445). That a wait ends with the next number of either
stream is a reading of the model (log 55); where a malformed header ends is its choice (log 50). -/
def Obligations.LinkStreamsReplayAndDeliver : Prop :=
  ∀ (p : PortId) (s : State),
    let n := p.val
    let x := s.port n
    let a := x.ackNow
    let up : Prop := x.lstate = .up
    let room : Prop := x.flitsWait = false ∨ x.syncSlots < 16
    let sends (c : Instr) (b : List Byte) (q : Port → Prop) : Prop := Leads c s fun u =>
      u.unitsOut = s.unitsOut ++ [.linkUnit p b] ∧ q (u.port n) ∧ (∀ k, k ≠ n → u.port k = s.port k) ∧ SameMemories s u
    let slot := sends (.linkSlotSelect p)
    let flows : Prop := up ∧ (x.encon = true → x.txCount < 2 ^ 40 ∧ x.txSyncCount < 2 ^ 40)
    let noSync : Prop := (x.resendSyncs = [] ∧ (x.syncQ = [] ∨ 64 ≤ x.replaySyncs.length)) ∨ ¬room
    let retrains (cause : BitVec 8) (u : State) : Prop :=
      (u.port n).lstate = .align ∧ (u.port n).retraining = true ∧ (u.port n).retrainCause = cause
    let asks (y : Port) : Prop := y.lstate = x.lstate ∧ y.awaiting = true ∧ y.rxSeq = x.rxSeq ∧ y.rxSync = x.rxSync ∧
      y.mgmtQ = (if x.awaiting then x.mgmtQ else x.mgmtQ ++ [requestUnit x.rxSeq x.rxSync])
    (x.lstate ≠ .up → x.lstate ≠ .fenced → Holds (.linkSlotSelect p) s) ∧
    (x.lstate = .fenced → slot (idleUnit a.1 a.2 (x.takeCred s.chart.starting).1) fun _ => True) ∧
    (flows →
      (∀ b r, x.mgmtQ = b :: r → slot b fun y => y.mgmtQ = r ∧ y.replay = satInc x.replay) ∧
      (∀ v r, x.mgmtQ = [] → x.resendSyncs = v :: r → room →
        slot (syncUnit v.kph v.seq a.1 a.2 v.body) fun y => y.resendSyncs = r ∧ y.txSync = x.txSync) ∧
      (∀ m r, x.mgmtQ = [] → x.resendSyncs = [] → x.syncQ = m :: r → x.replaySyncs.length < 64 → room → x.encon = false →
        slot (syncUnit false x.txSync a.1 a.2 ((syncBytes (stampSync s.chart.datum m) ++ List.replicate 48 0).take 48)) fun y =>
          y.syncQ = r ∧ y.txSync = x.txSync + 1 ∧ y.inProgress = x.inProgress ∧ ∃ v : SentSync,
            y.replaySyncs = x.replaySyncs ++ [v] ∧ v.seq = x.txSync) ∧
      (x.mgmtQ = [] → noSync →
        (∀ b r, x.inProgress = b :: r → slot b fun y => y.inProgress = r) ∧
        (∀ f r, x.inProgress = [] → x.resendFlits = f :: r →
          let us := flitUnits f.vl f.seq a.1 a.2 (x.takeCred s.chart.starting).1 f.kph f.pay
          slot (us.headD []) fun y => y.inProgress = us.drop 1 ∧ y.resendFlits = r ∧ y.txSeq = x.txSeq) ∧
        (x.inProgress = [] → x.resendFlits = [] → (∀ v k, x.laneHead v = some k → k.pk.poison = false) →
          let lane (v : Nat) : Prop := (x.laneHead v).isSome = true ∧ 0 < tget 0 x.credits v ∧ (v = 1 ∨ s.sendHeld n = false)
          let sent (v : Nat) : Prop := Leads (.linkSlotSelect p) s fun u =>
            let y := u.port n
            y.txSeq = x.txSeq + 1 ∧ tget 0 y.credits v = tget 0 x.credits v - 1 ∧ y.inProgress.length = 3 ∧
            (∃ f : Flit, y.replayFlits = x.replayFlits ++ [f] ∧ f.seq = x.txSeq ∧ f.vl = v ∧
              u.unitsOut = s.unitsOut ++ [.linkUnit p ((flitUnits v f.seq a.1 a.2 (x.takeCred s.chart.starting).1 f.kph f.pay).headD [])]) ∧
            (∀ k, k ≠ n → u.port k = s.port k)
          (x.replayFlits.length < 128 → lane 1 → x.vl1Run < 16 → sent 1) ∧
          (x.replayFlits.length < 128 → lane 1 → 16 ≤ x.vl1Run → ¬lane 2 → ¬lane 3 → sent 1) ∧
          (x.replayFlits.length < 128 → lane 1 → x.vl1Run = 16 → lane 2 → sent 2) ∧
          (x.replayFlits.length < 128 → lane 1 → x.vl1Run = 17 → lane 3 → sent 3) ∧
          (x.replayFlits.length < 128 → ¬lane 1 → lane 2 → x.vl2Run < 3 → sent 2) ∧
          (x.replayFlits.length < 128 → ¬lane 1 → lane 3 → 3 ≤ x.vl2Run → sent 3) ∧
          (128 ≤ x.replayFlits.length ∨ (¬lane 1 ∧ ¬lane 2 ∧ ¬lane 3) →
            slot (idleUnit a.1 a.2 (x.takeCred s.chart.starting).1) fun y => y.txSeq = x.txSeq)))) ∧
    (∀ g, x.lstate ≠ .up → Holds (.unitReceive p g) s) ∧
    (up →
      Leads (.unitReceive p .uncorrectable) s (fun u => SameMemories s u ∧ (u.port n).uncorr = satInc x.uncorr ∧
        (7 ≤ x.badGroups → retrains 5 u) ∧
        (x.badGroups < 7 → asks (u.port n) ∧ (u.port n).badGroups = x.badGroups + 1)) ∧
      (∀ lanes, let r := receiveGroup x.rxScr (lanes.map fun l => l.map BitVec.toNat)
        (r.1 = none → Leads (.unitReceive p (.wire lanes)) s fun u => SameMemories s u ∧ (u.port n).uncorr = satInc x.uncorr ∧
          (u.port n).rxScr = r.2 ∧ (7 ≤ x.badGroups → retrains 5 u) ∧
          (x.badGroups < 7 → asks (u.port n) ∧ (u.port n).badGroups = x.badGroups + 1)) ∧
        ∀ us fixed, r.1 = some (us, fixed) → Leads (.unitReceive p (.wire lanes)) s fun u => (u.port n).badGroups = 0 ∧
          (u.port n).corrgrp = if fixed then satInc x.corrgrp else x.corrgrp) ∧
      ∀ (b : List Byte) (fixed : Bool),
        let c := recField b 0 1
        let whole : Prop := b.length = 64 ∧ parityOk c = true
        let good : Prop := whole ∧ controlOk c x.encon = true ∧ recField b 60 4 = crc32c (b.take 60)
        let gets := Leads (.unitReceive p (.bytes b fixed)) s
        let ack := BitVec.ofNat 16 (recField b 5 2)
        let sack := BitVec.ofNat 16 (recField b 3 2)
        let num := BitVec.ofNat 16 (recField b 1 2)
        (¬whole → gets fun u => asks (u.port n) ∧ u.devWire = s.devWire) ∧
        (whole → controlOk c x.encon = false → gets fun u => retrains 0x0A u ∧ RaisesDev 0x305 s u) ∧
        (whole → controlOk c x.encon = true → bits c 7 6 ≠ 1 → recField b 60 4 ≠ crc32c (b.take 60) → gets fun u =>
          asks (u.port n) ∧ RaisesDev 0x303 s u) ∧
        (good → bits c 7 6 = 2 →
          (precedes num x.rxSync = true → gets fun u =>
            (u.port n).rxSync = x.rxSync ∧ (u.port n).awaiting = x.awaiting ∧ (u.port n).mgmtQ = x.mgmtQ ∧ u.devWire = s.devWire) ∧
          (num ≠ x.rxSync → precedes num x.rxSync = false → gets fun u => asks (u.port n)) ∧
          (num = x.rxSync → x.encon = false →
            (precedes ack x.txSeq = true → precedes sack x.txSync = true → gets fun u =>
              (u.port n).rxSync = x.rxSync + 1 ∧ (u.port n).awaiting = false ∧ u.devWire = s.devWire ∧
              (u.port n).replayFlits = x.replayFlits.filter fun f => precedes ack f.seq) ∧
            (precedes ack x.txSeq = false ∨ precedes sack x.txSync = false → gets fun u =>
              retrains 0x0A u ∧ RaisesDev 0x305 s u ∧ (u.port n).rxSync = x.rxSync))) ∧
        (whole → controlOk c x.encon = true → bits c 7 6 = 1 →
          let have_ := if bits c 5 4 = 0 then [] else x.rxSub
          let same : Prop := have_.length = bits c 5 4 ∧ ∀ v ∈ have_, bits (recField v 0 1) 3 2 = bits c 3 2
          let us := have_ ++ [b]
          let all := us.flatMap id
          let h := us.headD []
          let vl := bits (recField h 0 1) 3 2
          (¬same → gets fun u => asks (u.port n)) ∧
          (same → bits c 5 4 ≠ 3 → gets fun u => (u.port n).rxSub = us ∧ (u.port n).rxSeq = x.rxSeq ∧ u.devWire = s.devWire) ∧
          (same → bits c 5 4 = 3 →
            (recField all 252 4 ≠ crc32c (all.take 252) → gets fun u => asks (u.port n) ∧ RaisesDev 0x303 s u) ∧
            (recField all 252 4 = crc32c (all.take 252) → BitVec.ofNat 16 (recField h 1 2) = x.rxSeq →
              (laneBuffer vl ≤ (tget [] x.rxFlits vl).length + tget 0 x.owed vl → gets fun u => retrains 0x0A u ∧ RaisesDev 0x305 s u) ∧
              ((tget [] x.rxFlits vl).length + tget 0 x.owed vl < laneBuffer vl → precedes (BitVec.ofNat 16 (recField h 3 2)) x.txSeq = true →
                precedes (BitVec.ofNat 16 (recField h 5 2)) x.txSync = true → bits (recField h 7 1) 7 6 = 0 →
                gets fun u => (u.port n).rxSeq = x.rxSeq + 1 ∧ (u.port n).awaiting = false))))) ∧
    (∀ f y : BitVec 16, (x.lstate ≠ .up → Holds (.replayRequestReceive p f y) s) ∧
      (up → Leads (.replayRequestReceive p f y) s fun u => OnlyPort n s u ∧ u.port n = { x with
        resendFlits := x.replayFlits.filter fun z => !precedes z.seq f
        resendSyncs := x.replaySyncs.filter fun z => !precedes z.seq y })) ∧
    (x.lstate ≠ .up ∨ x.awaiting = false → Holds (.replayRequestTimeout p) s) ∧
    (up → x.awaiting = true →
      (x.reqFlit < 7 → x.reqSync < 7 → Leads (.replayRequestTimeout p) s fun u => OnlyPort n s u ∧ u.port n = { x with
        reqFlit := x.reqFlit + 1, reqSync := x.reqSync + 1, mgmtQ := x.mgmtQ ++ [requestUnit x.rxSeq x.rxSync] }) ∧
      (7 ≤ x.reqFlit ∨ 7 ≤ x.reqSync → Leads (.replayRequestTimeout p) s fun u => retrains 6 u ∧ SameMemories s u ∧ RaisesDev 0x302 s u)) ∧
    (x.lstate ≠ .up → Holds (.ackStallResend p) s) ∧
    (up → Leads (.ackStallResend p) s fun u => OnlyPort n s u ∧ u.port n = { x with
      resendFlits := x.replayFlits, resendSyncs := x.replaySyncs }) ∧
    (∀ (vl : Fin 4) (d : Disturb), x.lstate ≠ .up ∨ tget none x.rxPacket vl.val = none →
      Holds (.packetReceipt p vl d) s) ∧
    (∀ (y : Port) (v : Nat), let z := y.drainLane v
      tget 0 z.owed v + (tget [] z.rxFlits v).length = tget 0 y.owed v + (tget [] y.rxFlits v).length ∧
      (tget [] z.rxFlits v ≠ [] → (tget none z.rxPacket v).isSome = true)) ∧
    (∀ (vl : Fin 4) (a : RxPacket), up → tget none x.rxPacket vl.val = some a → a.parse = none →
      Leads (.packetReceipt p vl {}) s fun u => SameMemories s u ∧ RaisesDev 0x306 s u) ∧
    (∀ (vl : Fin 4) (a : RxPacket) (k : Packet), up → tget none x.rxPacket vl.val = some a → a.parse = some k → k.enc = false →
      let got := Leads (.packetReceipt p vl {}) s
      let rest := ({ x with rxPacket := tset none x.rxPacket vl.val none } : Port).drainLane vl.val
      let gone (u : State) : Prop := (u.port n).rxPacket = rest.rxPacket ∧ (u.port n).rxFlits = rest.rxFlits ∧
        (u.port n).rxAsm = rest.rxAsm ∧ (u.port n).owed = rest.owed
      let cx := s.ctx k.ctx.toNat
      let sealed_ := checkTile (k.body.take 32) (k.body.drop 32) { tensor := recTensor k.body, tile := recTile k.body, fmt := none }
      (s.packetOk n vl.val k = false → got fun u => gone u ∧ SameMemories s u ∧ RaisesDev 0x306 s u) ∧
      (s.packetOk n vl.val k = true →
        (k.gen ≠ cx.gen → got fun u => gone u ∧ SameMemories s u ∧ u.devWire = s.devWire ∧
          u.ctx k.ctx.toNat = { cx with drops := satInc cx.drops }) ∧
        (k.gen = cx.gen → s.epochDrops k = true → got fun u => gone u ∧ SameMemories s u ∧ u.devWire = s.devWire ∧
          u.ctxs = s.ctxs ∧ (u.epoch k.ctx.toNat).drops = satInc (s.epoch k.ctx.toNat).drops) ∧
        (k.gen = cx.gen → s.epochDrops k = false → k.dst ≠ s.chart.reg.devId →
          ∀ q, s.routePort k.dst.toNat = some q →
            let passes (k' : Packet) (u : State) : Prop := gone u ∧ SameMemories s u ∧
              tget [] (u.port q).flitQ vl.val =
                tget [] (s.port q).flitQ vl.val ++ [{ pk := k', begun := false, kph := false, pieces := [] }]
            (k.ptype ≠ 1 → got (passes k)) ∧
            (k.ptype = 1 → sealed_ = none → got fun u => passes k u ∧ u.devWire = s.devWire) ∧
            (∀ kind, k.ptype = 1 → sealed_ = some kind →
              got fun u => passes { k with poison := true } u ∧ RaisesDev kind s u)))) ∧
    (¬(up ∧ x.encon = true ∧ x.krdy = true) → Holds (.keyPhaseChange p) s) ∧
    (up → x.encon = true → x.krdy = true → Leads (.keyPhaseChange p) s fun u => OnlyPort n s u ∧ u.port n = { x with
      kpht := !x.kpht, krdy := false, txKey := x.nextKey, nextKey := [], txCount := 0, txSyncCount := 0 }) ∧
    (¬(up ∧ x.encon = true ∧ x.krdy = false ∧ (2 ^ 39 ≤ x.txCount ∨ 2 ^ 39 ≤ x.txSyncCount)) → Holds (.linkRekey p) s) ∧
    (up → x.encon = true → x.krdy = false → 2 ^ 39 ≤ x.txCount ∨ 2 ^ 39 ≤ x.txSyncCount → s.ecb.notrdy = false →
      2 ≤ s.ecb.pool.length → Leads (.linkRekey p) s fun u =>
        (u.port n).krdy = true ∧ (u.port n).nextKey.length = 40 ∧ (u.port n).txKey = x.txKey ∧ ∃ k : TxPacket,
          tget [] (u.port n).flitQ 1 = tget [] x.flitQ 1 ++ [k] ∧ k.pk.ptype = 5 ∧ k.pk.dst = x.pdev) ∧
    (∀ vl : Fin 4, (x.laneHead vl.val = none ∨ x.lstate ≠ .up ∨ 0 < tget 0 x.credits vl.val →
        Holds (.linkCreditTimeout p vl) s) ∧
      (∀ k, x.laneHead vl.val = some k → up → tget 0 x.credits vl.val = 0 →
        let cx := s.ctx k.pk.ctx.toNat
        (cx.st = .opened → Leads (.linkCreditTimeout p vl) s fun u =>
          (u.ctx k.pk.ctx.toNat).st = .tearing ∧ (u.ctx k.pk.ctx.toNat).killing = true) ∧
        (cx.st = .free ∨ cx.st = .killed → Leads (.linkCreditTimeout p vl) s fun u =>
          u.ctxs = s.ctxs ∧ u.ports = s.ports ∧ SameMemories s u ∧ RaisesDev 0x721 s u)))

/-- Chart states and the datum tree (11 R325 to R333). Rate trimming moves no state of the model; the depth at lock beyond one
hop and the stamps of an echo are free (log 53), and so is that a RUN whose count passed before SERVICE opens late; CHART.SAVE acts in any chart state once Ecbumos runs (log 51). -/
def Obligations.ChartsAlignAndLock : Prop :=
  (∀ s : State,
    let c := s.chart
    let calm : Prop := ∀ k, (s.epoch k).st ≠ .opened
    let only (i : Instr) (y : Chart) : Prop := Leads i s fun u => u = { s with chart := y }
    let calmLaunch : Prop := ∀ k, (s.epoch k).st ≠ .launch
    let noVotes : Prop := ∀ k, (s.epoch k).st = .launch → (s.epoch k).votes = []
    let start := { c with st := .aligning, lock := false, stepped := false, goodRun := 0, serviceAt := none, childSums := [] }
    (s.dstate ≠ .safe →
      (c.writable = true → s.isDatum = false → only .chartAlign start) ∧
      (c.writable = true → s.isDatum = true → Leads .chartAlign s fun u =>
        u.chart.st = .startUp ∧ u.chart.lock = true ∧ u.chart.datum = c.datum ∧ u.chart.reg = c.reg ∧ SameMemories s u) ∧
      (c.writable = false → Leads .chartAlign s fun u => u.chart = c ∧ SameMemories s u ∧ RaisesDev 0x40D s u) ∧
      (s.ecb.st = .ready → Leads .chartSave s fun u =>
        { u with mram := [] } = { s with mram := [], chart := { c with saved := some c.reg } }) ∧ (s.ecb.st ≠ .ready → Holds .chartSave s)) ∧
    (c.lock = false → Holds .datumSend s) ∧
    (c.lock = true → Leads .datumSend s fun u => { u with ports := [] } = { s with ports := [] } ∧
      ∀ n, (n ∉ s.downPorts → u.port n = s.port n) ∧ (n ∈ s.downPorts → ∃ m : SyncMsg,
        u.port n = { s.port n with syncQ := (s.port n).syncQ ++ [m] } ∧ m.stype = 5 ∧ m.num.toNat = chartCode c.st)) ∧
    (s.isDatum = true ∨ c.lock = false → Holds .datumTimeout s) ∧
    (s.isDatum = false → c.lock = true → calm → Leads .datumTimeout s fun u =>
      u.chart.st = .unlocked ∧ u.chart.lock = false ∧ u.chart.datum = c.datum ∧ SameMemories s u ∧ RaisesDev 0x321 s u) ∧
    (c.serviceAt = none → Holds (.triggerCountReached none) s) ∧
    (∀ t, c.serviceAt = some t → c.st ≠ .startUp ∨ noVotes → Leads (.triggerCountReached none) s fun u =>
      t ≤ u.now ∧ (s.now ≤ t → u.now = t) ∧ (c.st = .startUp → u.chart.st = .service ∧ u.chart.serviceAt = none) ∧
      (c.st ≠ .startUp → u.chart.st = c.st) ∧ (c.st ≠ .startUp ∨ calmLaunch → { u with chart := {} } = { s with chart := {} }) ∧
      ∀ (k : CtxId) (at' : Nat), c.st = .startUp → (s.epoch k.val).st = .launch → (s.epoch k.val).launchAt = some at' →
        (at' ≤ u.now → (u.epoch k.val).st = .opened) ∧ (u.now < at' → u.epoch k.val = s.epoch k.val))) ∧
  (∀ (p : PortId) (s : State),
    let n := p.val
    let c := s.chart
    let calm : Prop := ∀ k, (s.epoch k).st ≠ .opened
    let noVotes : Prop := ∀ k, (s.epoch k).st = .launch → (s.epoch k).votes = []
    let adds (ty : Byte) (k : Nat) (u : State) : Prop := ∃ m : SyncMsg, m.stype = ty ∧ m.num = 0 ∧
      u.port k = { s.port k with syncQ := (s.port k).syncQ ++ [m] }
    (∀ (at' : Word) (frac : Byte) (st : BitVec 16) (arr : Nat),
      let i := Instr.datumReceive p at' frac st arr
      let err : Int := (256 * (at'.toNat : Int) + frac.toNat + s.portDelay n) - arr
      let heard : Prop := s.upPort = some n ∧ s.isDatum = false ∧ c.writable = false
      let run := if err.natAbs ≤ 256 then c.goodRun + 1 else 0
      let steps : Bool := c.st == .aligning && !c.stepped
      let moved := if steps && (!c.lockedBefore || decide (0 < err)) then ((c.datum : Int) + err).toNat else c.datum
      (¬heard → Holds i s) ∧
      (heard → c.lock = true → err.natAbs ≤ 2048 → Leads i s fun u =>
        { u with chart := { u.chart with err := 0, stepped := true, datum := 0 } } =
          { s with chart := { c with err := 0, stepped := true, datum := 0 } }) ∧
      (heard → c.lock = true → c.st ≠ .aligning → 2048 < err.natAbs → calm → Leads i s fun u =>
        u.chart.st = .unlocked ∧ u.chart.lock = false ∧ u.chart.datum = c.datum ∧ SameMemories s u ∧ RaisesDev 0x320 s u) ∧
      (heard → c.lock = false → run < 16 ∨ st ≠ 3 ∨ noVotes → Leads i s fun u =>
        u.chart.datum = moved ∧ u.chart.stepped = (c.stepped || steps) ∧ u.chart.goodRun = run ∧ SameMemories s u ∧
        (run < 16 → u.chart.lock = false ∧ u.chart.st = c.st ∧ { u with chart := {} } = { s with chart := {} }) ∧
        (16 ≤ run → u.chart.lock = true ∧ u.chart.lockedBefore = true ∧
          ((s.port n).pdev = c.reg.datumDev → u.chart.depth = 1) ∧
          u.chart.st = if st = 3 then .service else .startUp))) ∧
    (s.treePort n = false → Holds (.delayProbeSend p) s ∧ Holds (.delayProbeReceive p) s) ∧
    (s.treePort n = true →
      Leads (.delayProbeSend p) s (fun u => OnlyPort n s u ∧ adds 6 n u) ∧
      Leads (.delayProbeReceive p) s fun u => adds 7 n u ∧ (∀ k, k ≠ n → u.port k = s.port k) ∧
        { u with ports := [], free := 0 } = { s with ports := [], free := 0 }) ∧
    (∀ t1 t2 t3 t4 : Nat, (s.treePort n = false → Holds (.delayEchoReceive p t1 t2 t3 t4) s) ∧
      (s.treePort n = true → Leads (.delayEchoReceive p t1 t2 t3 t4) s fun u =>
        let l := tget [] c.probes n ++ [(((t4 : Int) - t1) - ((t3 : Int) - t2)) / 2]
        tget [] u.chart.probes n = l.drop (l.length - 16) ∧ (∀ k, k ≠ n → tget [] u.chart.probes k = tget [] c.probes k) ∧
        { u with chart := { u.chart with probes := [] } } = { s with chart := { c with probes := [] } })) ∧
    (∀ m : SyncMsg, m.num = 0 →
      let y := { c with childSums := tset 0 c.childSums n (m.operand.toNat % 8192) }
      let at' := s.now + c.reg.lmargin.toNat
      let arrives := Leads (.barrierArriveReceive p m) s
      (n ∉ s.downPorts → Holds (.barrierArriveReceive p m) s) ∧
      (n ∈ s.downPorts →
        arrives (fun u => tget 0 u.chart.childSums n = m.operand.toNat % 8192 ∧ u.chart.members = BitVec.ofNat 13 y.joined) ∧
        (c.st = .startUp → s.isDatum = false → ∀ q, s.upPort = some q → arrives fun u =>
          ∃ x : SyncMsg, u.port q = { s.port q with syncQ := (s.port q).syncQ ++ [x] } ∧ x.stype = 1 ∧ x.num = 0 ∧
            x.operand = BitVec.ofNat 64 y.joined) ∧
        (c.st = .startUp → s.isDatum = true → y.joined = c.reg.size.toNat → c.serviceAt = none → arrives fun u =>
          u.chart.serviceAt = some at' ∧ u.chart.st = .startUp ∧ ∀ k ∈ s.downPorts, ∃ x : SyncMsg,
            u.port k = { s.port k with syncQ := (s.port k).syncQ ++ [x] } ∧ x.stype = 4 ∧ x.num = 0 ∧
            x.operand = BitVec.ofNat 64 at') ∧
        (c.st = .startUp → s.isDatum = true → c.reg.size.toNat < y.joined → arrives fun u =>
          u.chart.st = .startUp ∧ u.chart.serviceAt = c.serviceAt ∧ SameMemories s u ∧ RaisesDev 0x324 s u)) ∧
      (s.upPort ≠ some n → Holds (.triggerReceive p m) s) ∧
      (s.upPort = some n →
        Leads (.triggerReceive p m) s (fun u => ∀ k ∈ s.downPorts, ∃ x : SyncMsg,
          u.port k = { s.port k with syncQ := (s.port k).syncQ ++ [x] } ∧ x.stype = 4 ∧ x.num = 0 ∧ x.operand = m.operand) ∧
        (s.now ≤ m.operand.toNat → Leads (.triggerReceive p m) s fun u =>
          u.chart = { c with serviceAt := some m.operand.toNat } ∧ u.devWire = s.devWire) ∧
        (m.operand.toNat < s.now → c.st ≠ .startUp ∨ noVotes → Leads (.triggerReceive p m) s fun u =>
          (∃ (x : FaultMsg) (l : List FaultMsg), u.devWire = s.devWire ++ x :: l ∧ x.kind = 0x322) ∧ u.chart.datum = c.datum ∧
          (c.st = .startUp → u.chart.st = .service)))))

/-- Span trees and epochs (11 R335, R336, R342, R343, R345). How a difference of tags spreads over the span is a reading of
the model (log 25), and which sheet a FLAG of another device reaches is free (log 52). -/
def Obligations.EpochsLaunchVoteAndRollBack : Prop :=
  (∀ (q : PortId) (m : SyncMsg) (s : State), s.msgCurrent q.val m = false →
    (m.num ≠ 0 → Holds (.barrierArriveReceive q m) s ∧ Holds (.triggerReceive q m) s) ∧
    Holds (.barrierReleaseReceive q m) s ∧ Holds (.syncFlagReceive q m) s) ∧
  (∀ (q : PortId) (m : SyncMsg) (s : State), s.msgCurrent q.val m = true →
    let l := (s.part (s.ctxPart (msgCtx m))).sheetList
    let b := BitVec.ofNat 64 (2 ^ (m.num.toNat % 64))
    (l = [] → Holds (.syncFlagReceive q m) s) ∧
    (l ≠ [] → Leads (.syncFlagReceive q m) s fun u => ∃ h ∈ l, (∀ j, j ≠ h → u.sheet j = s.sheet j) ∧
      u.sheet h = { s.sheet h with flags := if m.value then (s.sheet h).flags ||| b else (s.sheet h).flags &&& ~~~b } ∧
      { u with sheets := [], free := 0 } = { s with sheets := [], free := 0 })) ∧
  (∀ (c : CtxId) (s : State),
    let e := s.epoch c.val
    (e.st ≠ .rollback → Holds (.rollbackDrainComplete c) s ∧ Holds (.drainTimeout c) s) ∧
    (((s.part (s.ctxPart c)).portList.any fun n => (s.port n).owes c.val) = true → Holds (.rollbackDrainComplete c) s) ∧
    (e.st = .rollback → Leads (.drainTimeout c) s fun u => u.chart = s.chart ∧ SameMemories s u ∧ RaisesDev 0x341 s u) ∧
    (e.st ≠ .launch ∨ e.launchAt = none → Holds (.triggerCountReached (some c)) s) ∧
    (∀ t, e.st = .launch → e.launchAt = some t → s.chart.st ≠ .service → Leads (.triggerCountReached (some c)) s fun u =>
      t ≤ u.now ∧ (s.now ≤ t → u.now = t) ∧ { u with chart := {} } = { s with chart := {} } ∧ u.epoch c.val = e) ∧
    (∀ t, e.st = .launch → e.launchAt = some t → s.chart.st = .service → e.votes = [] → Leads (.triggerCountReached (some c)) s fun u =>
      t ≤ u.now ∧ (s.now ≤ t → u.now = t) ∧ u.epoch c.val = { e with st := .opened, launchAt := none, tags := [], sent := false } ∧
      ∀ x ∈ (u.part (s.ctxPart c)).runs, x.ctx = c → x.waitLaunch = false) ∧
    ((s.part (s.ctxPart c)).runOf c = none → Holds (.epochCommitArrive c) s)) ∧
  ∀ (c : CtxId) (t : SpanTree) (r : RunState) (l : LoadedPlan) (s : State),
    let p := s.ctxPart c
    let e := s.epoch c.val
    (s.part p).runOf c = some r → s.runPlan p c = some l → s.epochTree c = some t → r.chart = true →
    let only (y : Epoch) (u : State) : Prop := u.epoch c.val = y ∧ (∀ k, k ≠ c.val → u.epoch k = s.epoch k) ∧
      { u with chart := { u.chart with epochs := [] } } = { s with chart := { s.chart with epochs := [] } }
    let tells (q : PortId) (ty : Byte) (w : Word) (u : State) : Prop := ∃ m : SyncMsg,
      (u.port q.val).syncQ = (s.port q.val).syncQ ++ [m] ∧ m.stype = ty ∧ m.num = t.num ∧ m.operand = w ∧
      m.ctx.toNat = c.val ∧ m.gen = (s.ctx c.val).gen
    let down (ty : Byte) (w : Word) (u : State) : Prop := t.children.Nodup → ∀ q ∈ t.children, tells q ty w u
    let ends (u : State) : Prop := (u.epoch c.val).st = .idle ∧ (u.part p).runOf c = none ∧ (u.ctx c.val).step = (s.ctx c.val).step
    let commits (u : State) : Prop :=
      let step := (s.ctx c.val).step + BitVec.ofNat 64 r.provisional
      (s.chart.st = .unlocked → (u.epoch c.val).st ≠ .opened) ∧
      (s.chart.st ≠ .unlocked → (u.ctx c.val).step = step ∧ SameDram s u ∧
      (r.total ≤ r.committed + r.provisional → (u.epoch c.val).st = .idle ∧ (u.part p).runOf c = none) ∧
      (r.committed + r.provisional < r.total → (u.epoch c.val).st = .opened ∧ (u.epoch c.val).num = step.setWidth 32 ∧
        (u.epoch c.val).votes = []))
    let rolls (u : State) : Prop := (u.epoch c.val).st = .rollback ∧ (u.epoch c.val).rbcnt = satInc e.rbcnt ∧
      (u.ctx c.val).step = (s.ctx c.val).step
    (∀ (q : PortId) (m : SyncMsg), s.msgCurrent q.val m = true → m.num = t.num → m.num ≠ 0 → m.ctx.toNat = c.val →
      let arr := Leads (.barrierArriveReceive q m) s
      (q ∉ t.children → Holds (.barrierArriveReceive q m) s) ∧
      (q ∈ t.children → e.st = .launch → e.launchAt = none → (∀ v ∈ e.tags, v.1 ≠ some q) →
        let all : Prop := ∀ i ∈ treeInputs t, i = some q ∨ ∃ v ∈ e.tags, v.1 = i
        let same : Prop := ∀ v ∈ e.tags, v.2 = m.operand
        let at' := s.now + s.chart.reg.lmargin.toNat
        (same → ¬all ∨ e.sent = true → arr (only { e with tags := e.tags ++ [(some q, m.operand)] })) ∧
        (same → all → e.sent = false → t.parent = none → arr fun u =>
          (u.epoch c.val).launchAt = some at' ∧ down 4 (BitVec.ofNat 64 at') u) ∧
        (∀ pr, same → all → e.sent = false → t.parent = some pr → arr (tells pr 1 (s.launchTag c))) ∧
        (¬same → arr fun u => ends u ∧ RaisesDev 0x323 s u)) ∧
      (q ∈ t.children → e.st = .opened ∨ e.st = .voted → m.epoch = e.num → (∀ v ∈ e.votes, v.1 ≠ some q) → e.sent = false →
        let differ : Prop := m.operand.getLsbD 61 = true ∧
          ∃ v ∈ e.votes, v.2.getLsbD 61 = true ∧ v.2.toNat % 2 ^ 61 ≠ m.operand.toNat % 2 ^ 61
        let votes := e.votes ++ [(some q, m.operand)]
        let fail : Prop := ∃ v ∈ votes, verdictOf v.2 = 2
        let full : Prop := ∀ i ∈ treeInputs t, ∃ v ∈ votes, v.1 = i
        (¬differ → ¬fail → ¬full → arr (only { e with votes := votes })) ∧
        (∀ pr, t.parent = some pr →
          (¬differ → fail → arr fun u => ∃ w, tells pr 1 w u ∧ verdictOf w = 2) ∧
          (¬differ → ¬fail → full → arr fun u => ∃ w, tells pr 1 w u ∧
            verdictOf w = (votes.map fun v => verdictOf v.2).foldl max 0) ∧
          (differ → arr fun u => (∃ w, tells pr 1 w u ∧ verdictOf w = 2) ∧ RaisesDev 0x330 s u)) ∧
        (t.parent = none → ¬differ → fail → arr rolls) ∧
        (t.parent = none → ¬differ → (∀ v ∈ votes, verdictOf v.2 ≤ 1) → full → e.st = .voted → arr commits)) ∧
      (t.parent = some q → e.st = .launch →
        (s.now ≤ m.operand.toNat ∨ s.chart.st ≠ .service → Leads (.triggerReceive q m) s fun u =>
          u.epoch c.val = { e with launchAt := some m.operand.toNat } ∧ down 4 m.operand u) ∧
        (m.operand.toNat < s.now → s.chart.st = .service → e.votes = [] → Leads (.triggerReceive q m) s fun u =>
          (u.epoch c.val).st = .opened ∧ (u.epoch c.val).launchAt = none ∧ down 4 m.operand u ∧ RaisesDev 0x322 s u)) ∧
      (t.parent = some q →
        let rel := Leads (.barrierReleaseReceive q m) s
        (e.st = .launch → verdictOf m.operand = 2 → rel fun u => ends u ∧ u.devWire = s.devWire) ∧
        (e.st = .voted → verdictOf m.operand ≤ 1 → rel fun u => commits u ∧ (s.chart.st ≠ .unlocked → down 2 m.operand u)) ∧
        (e.st = .opened ∨ e.st = .voted → verdictOf m.operand = 2 → rel rolls) ∧
        (e.st = .rollback → verdictOf m.operand = 3 → e.poisoned = false → rel fun u => ends u ∧ down 2 m.operand u ∧
          ∃ x, (u.ctx c.val).records.getLast? = some x ∧ x.run.status = stRollback ∧
            x.run.kind = if e.failKind = 0 then 0x340 else e.failKind))) ∧
    (let x := s.part p
     let over_ : Prop := 0 < r.provisional ∧ (l.plan.epochLen ≤ r.provisional ∨ r.total ≤ r.committed + r.provisional)
     (x.cur ≠ some c → ¬over_ → Holds (.epochCommitArrive c) s) ∧
     (x.cur = some c → x.faults = [] ∨ x.hold = true → Holds (.epochCommitArrive c) s) ∧
     ∀ pr, t.children = [] → t.parent = some pr → e.votes = [] → e.sent = false →
       (e.st = .opened → l.plan.compared = [] → x.cur ≠ some c → over_ → Leads (.epochCommitArrive c) s fun u =>
         (u.epoch c.val).st = .voted ∧ tells pr 1 (verdictWord (if r.provFlags then 1 else 0) false 0) u) ∧
       (∀ f fs, e.st = .opened → x.cur = some c → x.hold = false → x.faults = f :: fs → Leads (.epochCommitArrive c) s fun u =>
         (u.epoch c.val).st = .voted ∧ (u.epoch c.val).failKind = (if e.failKind = 0 then f.kind else e.failKind) ∧
         tells pr 1 (verdictWord 2 false 0) u) ∧
       (e.st = .rollback → e.drained = [] → ((s.part p).portList.any fun n => (s.port n).owes c.val) = false →
         Leads (.rollbackDrainComplete c) s (tells pr 1 (verdictWord 3 false 0))))

/-- The collectors (13 R372 to R378, R383; 14 R396, R399). -/
def Obligations.FaultsAreCollectedAndEscalated : Prop :=
  ∀ s : State,
    let safe (c : Instr) (k : BitVec 12) : Prop := s.dstate ≠ .safe → Leads c s fun u =>
      u.dstate = .safe ∧ u.col.safeKind = k ∧ u.rst.last = 6 ∧ ∀ h, h < 16 → (u.sheet h).mode = .safe
    let resets (c : Instr) (p : Nat) : Prop := (s.part p).st = .running ∨ (s.part p).st = .setup →
      Leads c s fun u => (u.part p).st = .resetting
    let kept := s.col.kept.length
    let rung (c : Instr) (i : Nat) : Prop :=
      let w := s.window i
      let home := s.sheet (srcSheet w.source)
      (w.rung = 1 → Leads c s fun u => RaisesDev 0xF10 s u ∧ u.rst.last = 1 ∧
        (srcSheet w.source, srcParcel w.source) ∈ u.rst.parcels ∧ (u.window i).acting = 1 ∧ (u.window i).st = 1 ∧
        ((u.window i).rung.toNat = if w.part.isSome then 2 else 3) ∧
        (home.pmap.contains (srcParcel w.source) = true → SameMemories s u)) ∧
      (∀ p, w.rung = 2 → w.part = some p → resets c p.val) ∧
      (w.rung = 3 → safe c w.kind)
    (∀ (h : SheetId) (ok : Bool),
      let c := Instr.sheetCollectorReceive h ok
      let x := s.sheet h.val
      let k := x.col
      (x.wire = [] → Holds c s) ∧
      ∀ m r, x.wire = m :: r →
        let still (u : State) : Prop := (m.scribe = false → OnlyEvents h.val s u) ∧ SameMemories s u ∧
          ∀ l, m.scribe = true → x.pmap.idxOf? (srcParcel m.source) = some l →
            (u.core { eng := { sheet := h, parcel := Fin.ofNat 16 l }, core := Fin.ofNat 4 (m.source.toNat % 16) }).fltBusy = false
        (ok = false → safe c 0xF02) ∧
        (ok = true → s.severityOf m < 2 → 224 ≤ k.queue.length → Leads c s fun u => still u ∧
          (u.sheet h.val).wire = r ∧ (u.sheet h.val).col.queue = k.queue ∧ u.col = { s.col with lost := satInc s.col.lost } ∧
          m.source ∈ (u.sheet h.val).col.overrun) ∧
        (ok = true → 2 ≤ s.severityOf m → 256 ≤ k.queue.length → Holds c s) ∧
        (ok = true → k.queue.length < 224 ∨ (2 ≤ s.severityOf m ∧ k.queue.length < 256) → Leads c s fun u =>
          still u ∧ u.col = s.col ∧ (u.sheet h.val).wire = r ∧
          (u.sheet h.val).col.queue = k.queue ++ [{ m with overrun := m.overrun || k.overrun.contains m.source }])) ∧
    (∀ h : SheetId,
      let c := Instr.sheetCollectorForward h
      (((s.sheet h.val).col.queue = []) → Holds c s) ∧
      ∀ m r, (s.sheet h.val).col.queue = m :: r →
        (896 ≤ kept → 2 ≤ s.severityOf m → Holds c s) ∧
        (kept < 896 ∨ s.severityOf m < 2 → Leads c s fun u => OnlyEvents h.val s u ∧ (u.sheet h.val).col.queue = r ∧
          u.devWire = s.devWire ++ [m])) ∧
    (∀ good regs bad : Bool,
      let c := Instr.faultRaise good regs bad
      (s.nextMsg = none → Holds c s) ∧
      ∀ a m b, s.nextMsg = some (a, m, b) →
        let sev := s.severityOf m
        let plain : Prop := m.kind ≠ 0x103 ∧ m.kind ≠ 0x105
        let same : Option (Nat × Window) := s.openWindows.find? fun w => w.2.kind == m.kind && w.2.source == m.source
        let keeps (u : State) : Prop := ∃ x : FaultMsg, u.col.kept = s.col.kept ++ [x] ∧ x.source = m.source ∧ x.kind = m.kind ∧
          x.address = m.address ∧ x.mseq = m.mseq
        (regs = false → safe c 0xF01) ∧
        (regs = true → good = false → Leads c s fun u => keeps u ∧ u.col.windows = s.col.windows ∧ SameMemories s u ∧
          ∃ x : FaultMsg, u.devWire = a ++ b ++ [x] ∧ x.kind = 0xF03) ∧
        (regs = true → good = true →
          (sev < 2 → 896 ≤ kept → Leads c s fun u => u.col.kept = s.col.kept ∧ u.col.lost = satInc s.col.lost ∧
            u.devWire = a ++ b ∧ m.source ∈ u.col.overrun ∧ u.col.windows = s.col.windows) ∧
          (sev < 2 → kept < 896 → Leads c s fun u => keeps u ∧ u.col.windows = s.col.windows ∧ SameMemories s u ∧
            (plain → u.devWire = a ++ b ∧ u.col.hist = s.col.hist)) ∧
          (sev < 2 → kept < 896 → bad = false → m.kind = 0x103 ∨ m.kind = 0x105 → srcLevel m.source ≤ 3 → Leads c s fun u =>
            let i := 18 * srcSheet m.source + srcParcel m.source
            (u.hist i).count = satInc (s.hist i).count ∧ (u.hist i).kind = m.kind ∧ (u.hist i).prevh = (s.hist i).lasth ∧
            (u.hist i).lasth = s.col.svch) ∧
          (2 ≤ sev → sev ≤ 5 →
            (∀ w, same = some w → Leads c s fun u => keeps u ∧ SameMemories s u ∧
              (u.window w.1).joined = satInc (s.window w.1).joined) ∧
            (∀ i, same = none → s.freeWindow = some i → Leads c s fun u =>
              let w := u.window i
              keeps u ∧ SameMemories s u ∧ w.kind = m.kind ∧ w.source = m.source ∧ w.joined = 0 ∧
              w.part = (s.msgPart m).map (Fin.ofNat 16) ∧ w.st = 1 ∧ w.sev.toNat = sev ∧ w.ctx = m.ctx ∧
              (s.col.recentResets = [] → w.rung.toNat =
                if 1 ≤ srcLevel m.source ∧ srcLevel m.source ≤ 3 then 1 else if (s.msgPart m).isSome then 2 else 3)) ∧
            (same = none → s.freeWindow = none → s.openWindows ≠ [] → plain → Leads c s fun u => keeps u ∧
              ∃ x : FaultMsg, u.devWire = a ++ b ++ [x] ∧ x.kind = 0xF04)) ∧
          (∀ p, sev = 6 → s.msgPart m = some p → resets c p) ∧
          (sev = 7 → safe c m.kind))) ∧
    (let k := s.col
     let n := 2 ^ k.rlog.toNat
     let t := (k.rtail.toNat + 1) % n
     (k.kept = [] ∨ k.ringen = false ∨ t = k.rhead.toNat % n → Holds .faultRingWrite s) ∧
     ∀ m r, k.kept = m :: r → k.ringen = true → t ≠ k.rhead.toNat % n → Leads .faultRingWrite s fun u =>
       u.col = { k with kept := r, rtail := BitVec.ofNat 16 t, phase := if t = 0 then !k.phase else k.phase } ∧
       SameMemories s u ∧ u.devWire = s.devWire ∧
       u.dmas = s.dmas ++ [.dmaWrite (BitVec.ofNat 64 (k.rbase.toNat * 4096 + 64 * k.rtail.toNat)) (faultBytes m k.phase)] ∧
       (s.msixMask.contains (0, k.rvec) = false → .msix 0 k.rvec ∈ u.out.drop s.out.length) ∧
       (s.msixMask.contains (0, k.rvec) = true → (0, k.rvec) ∈ u.msixPend)) ∧
    (s.dstate = .safe → ∀ v, Holds (.colRingenWrite v) s ∧ Holds (.colAckWrite v) s) ∧
    (s.dstate ≠ .safe → ∀ v : Word,
      let h := bits v.toNat 47 32
      let w := bits v.toNat 19 0
      let k := s.col
      let i := bits v.toNat 7 0
      (h = 0 ∨ w = 0 ∨ 1000000 < w → Leads (.colRingenWrite v) s fun u => u.col = k ∧ SameMemories s u ∧ RaisesDev 0x406 s u) ∧
      (h ≠ 0 → 1 ≤ w → w ≤ 1000000 → v &&& 0x7FFF0000FFF00000 = 0 → Leads (.colRingenWrite v) s fun u => u = { s with col :=
        { k with
          ringen := v.getLsbD 63, histwin := BitVec.ofNat 16 h, winus := BitVec.ofNat 20 w
          rtail := if v.getLsbD 63 && !k.ringen then 0 else k.rtail
          phase := if v.getLsbD 63 && !k.ringen then true else k.phase } }) ∧
      (v.getLsbD 9 = true → Leads (.colAckWrite v) s fun u => u.col = k ∧ SameMemories s u ∧ RaisesDev 0x406 s u) ∧
      (v &&& 0xFFFFFFFFFFFFFE00 = 0 →
        (i = 0 ∨ (s.window i).st = 0 → Leads (.colAckWrite v) s fun u => u.col = k ∧ SameMemories s u ∧ RaisesDev 0xF05 s u) ∧
        (i ≠ 0 → (s.window i).st ≠ 0 → v.getLsbD 8 = true → rung (.colAckWrite v) i) ∧
        (i ≠ 0 → (s.window i).st ≠ 0 → v.getLsbD 8 = false → Leads (.colAckWrite v) s fun u =>
          { u with col := { u.col with windows := [] } } = { s with col := { k with windows := [] } } ∧
          (∀ j, j ≠ i → u.window j = s.window j) ∧
          (s.mayClose (s.window i) = true → (u.window i).st = 0) ∧
          (s.mayClose (s.window i) = false → u.window i = { s.window i with closing := true })))) ∧
    (s.col.unwritten = [] → ∀ ok, Holds (.historyWriteRetry ok) s) ∧
    (s.col.unwritten ≠ [] →
      Leads (.historyWriteRetry true) s (fun u => u.col.unwritten = [] ∧ u.col.hist = s.col.hist ∧ u.devWire = s.devWire ∧
        ∀ w ∈ u.col.windows, w.2.st = 0 ∨ w.2.closing = false) ∧
      Leads (.historyWriteRetry false) s fun u => u.col = s.col ∧ RaisesDev 0xF06 s u) ∧
    (s.dstate ≠ .ready → Holds .serviceHourTick s) ∧
    (s.dstate = .ready → Leads .serviceHourTick s fun u =>
      { u with mram := [] } = { s with mram := [], col := { s.col with svch := s.col.svch + 1 } } ∧
      ∀ x, (s.records .collector 0).current = some x → x.seq.toNat < 2 ^ 64 - 1 →
        (u.records .collector 0).current = some
          { seq := x.seq + 1, body := .collector (s.col.svch + 1) s.col.safeKind s.col.safeDatum }) ∧
    ∀ i : Fin 256, (s.winState (s.window i.val) ≠ 1 → Holds (.windowExpiry i) s) ∧
      (s.winState (s.window i.val) = 1 → rung (.windowExpiry i) i.val)

/-- Hangs (14 R387 to R395) and resets (R396 to R398). The refusals in the safe state are a reading of the model (log 54); that a
cold reset with its reference lost may stay in the safe state is its reading of 18 R471 (log 59). -/
def Obligations.HangsAreIsolatedAndResetsReset : Prop :=
  (∀ (p : PartId) (s : State),
    let x := s.part p.val
    let missing := (s.stepEngines p.val).filter fun e => !s.hasArrived e
    let chart : Bool := match x.cur with
      | some c => match x.runOf c with | some r => r.chart | none => false
      | none => false
    (x.phase ≠ .running ∨ x.cur = none ∨ missing = [] → Holds (.watchdogExpiry p) s) ∧
    (∀ c e r, x.phase = .running → x.cur = some c → missing = e :: r →
      (∀ q, (s.sheet e.sheet.val).phys e.parcel.val = some q → q < 18) →
      let g := s.eng e
      let late (u : State) : Prop := ∀ t0, g.watchdogT0 = some t0 → t0 + 1000 * x.wdog.toNat ≤ u.now
      (x.hang ≠ .isolation → chart = false → Leads (.watchdogExpiry p) s fun u =>
        late u ∧ SameDram s u ∧ (u.part p.val).hang = .halted ∧ (u.part p.val).halted = true ∧
        (u.part p.val).suspects = c :: x.activity.filter (· != c) ∧
        (∀ e' ∈ s.stepEngines p.val, (u.eng e').st = .halt) ∧
        ∃ m : FaultMsg, (u.sheet e.sheet.val).wire = (s.sheet e.sheet.val).wire ++ [m] ∧ m.kind = 0x701 ∧
          m.ctx.toNat = c.val ∧ bits m.address.toNat 12 0 = g.pc.toNat ∧ bits m.address.toNat 63 48 = r.length + 1 ∧
          m.address.getLsbD 20 = !g.moverQ.isEmpty ∧ m.address.getLsbD 21 = !g.arrayQ.isEmpty ∧
          m.address.getLsbD 22 = !g.rowQ.isEmpty) ∧
      (x.hang = .isolation → (s.ctx c.val).st = .opened → Leads (.watchdogExpiry p) s fun u =>
        late u ∧ (u.part p.val).hang = .normal ∧ (u.part p.val).suspects = [] ∧
        (u.ctx c.val).st = .tearing ∧ (u.ctx c.val).killing = true ∧ (u.ctx c.val).pendCause = stHang)) ∧
    (∀ silent, (x.hang ≠ .halted → Holds (.haltCaptureDone p silent) s) ∧
      (x.hang = .halted → Leads (.haltCaptureDone p silent) s fun u =>
        let y := u.part p.val
        u.dump.haltArea = s.haltCapture x.stuck silent ∧ SameDram s u ∧ y.stuck = [] ∧ y.halted = false ∧
        (∀ e ∈ x.stuck, ∀ q, (s.sheet e.sheet.val).phys e.parcel.val = some q → (e.sheet.val, q) ∈ u.rst.parcels) ∧
        (∀ b ∈ s.captureBlocks x.stuck, silent.contains b = true →
          ∃ m ∈ u.devWire, m.kind = 0x740 ∧ m.address = b.setWidth 64) ∧
        (∀ c r, x.suspects = c :: r → y.hang = .isolation ∧ y.suspects = c :: r ∧ y.hangCur.toNat = c.val) ∧
        (x.suspects = [] → y.hang = .normal ∧ ∃ m ∈ (u.sheet (x.sheetList.headD 0)).wire, m.kind = 0x703))) ∧
    (x.hang ≠ .isolation ∨ x.suspects = [] → Holds (.isolationTrialDone p) s) ∧
    (∀ c r, x.hang = .isolation → x.suspects = c :: r →
      let on : Prop := x.cur = some c ∨ (x.trialRan = false ∧ s.hasWork p.val c = true)
      (on → Holds (.isolationTrialDone p) s) ∧
      (∀ d r', ¬on → r = d :: r' → Leads (.isolationTrialDone p) s fun u => SameMemories s u ∧
        u.part p.val = { x with suspects := r, hangCur := BitVec.ofNat 12 d.val, trialRan := false }) ∧
      (¬on → r = [] → Leads (.isolationTrialDone p) s fun u => SameMemories s u ∧
        u.part p.val = { x with hang := .normal, suspects := [], hangCur := 0, trialRan := false } ∧
        Raises (x.sheetList.headD 0) 0x703 0 s u))) ∧
  (∀ (c : CtxId) (s : State), ∀ x ∈ [(Instr.dmaStallTimeout c, (0x720 : BitVec 12)), (Instr.hostWriteHoldTimeout c, 0x722)],
    let i := x.1
    ((s.ctx c.val).st ≠ .opened → (s.ctx c.val).st ≠ .tearing → Holds i s) ∧
    ((s.ctx c.val).st = .tearing → Leads i s fun u => (u.ctx c.val).killing = true ∧ SameMemories s u ∧ RaisesDev x.2 s u ∧
      (u.ctx c.val).pendCause = if (s.ctx c.val).killing then (s.ctx c.val).pendCause else stHang) ∧
    ((s.ctx c.val).st = .opened → Leads i s fun u =>
      (u.ctx c.val).st = .tearing ∧ (u.ctx c.val).killing = true ∧ (u.ctx c.val).pendCause = stHang)) ∧
  (∀ s : State,
    (s.pwr.down = true ∨ s.pwr.ref100 = false → Holds .rstWarm s) ∧ (s.pwr.down = true → Holds .rstCold s) ∧
    (s.pwr.down = false → (s.pwr.ref100 = true → Leads .rstWarm s fun u =>
        u.dstate = .recovery ∧ u.rst.last = 4 ∧ u.rst.warm = true ∧ u.rst.warmcnt = satInc s.rst.warmcnt ∧ u.queues = [] ∧
        u.parts = [] ∧ SameDram s u ∧ (∀ h p a, h < 16 → u.storeAt h p a = 0 ∧ u.accAt h p a = 0) ∧
        (∀ h g, h < 16 → (s.sheet h).mem.attr g ≠ (0, 0) → g ∈ (u.sheet h).mem.orphans) ∧
        (∀ c, c < 4096 → u.ctx c = { gen := (s.ctx c).gen + 1 }) ∧
        u.col.hist = s.col.hist ∧ u.col.svch = s.col.svch ∧ u.col.safeKind = s.col.safeKind ∧ u.chart.reg = s.chart.reg ∧
        (s.dump.st = 1 → u.dump.st = 4)) ∧
      Leads .rstCold s fun u =>
        (u.dstate = .startUp ∨ (s.pwr.ref100 = false ∧ u.dstate = .safe)) ∧ u.rst = {} ∧ u.sheets = [] ∧ u.queues = [] ∧
        u.parts = [] ∧ u.ctxs = [] ∧ u.ports = [] ∧
        (∀ i, i < 288 → u.hist i = if i ∈ s.col.unwritten then s.storedHist i else s.hist i) ∧ u.col.svch = s.col.svch ∧
        u.chart.saved = s.chart.saved ∧ u.ecb.officer = s.ecb.officer ∧ u.ecb.hwk = s.ecb.hwk ∧
        u.ecb.idSeed = s.ecb.idSeed ∧ u.ecb.slotA = s.ecb.slotA ∧ u.ecb.slotB = s.ecb.slotB ∧ u.ecb.sigres = s.ecb.sigres ∧
        u.ecb.fenceRecs = s.ecb.fenceRecs ∧ u.ecb.st = .off) ∧
    (∀ mask : BitVec 16,
      let l := maskSheets mask
      let busy : Prop := ∃ h ∈ l, ∃ q, s.partOf h = some q ∧ ((s.part q).st = .running ∨ (s.part q).st = .resetting)
      (s.dstate = .safe ∨ busy → Leads (.rstSheet mask) s fun u => u.rst = s.rst ∧ u.sheets = s.sheets ∧ RaisesDev 0x40E s u) ∧
      (s.dstate ≠ .safe → ¬busy → Leads (.rstSheet mask) s fun u =>
        u.rst.last = 2 ∧ SameDram s u ∧ (∀ j, j ∉ l → u.sheet j = s.sheet j) ∧
        ∀ h ∈ l, h ∈ u.rst.sheets ∧ (u.sheet h).mode = (if (s.sheet h).mode = .off then .off else .recovery) ∧
          (u.sheet h).engines = [] ∧ (u.sheet h).slots = [] ∧ (u.sheet h).chains = [] ∧
          ∀ p a, u.storeAt h p a = 0 ∧ u.accAt h p a = 0) ∧
      ∀ n : BitVec 5,
        ((∀ h, l ≠ [h]) ∨ 17 < n.toNat → Leads (.rstParcel mask n) s fun u => u.rst = s.rst ∧ u.sheets = s.sheets ∧ RaisesDev 0x406 s u) ∧
        (∀ h, l = [h] → n.toNat ≤ 17 →
          let inService : Prop := (s.sheet h).pmap.contains n.toNat = true
          let runs : Prop := ∃ q, s.partOf h = some q ∧ (s.part q).st = .running
          (s.dstate = .safe ∨ (runs ∧ inService) → Leads (.rstParcel mask n) s fun u =>
            u.rst = s.rst ∧ u.sheets = s.sheets ∧ RaisesDev 0x40E s u) ∧
          (s.dstate ≠ .safe → ¬(runs ∧ inService) → Leads (.rstParcel mask n) s fun u =>
            u.rst.last = 1 ∧ (h, n.toNat) ∈ u.rst.parcels ∧ SameMemories s u ∧
            ∀ k, (s.sheet h).pmap.idxOf? n.toNat = some k →
              let g := (s.sheet h).engine k
              let y := (u.sheet h).engine k
              y.tds = g.tds ∧ y.tdPoison = g.tdPoison ∧ y.moverQ = [] ∧ y.arrayQ = [] ∧ y.rowQ = [] ∧ y.loops = [] ∧
              y.ags = [] ∧ y.eflags = 0 ∧ y.verdicts = [] ∧ y.cores = []))) ∧
    (∀ z, s.dstate = .safe → Holds (.rstFreeall z) s) ∧
    (s.dstate ≠ .safe →
      Leads (.rstFreeall false) s (fun u => SameMemories s u ∧ ∀ h, h < 16 → (u.sheet h).mem.orphans = [] ∧
        ∀ g, (u.sheet h).mem.attr g = if g ∈ (s.sheet h).mem.orphans then (0, 0) else (s.sheet h).mem.attr g) ∧
      Leads (.rstFreeall true) s fun u => SameMemories s u ∧ ∀ h, h < 16 →
        (u.sheet h).mem = { (s.sheet h).mem with
          zeroOrphans := (s.sheet h).mem.zeroOrphans || !(s.sheet h).mem.orphans.isEmpty }) ∧
    (∀ p : PartId,
      let x := s.part p.val
      (x.st ≠ .resetting ∨ x.sheetsReset = false → Holds (.resetComplete (some p)) s) ∧
      (x.st = .resetting → x.sheetsReset = true → Leads (.resetComplete (some p)) s fun u => u.rst.last = 3 ∧
        u.part p.val = { sheets := x.sheets, ports := x.ports, contain := x.contain, hold := x.hold, wdog := x.wdog, st := .setup } ∧
        ∀ n ∈ x.portList, (u.port n).rxSub = [] ∧ (u.port n).rxFlits = [] ∧ (u.port n).rxAsm = [] ∧ (u.port n).rxPacket = [] ∧
          (u.port n).lstate = (s.port n).lstate)) ∧
    (s.dstate = .safe ∨ (s.rst.parcels = [] ∧ s.rst.sheets = [] ∧ s.rst.warm = false) → Holds (.resetComplete none) s) ∧
    (s.dstate ≠ .safe →
      (s.rst.parcels ≠ [] → Leads (.resetComplete none) s fun u => u.rst = { s.rst with parcels := [] } ∧ u.sheets = s.sheets) ∧
      (s.rst.parcels = [] → s.rst.sheets ≠ [] → Leads (.resetComplete none) s fun u =>
        u.rst = { s.rst with sheets := [] } ∧ SameMemories s u ∧ ∀ h ∈ s.rst.sheets, (s.sheet h).mode ≠ .off →
          (u.sheet h).mode = .service) ∧
      (s.rst.parcels = [] → s.rst.sheets = [] → s.rst.warm = true →
        (s.ecb.st = .ready → Leads (.resetComplete none) s fun u => u.dstate = .ready ∧ u.rst.warm = false ∧ SameMemories s u) ∧
        (s.ecb.st = .recovery → Leads (.resetComplete none) s fun u => u.dstate = .recovery ∧ u.rst.warm = false ∧ SameMemories s u) ∧
        (s.ecb.st ≠ .ready → s.ecb.st ≠ .recovery → Holds (.resetComplete none) s))))

/-- Field test (15 R403 to R415; 13 R383). -/
def Obligations.FieldTestRoundsAndRotation : Prop :=
  ∀ (h : SheetId) (s : State),
    let n := h.val
    let x := s.sheet n
    let f := x.ft
    let ft (c : Instr) (y : FieldTest) : Prop := Leads c s fun u => OnlySheet n s u ∧ u.sheet n = { x with ft := y }
    let busy : Prop := ∃ q, s.partOf n = some q ∧ (s.part q).st ≠ .setup
    let canRound : Prop := 16 < x.ring.length ∧ x.test ≠ none
    let starts (c : Instr) : Prop :=
      (canRound → ft c { f with
        st := .kak, packsLeft := [], roundPacks := s.installedPacks, windowUp := false, failed := false }) ∧
      (¬canRound → ft c { f with st := .off, packsLeft := [], roundPacks := [], windowUp := false, failed := false })
    let record (p test result item : Nat) (u : State) : Prop :=
      let r := tget [] u.ecb.log s.ecb.logNext.toNat
      u.ecb.logNext = s.ecb.logNext + 1 ∧ r.length = 32 ∧ recField r 12 1 = n ∧ recField r 13 1 = p ∧
      recField r 14 1 = test ∧ recField r 15 1 = result ∧ recField r 22 2 = item ∧ SameMemories s u
    (s.dstate = .safe → Holds (.ftKakgo h) s) ∧
    (s.dstate ≠ .safe →
      (busy → Leads (.ftKakgo h) s fun u => u.sheets = s.sheets ∧ RaisesDev 0x40F s u) ∧
      (¬busy → x.mode ≠ .service → Holds (.ftKakgo h) s) ∧
      (¬busy → x.mode = .service → Leads (.ftKakgo h) s fun u => SameMemories s u ∧ (u.sheet n).mode = .test ∧
        (u.sheet n).ft.st = .sheetKak ∧ (u.sheet n).ft.sheetKakLeft = x.ring ∧ (u.sheet n).pmap = x.pmap)) ∧
    (x.mode = .service → x.standing ≠ none → ft (.spareKakTimer h) { f with standingKak := true }) ∧
    (x.mode ≠ .service ∨ x.standing = none → Holds (.spareKakTimer h) s) ∧
    (x.mode = .service → f.st = .off ∨ f.st = .held → starts (.roundStart h)) ∧
    (x.mode ≠ .service ∨ (f.st ≠ .off ∧ f.st ≠ .held) → Holds (.roundStart h) s) ∧
    (∀ (p : PhysParcel) (o : ItemOutput) (ck : BitVec 12) (item : BitVec 16) (bad : Bool),
      let ok : Bool := ck == 0 && shake256 16 (o.tiles.flatMap fun b => b.take 21 ++ [0] ++ b.drop 22) == o.expected
      let c := Instr.testItemDone h p o ck item bad
      let i := 18 * n + p.val
      let spare : Prop := f.standingKak = true ∧ x.standing = some p.val
      let detected (u : State) : Prop := (u.hist i).count = satInc (s.hist i).count ∧ (u.hist i).kind = 0 ∧
        p.val ∈ (u.sheet n).ft.held ∧ Raises n 0x2E0 0 s u
      (f.st ≠ .sheetKak → ¬spare → x.test ≠ some p.val → Holds c s) ∧
      (f.st ≠ .sheetKak → ¬spare → f.testCode = 0 ∨ (f.st = .squall ∧ f.windowUp = false) → Holds c s) ∧
      (f.st = .sheetKak → ok = true → f.sheetKakLeft = [p.val] → x.changes = [] → Leads c s fun u =>
        record p.val 4 0 0xFFFF u ∧ (u.sheet n).mode = .service ∧ (u.sheet n).pmap = x.pmap) ∧
      (f.st = .sheetKak → ok = true → p.val ∈ f.sheetKakLeft → sremove f.sheetKakLeft p.val ≠ [] → Leads c s fun u =>
        record p.val 4 0 0xFFFF u ∧ (u.sheet n).mode = x.mode ∧
        (u.sheet n).ft.sheetKakLeft = sremove f.sheetKakLeft p.val) ∧
      (f.st ≠ .sheetKak → spare → ok = true → Leads c s fun u =>
        record p.val 1 0 0xFFFF u ∧ (u.sheet n).ft.standingKak = false ∧ (u.sheet n).ft.st = f.st) ∧
      (∀ t, f.st ≠ .sheetKak → spare → ok = false → x.test = some t → f.testCode = 0 → (s.hist i).count = 0 →
        Leads c s fun u => record p.val 1 1 item.toNat u ∧ detected u ∧
          (u.sheet n).test = some p.val ∧ (u.sheet n).standing = some t) ∧
      (f.st = .kak → ¬spare → x.test = some p.val → f.packsLeft = [] →
        (ok = true → f.roundPacks = [] → Leads c s fun u => record p.val 1 0 0xFFFF u ∧
          (u.sheet n).ft.st = .wait ∧ (u.sheet n).ft.rounds = satInc f.rounds ∧ p.val ∉ (u.sheet n).ft.held) ∧
        (ok = true → f.roundPacks ≠ [] → Leads c s fun u => record p.val 1 0 0xFFFF u ∧
          (u.sheet n).ft.st = .survey ∧ (u.sheet n).ft.packsLeft = f.roundPacks) ∧
        (ok = false → Leads c s fun u => record p.val 1 1 item.toNat u ∧ detected u ∧
          (u.sheet n).ft.rounds = satInc f.rounds ∧
          ((s.hist i).count = 0 → (u.sheet n).ft.st = .held ∧ (u.sheet n).test = some p.val)))) ∧
    (let open_ : Prop := f.st = .squall ∧ 4 * (f.tmin.toNat : Int) ≤ x.thm.tmax.toInt ∧ x.thm.tmax.toInt < 400 ∧
       12 ≤ ((List.range x.pmap.length).filter fun l => (x.engine l).st == .run).length ∧ x.thm.step = 0xA
     (open_ → ft (.squallWindowOpen h) { f with windowUp := true }) ∧ (¬open_ → Holds (.squallWindowOpen h) s)) ∧
    ft (.squallWindowLapse h) { f with windowUp := false } ∧
    (f.st = .squall → f.windowUp = true → Holds (.roundPeriodEnd h) s) ∧
    (∀ p, f.st = .squall → f.windowUp = false → x.test = some p → p < 18 → Leads (.roundPeriodEnd h) s fun u =>
      record p 3 3 0xFFFF u ∧ (u.sheet n).ft.st = .wait ∧ (u.sheet n).ft.rounds = satInc f.rounds) ∧
    (f.st = .held → starts (.roundPeriodEnd h)) ∧
    (f.st ≠ .held → f.st ≠ .squall ∨ x.test = none → Holds (.roundPeriodEnd h) s) ∧
    (f.st ≠ .wait ∨ f.roten = false → Holds (.rotationAdvance h) s) ∧
    (f.st = .wait → f.roten = true →
      let runs : Prop := ∃ q, s.partOf n = some q ∧ (s.part q).st = .running
      (runs → x.changes.contains .advance = true → Holds (.rotationAdvance h) s) ∧
      (runs → x.changes.contains .advance = false → Leads (.rotationAdvance h) s fun u =>
        OnlySheet n s u ∧ u.sheet n = { x with changes := x.changes ++ [.advance] }) ∧
      (∀ c t, ¬runs → x.test = some c → x.nextTest = some t →
        (x.standing = some t → Leads (.rotationAdvance h) s fun u => SameMemories s u ∧
          (u.sheet n).test = some t ∧ (u.sheet n).standing = some c ∧ (u.sheet n).pmap = x.pmap) ∧
        (x.standing ≠ some t → x.pmap.contains t = true → Leads (.rotationAdvance h) s fun u => SameDram s u ∧
          (u.sheet n).test = some t ∧ (u.sheet n).standing = x.standing ∧
          (u.sheet n).pmap = x.pmap.map (fun y => if y = t then c else y) ∧ (u.sheet n).parcel c = x.parcel t)))

/-- Mailbox services (16 R417 to R422, R427 to R432, R440, R445 to R447). -/
def Obligations.MailboxSessionsKeysAndStates : Prop :=
  ∀ s : State,
    let e := s.ecb
    let run (n : Nat) : Prop := s.dstate ≠ .safe ∧ (e.busy = false ∨ e.cmd.toNat = n)
    let allowed (n : Nat) : Prop := e.st = .ready ∨ (e.st = .recovery ∧ (n = 1 ∨ n = 0x0B ∨ n = 0x0D)) ∨
      (e.st = .error ∧ (n = 0x0B ∨ n = 0x0C))
    let may (n : Nat) : Prop :=
      ((6 ≤ n ∧ n ≤ 0x0A) ∨ (0x0E ≤ n ∧ n ≤ 0x10) → e.role = .officer) ∧
      (n = 5 → e.role = .officer ∨ (e.officer = none ∧ e.role = .none)) ∧
      (n = 0x0D → e.role = .officer ∨ e.st = .recovery) ∧ (n = 0x11 ∨ n = 0x12 → e.role = .user)
    let ok (n : Nat) : Prop := run n ∧ allowed n ∧ may n
    let done (n : Nat) (res : BitVec 8) (y : Ecb) : Ecb :=
      { y with cmd := BitVec.ofNat 8 n, busy := false, result := res, approved := true }
    let ends (c : Instr) (n : Nat) (res : BitVec 8) (y : Ecb) : Prop :=
      Leads c s fun u => u = { s with ecb := done n res y }
    let saves (c : Instr) (n : Nat) (y : Ecb) (t : RecType) (b : RecBody) : Prop := Leads c s fun u =>
      { u with mram := [] } = { s with mram := [], ecb := done n 0 y } ∧
      ((∀ p, (s.records t 0).current = some p → p.seq.toNat < 2 ^ 64 - 1) →
        ∃ p, (u.records t 0).current = some p ∧ p.body = b)
    let store (y : Ecb) : RecBody := .keyStore y.hwk y.chartKey y.transport y.idSeed y.perso
    let noFast : Prop := ∀ q ∈ e.seedWait, ∀ d, s.head q = some d → dFailFast d = false
    let fastEnds (u : State) : Prop := ∀ q ∈ e.seedWait, ∀ d, s.head q = some d → dFailFast d = true → d.status = none →
      q ∉ u.ecb.seedWait ∧ ∃ x, u.head q = some x ∧ x.status = some stRngNotReady ∧ x.bytes = d.bytes
    let raised (c : Instr) (n : Nat) (res : BitVec 8) (y : Ecb) (k : BitVec 12) : Prop := Leads c s fun u =>
      u.ecb = done n res y ∧ RaisesDev k s u ∧ u.sheets = s.sheets ∧ u.queues = s.queues
    let refuses (c : Instr) (n : Nat) (res : BitVec 8) : Prop :=
      Leads c s fun u => u = { s with ecb := { e with cmd := BitVec.ofNat 8 n, busy := false, result := res } }
    let waits (c : Instr) (n : Nat) : Prop :=
      Leads c s fun u => u = { s with ecb := { e with cmd := BitVec.ofNat 8 n, busy := true } }
    let returned (b : List Byte) (u : State) : Prop :=
      let m := min 4096 b.length
      u.ecb.result = 0 ∧ u.ecb.busy = false ∧ u.ecb.approved = true ∧ u.ecb.len.toNat = m ∧ mread u.ecb.buf 0 m = b.take m ∧
      u.sheets = s.sheets ∧ u.queues = s.queues ∧ u.ecb.role = e.role
    let draws (fresh : Bool) : Prop := e.notrdy = false ∧ e.tst ≠ .halted ∧ (fresh = true → 2 ≤ e.pool.length) ∧
      (e.reqs.toNat < 2 ^ 48 - 1 ∨ 2 ≤ e.pool.length)
    let drew (fresh : Bool) (u : State) : Prop :=
      let two : Prop := 2 ≤ e.pool.length ∧ (fresh = true ∨ 2 ^ e.rslog.toNat ≤ e.reqs.toNat)
      (two → u.ecb.reqs = 1 ∧ u.ecb.pool = e.pool.drop 2) ∧ (¬two → u.ecb.reqs = e.reqs + 1 ∧ u.ecb.pool = e.pool)
    let random (c : Instr) (n : Nat) : Prop :=
      (e.tst = .halted → refuses c n 8) ∧ (e.tst ≠ .halted → e.notrdy = true → refuses c n 7)
    let wiped (y : Ecb) : Ecb :=
      { y with drbg := [], inst := false, notrdy := true, reqs := 0, stretch := false, hostBuf := [], pool := [] }
    let services : List (Instr × Nat) :=
      [(.challenge, 1), (.loginOfficer, 2), (.loginUser, 3), (.logout, 4), (.enrollOfficer, 5), (.enrollHwk, 6),
       (.enrollChartkey, 7), (.config, 8), (.rawEnter, 9), (.rawLeave, 0x0A), (.zeroise, 0x0B), (.selftest, 0x0C),
       (.fwCommit, 0x0E), (.random, 0x11), (.ideKeys, 0x12), (.getCert, 0x13)]
    (∀ x ∈ services, (¬run x.2 → Holds x.1 s) ∧ (run x.2 → ¬allowed x.2 → refuses x.1 x.2 1) ∧
      (run x.2 → allowed x.2 → ¬may x.2 → refuses x.1 x.2 2)) ∧
    (ok 1 → random .challenge 1 ∧
      (draws false → Leads .challenge s fun u =>
        ∃ b : List Byte, b.length = 32 ∧ u.ecb.nonce = some b ∧ returned b u ∧ drew false u)) ∧
    (let login (c : Instr) (n len : Nat) (role : Role) (good : List Byte → List Byte → Prop) : Prop :=
       let proof : Prop := ∃ x, e.nonce = some x ∧ good x (mread e.buf 0 len)
       (e.locked = true → ends c n 2 e) ∧
       (e.locked = false → e.len.toNat ≠ len → ends c n 3 e) ∧
       (e.locked = false → e.len.toNat = len → proof → ends c n 0 { e with nonce := none, role := role, fails := 0 }) ∧
       (e.locked = false → e.len.toNat = len → ¬proof →
         raised c n 2 { e with nonce := none, fails := e.fails + 1, locked := decide (8 ≤ e.fails + 1) } 0x580)
     (ok 2 → login .loginOfficer 2 2820 .officer fun x b => ∃ k, e.officer = some k ∧ Config.xmssVerify k x b = true) ∧
     (ok 3 → login .loginUser 3 16 .user fun x b => ∃ k, e.hwk = some k ∧ Config.gmac k x = b)) ∧
    (e.locked = true → Leads .loginLockoutEnd s fun u => u = { s with ecb := { e with locked := false, fails := 0 } }) ∧
    (e.locked = false → Holds .loginLockoutEnd s) ∧
    (ok 4 → ends .logout 4 0 { e with role := .none }) ∧
    (ok 5 → (e.len.toNat ≠ 64 → ends .enrollOfficer 5 3 e) ∧
      (e.len.toNat = 64 → saves .enrollOfficer 5 { e with officer := some (mread e.buf 0 64) } .officer
        (.officer (some (mread e.buf 0 64))))) ∧
    (let wraps (k : List Byte) : Prop := ∃ w, (e.hwk = some w ∨ (e.hwk = none ∧ e.transport = some w)) ∧
       Config.keyUnwrap w (mread e.buf 0 40) = some k
     let enroll (c : Instr) (n : Nat) (y : List Byte → Ecb) : Prop :=
       (e.len.toNat ≠ 40 → ends c n 3 e) ∧ (e.len.toNat = 40 → (¬∃ k, wraps k) → ends c n 4 e) ∧
       ∀ k, e.len.toNat = 40 → wraps k → saves c n (y k) .keyStore (store (y k))
     (ok 6 → enroll .enrollHwk 6 fun k => { e with hwk := some k, transport := none }) ∧
     (ok 7 → enroll .enrollChartkey 7 fun k => { e with chartKey := some k })) ∧
    (let v := e.arg0.toNat % 32
     let bad : Prop := v < 10 ∨ 20 < v ∨ 32 < e.len.toNat
     ok 8 → (bad → ends .config 8 3 e) ∧
       let y : Ecb := { e with rslog := BitVec.ofNat 5 v, perso := mread e.buf 0 e.len.toNat }
       (¬bad → saves .config 8 y .keyStore (store y))) ∧
    (ok 9 → (e.tst ≠ .run → ends .rawEnter 9 1 e) ∧
      (e.tst = .run → Leads .rawEnter s fun u => u.ecb.tst = .raw ∧ u.ecb.notrdy = true ∧ fastEnds u ∧ RaisesDev 0x570 s u) ∧
      (e.tst = .run → noFast → raised .rawEnter 9 0
        { wiped e with tst := .raw, rawsrc := BitVec.ofNat 2 e.arg0.toNat, rawv := false, rawMiss := false } 0x570)) ∧
    (ok 0x0A → (e.tst ≠ .raw → ends .rawLeave 0x0A 1 e) ∧
      (e.tst = .raw → raised .rawLeave 0x0A 0
        { wiped e with tst := .startUp, goodBlocks := 0, rawv := false, rawMiss := false } 0x570)) ∧
    (ok 0x0B → Leads .zeroise s fun u =>
      let k := u.ecb
      k.st = .selftest ∧ k.role = .none ∧ k.tst = .off ∧ k.notrdy = true ∧ k.inst = false ∧ k.drbg = [] ∧ k.pool = [] ∧
      k.officer = none ∧ k.hwk = none ∧ k.chartKey = none ∧ k.transport = none ∧ k.nonce = none ∧ k.idSeed = none ∧
      k.cert = false ∧ k.genKey = true ∧ k.ideKeys = none ∧ k.ideNext = none ∧ k.result = 0 ∧ k.busy = false ∧
      (∀ n, (u.port n).txKey = [] ∧ (u.port n).rxSlots = [] ∧ (u.port n).nextKey = []) ∧
      k.slotA = e.slotA ∧ k.slotB = e.slotB ∧ k.minsvn = e.minsvn ∧ k.packs = e.packs ∧ k.log = e.log ∧
      k.fenceRecs = e.fenceRecs ∧ u.col = s.col ∧ u.sheets = s.sheets ∧ fastEnds u ∧
      (let idle : Prop := e.st ≠ .ready ∨ e.signing = [] ∨ e.idSeed = none ∨ e.resWait = true
       (idle ∨ e.signext.toNat < 2 ^ 40 → u.devWire = s.devWire) ∧
       (idle → k.signing = e.signing) ∧ (¬idle → k.signing = e.signing.drop 1))) ∧
    (ok 0x0C → Leads .selftest s (fun u => u.ecb.st = .selftest ∧ u.ecb.notrdy = true ∧ u.ecb.consec = 0 ∧ fastEnds u) ∧
      (noFast → ends .selftest 0x0C 0 { wiped e with st := .selftest, tst := .off, consec := 0, goodBlocks := 0 })) ∧
    (let v := if e.minsvn.toNat < e.fwsvn.toNat then e.fwsvn else e.minsvn
     ok 0x0E → saves .fwCommit 0x0E { e with minsvn := v } .svn (.svn v e.lastB)) ∧
    (let n := e.arg0.toNat
     let fresh := e.arg1.getLsbD 0
     ok 0x11 → (n = 0 ∨ 4096 < n → ends .random 0x11 3 e) ∧
       (1 ≤ n → n ≤ 4096 → random .random 0x11 ∧
         (e.notrdy = false → e.tst ≠ .halted → fresh = true → e.pool.length < 2 → waits .random 0x11) ∧
         (draws fresh → Leads .random s fun u => ∃ b : List Byte, b.length = n ∧ returned b u ∧ drew fresh u))) ∧
    (ok 0x12 → random .ideKeys 0x12 ∧ (e.notrdy = false → e.tst ≠ .halted →
      (e.hwk = none → ends .ideKeys 0x12 1 e) ∧
      ∀ k, e.hwk = some k → (e.pool.length < 2 → waits .ideKeys 0x12) ∧
        (draws true → Leads .ideKeys s fun u => ∃ b : List Byte, b.length = 32 ∧ u.ecb.ideNext = some b ∧
          returned (Config.keyWrap k b) u ∧ drew true u))) ∧
    (ok 0x13 → (e.idSeed = none → ends .getCert 0x13 1 e) ∧
      ∀ k, e.idSeed = some k → Leads .getCert s fun u =>
        returned ((Config.xmssmtPublic k ++ List.replicate 64 0).take 64 ++
          (if e.cert then Config.identityCert else []) ++ Config.certifyingKey) u ∧ u.ecb.idSeed = e.idSeed)

/-- Images, packs and records through the mailbox (16 R420 to R422, R433 to R435, R444; 15 R406, R407). -/
def Obligations.InstallsAndGalpernoRecords : Prop :=
  ∀ s : State,
    let e := s.ecb
    let n := e.arg1.toNat
    let run (k : Nat) : Prop := s.dstate ≠ .safe ∧ (e.busy = false ∨ e.cmd.toNat = k)
    let officer (k : Nat) : Prop := run k ∧ e.st = .ready ∧ e.role = .officer
    let done (k : Nat) (res : BitVec 8) (y : Ecb) : Ecb :=
      { y with cmd := BitVec.ofNat 8 k, busy := false, result := res, approved := true }
    let ends (c : Instr) (k : Nat) (res : BitVec 8) (y : Ecb) : Prop := Leads c s fun u =>
      u.ecb = done k res y ∧ u.sheets = s.sheets ∧ u.col = s.col ∧ u.devWire = s.devWire
    let raised (c : Instr) (k : Nat) (res : BitVec 8) (y : Ecb) (f : BitVec 12) : Prop := Leads c s fun u =>
      u.ecb = done k res y ∧ u.sheets = s.sheets ∧ u.col = s.col ∧ RaisesDev f s u
    let refuses (c : Instr) (k : Nat) (res : BitVec 8) : Prop :=
      Leads c s fun u => u = { s with ecb := { e with cmd := BitVec.ofNat 8 k, busy := false, result := res } }
    (∀ img, ∀ x ∈ ([(.packInstall img, 0x0F), (.recordApply img, 0x10)] : List (Instr × Nat)),
      (¬run x.2 → Holds x.1 s) ∧ (run x.2 → e.st ≠ .ready → refuses x.1 x.2 1) ∧
      (run x.2 → e.st = .ready → e.role ≠ .officer → refuses x.1 x.2 2) ∧
      (officer x.2 → img = none → ends x.1 x.2 3 e)) ∧
    (∀ img,
      let c := Instr.fwInstall img
      let may : Prop := e.st = .recovery ∨ (e.st = .ready ∧ e.role = .officer)
      let slot (x : Option FwImage) : Ecb := if e.actB then { e with slotA := x } else { e with slotB := x }
      let last (y : Ecb) : Ecb := { y with lastB := !e.actB }
      (¬run 0x0D → Holds c s) ∧
      (run 0x0D → e.st ≠ .ready → e.st ≠ .recovery → refuses c 0x0D 1) ∧
      (run 0x0D → e.st = .ready → e.role ≠ .officer → refuses c 0x0D 2) ∧
      (run 0x0D → may → img = none ∨ n = 0 ∨ 10 * 2 ^ 20 < n → ends c 0x0D 3 e) ∧
      ∀ b, run 0x0D → may → img = some b → 1 ≤ n → n ≤ 10 * 2 ^ 20 →
        (b.length < n → ends c 0x0D 3 e) ∧
        (n ≤ b.length → Config.parseFirmware (b.take n) = none → ends c 0x0D 3 (slot none)) ∧
        ∀ x, n ≤ b.length → Config.parseFirmware (b.take n) = some x →
          let signed : Prop := x.rootKeyHash = Config.romKeyHash ∧ x.sigsOk = true
          (¬signed → raised c 0x0D 4 (slot none) 0x550) ∧
          (signed → x.svn.toNat < e.minsvn.toNat → raised c 0x0D 5 (slot none) 0x550) ∧
          (signed → e.minsvn.toNat ≤ x.svn.toNat → ends c 0x0D 0 (last (slot (some x))))) ∧
    (∀ b : List Byte,
      let c := Instr.packInstall (some b)
      let h := b.take n
      let len := recField h 16 4
      let items := recField h 12 4
      let good : Prop := h.take 4 = [0x47, 0x4C, 0x53, 0x50] ∧ recField h 4 1 = 1 ∧ recField h 5 1 ≤ 1 ∧ recField h 6 2 ≠ 0 ∧
        1 ≤ items ∧ items ≤ 4096 ∧ 64 ≤ len ∧ len ≤ 2 ^ 20 ∧ recField h 22 2 = 0 ∧ len ≤ h.length ∧
        shake256 32 ((h.take len).drop 64) = (h.drop 32).take 32
      let signed : Prop := Config.xmssVerify Config.galpernoKey (h.take len) ((h.drop len).take 2820) = true
      let id : BitVec 16 := BitVec.ofNat 16 (recField h 6 2)
      let ver : BitVec 32 := BitVec.ofNat 32 (recField h 8 4)
      let at' (j : Nat) : Pack := tget ({} : Pack) e.packs j
      let holds (j : Nat) : Prop := j < 16 ∧ (at' j).valid = true ∧ (at' j).id = id
      let first (j : Nat) : Prop := holds j ∧ ∀ i, i < j → ¬holds i
      let newer : Prop := ∀ j, first j → (at' j).ver.toNat < ver.toNat
      let place (j : Nat) : Prop := first j ∨ ((∀ i, ¬holds i) ∧ j < 16 ∧ (at' j).valid = false ∧ ∀ i, i < j → (at' i).valid = true)
      let k : Pack :=
        { id := id, ver := ver, len := BitVec.ofNat 9 ((len + 4095) / 4096), valid := true
          squall := bit (recField h 5 1) 0, runNs := BitVec.ofNat 32 (recField h 24 4), items := items }
      officer 0x0F →
        (¬good → raised c 0x0F 3 e 0x2E3) ∧
        (good → ¬signed → raised c 0x0F 4 e 0x2E3) ∧
        (good → signed → recField h 20 2 ≠ 1 ∨ ¬newer → raised c 0x0F 3 e 0x2E3) ∧
        (good → signed → recField h 20 2 = 1 → newer →
          (ver.toNat = 2 ^ 32 - 1 → (∀ j, first j → ends c 0x0F 0 { e with packs := tset {} e.packs j {} }) ∧
            ((∀ j, ¬holds j) → ends c 0x0F 0 e)) ∧
          (ver.toNat < 2 ^ 32 - 1 →
            ((∀ j, ¬place j) → raised c 0x0F 6 e 0x2E3) ∧
            ∀ j, place j →
              (2048 < e.packUnits id + k.len.toNat → raised c 0x0F 6 e 0x2E3) ∧
              (e.packUnits id + k.len.toNat ≤ 2048 → ends c 0x0F 0 { e with packs := tset {} e.packs j k })))) ∧
    ∀ b : List Byte,
      let c := Instr.recordApply (some b)
      officer 0x10 →
        (Config.parseRecord (b.take n) = none → ends c 0x10 3 e) ∧
        ∀ r, Config.parseRecord (b.take n) = some r →
          let mine : Prop := r.forKeyHash = shake256 32 e.publicKey
          let fresh : Prop := ∀ x ∈ e.applied, x < r.seq
          (r.sigOk = false → ends c 0x10 4 e) ∧
          (r.sigOk = true → ¬mine → ends c 0x10 3 e) ∧
          (r.sigOk = true → mine → ¬fresh → ends c 0x10 5 e) ∧
          (r.sigOk = true → mine → fresh → 64 ≤ e.applied.length → ends c 0x10 6 e) ∧
          (r.sigOk = true → mine → fresh → e.applied.length < 64 → Leads c s fun u =>
            u.ecb.result = 0 ∧ u.ecb.busy = false ∧ u.ecb.applied = e.applied ++ [r.seq] ∧ u.devWire = s.devWire ∧
            SameDram s u ∧
            match r.action with
            | .unfence h l => ∀ p ∈ l, (u.hist (18 * h.val + p.val)).fcause = 3 ∧ (u.hist (18 * h.val + p.val)).fenced = false
            | .fence h l => ∀ p ∈ l, (u.hist (18 * h.val + p.val)).fcause = 2 ∧ (u.hist (18 * h.val + p.val)).fenced = true
            | .jtagUnlock t => u.sheets = s.sheets ∧ ∃ h, u.ecb.unlockHour = some h ∧ t.toNat ≤ h.toNat ∧
                (h = t ∨ e.unlockHour = some h) ∧ ∀ x, e.unlockHour = some x → x.toNat ≤ h.toNat)

/-- Entropy, signing, DOE and restart of Ecbumos (16 R423 to R439, R445, R446). -/
def Obligations.EntropySigningAndRestart : Prop :=
  ∀ s : State,
    let e := s.ecb
    let only (c : Instr) (y : Ecb) : Prop := Leads c s fun u => u = { s with ecb := y }
    let put (c : Instr) (o : Out) (y : Ecb) : Prop := Leads c s fun u => u = { s with ecb := y, out := s.out ++ [o] }
    let wiped (y : Ecb) : Ecb :=
      { y with drbg := [], inst := false, notrdy := true, reqs := 0, stretch := false, hostBuf := [], pool := [] }
    let failed (k : BitVec 12) (src : Nat) (a : Word) (u : State) : Prop :=
      u.ecb.notrdy = true ∧ u.ecb.inst = false ∧ u.ecb.drbg = [] ∧ u.ecb.pool = [] ∧ u.ecb.hostBuf = [] ∧
      u.ecb.lastsrc.toNat = src ∧ u.ecb.err = true ∧ u.ecb.consec.toNat = min 3 (e.consec.toNat + 1) ∧ u.ecb.seedWait = [] ∧
      u.sheets = s.sheets ∧
      (∀ q ∈ e.seedWait, ∀ d, s.head q = some d → d.status = none →
        ∃ x, u.head q = some x ∧ x.status = some stRngFailed ∧ x.bytes = d.bytes) ∧
      (e.busy = true → e.cmd = 1 ∨ e.cmd = 0x11 ∨ e.cmd = 0x12 → u.ecb.busy = false ∧ u.ecb.result = 8) ∧
      ∃ m : FaultMsg, m.kind = k ∧ m.address = a ∧
        (e.consec.toNat < 2 → u.ecb.tst = .failed ∧ u.devWire = s.devWire ++ [m]) ∧
        (2 ≤ e.consec.toNat → u.ecb.tst = .halted ∧ ∃ x : FaultMsg, x.kind = 0x504 ∧ u.devWire = s.devWire ++ [m, x])
    (∀ (apt : Bool) (src : Fin 3),
      let c := Instr.trngHealthFailure apt src
      let counted (u : State) : Prop := u.ecb.aptf = (if apt then satInc e.aptf else e.aptf) ∧
        u.ecb.rctf = (if apt then e.rctf else satInc e.rctf)
      (e.tst = .off ∨ e.tst = .failed ∨ e.tst = .halted → Holds c s) ∧
      (e.tst = .raw → Leads c s fun u => counted u ∧ u.ecb.tst = .raw ∧ u.devWire = s.devWire ∧ u.sheets = s.sheets) ∧
      (e.tst = .startUp ∨ e.tst = .run → Leads c s fun u =>
        counted u ∧ failed (if apt then 0x502 else 0x501) src.val (BitVec.ofNat 64 src.val) u)) ∧
    (e.tst = .failed → only .trngRestart { wiped e with tst := .startUp, goodBlocks := 0 }) ∧
    (e.tst ≠ .failed → Holds .trngRestart s) ∧
    (∀ (fail : Option (Fin 3)) (block : BitVec 256),
      let c := Instr.trngStartupDone fail block
      (e.tst ≠ .startUp ∨ e.pool ≠ [] → Holds c s) ∧
      (e.tst = .startUp → e.pool = [] → (fail = none → only c { e with pool := [block], goodBlocks := e.goodBlocks + 1 }) ∧
        ∀ src, fail = some src → Leads c s fun u => failed 0x503 src.val 0 u)) ∧
    (∀ block : BitVec 256,
      let c := Instr.trngBlockReady block
      let pool := if e.pool.length < 16 then e.pool ++ [block] else e.pool
      let consec := if 65536 ≤ e.goodBlocks + 1 then 0 else e.consec
      (e.tst ≠ .run → e.tst ≠ .startUp ∨ e.pool = [] → Holds c s) ∧
      (∀ a, e.tst = .startUp → e.pool = [a] → e.hostBuf = [] → Leads c s fun u =>
        u.ecb.tst = .run ∧ u.ecb.inst = true ∧ u.ecb.notrdy = false ∧ u.ecb.pool = [] ∧ u.ecb.reqs = 1 ∧
        u.ecb.hostBuf.length = 2048 ∧ u.devWire = s.devWire ∧ u.sheets = s.sheets) ∧
      (e.tst = .run → e.stretch = false ∨ pool.length < 2 → only c { e with pool := pool, goodBlocks := e.goodBlocks + 1, consec := consec }) ∧
      (e.tst = .run → e.stretch = true → 2 ≤ pool.length → only c { e with
        pool := pool.drop 2, goodBlocks := e.goodBlocks + 1, consec := consec, reqs := 0, stretch := false
        drbg := Config.drbgReseed e.drbg ((pool.take 2).flatMap fun b => leBytes 32 b.toNat) })) ∧
    (let c := Instr.ecbRngDataRead
     let zero : Out := .readReply (List.replicate 8 0)
     (s.dstate = .safe → put c zero e) ∧
     (s.dstate ≠ .safe → e.hostBuf = [] → put c zero { e with err := e.err || !e.notrdy }) ∧
     (s.dstate ≠ .safe → 1032 < e.hostBuf.length → put c (.readReply (e.hostBuf.take 8)) { e with hostBuf := e.hostBuf.drop 8 }) ∧
     (s.dstate ≠ .safe → 8 ≤ e.hostBuf.length → e.hostBuf.length ≤ 1032 → e.notrdy = false → e.reqs.toNat < 2 ^ 48 - 1 →
       Leads c s fun u => u.out = s.out ++ [.readReply (e.hostBuf.take 8)] ∧ u.sheets = s.sheets ∧
         u.ecb.hostBuf.length = min 2048 (e.hostBuf.length + 2040) ∧
         u.ecb.hostBuf.take (e.hostBuf.length - 8) = e.hostBuf.drop 8)) ∧
    (let c := Instr.ecbRawRead
     let word : Out := .readReply (leBytes 8 (s.readReg .ecbRaw).toNat)
     (s.dstate = .safe → put c (.readReply (List.replicate 8 0)) e) ∧
     (s.dstate ≠ .safe → e.rawv = false → put c word e) ∧
     (s.dstate ≠ .safe → e.rawv = true → Leads c s fun u => u.out = s.out ++ [word] ∧
       ∃ v, u.ecb = { e with rawv := false, rawlost := e.rawlost || e.rawMiss, rawMiss := false, rawbits := v })) ∧
    (∀ b : BitVec 32, (e.tst = .raw → only (.rawSampleDiscard b) { e with
        rawMiss := e.rawMiss || e.rawv, rawv := true, rawbits := b }) ∧
      (e.tst ≠ .raw → Holds (.rawSampleDiscard b) s)) ∧
    (let c := Instr.signatureDone
     (e.signing = [] ∨ e.idSeed = none ∨ e.st ≠ .ready ∨ e.resWait = true → Holds c s) ∧
     ∀ r rest key, e.signing = r :: rest → e.idSeed = some key → e.st = .ready → e.resWait = false →
       let i := e.signext.toNat
       let sig (b : List Byte) : List Byte := (Config.xmssmtSign key i b ++ List.replicate 9893 0).take 9893
       let used (u : State) : Prop := u.sheets = s.sheets ∧ u.devWire = s.devWire ∧ u.ecb = { e with
         signext := e.signext + 1, signing := rest
         sigres := if e.signext = e.sigres then BitVec.ofNat 41 (min (2 ^ 40) (e.sigres.toNat + 1024)) else e.sigres }
       (2 ^ 40 ≤ i → Leads c s fun u => u.ecb = { e with signing := rest } ∧ RaisesDev 0x552 s u ∧
         (r.queue = none → u.out = s.out ++ [.doe [9, 0, 0, 0, 0, 0, 0, 0]]) ∧
         ∀ q d, r.queue = some q → s.head q = some d → d.status = none →
           ∃ x, u.head q = some x ∧ x.status = some stBad ∧ x.kind = 0x552) ∧
       (i < 2 ^ 40 → r.queue = none → Leads c s fun u => used u ∧ ∃ b : List Byte,
         u.out = s.out ++ [.doe (b ++ sig b)] ∧ b.take 6 = [0x47, 0x4C, 0x41, 0x51, 1, if e.actB then 1 else 0] ∧
         (b.drop 32).take 32 = (r.body ++ List.replicate 32 0).take 32) ∧
       ∀ q d, i < 2 ^ 40 → r.queue = some q → s.head q = some d →
         (d.status ≠ none ∨ d.wants ≠ 2 → Leads c s fun u => used u ∧ u.out = s.out ∧ u.queues = s.queues) ∧
         (d.status = none → d.wants = 2 → Leads c s fun u => used u ∧
           u.dmas = s.dmas ++ [.dmaWrite r.addr (r.body ++ sig r.body)] ∧
           ∃ x, u.head q = some x ∧ x.status = some stOk ∧ x.bytes = d.bytes)) ∧
    (∀ ok : Bool,
      let c := Instr.reservationRetry ok
      let due : Prop := e.st = .ready ∧ e.signing ≠ [] ∧ e.idSeed ≠ none ∧ e.signext = e.sigres ∧ e.sigres.toNat < 2 ^ 40
      (¬due → Holds c s) ∧
      (due → ok = true → Leads c s fun u =>
        let n := BitVec.ofNat 41 (min (2 ^ 40) (e.sigres.toNat + 1024))
        { u with mram := [] } = { s with mram := [], ecb := { e with sigres := n, resWait := false } } ∧
        ((∀ p, (s.records .identity 0).current = some p → p.seq.toNat < 2 ^ 64 - 2) →
          ∃ x y : RecCopy, u.records .identity 0 = { a := some x, b := some y } ∧ x.ok = true ∧ y.ok = true ∧
            x.body = .identity n e.idCert ∧ y.body = .identity n e.idCert)) ∧
      (due → ok = false → Leads c s fun u => u.ecb = { e with resWait := true } ∧ RaisesDev 0x551 s u ∧ u.sheets = s.sheets)) ∧
    (e.st ≠ .ready ∨ e.idSeed = none → put .doeGetCert (.doe [1, 0, 0, 0, 0, 0, 0, 0]) e) ∧
    (e.st = .ready → e.idSeed ≠ none → put .doeGetCert (.doe e.certBytes) e) ∧
    (∀ nonce : List Byte,
      let c := Instr.doeQuote nonce
      (e.st ≠ .ready → put c (.doe [1, 0, 0, 0, 0, 0, 0, 0]) e) ∧
      (e.st = .ready → 2 ^ 40 ≤ e.signext.toNat → Leads c s fun u => u.ecb = e ∧ RaisesDev 0x552 s u ∧
        u.out = s.out ++ [.doe [9, 0, 0, 0, 0, 0, 0, 0]]) ∧
      (e.st = .ready → e.signext.toNat < 2 ^ 40 → 64 ≤ e.signing.length → Holds c s) ∧
      (e.st = .ready → e.signext.toNat < 2 ^ 40 → e.signing.length < 64 →
        only c { e with signing := e.signing ++ [{ queue := none, addr := 0, body := nonce, came := s.now }] })) ∧
    (∀ ok : Bool,
      let c := Instr.identityKeyGenerated ok
      let draws : Prop := e.notrdy = false ∧ 2 ≤ e.pool.length
      (e.genKey = false ∨ e.st ≠ .ready ∨ ¬draws → Holds c s) ∧
      (e.genKey = true → e.st = .ready → draws → Leads c s fun u => u.sheets = s.sheets ∧
        (ok = true → u.devWire = s.devWire ∧ u.ecb.genKey = false ∧ u.ecb.cert = false ∧ u.ecb.signext = 0 ∧
          u.ecb.sigres = 0 ∧ u.ecb.pool = e.pool.drop 2 ∧ ∃ b : List Byte, b.length = 96 ∧ u.ecb.idSeed = some b) ∧
        (ok = false → u.ecb.st = .error ∧ u.ecb.notrdy = true ∧ u.ecb.drbg = [] ∧ u.ecb.signing = [] ∧ RaisesDev 0x540 s u))) ∧
    (∀ k, e.ideNext = some k → only .ideKeySwitch { e with ideKeys := some k, ideNext := none }) ∧
    (e.ideNext = none → Holds .ideKeySwitch s) ∧
    (e.st = .off → Holds .ecbStateMismatch s) ∧
    (e.st ≠ .off → e.restarting = true → Leads .ecbStateMismatch s fun u => u.ecb = e ∧ RaisesDev 0x531 s u) ∧
    (e.st ≠ .off → e.restarting = false → Leads .ecbStateMismatch s fun u => RaisesDev 0x530 s u ∧ u.sheets = s.sheets ∧
      u.ecb.restarting = true ∧ u.ecb.st = .selftest ∧ u.ecb.role = .none ∧ u.ecb.notrdy = true ∧ u.ecb.pool = [] ∧
      u.ecb.signing = e.signing ∧ u.ecb.idSeed = e.idSeed ∧ u.ecb.minsvn = e.minsvn ∧ u.ecb.packs = e.packs) ∧
    (e.restarting = false → Holds .ecbRestartDone s) ∧
    (e.restarting = true →
      let valid (o : Option FwImage) (x : FwImage) : Prop :=
        o = some x ∧ x.rootKeyHash = Config.romKeyHash ∧ x.sigsOk = true ∧ e.minsvn.toNat ≤ x.svn.toNat
      let boots (b : Bool) (x : FwImage) : Prop := Leads .ecbRestartDone s fun u => u.ecb.restarting = false ∧
        u.ecb.st = .ready ∧ u.ecb.actB = b ∧ u.ecb.fwsvn = x.svn ∧ u.ecb.signext = e.sigres ∧ u.ecb.tst = .startUp ∧
        u.sheets = s.sheets
      ((∀ x, ¬valid e.slotA x ∧ ¬valid e.slotB x) → Leads .ecbRestartDone s fun u =>
        u.ecb.restarting = false ∧ u.ecb.st = .recovery ∧ u.sheets = s.sheets) ∧
      (∀ x, valid e.slotA x → (∀ y, ¬valid e.slotB y) → boots false x) ∧
      (∀ y, valid e.slotB y → (∀ x, ¬valid e.slotA x) → boots true y) ∧
      ∀ x y, valid e.slotA x → valid e.slotB y →
        (y.svn.toNat < x.svn.toNat → boots false x) ∧ (x.svn.toNat < y.svn.toNat → boots true y) ∧
        (x.svn.toNat = y.svn.toNat → boots e.lastB (if e.lastB then y else x)))

/-- Counters and snapshots (17 R454, R456, R459 to R461) and dumps (14 R397, R400, R401). -/
def Obligations.DumpsSnapshotsAndCounters : Prop :=
  (∀ s : State,
    let k := s.cnt
    let only (c : Instr) (y : CntCtl) : Prop := Leads c s fun u => u = { s with cnt := y }
    let ahead : Prop := s.now + 1000 ≤ k.snapat.toNat ∧ k.pend = false
    (s.dstate = .safe → Holds .cntArm s ∧ Holds .cntUnfreeze s) ∧
    (s.dstate ≠ .safe →
      (ahead → only .cntArm { k with pend := true, at0 := k.snapat.toNat, waiter := none }) ∧
      (¬ahead → Leads .cntArm s fun u => u.cnt = k ∧ SameMemories s u ∧ RaisesDev 0x410 s u) ∧
      (k.frozen = true → only .cntUnfreeze { k with resumeAt := some (s.now + 1000) }) ∧
      (k.frozen = false → Holds .cntUnfreeze s)) ∧
    (k.resumeAt = none → Holds .countersResume s) ∧
    (∀ t, k.resumeAt = some t → Leads .countersResume s fun u => t ≤ u.now ∧ (s.now ≤ t → u.now = t) ∧
      u.cnt = { k with frozen := false, resumeAt := none }) ∧
    (k.pend = false → Holds .snapshotLatch s) ∧
    (k.pend = true → Leads .snapshotLatch s fun u =>
      k.at0 ≤ u.now ∧ u.cnt.pend = false ∧ u.cnt.snapcnt = satInc k.snapcnt ∧ u.cnt.frozen = (k.frozen || k.frzmode) ∧
      SameMemories s u ∧ u.cnt.latched.map Prod.fst = dumpBlocks 0xFFFF ∧ (∀ x ∈ u.cnt.latched, x.2.length = 1024) ∧
      (∀ b i, (match b with | .sheet h => h < 16 | .parcel h _ => h < 16 | _ => True) →
        let c : Counter := tget {} (s.bankOf b).ctrs i
        let c' : Counter := tget {} (u.bankOf b).ctrs i
        c'.latch = c.val ∧ c'.val = c.val ∧ c'.sel = c.sel ∧ c'.filt = c.filt) ∧
      ∀ q d, k.waiter = some q → s.head q = some d → d.started = true → dOp d = 8 → d.wants = 3 →
        d.status = none →
        ∃ e, u.head q = some e ∧ e.bytes = d.bytes ∧ e.status = some stOk)) ∧
  (∀ (n i : Nat) (s : State),
    let b := bankNo n
    let k := s.bankOf b
    let c : Counter := tget {} k.ctrs i
    let up : Counter := tget {} k.ctrs (i + 1)
    let full : Prop := c.val.toNat = 2 ^ 48 - 1 ∧ c.sel.getLsbD 63 = true ∧ i < bankSize b ∧ s.cnt.frozen = false
    let chained : Prop := i % 2 = 0 ∧ up.sel.getLsbD 62 = true
    let pair : Prop := chained ∧ up.sel.getLsbD 63 = true
    let parcelBank : Prop := ∃ h p, b = .parcel h p
    (¬full → Holds (.counterOverflow n i) s) ∧
    (full → Leads (.counterOverflow n i) s fun u =>
      let k' := u.bankOf b
      (∀ b', b' ≠ b → u.bankOf b' = s.bankOf b') ∧ SameMemories s u ∧ (tget ({} : Counter) k'.ctrs i).val = 0 ∧
      (∀ j, j ≠ i → j ≠ i + 1 → tget ({} : Counter) k'.ctrs j = tget {} k.ctrs j) ∧
      (pair → up.val.toNat + 1 < 2 ^ 48 →
        (tget ({} : Counter) k'.ctrs (i + 1)).val = up.val + 1 ∧ k'.ovf = k.ovf ∧ k'.sample = k.sample ∧ u.out = s.out) ∧
      (pair → 2 ^ 48 ≤ up.val.toNat + 1 →
        (tget ({} : Counter) k'.ctrs (i + 1)).val = 0 ∧ k'.ovf = k.ovf ||| BitVec.ofNat 64 (2 ^ (i + 1))) ∧
      (chained → ¬pair → tget ({} : Counter) k'.ctrs (i + 1) = up ∧ k'.ovf = k.ovf ∧ k'.sample = k.sample ∧ u.out = s.out) ∧
      (¬chained → tget ({} : Counter) k'.ctrs (i + 1) = up ∧ k'.ovf = k.ovf ||| BitVec.ofNat 64 (2 ^ i) ∧
        (let masked := s.msixMask.contains (0, s.cnt.vec)
         u.out = (if c.sel.getLsbD 61 && !masked then s.out ++ [.msix 0 s.cnt.vec] else s.out) ∧
         (c.sel.getLsbD 61 = true → masked = true → (0, s.cnt.vec) ∈ u.msixPend)) ∧
        (¬parcelBank ∨ c.sel.getLsbD 60 = false → k'.sample = k.sample) ∧
        (parcelBank → c.sel.getLsbD 60 = true →
          (k.sample.getLsbD 63 = true → k'.sample = k.sample ||| BitVec.ofNat 64 (2 ^ 62)) ∧
          (k.sample.getLsbD 63 = false → k'.sample.getLsbD 63 = true ∧ bits k'.sample.toNat 61 56 = i ∧
            k'.sample.getLsbD 55 = false ∧ bits k'.sample.toNat 47 0 = s.bankPc b % 2 ^ 48))))) ∧
  ∀ s : State,
    let d := s.dump
    (∀ v : Word,
      let w := v ||| 0x8000000000000000
      let clean : Prop := v &&& 0x0FFF0000F0000000 = 0
      (d.st = 1 → clean → Leads (.dumpGo v) s fun u => u.dump = d ∧ SameMemories s u ∧ RaisesDev 0x40E s u) ∧
      (d.st = 1 → ¬clean → Leads (.dumpGo v) s fun u => u.dump = d ∧ SameMemories s u ∧
        ∃ a b : FaultMsg, u.devWire = s.devWire ++ [a, b] ∧ a.kind = 0x406 ∧ b.kind = 0x40E) ∧
      (d.st ≠ 1 → clean → Leads (.dumpGo v) s fun u =>
        let y := u.dump
        y.st = 1 ∧ y.blocks = 0 ∧ y.noresp = 0 ∧ y.used = 64 ∧ y.stopAsked = false ∧ y.base = d.base ∧
        y.latch = w.getLsbD 61 ∧ y.mram = w.getLsbD 60 ∧ y.smask.toNat = bits v.toNat 47 32 ∧
        y.len.toNat = bits v.toNat 27 0 ∧ y.todo = (if y.mram then [] else dumpBlocks y.smask) ∧ SameMemories s u ∧
        (y.latched = true → u.cnt.pend = true ∧ u.cnt.at0 = s.now + 1000) ∧
        (y.latched = true ↔ y.latch = true ∧ y.mram = false ∧ s.cnt.pend = false))) ∧
    (d.st ≠ 1 → Holds .dumpAbort s ∧ Holds .dumpBlockTimeout s ∧ ∀ a b, Holds (.dumpBlockDone a b) s) ∧
    (d.st = 1 → Leads .dumpAbort s fun u => u = { s with dump := { d with stopAsked := true } }) ∧
    (d.st = 1 → d.mram = true → ∀ a b, Leads (.dumpBlockDone a b) s fun u => SameMemories s u ∧
      let room := d.room - 64
      (u.dump.st = 2 ∨ u.dump.st = 3) ∧ (room < d.lastGasp.length + d.haltArea.length → u.dump.st = 3) ∧
      (wholeRecords 4573 room d.lastGasp = d.lastGasp →
        d.haltArea = [] ∨ (d.lastGasp.length + 64 ≤ room ∧
          wholeRecords 512 (room - d.lastGasp.length - 64) (d.haltArea.drop 64) = d.haltArea.drop 64) →
        u.dump.st = 2)) ∧
    (d.st = 1 → d.mram = false → d.todo = [] → ∀ a b, Leads (.dumpBlockDone a b) s fun u => u.dump.st = 2) ∧
    (∀ b r, d.st = 1 → d.mram = false → d.todo = b :: r →
      let puts (c : Instr) (x : List Byte) (bad : Bool) (q : State → Prop) : Prop := Leads c s fun u =>
        let y := u.dump
        let bad_ : BitVec 16 := if bad then 1 else 0
        SameMemories s u ∧ q u ∧
        (d.room < d.used + x.length → y.st = 3 ∧ y.blocks = d.blocks ∧ y.todo = []) ∧
        (d.used + x.length ≤ d.room → y.blocks = d.blocks + 1 ∧ y.noresp = d.noresp + bad_ ∧
          (∃ l, u.out = s.out ++ l ∧ .dmaWrite (BitVec.ofNat 64 (d.base.toNat * 4096 + d.used)) x ∈ l) ∧
          y.st = (if d.stopAsked then 4 else if r = [] then 2 else 1) ∧
          (y.st = 1 → y.todo = r ∧ y.used = d.used + x.length))
      let quiet (u : State) : Prop := u.devWire = s.devWire
      puts .dumpBlockTimeout (dumpRecord b 1 [] s.now) true (RaisesDev 0x740 s) ∧
      ∀ up good,
        (s.gated b = true → puts (.dumpBlockDone up good) (dumpRecord b 3 [] s.now) false quiet) ∧
        (s.gated b = false → up = false → puts (.dumpBlockDone up good) (dumpRecord b 2 [] s.now) true fun u =>
          if d.downSeen.contains (dieOf b) then quiet u else RaisesDev 0x741 s u) ∧
        (s.gated b = false → up = true →
          puts (.dumpBlockDone up good) (dumpRecord b (if good then 0 else 4) (s.dumpSet b) s.now) false quiet))

/-- Power, clocks and heat (18 R465 to R471, R477 to R484, R486). What a tick stands for, and which events a lost only feed
brings, are the model's readings (log 58, log 59). -/
def Obligations.FeedsClocksHeatAndPowerDown : Prop :=
  ∀ s : State,
    let p := s.pwr
    let live : Prop := p.down = false ∧ p.origin = true
    let only (c : Instr) (y : Power) : Prop := Leads c s fun u => u = { s with pwr := y }
    let tells (c : Instr) (k : BitVec 12) : Prop := Leads c s fun u => RaisesDev k s u ∧ u.pwr = p ∧ u.sheets = s.sheets ∧
      u.out = s.out ++ [.ibi k]
    let safe (k : BitVec 12) (u : State) : Prop := s.dstate ≠ .safe →
      u.dstate = .safe ∧ u.col.safeKind = k ∧ u.rst.last = 6 ∧ ∀ h, h < 16 → (u.sheet h).mode = .safe
    let downs (k : Option (BitVec 12)) (y : Power) (u : State) : Prop := u.dstate = .safe ∧
      u.pwr = { y with rails := [], pgOut := false, down := true, origin := false, configReady := false, released := false } ∧
      (∀ h a, h < 16 → u.dramAt h a = 0) ∧ (s.dump.st = 1 → u.dump.st = 4) ∧
      (s.dstate ≠ .safe → u.col.safeKind = k.getD s.col.safeKind) ∧ u.col.hist = s.col.hist ∧ u.ecb = s.ecb
    let closed (b : Bool) : Bool := if b then p.bok else p.aok
    let stage (b up : Bool) : Power := if b then { p with bok := up } else { p with aok := up }
    let dark : Power := { p with aok := false, bok := false }
    let low (c : Instr) : Prop := (¬live → only c dark) ∧
      (live → Leads c s fun u => downs (some 0x603) dark u ∧ ∃ m ∈ u.devWire, m.kind = 0x603)
    let shut (n : BitVec 4) (u : State) : Prop :=
      n.toNat < p.capStep.toNat → ∀ h, h < 16 → (u.sheet h).ft.windowUp = false
    (∀ b : Bool,
      let one : Power := { stage b false with lost := true, capStep := 0 }
      (closed b = true → Holds (.feedRise b) s ∧ Holds (.feedRestored b) s) ∧
      (closed b = false → Holds (.feedLost b) s ∧ Holds (.feedOvervoltage b) s) ∧
      (closed b = false → s.pkg.pwrDis = true ∨ p.origin = true → only (.feedRise b)
        { stage b true with tripped := false, lost := false }) ∧
      (closed b = false → s.pkg.pwrDis = false → p.origin = false → Leads (.feedRise b) s fun u =>
        u.pwr.origin = true ∧ u.pwr.ref100 = true ∧ u.pwr.ref156 = true ∧ u.pwr.tripped = false ∧ u.pwr.down = false ∧
        u.dstate = .startUp ∧ u.sheets = [] ∧ u.queues = [] ∧ (s.col.unwritten = [] → u.col.hist = s.col.hist) ∧
        u.ecb.officer = s.ecb.officer ∧ u.ecb.st = .off ∧ u.pending = s.pending) ∧
      (closed b = true → closed (!b) = true →
        (¬live → only (.feedLost b) (stage b false)) ∧
        (live → Leads (.feedLost b) s fun u => u.pwr = one ∧ RaisesDev 0x601 s u ∧ SameMemories s u ∧ shut 0 u)) ∧
      (closed b = true → closed (!b) = false → low (.feedLost b)) ∧
      (p.tripped = true → Holds (.feedRestored b) s) ∧
      (let back : Power := { stage b true with lost := !closed (!b) }
       closed b = false → p.tripped = false →
        (¬live → only (.feedRestored b) back) ∧
        (live → Leads (.feedRestored b) s fun u => u.pwr = back ∧ RaisesDev 0x602 s u ∧ u.sheets = s.sheets)) ∧
      (closed b = true →
        (¬live → Leads (.feedOvervoltage b) s fun u => u.pwr = stage b false ∧ RaisesDev 0x604 s u ∧ u.sheets = s.sheets) ∧
        (live → closed (!b) = true → Leads (.feedOvervoltage b) s fun u =>
          u.pwr = one ∧ RaisesDev 0x604 s u ∧ SameMemories s u ∧ shut 0 u) ∧
        (live → closed (!b) = false → Leads (.feedOvervoltage b) s fun u =>
          downs (some 0x603) dark u ∧ (∃ m ∈ u.devWire, m.kind = 0x604) ∧ ∃ m ∈ u.devWire, m.kind = 0x603))) ∧
    low .bothFeedsLow ∧
    tells .feedShareImbalance 0x605 ∧ tells .telemetryLost 0x621 ∧ tells .railOutOfRegulation 0x620 ∧
    (p.ref100 = false → Holds .refclk100Lost s) ∧
    (p.ref100 = true → Leads .refclk100Lost s fun u =>
      u.pwr = { p with ref100 := false } ∧ safe 0x622 u ∧ ∃ m ∈ u.devWire, m.kind = 0x622) ∧
    (p.ref156 = false → Holds .refclk156Lost s) ∧
    (p.ref156 = true → Leads .refclk156Lost s fun u =>
      u.pwr = { p with ref156 := false } ∧ (∃ m ∈ u.devWire, m.kind = 0x623) ∧ (s.chart.lock = false → SameDram s u) ∧
      ∀ n, let up : Prop := n < 64 ∧ ((s.port n).lstate = .up ∨ (s.port n).retraining = true)
        (up → (u.port n).lstate = .down ∧ (u.port n).cause = 5 ∧ (u.port n).en = (s.port n).en) ∧ 
        (¬up → (u.port n).lstate = (s.port n).lstate ∧ (s.chart.lock = false → u.port n = s.port n))) ∧
    (p.ref156 = true → Holds .refclk156Return s) ∧
    (p.ref156 = false → Leads .refclk156Return s fun u =>
      { u with ports := [] } = { s with ports := [], pwr := { p with ref156 := true } } ∧
      ∀ n, let y := s.port n
        u.port n = if n < 64 ∧ y.en = true ∧ y.lstate = .down ∧ y.cause = 5 then { y with lstate := .detect, quiet := false } else y) ∧
    (∀ t : Telemetry,
      let c := Instr.capControllerTick t
      let q : Power := { p with inw := t.inW, va := t.va, vb := t.vb, ia := t.ia, ib := t.ib }
      let cap := if p.lost then min p.capw.toNat 2160 else p.capw.toNat
      let atZero : Prop := ∀ h, h < 16 → (s.sheet h).mode = .off ∨ (s.sheet h).thm.step = 0
      let less : BitVec 4 := if p.capStep = 0 then 0 else p.capStep - 1
      let overNow := min 100 (p.overTicks + 1)
      (p.capen = false → only c q) ∧
      (p.capen = true → cap < t.inW.toNat → ¬atZero → Leads c s fun u =>
        u.pwr = { q with capStep := less } ∧ SameMemories s u ∧ u.devWire = s.devWire ∧ shut less u) ∧
      (p.capen = true → cap < t.inW.toNat → atZero → overNow < 100 ∨ p.overRaised = true → Leads c s fun u =>
        u.pwr = { q with capStep := less, overTicks := overNow } ∧ SameMemories s u ∧ u.devWire = s.devWire ∧ shut less u) ∧
      (p.capen = true → cap < t.inW.toNat → atZero → overNow = 100 → p.overRaised = false → Leads c s fun u =>
        u.pwr = { q with capStep := less, overTicks := overNow, overRaised := true } ∧ SameMemories s u ∧ RaisesDev 0x631 s u) ∧
      (p.capen = true → t.inW.toNat ≤ cap → only c { q with
        overTicks := 0, overRaised := false
        capStep := if t.inW.toNat * 100 < cap * 95 ∧ p.capStep.toNat < p.fmax.toNat then p.capStep + 1 else p.capStep })) ∧
    (∀ (h : SheetId) (tmax : BitVec 16) (dramt : Byte),
      let c := Instr.thermalTick h tmax dramt
      let n := h.val
      let x := s.sheet n
      let hot : Prop := 400 ≤ tmax.toInt ∨ 95 ≤ dramt.toNat
      let dram : Prop := 95 ≤ dramt.toNat ∧ x.thm.dramHot = false
      let read (u : State) : Prop := (u.sheet n).thm.tmax = tmax ∧ (u.sheet n).thm.dramt = dramt ∧
        (u.sheet n).thm.hot = (x.thm.hot || decide (420 ≤ tmax.toInt)) ∧ (u.sheet n).thm.step = x.thm.step ∧
        (u.sheet n).mem.hotRef = decide (85 < dramt.toNat) ∧ SameMemories s u ∧ ∀ j, j ≠ n → u.sheet j = s.sheet j
      (hot → Leads c s fun u => read u ∧ (u.sheet n).thm.limit.toNat = x.thm.limit.toNat - 1 ∧ (u.sheet n).thm.throt = true ∧
        (x.thm.throt = false → (u.sheet n).ft.windowUp = false) ∧
        (x.thm.throt = true → ¬dram → (u.sheet n).wire = x.wire) ∧
        (x.thm.throt = false → ¬dram → Raises n 0x610 0 s u) ∧
        (x.thm.throt = true → dram → Raises n 0x613 0 s u) ∧
        (x.thm.throt = false → dram → ∃ a b : FaultMsg, a.kind = 0x610 ∧ b.kind = 0x613 ∧ (u.sheet n).wire = x.wire ++ [a, b])) ∧
      (¬hot → tmax.toInt ≤ 388 → Leads c s fun u => read u ∧ u.devWire = s.devWire ∧ (u.sheet n).wire = x.wire ∧
        (u.sheet n).thm.limit.toNat = min 10 (x.thm.limit.toNat + 1) ∧
        (u.sheet n).thm.throt = decide ((u.sheet n).thm.limit ≠ 0xA)) ∧
      (¬hot → 388 < tmax.toInt → Leads c s fun u => read u ∧ (u.sheet n).wire = x.wire ∧
        (u.sheet n).thm.limit = x.thm.limit ∧ (u.sheet n).thm.throt = x.thm.throt)) ∧
    (∀ h : SheetId, Leads (.junctionLimit h) s fun u => (u.sheet h.val).thm.hot = true ∧ safe 0x611 u ∧
      u.dstate = .safe ∧ ∃ m ∈ (u.sheet h.val).wire, m.kind = 0x611) ∧
    (Leads .thermtrip s fun u => u.pwr.trip = true ∧ u.pwr.thermTrip = true ∧ u.pwr.tripped = true ∧ u.pwr.aok = false ∧
      u.pwr.bok = false ∧ u.pwr.down = true ∧ u.pwr.origin = false ∧ u.sheets = [] ∧ (s.col.unwritten = [] → u.col.hist = s.col.hist) ∧
      u.ecb.officer = s.ecb.officer ∧ u.ecb.fenceRecs = s.ecb.fenceRecs ∧ u.ecb.slotA = s.ecb.slotA ∧ u.pending = s.pending) ∧
    (∀ (h : SheetId) (k : BitVec 4),
      let n := h.val
      let x := s.sheet n
      k.toNat = min (min p.fmax.toNat p.capStep.toNat) x.thm.limit.toNat →
      (x.thm.step = k → Holds (.clockStepDone h) s) ∧
      (x.thm.step ≠ k → Leads (.clockStepDone h) s fun u => (u.sheet n).thm = { x.thm with step := k } ∧ u.pwr = p ∧
        (k ≠ 0xA → (u.sheet n).ft.windowUp = false) ∧ SameMemories s u ∧ (∀ j, j ≠ n → u.sheet j = s.sheet j) ∧
        ∀ q, (u.part q).runs.length = (s.part q).runs.length ∧ ∀ r ∈ (u.part q).runs, r.clkstep = true)) ∧
    (p.down = true → Holds .pwrOffreq s ∧
      Leads .pwrDisAssert s fun u => u = { s with pkg := { s.pkg with pwrDis := true } }) ∧
    (p.down = false → Leads .pwrOffreq s (downs none p) ∧
      Leads .pwrDisAssert s fun u => downs none p u ∧ u.pkg = { s.pkg with pwrDis := true })

/-- Start-up (18 R469, R472 to R475; 16 R433, R434, R446), I3C and JTAG (19 R497 to R499). -/
def Obligations.StartUpSidebandAndJtag : Prop :=
  ∀ s : State,
    let p := s.pwr
    let e := s.ecb
    let only (c : Instr) (y : Power) : Prop := Leads c s fun u => u = { s with pwr := y }
    let pkg (c : Instr) (y : Pkg) : Prop := Leads c s fun u => u = { s with pkg := y }
    let cold (u : State) : Prop := u.dstate = .startUp ∧ u.sheets = [] ∧ u.queues = [] ∧ u.ecb.st = .off ∧
      u.ecb.officer = e.officer ∧ (s.col.unwritten = [] → u.col.hist = s.col.hist) ∧ u.pending = s.pending
    (∀ r : Nat,
      let due : Prop := p.origin = true ∧ p.down = false ∧ r < 6 ∧ r ∉ p.rails ∧ ∀ i, i < r → i ∈ p.rails
      (¬due → Holds (.railStart r) s) ∧
      (due → Leads (.railStart r) s fun u => u = { s with
        pwr := { p with rails := p.rails ++ [r], pgOut := true }
        pkg := if r = 0 then { s.pkg with i3cSta := 0x58 + Config.straps.setWidth 7 } else s.pkg })) ∧
    (let due : Prop := 0 ∈ p.rails ∧ e.st = .off
     (¬due → Holds .ecbumosResetRelease s) ∧
     (due → Leads .ecbumosResetRelease s fun u => u = { s with ecb := { e with st := .selftest } })) ∧
    (∀ ok : Bool,
      let c := Instr.ecbSelftestDone ok
      (e.st ≠ .selftest → Holds c s) ∧
      (e.st = .selftest → ok = true → Leads c s fun u => u = { s with ecb := { e with
        st := .boot, tst := .startUp, drbg := [], inst := false, notrdy := true, reqs := 0, stretch := false, hostBuf := []
        pool := [], goodBlocks := 0 } }) ∧
      (e.st = .selftest → ok = false → Leads c s fun u =>
        u.ecb.st = .error ∧ u.ecb.notrdy = true ∧ u.ecb.drbg = [] ∧ u.ecb.signing = [] ∧ RaisesDev 0x540 s u ∧
        u.sheets = s.sheets)) ∧
    (let c := Instr.ecbBootDone
     let valid (o : Option FwImage) (x : FwImage) : Prop :=
       o = some x ∧ x.rootKeyHash = Config.romKeyHash ∧ x.sigsOk = true ∧ e.minsvn.toNat ≤ x.svn.toNat
     let chosen (b : Bool) (x : FwImage) : Prop := valid (if b then e.slotB else e.slotA) x ∧
       ∀ y, valid (if b then e.slotA else e.slotB) y → y.svn.toNat < x.svn.toNat ∨ (y.svn.toNat = x.svn.toNat ∧ e.lastB = b)
     let whole : Prop := ∀ x ∈ s.mram, x.2.failures = 0
     (e.st ≠ .boot → ∀ r, Holds (c r) s) ∧
     (∀ r : BootRead, e.st = .boot → r.pufOk = false → Leads (c r) s fun u => u.ecb.st = .error ∧ u.ecb.pufOk = false ∧ u.ecb.signing = [] ∧
       RaisesDev 0x561 s u ∧ u.sheets = s.sheets) ∧
     (∀ p : RecPlace, e.st = .boot → whole →
       let q := (s.records p.type p.index).spoil p.second
       q.failures = 1 → Leads (c { bad := [p] }) s fun u => (∃ m ∈ u.devWire, m.kind = 0x560) ∧
         (p.index = 0 → p.type = .svn ∨ p.type = .identity → q.current = none → u.ecb.st = .error ∧ u.ecb.signing = []) ∧
         (p.type = .officer → q.current = none → u.ecb.officer = none) ∧
         ∀ k o, p.type = .officer → q.current = some k → k.body = .officer o → u.ecb.officer = o) ∧
     (e.st = .boot → whole → (∀ b x, ¬chosen b x) → Leads (c {}) s fun u =>
       u.ecb.st = .recovery ∧ u.pwr = p ∧ u.sheets = s.sheets ∧ u.dstate = s.dstate) ∧
     ∀ b x, e.st = .boot → whole → chosen b x →
       (p.released = true → Leads (c {}) s fun u => u.ecb.st = .ready ∧ u.sheets = s.sheets ∧ u.pwr = p ∧
         u.ecb.signext = e.sigres ∧ u.ecb.actB = (if s.rst.warm then b else e.actB) ∧
         u.ecb.fwsvn = (if s.rst.warm then x.svn else e.fwsvn)) ∧
       (p.released = false → Leads (c {}) s fun u => u.ecb.st = .ready ∧ u.ecb.actB = b ∧ u.ecb.fwsvn = x.svn ∧
         u.ecb.signext = e.sigres ∧ u.pwr = { p with released := true, trip := false } ∧
         u.chart.reg = s.chart.saved.getD s.chart.reg ∧ (p.trip = true → ∃ m ∈ u.devWire, m.kind = 0x612) ∧ SameMemories s u ∧
         ∀ h, h < 16 → ∀ m, e.fenceRecs.find? (fun x => x.1 == h) = some (h, m) → (u.sheet h).pmap = m.1 ∧
           (u.sheet h).standing = m.2.1 ∧ (u.sheet h).test = m.2.2.1 ∧ (u.sheet h).fenced = m.2.2.2)) ∧
    (let due : Prop := p.released = true ∧ s.pkg.perst = false
     (due → only .pcieConfigReady { p with configReady := true }) ∧ (¬due → Holds .pcieConfigReady s) ∧
     (¬due ∨ p.down = true → pkg .perstNAssert { s.pkg with perst := true }) ∧
     (due → p.down = false → p.ref100 = true → Leads .perstNAssert s fun u => cold u ∧ u.pkg.perst = true)) ∧
    pkg .perstNDeassert { s.pkg with perst := false } ∧
    ((p.aok = false ∧ p.bok = false) ∨ p.origin = true → pkg .pwrDisDeassert { s.pkg with pwrDis := false }) ∧
    ((p.aok = true ∨ p.bok = true) → p.origin = false → Leads .pwrDisDeassert s fun u => cold u ∧ u.pwr.origin = true ∧
      u.pkg.pwrDis = false) ∧
    (∀ g : Fin 4,
      (p.released = false → Holds (.portGroupEnable g) s) ∧
      (p.released = true → Leads (.portGroupEnable g) s fun u =>
        { u with ports := [] } = { s with ports := [] } ∧ ∀ n,
          let x := s.port n
          let y : Port := if x.lstate = .off then
            { x with en := true, groupEnabled := true, tries := 0, quiet := false, lstate := if x.loop = 0 then .detect else .loopback }
            else { x with en := true, groupEnabled := true }
          u.port n = if n < 64 ∧ n % 4 = g.val then y else x)) ∧
    (∀ h : SheetId,
      let n := h.val
      let x := s.sheet n
      let served : Prop := ∀ j, j < 16 → j ≠ n → (s.sheet j).mode = .service ∨ (s.sheet j).mode = .off
      let opens (u : State) : Prop :=
        (s.dstate = .startUp → e.st ≠ .recovery → served → u.dstate = .ready) ∧
        (s.dstate ≠ .startUp ∨ e.st = .recovery ∨ ¬served → u.dstate = s.dstate)
      let others (u : State) : Prop := ∀ j, j ≠ n → u.sheet j = s.sheet j
      (∀ ok : Bool,
        let c := Instr.dramTrainingDone h ok
        let due : Prop := p.released = true ∧ x.mode = .startUp ∧ x.trained = false
        let last : Prop := ∀ j, j < 16 → j ≠ n → (s.sheet j).mode ≠ .startUp ∨ (s.sheet j).trained = true
        let chart (u : State) : Prop :=
          (last → s.chart.st = .alone → 1 < s.chart.reg.size.toNat → u.chart.st = if s.isDatum then .startUp else .aligning) ∧
          (¬last ∨ s.chart.st ≠ .alone ∨ s.chart.reg.size.toNat ≤ 1 → u.chart = s.chart)
        (¬due → Holds c s) ∧
        (due → ok = true → Leads c s fun u => u.sheet n = { x with trained := true } ∧ others u ∧ chart u) ∧
        (due → ok = false → x.dramTries + 1 < 3 → Leads c s fun u =>
          OnlySheet n s u ∧ u.sheet n = { x with dramTries := x.dramTries + 1 }) ∧
        (due → ok = false → 3 ≤ x.dramTries + 1 → Leads c s fun u =>
          (u.sheet n).mode = .off ∧ others u ∧ Raises n 0x630 0 s u ∧ chart u)) ∧
      (∀ ok : Bool,
        let c := Instr.memoryTestDone h ok
        let due : Prop := x.mode = .startUp ∧ x.trained = true ∧ x.tested = false
        (¬due → Holds c s) ∧
        (due → ok = true → Leads c s fun u => OnlySheet n s u ∧ (u.sheet n).tested = true ∧ (u.sheet n).mode = .startUp ∧
          (u.sheet n).mem.sbOk = true ∧ (∀ a, u.dramAt n a = 0) ∧ (∀ g, (u.sheet n).mem.attr g = (0, 0)) ∧
          { u.sheet n with mem := {}, tested := false } = { x with mem := {}, tested := false }) ∧
        (due → ok = false → Leads c s fun u => (u.sheet n).mode = .off ∧ others u ∧ Raises n 0x630 0 s u ∧ opens u)) ∧
      ∀ failed : List PhysParcel,
        let c := Instr.startupKakDone h failed
        let due : Prop := x.mode = .startUp ∧ x.tested = true
        (¬due → Holds c s) ∧
        (due → Leads c s fun u => (u.sheet n).mode = .service ∧ others u ∧ opens u ∧ SameDram s u ∧
          (failed = [] → x.changes = [] → (u.sheet n).pmap = x.pmap ∧ u.col = s.col ∧ (u.sheet n).wire = x.wire) ∧
          ∀ q ∈ failed, x.fenced.getLsbD q.val = false → (u.hist (18 * n + q.val)).count = satInc (s.hist (18 * n + q.val)).count ∧
            ∃ m ∈ (u.sheet n).wire, m.kind = 0x2E0 ∧ srcParcel m.source = q.val)) ∧
    (let up : Prop := e.st ≠ .off ∧ p.down = false
     let put (c : Instr) (b : List Byte) : Prop := Leads c s fun u => u = { s with out := s.out ++ [.i3cReply b] }
     (∀ o d k, ¬up → Holds (.i3cPrivateWrite o d) s ∧ Holds .i3cPrivateRead s ∧ Holds (.i3cCcc k) s) ∧
     (up →
       (∀ o d, d = none ∨ o.toNat ≠ 0x3200000 → pkg (.i3cPrivateWrite o d) { s.pkg with i3cOffset := o }) ∧
       (∀ o v, o.toNat = 0x3200000 →
         let capw := bits v.toNat 47 32
         let fmax := bits v.toNat 27 24
         let k : Power := { p with capw := BitVec.ofNat 16 capw, fmax := BitVec.ofNat 4 fmax, capen := v.getLsbD 0 }
         (capw < 1000 ∨ 3600 < capw ∨ 10 < fmax → Leads (.i3cPrivateWrite o (some v)) s fun u =>
           u.pwr = p ∧ RaisesDev 0x406 s u ∧ u.pkg = { s.pkg with i3cOffset := o }) ∧
         (1000 ≤ capw → capw ≤ 3600 → fmax ≤ 10 → v &&& 0xFFFF0000F0FFFFFE = 0 → Leads (.i3cPrivateWrite o (some v)) s fun u =>
           u = { s with pwr := k, pkg := { s.pkg with i3cOffset := o } })) ∧
       (let o := s.pkg.i3cOffset.toNat
        let readable : Prop := o = 0 ∨ o = 0x10 ∨ o = 0x3000018 ∨ (0x3200000 ≤ o ∧ o < 0x3201000)
        (¬readable → put .i3cPrivateRead (List.replicate 8 0)) ∧
        (∀ r, readable → regOf o = some r → put .i3cPrivateRead (leBytes 8 (s.readReg r).toNat)) ∧
        (readable → regOf o = none → put .i3cPrivateRead (List.replicate 8 0))) ∧
       (∀ a,
         let given : Prop := pkg (.i3cCcc (.entdaa a)) { s.pkg with i3cDyn := a, i3cDv := true } ∧
           pkg (.i3cCcc (.setdasa a)) { s.pkg with i3cDyn := a, i3cDv := true }
         (s.pkg.i3cDv = false → given ∧ Holds (.i3cCcc (.setnewda a)) s) ∧
         (s.pkg.i3cDv = true → Holds (.i3cCcc (.entdaa a)) s ∧ Holds (.i3cCcc (.setdasa a)) s ∧
           pkg (.i3cCcc (.setnewda a)) { s.pkg with i3cDyn := a })) ∧
       pkg (.i3cCcc .rstdaa) { s.pkg with i3cDyn := 0, i3cDv := false } ∧
       ∀ k, k = .getpid ∨ k = .getbcr ∨ k = .getdcr ∨ k = .getstatus → ∃ b, put (.i3cCcc k) b)) ∧
    (let open_ : Prop := ∃ h, e.unlockHour = some h ∧ s.col.svch.toNat < h.toNat
     (∀ i : JtagInstr,
       let k : Pkg := { s.pkg with jtag := i, dbgRead := if i = .dbgread then s.pkg.dbgRead else none }
       (i ≠ .idcode → i = .bypass ∨ open_ → pkg (.jtagInstruction i) k) ∧
       (i ≠ .idcode → ¬open_ → pkg (.jtagInstruction i) { s.pkg with jtag := .bypass, dbgRead := none }) ∧
       (i = .idcode → Leads (.jtagInstruction i) s fun u =>
         u = { s with pkg := k, out := s.out ++ [.jtagOut [0x01, 0x60, 0x71, 0xA4]] })) ∧
     (∀ b : BitVec 16,
       (¬open_ ∨ s.pkg.jtag ≠ .dbgread → Holds (.jtagDbgread b) s) ∧
       (open_ → s.pkg.jtag = .dbgread →
         (s.dump.st = 1 → s.dump.todo.head? = some b → pkg (.jtagDbgread b) { s.pkg with dbgRead := some b }) ∧
         (s.dump.st ≠ 1 ∨ s.dump.todo.head? ≠ some b → Leads (.jtagDbgread b) s fun u => u.pkg = { s.pkg with dbgRead := none } ∧
           u.sheets = s.sheets ∧ u.ecb = e ∧ ∃ l : List Byte, u.out = s.out ++ [.jtagOut l]))) ∧
     (∀ h, e.unlockHour = some h → h.toNat ≤ s.col.svch.toNat → Leads .jtagRelock s fun u => u = { s with
       ecb := { e with unlockHour := none }, pkg := { s.pkg with jtag := .bypass, dbgRead := none } }) ∧
     (open_ ∨ e.unlockHour = none → Holds .jtagRelock s))
end

