-- ==== Sys2Proof/Laws/Table.lean ====
section
/-! SUPPORT. Laws of sparse data by key: a read after a write, and the canonical form that every operation keeps. -/

namespace Sys2Proof.Machine

variable {α : Type}

/-! ### Reading after writing -/

@[simp] theorem tget_nil (d : α) (k : Nat) : tget d [] k = d := rfl

theorem tget_tput (d : α) (t : Table α) (k j : Nat) (v : α) :
    tget d (tput t k v) j = if j = k then v else tget d t j := by
  induction t with
  | nil => simp [tput, tget, eq_comm]
  | cons e r ih =>
    obtain ⟨a, b⟩ := e
    by_cases h1 : k < a
    · by_cases h2 : k = j
      · subst h2; simp [tput, tget, h1]
      · simp [tput, tget, h1, h2, Ne.symm h2]
    · by_cases h3 : a = k
      · subst h3; by_cases h2 : a = j
        · subst h2; simp [tput, tget]
        · simp [tput, tget, h2, Ne.symm h2]
      · by_cases h4 : a = j
        · subst h4; simp [tput, tget, h1, h3]
        · simp [tput, tget, h1, h3, h4, ih]

theorem tget_tdel (d : α) (t : Table α) (k j : Nat) :
    tget d (tdel t k) j = if j = k then d else tget d t j := by
  induction t with
  | nil => simp [tdel, tget]
  | cons e r ih =>
    obtain ⟨a, b⟩ := e
    unfold tdel at ih
    by_cases h1 : a = k
    · subst h1; by_cases h2 : a = j
      · subst h2; simpa [tdel, tget] using ih
      · simpa [tdel, tget, h2, Ne.symm h2] using ih
    · by_cases h2 : a = j
      · subst h2; simp [tdel, tget, h1]
      · simp [tdel, tget, h1, h2, ih]

/-- A read after a write. -/
theorem tget_tset [DecidableEq α] (d : α) (t : Table α) (k j : Nat) (v : α) :
    tget d (tset d t k v) j = if j = k then v else tget d t j := by
  unfold tset; split
  · rename_i h; subst h; exact tget_tdel _ _ _ _
  · exact tget_tput _ _ _ _ _

@[simp] theorem tget_tset_same [DecidableEq α] (d : α) (t : Table α) (k : Nat) (v : α) :
    tget d (tset d t k v) k = v := by simp [tget_tset]

theorem tget_tset_ne [DecidableEq α] (d : α) (t : Table α) {k j : Nat} (v : α) (h : j ≠ k) :
    tget d (tset d t k v) j = tget d t j := by simp [tget_tset, h]

theorem tget_tmod [DecidableEq α] (d : α) (t : Table α) (k j : Nat) (f : α → α) :
    tget d (tmod d t k f) j = if j = k then f (tget d t k) else tget d t j := tget_tset _ _ _ _ _

@[simp] theorem tget_tmod_same [DecidableEq α] (d : α) (t : Table α) (k : Nat) (f : α → α) :
    tget d (tmod d t k f) k = f (tget d t k) := by simp [tget_tmod]

theorem tget_tmod_ne [DecidableEq α] (d : α) (t : Table α) {k j : Nat} (f : α → α) (h : j ≠ k) :
    tget d (tmod d t k f) j = tget d t j := by simp [tget_tmod, h]

theorem tget_filter (d : α) (t : Table α) (p : Nat → Bool) (j : Nat) :
    tget d (t.filter fun e => p e.1) j = if p j then tget d t j else d := by
  induction t with
  | nil => simp
  | cons e r ih =>
    obtain ⟨a, b⟩ := e
    by_cases h1 : p a
    · by_cases h2 : a = j
      · subst h2; simp [tget, h1]
      · simp [tget, h1, h2, ih]
    · by_cases h2 : a = j
      · subst h2; simp [h1, ih]
      · simp [tget, h1, h2, ih]

theorem tget_tclear (d : α) (t : Table α) (a n j : Nat) :
    tget d (tclear t a n) j = if a ≤ j ∧ j < a + n then d else tget d t j := by
  have h := tget_filter d t (fun k => !(decide (a ≤ k ∧ k < a + n))) j
  unfold tclear; rw [h]; by_cases h1 : a ≤ j ∧ j < a + n <;> simp [h1]

@[simp] theorem mget_mset_same (m : Mem) (a : Nat) (v : Byte) : mget (mset m a v) a = v := tget_tset_same _ _ _ _

theorem mget_mset (m : Mem) (a b : Nat) (v : Byte) : mget (mset m a v) b = if b = a then v else mget m b :=
  tget_tset _ _ _ _ _

/-- A read of one byte after a write of several. -/
theorem mget_mwrite (l : List Byte) : ∀ (m : Mem) (a b : Nat),
    mget (mwrite m a l) b = if a ≤ b ∧ b < a + l.length then l.getD (b - a) 0 else mget m b := by
  induction l with
  | nil => intro m a b; simp [mwrite]
  | cons x r ih =>
    intro m a b
    simp only [mwrite, ih, mget_mset, List.length_cons]
    by_cases h : b = a
    · subst h; simp
    · by_cases h2 : a + 1 ≤ b ∧ b < a + 1 + r.length
      · have h3 : a ≤ b ∧ b < a + (r.length + 1) := by omega
        rw [if_pos h2, if_pos h3]
        have : b - a = (b - (a + 1)) + 1 := by omega
        rw [this, List.getD_cons_succ]
      · have h3 : ¬ (a ≤ b ∧ b < a + (r.length + 1)) := by omega
        rw [if_neg h2, if_neg h3, if_neg h]

theorem mget_mwrite_out (m : Mem) (a b : Nat) (l : List Byte) (h : b < a ∨ a + l.length ≤ b) :
    mget (mwrite m a l) b = mget m b := by rw [mget_mwrite, if_neg]; omega

theorem mread_length (m : Mem) (n : Nat) : ∀ a, (mread m a n).length = n := by
  induction n with
  | zero => intro a; rfl
  | succ n ih => intro a; simp [mread, ih]

theorem mread_getD (m : Mem) (n : Nat) : ∀ a i, i < n → (mread m a n).getD i 0 = mget m (a + i) := by
  induction n with
  | zero => intro a i h; omega
  | succ n ih =>
    intro a i h
    cases i with
    | zero => simp [mread]
    | succ i => rw [mread, List.getD_cons_succ, ih (a + 1) i (by omega)]; congr 1; omega

/-- What was written is read back. -/
theorem mread_mwrite (l : List Byte) : ∀ (m : Mem) (a : Nat), mread (mwrite m a l) a l.length = l := by
  intro m a
  apply List.ext_getElem (mread_length _ _ _)
  intro i h1 h2
  have h := mread_getD (mwrite m a l) l.length a i h2
  rw [mget_mwrite, if_pos (by omega)] at h
  simpa [List.getD_eq_getElem?_getD, h1, h2] using h

/-- Bytes away from a write read as before. -/
theorem mread_mwrite_out (m : Mem) (a : Nat) (l : List Byte) (n : Nat) :
    ∀ b, b + n ≤ a ∨ a + l.length ≤ b → mread (mwrite m a l) b n = mread m b n := by
  induction n with
  | zero => intro b _; rfl
  | succ n ih =>
    intro b h
    rw [mread, mread, mget_mwrite_out _ _ _ _ (by omega), ih (b + 1) (by omega)]

theorem mget_mzero (m : Mem) (a n b : Nat) : mget (mzero m a n) b = if a ≤ b ∧ b < a + n then 0 else mget m b :=
  tget_tclear _ _ _ _ _

/-! ### The canonical form -/

theorem twf_iff [DecidableEq α] (d : α) (t : Table α) :
    twf d t = true ↔ t.Pairwise (fun a b => a.1 < b.1) ∧ ∀ e ∈ t, e.2 ≠ d := by
  simp [twf]

theorem twf_nil [DecidableEq α] (d : α) : twf d ([] : Table α) = true := rfl

theorem twf_filter [DecidableEq α] (d : α) (t : Table α) (p : Nat × α → Bool) (h : twf d t = true) :
    twf d (t.filter p) = true := by
  rw [twf_iff] at *
  exact ⟨h.1.filter _, fun e he => h.2 e (List.mem_filter.1 he).1⟩

theorem mem_tput (t : Table α) (k : Nat) (v : α) (e : Nat × α) (h : e ∈ tput t k v) : e = (k, v) ∨ e ∈ t := by
  induction t with
  | nil => simpa [tput] using h
  | cons x r ih =>
    obtain ⟨a, b⟩ := x
    unfold tput at h
    split at h
    · simpa using h
    · split at h
      · rcases List.mem_cons.1 h with h | h
        · exact .inl h
        · exact .inr (List.mem_cons_of_mem _ h)
      · rcases List.mem_cons.1 h with h | h
        · exact .inr (h ▸ List.mem_cons_self ..)
        · rcases ih h with h | h
          · exact .inl h
          · exact .inr (List.mem_cons_of_mem _ h)

theorem tput_sorted (t : Table α) (k : Nat) (v : α) (h : t.Pairwise fun a b => a.1 < b.1) :
    (tput t k v).Pairwise fun a b => a.1 < b.1 := by
  induction t with
  | nil => simp [tput]
  | cons x r ih =>
    obtain ⟨a, b⟩ := x
    obtain ⟨h1, h2⟩ := List.pairwise_cons.1 h
    unfold tput
    split
    · rename_i hk
      refine List.pairwise_cons.2 ⟨fun e he => ?_, h⟩
      rcases List.mem_cons.1 he with rfl | he
      · exact hk
      · exact lt_trans hk (h1 e he)
    · split
      · rename_i hk; subst hk
        exact List.pairwise_cons.2 ⟨h1, h2⟩
      · refine List.pairwise_cons.2 ⟨fun e he => ?_, ih h2⟩
        rcases mem_tput r k v e he with rfl | he
        · simp; omega
        · exact h1 e he

/-- A write keeps the canonical form. -/
theorem twf_tset [DecidableEq α] (d : α) (t : Table α) (k : Nat) (v : α) (h : twf d t = true) :
    twf d (tset d t k v) = true := by
  unfold tset; split
  · exact twf_filter _ _ _ h
  · rename_i hv
    rw [twf_iff] at *
    refine ⟨tput_sorted t k v h.1, fun e he => ?_⟩
    rcases mem_tput t k v e he with rfl | he
    · exact hv
    · exact h.2 e he

theorem twf_tmod [DecidableEq α] (d : α) (t : Table α) (k : Nat) (f : α → α) (h : twf d t = true) :
    twf d (tmod d t k f) = true := twf_tset _ _ _ _ h

theorem twf_tclear [DecidableEq α] (d : α) (t : Table α) (a n : Nat) (h : twf d t = true) :
    twf d (tclear t a n) = true := twf_filter _ _ _ h

theorem twf_tgraft [DecidableEq α] (d : α) (t u : Table α) (a n : Nat) (h : twf d t = true) (h2 : twf d u = true) :
    twf d (tgraft t u a n) = true := by
  rw [twf_iff] at *
  refine ⟨?_, fun e he => ?_⟩
  · unfold tgraft
    rw [List.append_assoc, List.pairwise_append, List.pairwise_append]
    refine ⟨h.1.filter _, ⟨h2.1.filter _, h.1.filter _, ?_⟩, ?_⟩
    · intro x hx y hy
      simp only [List.mem_filter, decide_eq_true_eq] at hx hy
      omega
    · intro x hx y hy
      simp only [List.mem_append, List.mem_filter, decide_eq_true_eq] at hx hy
      omega
  · unfold tgraft at he
    simp only [List.mem_append, List.mem_filter] at he
    rcases he with (⟨he, _⟩ | ⟨he, _⟩) | ⟨he, _⟩
    · exact h.2 e he
    · exact h2.2 e he
    · exact h.2 e he

theorem memWf_mset (m : Mem) (a : Nat) (v : Byte) (h : memWf m = true) : memWf (mset m a v) = true := twf_tset _ _ _ _ h

/-- Writing bytes keeps a memory's canonical form. -/
theorem memWf_mwrite (l : List Byte) : ∀ (m : Mem) (a : Nat), memWf m = true → memWf (mwrite m a l) = true := by
  induction l with
  | nil => intro m a h; exact h
  | cons b r ih => intro m a h; exact ih _ _ (memWf_mset _ _ _ h)

theorem memWf_mzero (m : Mem) (a n : Nat) (h : memWf m = true) : memWf (mzero m a n) = true := twf_tclear _ _ _ _ h

theorem memWf_mflip (l : List (Nat × Byte)) : ∀ m : Mem, memWf m = true → memWf (mflip m l) = true := by
  induction l with
  | nil => intro m h; exact h
  | cons b r ih => intro m h; exact ih _ (memWf_mset _ _ _ h)

theorem memWf_tgraft (m u : Mem) (a n : Nat) (h : memWf m = true) (h2 : memWf u = true) : memWf (tgraft m u a n) = true :=
  twf_tgraft _ _ _ _ _ h h2

end Sys2Proof.Machine
end

