-- ==== Sys2Proof/Laws/State.lean ====
section
/-! SUPPORT. Laws of State: what each update leaves of each field, and what each unit reads as after an update. -/

namespace Sys2Proof.Machine

variable (s : State)

/-! ### setSheet -/

@[simp] theorem setSheet_pending (i : Nat) (v : Sheet) : (s.setSheet i v).pending = s.pending := rfl
@[simp] theorem setSheet_free (i : Nat) (v : Sheet) : (s.setSheet i v).free = s.free := rfl
@[simp] theorem setSheet_out (i : Nat) (v : Sheet) : (s.setSheet i v).out = s.out := rfl
@[simp] theorem setSheet_qtmo (i : Nat) (v : Sheet) : (s.setSheet i v).qtmo = s.qtmo := rfl
@[simp] theorem setSheet_dstate (i : Nat) (v : Sheet) : (s.setSheet i v).dstate = s.dstate := rfl
@[simp] theorem setSheet_w4base (i : Nat) (v : Sheet) : (s.setSheet i v).w4base = s.w4base := rfl
@[simp] theorem setSheet_queues (i : Nat) (v : Sheet) : (s.setSheet i v).queues = s.queues := rfl
@[simp] theorem setSheet_parts (i : Nat) (v : Sheet) : (s.setSheet i v).parts = s.parts := rfl
@[simp] theorem setSheet_ctxs (i : Nat) (v : Sheet) : (s.setSheet i v).ctxs = s.ctxs := rfl
@[simp] theorem setSheet_bellStamp (i : Nat) (v : Sheet) : (s.setSheet i v).bellStamp = s.bellStamp := rfl
@[simp] theorem setSheet_bellAt (i : Nat) (v : Sheet) : (s.setSheet i v).bellAt = s.bellAt := rfl
@[simp] theorem setSheet_fetchTurn (i : Nat) (v : Sheet) : (s.setSheet i v).fetchTurn = s.fetchTurn := rfl
@[simp] theorem setSheet_flr (i : Nat) (v : Sheet) : (s.setSheet i v).flr = s.flr := rfl
@[simp] theorem setSheet_ports (i : Nat) (v : Sheet) : (s.setSheet i v).ports = s.ports := rfl
@[simp] theorem setSheet_chart (i : Nat) (v : Sheet) : (s.setSheet i v).chart = s.chart := rfl
@[simp] theorem setSheet_col (i : Nat) (v : Sheet) : (s.setSheet i v).col = s.col := rfl
@[simp] theorem setSheet_devWire (i : Nat) (v : Sheet) : (s.setSheet i v).devWire = s.devWire := rfl
@[simp] theorem setSheet_mseq (i : Nat) (v : Sheet) : (s.setSheet i v).mseq = s.mseq := rfl
@[simp] theorem setSheet_rst (i : Nat) (v : Sheet) : (s.setSheet i v).rst = s.rst := rfl
@[simp] theorem setSheet_dump (i : Nat) (v : Sheet) : (s.setSheet i v).dump = s.dump := rfl
@[simp] theorem setSheet_ecb (i : Nat) (v : Sheet) : (s.setSheet i v).ecb = s.ecb := rfl
@[simp] theorem setSheet_cnt (i : Nat) (v : Sheet) : (s.setSheet i v).cnt = s.cnt := rfl
@[simp] theorem setSheet_pwr (i : Nat) (v : Sheet) : (s.setSheet i v).pwr = s.pwr := rfl
@[simp] theorem setSheet_pkg (i : Nat) (v : Sheet) : (s.setSheet i v).pkg = s.pkg := rfl

/-! ### modSheet -/

@[simp] theorem modSheet_pending (i : Nat) (f : Sheet → Sheet) : (s.modSheet i f).pending = s.pending := rfl
@[simp] theorem modSheet_free (i : Nat) (f : Sheet → Sheet) : (s.modSheet i f).free = s.free := rfl
@[simp] theorem modSheet_out (i : Nat) (f : Sheet → Sheet) : (s.modSheet i f).out = s.out := rfl
@[simp] theorem modSheet_qtmo (i : Nat) (f : Sheet → Sheet) : (s.modSheet i f).qtmo = s.qtmo := rfl
@[simp] theorem modSheet_dstate (i : Nat) (f : Sheet → Sheet) : (s.modSheet i f).dstate = s.dstate := rfl
@[simp] theorem modSheet_w4base (i : Nat) (f : Sheet → Sheet) : (s.modSheet i f).w4base = s.w4base := rfl
@[simp] theorem modSheet_queues (i : Nat) (f : Sheet → Sheet) : (s.modSheet i f).queues = s.queues := rfl
@[simp] theorem modSheet_parts (i : Nat) (f : Sheet → Sheet) : (s.modSheet i f).parts = s.parts := rfl
@[simp] theorem modSheet_ctxs (i : Nat) (f : Sheet → Sheet) : (s.modSheet i f).ctxs = s.ctxs := rfl
@[simp] theorem modSheet_bellStamp (i : Nat) (f : Sheet → Sheet) : (s.modSheet i f).bellStamp = s.bellStamp := rfl
@[simp] theorem modSheet_bellAt (i : Nat) (f : Sheet → Sheet) : (s.modSheet i f).bellAt = s.bellAt := rfl
@[simp] theorem modSheet_fetchTurn (i : Nat) (f : Sheet → Sheet) : (s.modSheet i f).fetchTurn = s.fetchTurn := rfl
@[simp] theorem modSheet_flr (i : Nat) (f : Sheet → Sheet) : (s.modSheet i f).flr = s.flr := rfl
@[simp] theorem modSheet_ports (i : Nat) (f : Sheet → Sheet) : (s.modSheet i f).ports = s.ports := rfl
@[simp] theorem modSheet_chart (i : Nat) (f : Sheet → Sheet) : (s.modSheet i f).chart = s.chart := rfl
@[simp] theorem modSheet_col (i : Nat) (f : Sheet → Sheet) : (s.modSheet i f).col = s.col := rfl
@[simp] theorem modSheet_devWire (i : Nat) (f : Sheet → Sheet) : (s.modSheet i f).devWire = s.devWire := rfl
@[simp] theorem modSheet_mseq (i : Nat) (f : Sheet → Sheet) : (s.modSheet i f).mseq = s.mseq := rfl
@[simp] theorem modSheet_rst (i : Nat) (f : Sheet → Sheet) : (s.modSheet i f).rst = s.rst := rfl
@[simp] theorem modSheet_dump (i : Nat) (f : Sheet → Sheet) : (s.modSheet i f).dump = s.dump := rfl
@[simp] theorem modSheet_ecb (i : Nat) (f : Sheet → Sheet) : (s.modSheet i f).ecb = s.ecb := rfl
@[simp] theorem modSheet_cnt (i : Nat) (f : Sheet → Sheet) : (s.modSheet i f).cnt = s.cnt := rfl
@[simp] theorem modSheet_pwr (i : Nat) (f : Sheet → Sheet) : (s.modSheet i f).pwr = s.pwr := rfl
@[simp] theorem modSheet_pkg (i : Nat) (f : Sheet → Sheet) : (s.modSheet i f).pkg = s.pkg := rfl

/-! ### modEng -/

@[simp] theorem modEng_pending (e : EngId) (f : Engine → Engine) : (s.modEng e f).pending = s.pending := rfl
@[simp] theorem modEng_free (e : EngId) (f : Engine → Engine) : (s.modEng e f).free = s.free := rfl
@[simp] theorem modEng_out (e : EngId) (f : Engine → Engine) : (s.modEng e f).out = s.out := rfl
@[simp] theorem modEng_qtmo (e : EngId) (f : Engine → Engine) : (s.modEng e f).qtmo = s.qtmo := rfl
@[simp] theorem modEng_dstate (e : EngId) (f : Engine → Engine) : (s.modEng e f).dstate = s.dstate := rfl
@[simp] theorem modEng_w4base (e : EngId) (f : Engine → Engine) : (s.modEng e f).w4base = s.w4base := rfl
@[simp] theorem modEng_queues (e : EngId) (f : Engine → Engine) : (s.modEng e f).queues = s.queues := rfl
@[simp] theorem modEng_parts (e : EngId) (f : Engine → Engine) : (s.modEng e f).parts = s.parts := rfl
@[simp] theorem modEng_ctxs (e : EngId) (f : Engine → Engine) : (s.modEng e f).ctxs = s.ctxs := rfl
@[simp] theorem modEng_bellStamp (e : EngId) (f : Engine → Engine) : (s.modEng e f).bellStamp = s.bellStamp := rfl
@[simp] theorem modEng_bellAt (e : EngId) (f : Engine → Engine) : (s.modEng e f).bellAt = s.bellAt := rfl
@[simp] theorem modEng_fetchTurn (e : EngId) (f : Engine → Engine) : (s.modEng e f).fetchTurn = s.fetchTurn := rfl
@[simp] theorem modEng_flr (e : EngId) (f : Engine → Engine) : (s.modEng e f).flr = s.flr := rfl
@[simp] theorem modEng_ports (e : EngId) (f : Engine → Engine) : (s.modEng e f).ports = s.ports := rfl
@[simp] theorem modEng_chart (e : EngId) (f : Engine → Engine) : (s.modEng e f).chart = s.chart := rfl
@[simp] theorem modEng_col (e : EngId) (f : Engine → Engine) : (s.modEng e f).col = s.col := rfl
@[simp] theorem modEng_devWire (e : EngId) (f : Engine → Engine) : (s.modEng e f).devWire = s.devWire := rfl
@[simp] theorem modEng_mseq (e : EngId) (f : Engine → Engine) : (s.modEng e f).mseq = s.mseq := rfl
@[simp] theorem modEng_rst (e : EngId) (f : Engine → Engine) : (s.modEng e f).rst = s.rst := rfl
@[simp] theorem modEng_dump (e : EngId) (f : Engine → Engine) : (s.modEng e f).dump = s.dump := rfl
@[simp] theorem modEng_ecb (e : EngId) (f : Engine → Engine) : (s.modEng e f).ecb = s.ecb := rfl
@[simp] theorem modEng_cnt (e : EngId) (f : Engine → Engine) : (s.modEng e f).cnt = s.cnt := rfl
@[simp] theorem modEng_pwr (e : EngId) (f : Engine → Engine) : (s.modEng e f).pwr = s.pwr := rfl
@[simp] theorem modEng_pkg (e : EngId) (f : Engine → Engine) : (s.modEng e f).pkg = s.pkg := rfl

/-! ### modPmem -/

@[simp] theorem modPmem_pending (e : EngId) (f : ParcelMem → ParcelMem) : (s.modPmem e f).pending = s.pending := rfl
@[simp] theorem modPmem_free (e : EngId) (f : ParcelMem → ParcelMem) : (s.modPmem e f).free = s.free := rfl
@[simp] theorem modPmem_out (e : EngId) (f : ParcelMem → ParcelMem) : (s.modPmem e f).out = s.out := rfl
@[simp] theorem modPmem_qtmo (e : EngId) (f : ParcelMem → ParcelMem) : (s.modPmem e f).qtmo = s.qtmo := rfl
@[simp] theorem modPmem_dstate (e : EngId) (f : ParcelMem → ParcelMem) : (s.modPmem e f).dstate = s.dstate := rfl
@[simp] theorem modPmem_w4base (e : EngId) (f : ParcelMem → ParcelMem) : (s.modPmem e f).w4base = s.w4base := rfl
@[simp] theorem modPmem_queues (e : EngId) (f : ParcelMem → ParcelMem) : (s.modPmem e f).queues = s.queues := rfl
@[simp] theorem modPmem_parts (e : EngId) (f : ParcelMem → ParcelMem) : (s.modPmem e f).parts = s.parts := rfl
@[simp] theorem modPmem_ctxs (e : EngId) (f : ParcelMem → ParcelMem) : (s.modPmem e f).ctxs = s.ctxs := rfl
@[simp] theorem modPmem_bellStamp (e : EngId) (f : ParcelMem → ParcelMem) : (s.modPmem e f).bellStamp = s.bellStamp := rfl
@[simp] theorem modPmem_bellAt (e : EngId) (f : ParcelMem → ParcelMem) : (s.modPmem e f).bellAt = s.bellAt := rfl
@[simp] theorem modPmem_fetchTurn (e : EngId) (f : ParcelMem → ParcelMem) : (s.modPmem e f).fetchTurn = s.fetchTurn := rfl
@[simp] theorem modPmem_flr (e : EngId) (f : ParcelMem → ParcelMem) : (s.modPmem e f).flr = s.flr := rfl
@[simp] theorem modPmem_ports (e : EngId) (f : ParcelMem → ParcelMem) : (s.modPmem e f).ports = s.ports := rfl
@[simp] theorem modPmem_chart (e : EngId) (f : ParcelMem → ParcelMem) : (s.modPmem e f).chart = s.chart := rfl
@[simp] theorem modPmem_col (e : EngId) (f : ParcelMem → ParcelMem) : (s.modPmem e f).col = s.col := rfl
@[simp] theorem modPmem_devWire (e : EngId) (f : ParcelMem → ParcelMem) : (s.modPmem e f).devWire = s.devWire := rfl
@[simp] theorem modPmem_mseq (e : EngId) (f : ParcelMem → ParcelMem) : (s.modPmem e f).mseq = s.mseq := rfl
@[simp] theorem modPmem_rst (e : EngId) (f : ParcelMem → ParcelMem) : (s.modPmem e f).rst = s.rst := rfl
@[simp] theorem modPmem_dump (e : EngId) (f : ParcelMem → ParcelMem) : (s.modPmem e f).dump = s.dump := rfl
@[simp] theorem modPmem_ecb (e : EngId) (f : ParcelMem → ParcelMem) : (s.modPmem e f).ecb = s.ecb := rfl
@[simp] theorem modPmem_cnt (e : EngId) (f : ParcelMem → ParcelMem) : (s.modPmem e f).cnt = s.cnt := rfl
@[simp] theorem modPmem_pwr (e : EngId) (f : ParcelMem → ParcelMem) : (s.modPmem e f).pwr = s.pwr := rfl
@[simp] theorem modPmem_pkg (e : EngId) (f : ParcelMem → ParcelMem) : (s.modPmem e f).pkg = s.pkg := rfl

/-! ### modCore -/

@[simp] theorem modCore_pending (c : CoreId) (f : Scribe → Scribe) : (s.modCore c f).pending = s.pending := rfl
@[simp] theorem modCore_free (c : CoreId) (f : Scribe → Scribe) : (s.modCore c f).free = s.free := rfl
@[simp] theorem modCore_out (c : CoreId) (f : Scribe → Scribe) : (s.modCore c f).out = s.out := rfl
@[simp] theorem modCore_qtmo (c : CoreId) (f : Scribe → Scribe) : (s.modCore c f).qtmo = s.qtmo := rfl
@[simp] theorem modCore_dstate (c : CoreId) (f : Scribe → Scribe) : (s.modCore c f).dstate = s.dstate := rfl
@[simp] theorem modCore_w4base (c : CoreId) (f : Scribe → Scribe) : (s.modCore c f).w4base = s.w4base := rfl
@[simp] theorem modCore_queues (c : CoreId) (f : Scribe → Scribe) : (s.modCore c f).queues = s.queues := rfl
@[simp] theorem modCore_parts (c : CoreId) (f : Scribe → Scribe) : (s.modCore c f).parts = s.parts := rfl
@[simp] theorem modCore_ctxs (c : CoreId) (f : Scribe → Scribe) : (s.modCore c f).ctxs = s.ctxs := rfl
@[simp] theorem modCore_bellStamp (c : CoreId) (f : Scribe → Scribe) : (s.modCore c f).bellStamp = s.bellStamp := rfl
@[simp] theorem modCore_bellAt (c : CoreId) (f : Scribe → Scribe) : (s.modCore c f).bellAt = s.bellAt := rfl
@[simp] theorem modCore_fetchTurn (c : CoreId) (f : Scribe → Scribe) : (s.modCore c f).fetchTurn = s.fetchTurn := rfl
@[simp] theorem modCore_flr (c : CoreId) (f : Scribe → Scribe) : (s.modCore c f).flr = s.flr := rfl
@[simp] theorem modCore_ports (c : CoreId) (f : Scribe → Scribe) : (s.modCore c f).ports = s.ports := rfl
@[simp] theorem modCore_chart (c : CoreId) (f : Scribe → Scribe) : (s.modCore c f).chart = s.chart := rfl
@[simp] theorem modCore_col (c : CoreId) (f : Scribe → Scribe) : (s.modCore c f).col = s.col := rfl
@[simp] theorem modCore_devWire (c : CoreId) (f : Scribe → Scribe) : (s.modCore c f).devWire = s.devWire := rfl
@[simp] theorem modCore_mseq (c : CoreId) (f : Scribe → Scribe) : (s.modCore c f).mseq = s.mseq := rfl
@[simp] theorem modCore_rst (c : CoreId) (f : Scribe → Scribe) : (s.modCore c f).rst = s.rst := rfl
@[simp] theorem modCore_dump (c : CoreId) (f : Scribe → Scribe) : (s.modCore c f).dump = s.dump := rfl
@[simp] theorem modCore_ecb (c : CoreId) (f : Scribe → Scribe) : (s.modCore c f).ecb = s.ecb := rfl
@[simp] theorem modCore_cnt (c : CoreId) (f : Scribe → Scribe) : (s.modCore c f).cnt = s.cnt := rfl
@[simp] theorem modCore_pwr (c : CoreId) (f : Scribe → Scribe) : (s.modCore c f).pwr = s.pwr := rfl
@[simp] theorem modCore_pkg (c : CoreId) (f : Scribe → Scribe) : (s.modCore c f).pkg = s.pkg := rfl

/-! ### modMem -/

@[simp] theorem modMem_pending (i : Nat) (f : MemPath → MemPath) : (s.modMem i f).pending = s.pending := rfl
@[simp] theorem modMem_free (i : Nat) (f : MemPath → MemPath) : (s.modMem i f).free = s.free := rfl
@[simp] theorem modMem_out (i : Nat) (f : MemPath → MemPath) : (s.modMem i f).out = s.out := rfl
@[simp] theorem modMem_qtmo (i : Nat) (f : MemPath → MemPath) : (s.modMem i f).qtmo = s.qtmo := rfl
@[simp] theorem modMem_dstate (i : Nat) (f : MemPath → MemPath) : (s.modMem i f).dstate = s.dstate := rfl
@[simp] theorem modMem_w4base (i : Nat) (f : MemPath → MemPath) : (s.modMem i f).w4base = s.w4base := rfl
@[simp] theorem modMem_queues (i : Nat) (f : MemPath → MemPath) : (s.modMem i f).queues = s.queues := rfl
@[simp] theorem modMem_parts (i : Nat) (f : MemPath → MemPath) : (s.modMem i f).parts = s.parts := rfl
@[simp] theorem modMem_ctxs (i : Nat) (f : MemPath → MemPath) : (s.modMem i f).ctxs = s.ctxs := rfl
@[simp] theorem modMem_bellStamp (i : Nat) (f : MemPath → MemPath) : (s.modMem i f).bellStamp = s.bellStamp := rfl
@[simp] theorem modMem_bellAt (i : Nat) (f : MemPath → MemPath) : (s.modMem i f).bellAt = s.bellAt := rfl
@[simp] theorem modMem_fetchTurn (i : Nat) (f : MemPath → MemPath) : (s.modMem i f).fetchTurn = s.fetchTurn := rfl
@[simp] theorem modMem_flr (i : Nat) (f : MemPath → MemPath) : (s.modMem i f).flr = s.flr := rfl
@[simp] theorem modMem_ports (i : Nat) (f : MemPath → MemPath) : (s.modMem i f).ports = s.ports := rfl
@[simp] theorem modMem_chart (i : Nat) (f : MemPath → MemPath) : (s.modMem i f).chart = s.chart := rfl
@[simp] theorem modMem_col (i : Nat) (f : MemPath → MemPath) : (s.modMem i f).col = s.col := rfl
@[simp] theorem modMem_devWire (i : Nat) (f : MemPath → MemPath) : (s.modMem i f).devWire = s.devWire := rfl
@[simp] theorem modMem_mseq (i : Nat) (f : MemPath → MemPath) : (s.modMem i f).mseq = s.mseq := rfl
@[simp] theorem modMem_rst (i : Nat) (f : MemPath → MemPath) : (s.modMem i f).rst = s.rst := rfl
@[simp] theorem modMem_dump (i : Nat) (f : MemPath → MemPath) : (s.modMem i f).dump = s.dump := rfl
@[simp] theorem modMem_ecb (i : Nat) (f : MemPath → MemPath) : (s.modMem i f).ecb = s.ecb := rfl
@[simp] theorem modMem_cnt (i : Nat) (f : MemPath → MemPath) : (s.modMem i f).cnt = s.cnt := rfl
@[simp] theorem modMem_pwr (i : Nat) (f : MemPath → MemPath) : (s.modMem i f).pwr = s.pwr := rfl
@[simp] theorem modMem_pkg (i : Nat) (f : MemPath → MemPath) : (s.modMem i f).pkg = s.pkg := rfl

/-! ### modQueue -/

@[simp] theorem modQueue_pending (q : Nat) (f : Queue → Queue) : (s.modQueue q f).pending = s.pending := rfl
@[simp] theorem modQueue_free (q : Nat) (f : Queue → Queue) : (s.modQueue q f).free = s.free := rfl
@[simp] theorem modQueue_out (q : Nat) (f : Queue → Queue) : (s.modQueue q f).out = s.out := rfl
@[simp] theorem modQueue_sheets (q : Nat) (f : Queue → Queue) : (s.modQueue q f).sheets = s.sheets := rfl
@[simp] theorem modQueue_qtmo (q : Nat) (f : Queue → Queue) : (s.modQueue q f).qtmo = s.qtmo := rfl
@[simp] theorem modQueue_dstate (q : Nat) (f : Queue → Queue) : (s.modQueue q f).dstate = s.dstate := rfl
@[simp] theorem modQueue_w4base (q : Nat) (f : Queue → Queue) : (s.modQueue q f).w4base = s.w4base := rfl
@[simp] theorem modQueue_parts (q : Nat) (f : Queue → Queue) : (s.modQueue q f).parts = s.parts := rfl
@[simp] theorem modQueue_ctxs (q : Nat) (f : Queue → Queue) : (s.modQueue q f).ctxs = s.ctxs := rfl
@[simp] theorem modQueue_bellStamp (q : Nat) (f : Queue → Queue) : (s.modQueue q f).bellStamp = s.bellStamp := rfl
@[simp] theorem modQueue_bellAt (q : Nat) (f : Queue → Queue) : (s.modQueue q f).bellAt = s.bellAt := rfl
@[simp] theorem modQueue_fetchTurn (q : Nat) (f : Queue → Queue) : (s.modQueue q f).fetchTurn = s.fetchTurn := rfl
@[simp] theorem modQueue_flr (q : Nat) (f : Queue → Queue) : (s.modQueue q f).flr = s.flr := rfl
@[simp] theorem modQueue_ports (q : Nat) (f : Queue → Queue) : (s.modQueue q f).ports = s.ports := rfl
@[simp] theorem modQueue_chart (q : Nat) (f : Queue → Queue) : (s.modQueue q f).chart = s.chart := rfl
@[simp] theorem modQueue_col (q : Nat) (f : Queue → Queue) : (s.modQueue q f).col = s.col := rfl
@[simp] theorem modQueue_devWire (q : Nat) (f : Queue → Queue) : (s.modQueue q f).devWire = s.devWire := rfl
@[simp] theorem modQueue_mseq (q : Nat) (f : Queue → Queue) : (s.modQueue q f).mseq = s.mseq := rfl
@[simp] theorem modQueue_rst (q : Nat) (f : Queue → Queue) : (s.modQueue q f).rst = s.rst := rfl
@[simp] theorem modQueue_dump (q : Nat) (f : Queue → Queue) : (s.modQueue q f).dump = s.dump := rfl
@[simp] theorem modQueue_ecb (q : Nat) (f : Queue → Queue) : (s.modQueue q f).ecb = s.ecb := rfl
@[simp] theorem modQueue_cnt (q : Nat) (f : Queue → Queue) : (s.modQueue q f).cnt = s.cnt := rfl
@[simp] theorem modQueue_pwr (q : Nat) (f : Queue → Queue) : (s.modQueue q f).pwr = s.pwr := rfl
@[simp] theorem modQueue_pkg (q : Nat) (f : Queue → Queue) : (s.modQueue q f).pkg = s.pkg := rfl

/-! ### modPart -/

@[simp] theorem modPart_pending (p : Nat) (f : Part → Part) : (s.modPart p f).pending = s.pending := rfl
@[simp] theorem modPart_free (p : Nat) (f : Part → Part) : (s.modPart p f).free = s.free := rfl
@[simp] theorem modPart_out (p : Nat) (f : Part → Part) : (s.modPart p f).out = s.out := rfl
@[simp] theorem modPart_sheets (p : Nat) (f : Part → Part) : (s.modPart p f).sheets = s.sheets := rfl
@[simp] theorem modPart_qtmo (p : Nat) (f : Part → Part) : (s.modPart p f).qtmo = s.qtmo := rfl
@[simp] theorem modPart_dstate (p : Nat) (f : Part → Part) : (s.modPart p f).dstate = s.dstate := rfl
@[simp] theorem modPart_w4base (p : Nat) (f : Part → Part) : (s.modPart p f).w4base = s.w4base := rfl
@[simp] theorem modPart_queues (p : Nat) (f : Part → Part) : (s.modPart p f).queues = s.queues := rfl
@[simp] theorem modPart_ctxs (p : Nat) (f : Part → Part) : (s.modPart p f).ctxs = s.ctxs := rfl
@[simp] theorem modPart_bellStamp (p : Nat) (f : Part → Part) : (s.modPart p f).bellStamp = s.bellStamp := rfl
@[simp] theorem modPart_bellAt (p : Nat) (f : Part → Part) : (s.modPart p f).bellAt = s.bellAt := rfl
@[simp] theorem modPart_fetchTurn (p : Nat) (f : Part → Part) : (s.modPart p f).fetchTurn = s.fetchTurn := rfl
@[simp] theorem modPart_flr (p : Nat) (f : Part → Part) : (s.modPart p f).flr = s.flr := rfl
@[simp] theorem modPart_ports (p : Nat) (f : Part → Part) : (s.modPart p f).ports = s.ports := rfl
@[simp] theorem modPart_chart (p : Nat) (f : Part → Part) : (s.modPart p f).chart = s.chart := rfl
@[simp] theorem modPart_col (p : Nat) (f : Part → Part) : (s.modPart p f).col = s.col := rfl
@[simp] theorem modPart_devWire (p : Nat) (f : Part → Part) : (s.modPart p f).devWire = s.devWire := rfl
@[simp] theorem modPart_mseq (p : Nat) (f : Part → Part) : (s.modPart p f).mseq = s.mseq := rfl
@[simp] theorem modPart_rst (p : Nat) (f : Part → Part) : (s.modPart p f).rst = s.rst := rfl
@[simp] theorem modPart_dump (p : Nat) (f : Part → Part) : (s.modPart p f).dump = s.dump := rfl
@[simp] theorem modPart_ecb (p : Nat) (f : Part → Part) : (s.modPart p f).ecb = s.ecb := rfl
@[simp] theorem modPart_cnt (p : Nat) (f : Part → Part) : (s.modPart p f).cnt = s.cnt := rfl
@[simp] theorem modPart_pwr (p : Nat) (f : Part → Part) : (s.modPart p f).pwr = s.pwr := rfl
@[simp] theorem modPart_pkg (p : Nat) (f : Part → Part) : (s.modPart p f).pkg = s.pkg := rfl

/-! ### modCtx -/

@[simp] theorem modCtx_pending (c : Nat) (f : Ctx → Ctx) : (s.modCtx c f).pending = s.pending := rfl
@[simp] theorem modCtx_free (c : Nat) (f : Ctx → Ctx) : (s.modCtx c f).free = s.free := rfl
@[simp] theorem modCtx_out (c : Nat) (f : Ctx → Ctx) : (s.modCtx c f).out = s.out := rfl
@[simp] theorem modCtx_sheets (c : Nat) (f : Ctx → Ctx) : (s.modCtx c f).sheets = s.sheets := rfl
@[simp] theorem modCtx_qtmo (c : Nat) (f : Ctx → Ctx) : (s.modCtx c f).qtmo = s.qtmo := rfl
@[simp] theorem modCtx_dstate (c : Nat) (f : Ctx → Ctx) : (s.modCtx c f).dstate = s.dstate := rfl
@[simp] theorem modCtx_w4base (c : Nat) (f : Ctx → Ctx) : (s.modCtx c f).w4base = s.w4base := rfl
@[simp] theorem modCtx_queues (c : Nat) (f : Ctx → Ctx) : (s.modCtx c f).queues = s.queues := rfl
@[simp] theorem modCtx_parts (c : Nat) (f : Ctx → Ctx) : (s.modCtx c f).parts = s.parts := rfl
@[simp] theorem modCtx_bellStamp (c : Nat) (f : Ctx → Ctx) : (s.modCtx c f).bellStamp = s.bellStamp := rfl
@[simp] theorem modCtx_bellAt (c : Nat) (f : Ctx → Ctx) : (s.modCtx c f).bellAt = s.bellAt := rfl
@[simp] theorem modCtx_fetchTurn (c : Nat) (f : Ctx → Ctx) : (s.modCtx c f).fetchTurn = s.fetchTurn := rfl
@[simp] theorem modCtx_flr (c : Nat) (f : Ctx → Ctx) : (s.modCtx c f).flr = s.flr := rfl
@[simp] theorem modCtx_ports (c : Nat) (f : Ctx → Ctx) : (s.modCtx c f).ports = s.ports := rfl
@[simp] theorem modCtx_chart (c : Nat) (f : Ctx → Ctx) : (s.modCtx c f).chart = s.chart := rfl
@[simp] theorem modCtx_col (c : Nat) (f : Ctx → Ctx) : (s.modCtx c f).col = s.col := rfl
@[simp] theorem modCtx_devWire (c : Nat) (f : Ctx → Ctx) : (s.modCtx c f).devWire = s.devWire := rfl
@[simp] theorem modCtx_mseq (c : Nat) (f : Ctx → Ctx) : (s.modCtx c f).mseq = s.mseq := rfl
@[simp] theorem modCtx_rst (c : Nat) (f : Ctx → Ctx) : (s.modCtx c f).rst = s.rst := rfl
@[simp] theorem modCtx_dump (c : Nat) (f : Ctx → Ctx) : (s.modCtx c f).dump = s.dump := rfl
@[simp] theorem modCtx_ecb (c : Nat) (f : Ctx → Ctx) : (s.modCtx c f).ecb = s.ecb := rfl
@[simp] theorem modCtx_cnt (c : Nat) (f : Ctx → Ctx) : (s.modCtx c f).cnt = s.cnt := rfl
@[simp] theorem modCtx_pwr (c : Nat) (f : Ctx → Ctx) : (s.modCtx c f).pwr = s.pwr := rfl
@[simp] theorem modCtx_pkg (c : Nat) (f : Ctx → Ctx) : (s.modCtx c f).pkg = s.pkg := rfl

/-! ### modPort -/

@[simp] theorem modPort_pending (p : Nat) (f : Port → Port) : (s.modPort p f).pending = s.pending := rfl
@[simp] theorem modPort_free (p : Nat) (f : Port → Port) : (s.modPort p f).free = s.free := rfl
@[simp] theorem modPort_out (p : Nat) (f : Port → Port) : (s.modPort p f).out = s.out := rfl
@[simp] theorem modPort_sheets (p : Nat) (f : Port → Port) : (s.modPort p f).sheets = s.sheets := rfl
@[simp] theorem modPort_qtmo (p : Nat) (f : Port → Port) : (s.modPort p f).qtmo = s.qtmo := rfl
@[simp] theorem modPort_dstate (p : Nat) (f : Port → Port) : (s.modPort p f).dstate = s.dstate := rfl
@[simp] theorem modPort_w4base (p : Nat) (f : Port → Port) : (s.modPort p f).w4base = s.w4base := rfl
@[simp] theorem modPort_queues (p : Nat) (f : Port → Port) : (s.modPort p f).queues = s.queues := rfl
@[simp] theorem modPort_parts (p : Nat) (f : Port → Port) : (s.modPort p f).parts = s.parts := rfl
@[simp] theorem modPort_ctxs (p : Nat) (f : Port → Port) : (s.modPort p f).ctxs = s.ctxs := rfl
@[simp] theorem modPort_bellStamp (p : Nat) (f : Port → Port) : (s.modPort p f).bellStamp = s.bellStamp := rfl
@[simp] theorem modPort_bellAt (p : Nat) (f : Port → Port) : (s.modPort p f).bellAt = s.bellAt := rfl
@[simp] theorem modPort_fetchTurn (p : Nat) (f : Port → Port) : (s.modPort p f).fetchTurn = s.fetchTurn := rfl
@[simp] theorem modPort_flr (p : Nat) (f : Port → Port) : (s.modPort p f).flr = s.flr := rfl
@[simp] theorem modPort_chart (p : Nat) (f : Port → Port) : (s.modPort p f).chart = s.chart := rfl
@[simp] theorem modPort_col (p : Nat) (f : Port → Port) : (s.modPort p f).col = s.col := rfl
@[simp] theorem modPort_devWire (p : Nat) (f : Port → Port) : (s.modPort p f).devWire = s.devWire := rfl
@[simp] theorem modPort_mseq (p : Nat) (f : Port → Port) : (s.modPort p f).mseq = s.mseq := rfl
@[simp] theorem modPort_rst (p : Nat) (f : Port → Port) : (s.modPort p f).rst = s.rst := rfl
@[simp] theorem modPort_dump (p : Nat) (f : Port → Port) : (s.modPort p f).dump = s.dump := rfl
@[simp] theorem modPort_ecb (p : Nat) (f : Port → Port) : (s.modPort p f).ecb = s.ecb := rfl
@[simp] theorem modPort_cnt (p : Nat) (f : Port → Port) : (s.modPort p f).cnt = s.cnt := rfl
@[simp] theorem modPort_pwr (p : Nat) (f : Port → Port) : (s.modPort p f).pwr = s.pwr := rfl
@[simp] theorem modPort_pkg (p : Nat) (f : Port → Port) : (s.modPort p f).pkg = s.pkg := rfl

/-! ### modEpoch -/

@[simp] theorem modEpoch_pending (c : Nat) (f : Epoch → Epoch) : (s.modEpoch c f).pending = s.pending := rfl
@[simp] theorem modEpoch_free (c : Nat) (f : Epoch → Epoch) : (s.modEpoch c f).free = s.free := rfl
@[simp] theorem modEpoch_out (c : Nat) (f : Epoch → Epoch) : (s.modEpoch c f).out = s.out := rfl
@[simp] theorem modEpoch_sheets (c : Nat) (f : Epoch → Epoch) : (s.modEpoch c f).sheets = s.sheets := rfl
@[simp] theorem modEpoch_qtmo (c : Nat) (f : Epoch → Epoch) : (s.modEpoch c f).qtmo = s.qtmo := rfl
@[simp] theorem modEpoch_dstate (c : Nat) (f : Epoch → Epoch) : (s.modEpoch c f).dstate = s.dstate := rfl
@[simp] theorem modEpoch_w4base (c : Nat) (f : Epoch → Epoch) : (s.modEpoch c f).w4base = s.w4base := rfl
@[simp] theorem modEpoch_queues (c : Nat) (f : Epoch → Epoch) : (s.modEpoch c f).queues = s.queues := rfl
@[simp] theorem modEpoch_parts (c : Nat) (f : Epoch → Epoch) : (s.modEpoch c f).parts = s.parts := rfl
@[simp] theorem modEpoch_ctxs (c : Nat) (f : Epoch → Epoch) : (s.modEpoch c f).ctxs = s.ctxs := rfl
@[simp] theorem modEpoch_bellStamp (c : Nat) (f : Epoch → Epoch) : (s.modEpoch c f).bellStamp = s.bellStamp := rfl
@[simp] theorem modEpoch_bellAt (c : Nat) (f : Epoch → Epoch) : (s.modEpoch c f).bellAt = s.bellAt := rfl
@[simp] theorem modEpoch_fetchTurn (c : Nat) (f : Epoch → Epoch) : (s.modEpoch c f).fetchTurn = s.fetchTurn := rfl
@[simp] theorem modEpoch_flr (c : Nat) (f : Epoch → Epoch) : (s.modEpoch c f).flr = s.flr := rfl
@[simp] theorem modEpoch_ports (c : Nat) (f : Epoch → Epoch) : (s.modEpoch c f).ports = s.ports := rfl
@[simp] theorem modEpoch_col (c : Nat) (f : Epoch → Epoch) : (s.modEpoch c f).col = s.col := rfl
@[simp] theorem modEpoch_devWire (c : Nat) (f : Epoch → Epoch) : (s.modEpoch c f).devWire = s.devWire := rfl
@[simp] theorem modEpoch_mseq (c : Nat) (f : Epoch → Epoch) : (s.modEpoch c f).mseq = s.mseq := rfl
@[simp] theorem modEpoch_rst (c : Nat) (f : Epoch → Epoch) : (s.modEpoch c f).rst = s.rst := rfl
@[simp] theorem modEpoch_dump (c : Nat) (f : Epoch → Epoch) : (s.modEpoch c f).dump = s.dump := rfl
@[simp] theorem modEpoch_ecb (c : Nat) (f : Epoch → Epoch) : (s.modEpoch c f).ecb = s.ecb := rfl
@[simp] theorem modEpoch_cnt (c : Nat) (f : Epoch → Epoch) : (s.modEpoch c f).cnt = s.cnt := rfl
@[simp] theorem modEpoch_pwr (c : Nat) (f : Epoch → Epoch) : (s.modEpoch c f).pwr = s.pwr := rfl
@[simp] theorem modEpoch_pkg (c : Nat) (f : Epoch → Epoch) : (s.modEpoch c f).pkg = s.pkg := rfl

/-! ### modWindow -/

@[simp] theorem modWindow_pending (i : Nat) (f : Window → Window) : (s.modWindow i f).pending = s.pending := rfl
@[simp] theorem modWindow_free (i : Nat) (f : Window → Window) : (s.modWindow i f).free = s.free := rfl
@[simp] theorem modWindow_out (i : Nat) (f : Window → Window) : (s.modWindow i f).out = s.out := rfl
@[simp] theorem modWindow_sheets (i : Nat) (f : Window → Window) : (s.modWindow i f).sheets = s.sheets := rfl
@[simp] theorem modWindow_qtmo (i : Nat) (f : Window → Window) : (s.modWindow i f).qtmo = s.qtmo := rfl
@[simp] theorem modWindow_dstate (i : Nat) (f : Window → Window) : (s.modWindow i f).dstate = s.dstate := rfl
@[simp] theorem modWindow_w4base (i : Nat) (f : Window → Window) : (s.modWindow i f).w4base = s.w4base := rfl
@[simp] theorem modWindow_queues (i : Nat) (f : Window → Window) : (s.modWindow i f).queues = s.queues := rfl
@[simp] theorem modWindow_parts (i : Nat) (f : Window → Window) : (s.modWindow i f).parts = s.parts := rfl
@[simp] theorem modWindow_ctxs (i : Nat) (f : Window → Window) : (s.modWindow i f).ctxs = s.ctxs := rfl
@[simp] theorem modWindow_bellStamp (i : Nat) (f : Window → Window) : (s.modWindow i f).bellStamp = s.bellStamp := rfl
@[simp] theorem modWindow_bellAt (i : Nat) (f : Window → Window) : (s.modWindow i f).bellAt = s.bellAt := rfl
@[simp] theorem modWindow_fetchTurn (i : Nat) (f : Window → Window) : (s.modWindow i f).fetchTurn = s.fetchTurn := rfl
@[simp] theorem modWindow_flr (i : Nat) (f : Window → Window) : (s.modWindow i f).flr = s.flr := rfl
@[simp] theorem modWindow_ports (i : Nat) (f : Window → Window) : (s.modWindow i f).ports = s.ports := rfl
@[simp] theorem modWindow_chart (i : Nat) (f : Window → Window) : (s.modWindow i f).chart = s.chart := rfl
@[simp] theorem modWindow_devWire (i : Nat) (f : Window → Window) : (s.modWindow i f).devWire = s.devWire := rfl
@[simp] theorem modWindow_mseq (i : Nat) (f : Window → Window) : (s.modWindow i f).mseq = s.mseq := rfl
@[simp] theorem modWindow_rst (i : Nat) (f : Window → Window) : (s.modWindow i f).rst = s.rst := rfl
@[simp] theorem modWindow_dump (i : Nat) (f : Window → Window) : (s.modWindow i f).dump = s.dump := rfl
@[simp] theorem modWindow_ecb (i : Nat) (f : Window → Window) : (s.modWindow i f).ecb = s.ecb := rfl
@[simp] theorem modWindow_cnt (i : Nat) (f : Window → Window) : (s.modWindow i f).cnt = s.cnt := rfl
@[simp] theorem modWindow_pwr (i : Nat) (f : Window → Window) : (s.modWindow i f).pwr = s.pwr := rfl
@[simp] theorem modWindow_pkg (i : Nat) (f : Window → Window) : (s.modWindow i f).pkg = s.pkg := rfl

/-! ### emit -/

@[simp] theorem emit_pending (o : Out) : (s.emit o).pending = s.pending := rfl
@[simp] theorem emit_free (o : Out) : (s.emit o).free = s.free := rfl
@[simp] theorem emit_sheets (o : Out) : (s.emit o).sheets = s.sheets := rfl
@[simp] theorem emit_qtmo (o : Out) : (s.emit o).qtmo = s.qtmo := rfl
@[simp] theorem emit_dstate (o : Out) : (s.emit o).dstate = s.dstate := rfl
@[simp] theorem emit_w4base (o : Out) : (s.emit o).w4base = s.w4base := rfl
@[simp] theorem emit_queues (o : Out) : (s.emit o).queues = s.queues := rfl
@[simp] theorem emit_parts (o : Out) : (s.emit o).parts = s.parts := rfl
@[simp] theorem emit_ctxs (o : Out) : (s.emit o).ctxs = s.ctxs := rfl
@[simp] theorem emit_bellStamp (o : Out) : (s.emit o).bellStamp = s.bellStamp := rfl
@[simp] theorem emit_bellAt (o : Out) : (s.emit o).bellAt = s.bellAt := rfl
@[simp] theorem emit_fetchTurn (o : Out) : (s.emit o).fetchTurn = s.fetchTurn := rfl
@[simp] theorem emit_flr (o : Out) : (s.emit o).flr = s.flr := rfl
@[simp] theorem emit_ports (o : Out) : (s.emit o).ports = s.ports := rfl
@[simp] theorem emit_chart (o : Out) : (s.emit o).chart = s.chart := rfl
@[simp] theorem emit_col (o : Out) : (s.emit o).col = s.col := rfl
@[simp] theorem emit_devWire (o : Out) : (s.emit o).devWire = s.devWire := rfl
@[simp] theorem emit_mseq (o : Out) : (s.emit o).mseq = s.mseq := rfl
@[simp] theorem emit_rst (o : Out) : (s.emit o).rst = s.rst := rfl
@[simp] theorem emit_dump (o : Out) : (s.emit o).dump = s.dump := rfl
@[simp] theorem emit_ecb (o : Out) : (s.emit o).ecb = s.ecb := rfl
@[simp] theorem emit_cnt (o : Out) : (s.emit o).cnt = s.cnt := rfl
@[simp] theorem emit_pwr (o : Out) : (s.emit o).pwr = s.pwr := rfl
@[simp] theorem emit_pkg (o : Out) : (s.emit o).pkg = s.pkg := rfl

/-! ### satGroup -/

@[simp] theorem satGroup_pending (b : Nat) : (s.satGroup b).pending = s.pending := rfl
@[simp] theorem satGroup_free (b : Nat) : (s.satGroup b).free = s.free := rfl
@[simp] theorem satGroup_out (b : Nat) : (s.satGroup b).out = s.out := rfl
@[simp] theorem satGroup_sheets (b : Nat) : (s.satGroup b).sheets = s.sheets := rfl
@[simp] theorem satGroup_qtmo (b : Nat) : (s.satGroup b).qtmo = s.qtmo := rfl
@[simp] theorem satGroup_dstate (b : Nat) : (s.satGroup b).dstate = s.dstate := rfl
@[simp] theorem satGroup_w4base (b : Nat) : (s.satGroup b).w4base = s.w4base := rfl
@[simp] theorem satGroup_queues (b : Nat) : (s.satGroup b).queues = s.queues := rfl
@[simp] theorem satGroup_parts (b : Nat) : (s.satGroup b).parts = s.parts := rfl
@[simp] theorem satGroup_ctxs (b : Nat) : (s.satGroup b).ctxs = s.ctxs := rfl
@[simp] theorem satGroup_bellStamp (b : Nat) : (s.satGroup b).bellStamp = s.bellStamp := rfl
@[simp] theorem satGroup_bellAt (b : Nat) : (s.satGroup b).bellAt = s.bellAt := rfl
@[simp] theorem satGroup_fetchTurn (b : Nat) : (s.satGroup b).fetchTurn = s.fetchTurn := rfl
@[simp] theorem satGroup_flr (b : Nat) : (s.satGroup b).flr = s.flr := rfl
@[simp] theorem satGroup_ports (b : Nat) : (s.satGroup b).ports = s.ports := rfl
@[simp] theorem satGroup_chart (b : Nat) : (s.satGroup b).chart = s.chart := rfl
@[simp] theorem satGroup_col (b : Nat) : (s.satGroup b).col = s.col := rfl
@[simp] theorem satGroup_devWire (b : Nat) : (s.satGroup b).devWire = s.devWire := rfl
@[simp] theorem satGroup_mseq (b : Nat) : (s.satGroup b).mseq = s.mseq := rfl
@[simp] theorem satGroup_rst (b : Nat) : (s.satGroup b).rst = s.rst := rfl
@[simp] theorem satGroup_dump (b : Nat) : (s.satGroup b).dump = s.dump := rfl
@[simp] theorem satGroup_ecb (b : Nat) : (s.satGroup b).ecb = s.ecb := rfl
@[simp] theorem satGroup_pwr (b : Nat) : (s.satGroup b).pwr = s.pwr := rfl
@[simp] theorem satGroup_pkg (b : Nat) : (s.satGroup b).pkg = s.pkg := rfl

/-! ### Reading a unit after an update -/

theorem sheet_setSheet (i j : Nat) (v : Sheet) : (s.setSheet i v).sheet j = if j = i then v else s.sheet j :=
  tget_tset _ _ _ _ _
@[simp] theorem sheet_setSheet_same (i : Nat) (v : Sheet) : (s.setSheet i v).sheet i = v := tget_tset_same _ _ _ _
theorem sheet_modSheet (i j : Nat) (f : Sheet → Sheet) :
    (s.modSheet i f).sheet j = if j = i then f (s.sheet i) else s.sheet j := tget_tset _ _ _ _ _
@[simp] theorem sheet_modSheet_same (i : Nat) (f : Sheet → Sheet) : (s.modSheet i f).sheet i = f (s.sheet i) :=
  tget_tset_same _ _ _ _
theorem sheet_modSheet_ne {i j : Nat} (f : Sheet → Sheet) (h : j ≠ i) : (s.modSheet i f).sheet j = s.sheet j :=
  tget_tset_ne _ _ _ h
theorem engine_modEngine (h : Sheet) (l m : Nat) (f : Engine → Engine) :
    (h.modEngine l f).engine m = if m = l then f (h.engine l) else h.engine m := tget_tmod _ _ _ _ _
theorem EngId.ext' {a b : EngId} (h : a.sheet.val = b.sheet.val) (h2 : a.parcel.val = b.parcel.val) : a = b := by
  obtain ⟨x, y⟩ := a; obtain ⟨z, w⟩ := b; simp only [EngId.mk.injEq]; exact ⟨Fin.ext h, Fin.ext h2⟩
/-- An engine after an update of an engine. -/
theorem eng_modEng (e g : EngId) (f : Engine → Engine) :
    (s.modEng e f).eng g = if g = e then f (s.eng e) else s.eng g := by
  unfold State.modEng State.eng
  rw [sheet_modSheet]
  by_cases h : g.sheet.val = e.sheet.val
  · rw [if_pos h, engine_modEngine]
    by_cases h2 : g.parcel.val = e.parcel.val
    · rw [if_pos h2, if_pos (EngId.ext' h h2)]
    · rw [if_neg h2, if_neg (fun x => h2 (by rw [x])), h]
  · rw [if_neg h, if_neg (fun x => h (by rw [x]))]
@[simp] theorem eng_modEng_same (e : EngId) (f : Engine → Engine) : (s.modEng e f).eng e = f (s.eng e) := by simp [eng_modEng]
theorem eng_modEng_ne {e g : EngId} (f : Engine → Engine) (h : g ≠ e) : (s.modEng e f).eng g = s.eng g := by
  simp [eng_modEng, h]
@[simp] theorem queue_modQueue_same (q : Nat) (f : Queue → Queue) : (s.modQueue q f).queue q = f (s.queue q) :=
  tget_tset_same _ _ _ _
theorem queue_modQueue (q r : Nat) (f : Queue → Queue) :
    (s.modQueue q f).queue r = if r = q then f (s.queue q) else s.queue r := tget_tset _ _ _ _ _
@[simp] theorem part_modPart_same (p : Nat) (f : Part → Part) : (s.modPart p f).part p = f (s.part p) :=
  tget_tset_same _ _ _ _
theorem part_modPart (p r : Nat) (f : Part → Part) :
    (s.modPart p f).part r = if r = p then f (s.part p) else s.part r := tget_tset _ _ _ _ _
@[simp] theorem ctx_modCtx_same (c : Nat) (f : Ctx → Ctx) : (s.modCtx c f).ctx c = f (s.ctx c) := tget_tset_same _ _ _ _
theorem ctx_modCtx (c r : Nat) (f : Ctx → Ctx) :
    (s.modCtx c f).ctx r = if r = c then f (s.ctx c) else s.ctx r := tget_tset _ _ _ _ _
@[simp] theorem port_modPort_same (p : Nat) (f : Port → Port) : (s.modPort p f).port p = f (s.port p) :=
  tget_tset_same _ _ _ _
theorem port_modPort (p r : Nat) (f : Port → Port) :
    (s.modPort p f).port r = if r = p then f (s.port p) else s.port r := tget_tset _ _ _ _ _
@[simp] theorem epoch_modEpoch_same (c : Nat) (f : Epoch → Epoch) : (s.modEpoch c f).epoch c = f (s.epoch c) :=
  tget_tset_same _ _ _ _
theorem epoch_modEpoch (c r : Nat) (f : Epoch → Epoch) :
    (s.modEpoch c f).epoch r = if r = c then f (s.epoch c) else s.epoch r := tget_tset _ _ _ _ _
@[simp] theorem window_modWindow_same (i : Nat) (f : Window → Window) : (s.modWindow i f).window i = f (s.window i) :=
  tget_tset_same _ _ _ _
theorem window_modWindow (i r : Nat) (f : Window → Window) :
    (s.modWindow i f).window r = if r = i then f (s.window i) else s.window r := tget_tset _ _ _ _ _
theorem td_modTd (g : Engine) (i j : Nat) (f : TileDesc → TileDesc) :
    (g.modTd i f).td j = if j = i then f (g.td i) else g.td j := tget_tmod _ _ _ _ _

end Sys2Proof.Machine
end

