-- ==== Sys2Proof/Laws/Ops.lean ====
section
/-! SUPPORT. Everything the shared operations can change: counting an event (`Counts`) and reporting a fault (`Reports`). -/

namespace Sys2Proof.Machine

/-! ### Counting -/

/-- `t` is `s` after counting: only the output, the pending interrupts and the banks of counters moved. -/
structure Counts (s t : State) : Prop where
  whole : ∃ o mp sh b pb, t = { s with
    out := s.out ++ o, msixPend := mp, sheets := sh, cnt := { s.cnt with bank := b, portBanks := pb } }
  sheet : ∀ i, ∃ b pb, t.sheet i = { s.sheet i with bank := b, parcelBanks := pb }

theorem Counts.refl (s : State) : Counts s s :=
  ⟨⟨[], s.msixPend, s.sheets, s.cnt.bank, s.cnt.portBanks, by simp⟩, fun i => ⟨(s.sheet i).bank, (s.sheet i).parcelBanks, rfl⟩⟩

theorem Counts.trans {s t u : State} (h : Counts s t) (k : Counts t u) : Counts s u := by
  obtain ⟨o, mp, sh, b, pb, rfl⟩ := h.whole
  obtain ⟨o', mp', sh', b', pb', hu⟩ := k.whole
  refine ⟨⟨o ++ o', mp', sh', b', pb', by simp [hu]⟩, fun i => ?_⟩
  obtain ⟨c, pc, h1⟩ := h.sheet i
  obtain ⟨c', pc', h2⟩ := k.sheet i
  exact ⟨c', pc', by rw [h2, h1]⟩

/-- Counting leaves the engines. -/
theorem Counts.engine {s t : State} (h : Counts s t) (e : EngId) : t.eng e = s.eng e := by
  obtain ⟨b, pb, k⟩ := h.sheet e.sheet.val
  simp [State.eng, k, Sheet.engine]

/-- Counting leaves the parcel memories. -/
theorem Counts.pmem {s t : State} (h : Counts s t) (e : EngId) : t.pmem e = s.pmem e := by
  obtain ⟨b, pb, k⟩ := h.sheet e.sheet.val
  simp [State.pmem, k, Sheet.phys, Sheet.parcel]

theorem emit_counts (s : State) (o : Out) : Counts s (s.emit o) :=
  ⟨⟨[o], s.msixPend, s.sheets, s.cnt.bank, s.cnt.portBanks, rfl⟩, fun i => ⟨(s.sheet i).bank, (s.sheet i).parcelBanks, rfl⟩⟩

theorem msixOut_counts (s : State) (f : BitVec 4) (v : BitVec 12) : Counts s (s.msixOut f v) := by
  unfold State.msixOut
  split
  · exact ⟨⟨[], _, s.sheets, s.cnt.bank, s.cnt.portBanks, by simp; rfl⟩, fun i => ⟨(s.sheet i).bank, (s.sheet i).parcelBanks, rfl⟩⟩
  · exact emit_counts _ _

theorem setBank_counts (s : State) (b : BankId) (v : Bank) : Counts s (s.setBank b v) := by
  cases b with
  | parcel h p =>
    refine ⟨⟨[], s.msixPend, _, s.cnt.bank, s.cnt.portBanks, by simp [State.setBank, State.modSheet, State.setSheet]; rfl⟩, fun i => ?_⟩
    simp only [State.setBank, sheet_modSheet]
    split
    · subst_vars; exact ⟨_, _, rfl⟩
    · exact ⟨_, _, rfl⟩
  | sheet h =>
    refine ⟨⟨[], s.msixPend, _, s.cnt.bank, s.cnt.portBanks, by simp [State.setBank, State.modSheet, State.setSheet]; rfl⟩, fun i => ?_⟩
    simp only [State.setBank, sheet_modSheet]
    split
    · subst_vars; exact ⟨_, _, rfl⟩
    · exact ⟨_, _, rfl⟩
  | port p => exact ⟨⟨[], s.msixPend, s.sheets, s.cnt.bank, _, by simp [State.setBank]; rfl⟩, fun i => ⟨_, _, rfl⟩⟩
  | device => exact ⟨⟨[], s.msixPend, s.sheets, v, s.cnt.portBanks, by simp [State.setBank]⟩, fun i => ⟨_, _, rfl⟩⟩

theorem forEach_counts {α : Type} (l : List α) (f : State → α → State) (h : ∀ s a, Counts s (f s a)) :
    ∀ s : State, Counts s (s.forEach l f) := by
  induction l with
  | nil => exact Counts.refl
  | cons a l ih => exact fun s => (h s a).trans (ih (f s a))

theorem counterWrap_counts (s : State) (b : BankId) (i pc : Nat) (c : Option Nat) : Counts s (s.counterWrap b i pc c) := by
  unfold State.counterWrap
  dsimp only
  split
  · exact (setBank_counts _ _ _).trans (msixOut_counts _ _ _)
  · exact setBank_counts _ _ _

theorem counterAdd_counts (s : State) (b : BankId) (i n pc : Nat) (c : Option Nat) : Counts s (s.counterAdd b i n pc c) := by
  unfold State.counterAdd
  dsimp only
  split
  · exact setBank_counts _ _ _
  · split
    · split
      · exact setBank_counts _ _ _
      · split
        · exact (setBank_counts _ _ _).trans (setBank_counts _ _ _)
        · exact ((setBank_counts _ _ _).trans (setBank_counts _ _ _)).trans (counterWrap_counts _ _ _ _ _)
    · exact (setBank_counts _ _ _).trans (counterWrap_counts _ _ _ _ _)

/-- One bank counts an event: nothing but counters and interrupts. -/
theorem bankEvent_counts (s : State) (b : BankId) (e : CntEvent) (pc : Nat) (c : Option Nat) : Counts s (s.bankEvent b e pc c) := by
  unfold State.bankEvent
  split
  · exact Counts.refl s
  · refine forEach_counts _ _ (fun t i => ?_) s
    split
    · exact counterAdd_counts _ _ _ _ _ _
    · exact Counts.refl t

/-- Nothing counts while the counters are frozen (17 R460). -/
theorem bankEvent_frozen (s : State) (b : BankId) (e : CntEvent) (pc : Nat) (c : Option Nat) (h : s.cnt.frozen = true) :
    s.bankEvent b e pc c = s := by simp [State.bankEvent, h]

theorem parcelEvent_counts (s : State) (e : EngId) (ev : CntEvent) (c : Option Nat) : Counts s (s.parcelEvent e ev c) := by
  unfold State.parcelEvent
  dsimp only
  split
  · exact (bankEvent_counts _ _ _ _ _).trans (bankEvent_counts _ _ _ _ _)
  · exact Counts.refl s

theorem sheetEvent_counts (s : State) (i : Nat) (ev : CntEvent) : Counts s (s.sheetEvent i ev) := bankEvent_counts _ _ _ _ _
theorem linkEvent_counts (s : State) (p : Nat) (ev : CntEvent) : Counts s (s.linkEvent p ev) :=
  (bankEvent_counts _ _ _ _ _).trans (bankEvent_counts _ _ _ _ _)
theorem deviceEvent_counts (s : State) (ev : CntEvent) : Counts s (s.deviceEvent ev) := bankEvent_counts _ _ _ _ _
theorem msix_counts (s : State) (f : BitVec 4) (v : BitVec 12) : Counts s (s.msix f v) :=
  by
  unfold State.msix
  split
  · exact msixOut_counts _ _ _
  · exact (msixOut_counts _ _ _).trans (deviceEvent_counts _ _)

/-! ### Reporting -/

/-- `t` is `s` after reporting faults: beside what counting moves, messages on the wires of the collectors, the sources' sequence
numbers, the next free value, and the faults that the steps in progress noted. -/
structure Reports (s t : State) : Prop where
  whole : ∃ o mp sh mq fr dw b pb ps, t = { s with
    out := s.out ++ o, msixPend := mp, sheets := sh, mseq := mq, free := fr, devWire := s.devWire ++ dw, parts := ps
    cnt := { s.cnt with bank := b, portBanks := pb } }
  sheet : ∀ i, ∃ b pb w, t.sheet i = { s.sheet i with bank := b, parcelBanks := pb, wire := (s.sheet i).wire ++ w }
  part : ∀ p, ∃ fs, t.part p = { s.part p with faults := (s.part p).faults ++ fs }

theorem Reports.refl (s : State) : Reports s s :=
  ⟨⟨[], s.msixPend, s.sheets, s.mseq, s.free, [], s.cnt.bank, s.cnt.portBanks, s.parts, by simp⟩,
    fun i => ⟨(s.sheet i).bank, (s.sheet i).parcelBanks, [], by simp⟩, fun p => ⟨[], by simp⟩⟩

theorem Reports.trans {s t u : State} (h : Reports s t) (k : Reports t u) : Reports s u := by
  obtain ⟨o, mp, sh, mq, fr, dw, b, pb, ps, rfl⟩ := h.whole
  obtain ⟨o', mp', sh', mq', fr', dw', b', pb', ps', hu⟩ := k.whole
  refine ⟨⟨o ++ o', mp', sh', mq', fr', dw ++ dw', b', pb', ps', by simp [hu]⟩, fun i => ?_, fun p => ?_⟩
  · obtain ⟨c, pc, w, h1⟩ := h.sheet i
    obtain ⟨c', pc', w', h2⟩ := k.sheet i
    exact ⟨c', pc', w ++ w', by rw [h2, h1]; simp⟩
  · obtain ⟨f, h1⟩ := h.part p
    obtain ⟨f', h2⟩ := k.part p
    exact ⟨f ++ f', by rw [h2, h1]; simp⟩

theorem Counts.reports {s t : State} (h : Counts s t) : Reports s t := by
  obtain ⟨o, mp, sh, b, pb, rfl⟩ := h.whole
  refine ⟨⟨o, mp, sh, s.mseq, s.free, [], b, pb, s.parts, by simp⟩, fun i => ?_, fun p => ⟨[], by simp [State.part]⟩⟩
  obtain ⟨c, pc, h1⟩ := h.sheet i
  exact ⟨c, pc, [], by simp [h1]⟩

/-- Reporting leaves the engines. -/
theorem Reports.engine {s t : State} (h : Reports s t) (e : EngId) : t.eng e = s.eng e := by
  obtain ⟨b, pb, w, k⟩ := h.sheet e.sheet.val
  simp [State.eng, k, Sheet.engine]

/-- Reporting leaves the parcel memories. -/
theorem Reports.pmem {s t : State} (h : Reports s t) (e : EngId) : t.pmem e = s.pmem e := by
  obtain ⟨b, pb, w, k⟩ := h.sheet e.sheet.val
  simp [State.pmem, k, Sheet.phys, Sheet.parcel]

/-- Reporting leaves DRAM. -/
theorem Reports.mem {s t : State} (h : Reports s t) (i : Nat) : (t.sheet i).mem = (s.sheet i).mem := by
  obtain ⟨b, pb, w, k⟩ := h.sheet i
  simp [k]

theorem numbered_reports (s : State) (mq : Table (BitVec 32)) (fr : Nat) : Reports s { s with mseq := mq, free := fr } :=
  ⟨⟨[], s.msixPend, s.sheets, mq, fr, [], s.cnt.bank, s.cnt.portBanks, s.parts, by simp⟩,
    fun i => ⟨(s.sheet i).bank, (s.sheet i).parcelBanks, [], by simp [State.sheet]⟩, fun p => ⟨[], by simp [State.part]⟩⟩

theorem wire_reports (s : State) (i : Nat) (m : FaultMsg) : Reports s (s.modSheet i fun h => { h with wire := h.wire ++ [m] }) := by
  refine ⟨⟨[], s.msixPend, _, s.mseq, s.free, [], s.cnt.bank, s.cnt.portBanks, s.parts, by simp [State.modSheet, State.setSheet]; rfl⟩,
    fun j => ?_, fun p => ⟨[], by simp [State.part, State.modSheet, State.setSheet]⟩⟩
  rw [sheet_modSheet]
  split
  · subst_vars; exact ⟨_, _, [m], rfl⟩
  · exact ⟨(s.sheet j).bank, (s.sheet j).parcelBanks, [], by simp⟩

theorem devWire_reports (s : State) (m : FaultMsg) : Reports s { s with devWire := s.devWire ++ [m] } :=
  ⟨⟨[], s.msixPend, s.sheets, s.mseq, s.free, [m], s.cnt.bank, s.cnt.portBanks, s.parts, by simp⟩,
    fun i => ⟨(s.sheet i).bank, (s.sheet i).parcelBanks, [], by simp [State.sheet]⟩, fun p => ⟨[], by simp [State.part]⟩⟩

/-- Sending a message reports it and does nothing else (13 R365). -/
theorem sendFault_reports (s : State) (f : FaultInfo) : Reports s (s.sendFault f) := by
  have sent : ∀ (u : State) (m : FaultMsg) (sev : BitVec 4), Reports u
      (if srcLevel f.source ≤ 4 then
        if 2 ≤ sev.toNat then
          (u.modSheet (srcSheet f.source) fun h => { h with wire := h.wire ++ [m] }).sheetEvent (srcSheet f.source)
            { cls := 6, code := 0x10, priv := privSource f.source, ctx := f.ctx.map (·.val) }
        else u.modSheet (srcSheet f.source) fun h => { h with wire := h.wire ++ [m] }
      else { u with devWire := u.devWire ++ [m] }) := by
    intro u m sev
    split
    · split
      · exact (wire_reports _ _ _).trans (sheetEvent_counts _ _ _).reports
      · exact wire_reports _ _ _
    · exact devWire_reports _ _
  have ibi : ∀ u : State, Reports u (if f.kind.toNat / 0x100 = 6 then u.emit (.ibi f.kind) else u) := by
    intro u
    split
    · exact (emit_counts _ _).reports
    · exact Reports.refl _
  exact (numbered_reports s _ _).trans ((ibi _).trans (sent _ _ _))

theorem hostFault_reports (s : State) (k : BitVec 12) (op : BitVec 16) : Reports s (s.hostFault k op) := sendFault_reports _ _

theorem noteStepFault_reports (s : State) (i : Nat) (p : Option Nat) (k : BitVec 12) (src : BitVec 16) (a : Word) :
    Reports s (s.noteStepFault i p k src a) := by
  unfold State.noteStepFault
  split
  · exact Reports.refl s
  · refine ⟨⟨[], s.msixPend, s.sheets, s.mseq, s.free, [], s.cnt.bank, s.cnt.portBanks, _, by simp [State.modPart]; rfl⟩,
      fun i => ⟨(s.sheet i).bank, (s.sheet i).parcelBanks, [], by simp [State.sheet, State.modPart]⟩, fun q => ?_⟩
    rw [part_modPart]
    split
    · subst_vars; exact ⟨_, rfl⟩
    · exact ⟨[], by simp⟩

/-- A fault of an engine's parcel: its message and the step's note of it (13 R365, 01 R36). -/
theorem engFault_reports (s : State) (e : EngId) (l u : Nat) (k : BitVec 12) (op : BitVec 16) (a : Word) (sc : Bool) (sv : BitVec 4) :
    Reports s (s.engFault e l u k op a sc sv) := by
  unfold State.engFault
  dsimp only
  split
  · exact (sendFault_reports _ _).trans (noteStepFault_reports _ _ _ _ _ _)
  · exact sendFault_reports _ _

theorem sheetFault_reports (s : State) (i u : Nat) (k : BitVec 12) (op : BitVec 16) (a : Word) :
    Reports s (s.sheetFault i u k op a) := by
  unfold State.sheetFault
  dsimp only
  split
  · exact (sendFault_reports _ _).trans (noteStepFault_reports _ _ _ _ _ _)
  · exact sendFault_reports _ _

theorem unboundStream_reports (s : State) (e : EngId) (op : BitVec 16) : Reports s (s.unboundStream e op) :=
  sheetFault_reports _ _ _ _ _ _

theorem Reports.dstate {s t : State} (h : Reports s t) : t.dstate = s.dstate := by
  obtain ⟨o, mp, sh, mq, fr, dw, b, pb, ps, rfl⟩ := h.whole
  rfl

theorem Reports.ctxs {s t : State} (h : Reports s t) : t.ctxs = s.ctxs := by
  obtain ⟨o, mp, sh, mq, fr, dw, b, pb, ps, rfl⟩ := h.whole
  rfl

theorem Reports.queues {s t : State} (h : Reports s t) : t.queues = s.queues := by
  obtain ⟨o, mp, sh, mq, fr, dw, b, pb, ps, rfl⟩ := h.whole
  rfl

theorem Reports.pending {s t : State} (h : Reports s t) : t.pending = s.pending := by
  obtain ⟨o, mp, sh, mq, fr, dw, b, pb, ps, rfl⟩ := h.whole
  rfl

/-! ### Halting, meeting errors, starting a word -/

/-- An engine that halts (03 R91, R107): the report apart, only its own state register moves. -/
theorem engHalt_eng (s : State) (e g : EngId) (pc : Nat) (op : BitVec 16) :
    (s.engHalt e pc op).eng g =
      if g = e then { s.eng e with st := .halt, stBeforeHalt := (s.eng e).st } else s.eng g := by
  have h := engFault_reports s e 3 0 0x220 op (BitVec.ofNat 64 (pc % 8192)) false 0
  unfold State.engHalt
  by_cases k : g = e
  · subst k; rw [eng_modEng, if_pos rfl, if_pos rfl, h.engine]
  · rw [eng_modEng_ne _ _ k, h.engine, if_neg k]

theorem residueFault_reports (s : State) (e : EngId) (d : Disturb) (u : Nat) (op : BitVec 16) (a : Nat → Nat → Word) :
    Reports s (s.residueFault e d u op a) := by
  unfold State.residueFault
  split
  · exact Reports.refl s
  · split
    · exact engFault_reports _ _ _ _ _ _ _ _ _
    · exact engFault_reports _ _ _ _ _ _ _ _ _

/-- With no disturbance, a read of the parcel's memories leaves the state as it is. -/
theorem sramRead_none (s : State) (e : EngId) (st ac : List (Nat × Nat)) : s.sramRead e {} st ac = s := by
  simp [State.sramRead, State.forEach]

/-- A word that may not start leaves the state as it is (03 R94). -/
theorem runUop_waits (s : State) (e : EngId) (u : Uop) (f : State → State) (h : s.starts e u = false) : s.runUop e u f = s := by
  simp [State.runUop, h]

/-- A word that may start runs on the state with itself off its queue. -/
theorem runUop_runs (s : State) (e : EngId) (u : Uop) (f : State → State) (h : s.starts e u = true) :
    s.runUop e u f = f (s.popUop e u) := by
  simp [State.runUop, h]

end Sys2Proof.Machine
end

