-- ==== Sys2Proof/Laws/Legal.lean ====
section
/-! SUPPORT. What the shared operations leave of `State.regsLegal`: the updates of one unit, counting and reporting do not touch
a device-level register. -/

namespace Sys2Proof.Machine

variable (s : State)

/-- `regsLegal` reads nine fields and no other. -/
theorem regsLegal_congr {s t : State} (hq : t.qtmo = s.qtmo) (hp : t.pwr.capw = s.pwr.capw) (hf : t.pwr.fmax = s.pwr.fmax)
    (hc : t.col.histwin = s.col.histwin) (hw : t.col.winus = s.col.winus) (hd : t.rst.dmatmo = s.rst.dmatmo)
    (hl : t.rst.lnktmo = s.rst.lnktmo) (hr : t.chart.reg = s.chart.reg) (hs : t.chart.saved = s.chart.saved) :
    t.regsLegal = s.regsLegal := by
  simp [State.regsLegal, hq, hp, hf, hc, hw, hd, hl, hr, hs]

@[simp] theorem setSheet_regsLegal (i : Nat) (v : Sheet) : (s.setSheet i v).regsLegal = s.regsLegal := rfl
@[simp] theorem modSheet_regsLegal (i : Nat) (f : Sheet → Sheet) : (s.modSheet i f).regsLegal = s.regsLegal := rfl
@[simp] theorem modEng_regsLegal (e : EngId) (f : Engine → Engine) : (s.modEng e f).regsLegal = s.regsLegal := rfl
@[simp] theorem modCore_regsLegal (c : CoreId) (f : Scribe → Scribe) : (s.modCore c f).regsLegal = s.regsLegal := rfl
@[simp] theorem modMem_regsLegal (i : Nat) (f : MemPath → MemPath) : (s.modMem i f).regsLegal = s.regsLegal := rfl
@[simp] theorem modQueue_regsLegal (i : Nat) (f : Queue → Queue) : (s.modQueue i f).regsLegal = s.regsLegal := rfl
@[simp] theorem modPart_regsLegal (i : Nat) (f : Part → Part) : (s.modPart i f).regsLegal = s.regsLegal := rfl
@[simp] theorem modCtx_regsLegal (i : Nat) (f : Ctx → Ctx) : (s.modCtx i f).regsLegal = s.regsLegal := rfl
@[simp] theorem modPort_regsLegal (i : Nat) (f : Port → Port) : (s.modPort i f).regsLegal = s.regsLegal := rfl
@[simp] theorem modEpoch_regsLegal (i : Nat) (f : Epoch → Epoch) : (s.modEpoch i f).regsLegal = s.regsLegal := rfl
@[simp] theorem modWindow_regsLegal (i : Nat) (f : Window → Window) : (s.modWindow i f).regsLegal = s.regsLegal := rfl
@[simp] theorem emit_regsLegal (o : Out) : (s.emit o).regsLegal = s.regsLegal := rfl
@[simp] theorem satGroup_regsLegal (b : Nat) : (s.satGroup b).regsLegal = s.regsLegal := rfl

@[simp] theorem modPmem_regsLegal (e : EngId) (f : ParcelMem → ParcelMem) : (s.modPmem e f).regsLegal = s.regsLegal := rfl

@[simp] theorem noteSat_regsLegal {n : Nat} (v : BitVec n) (g : Nat) : (s.noteSat v g).regsLegal = s.regsLegal := by
  unfold State.noteSat
  split <;> rfl

theorem Reports.regsLegal {s t : State} (h : Reports s t) : t.regsLegal = s.regsLegal := by
  obtain ⟨o, mp, sh, mq, fr, dw, b, pb, ps, rfl⟩ := h.whole
  rfl

theorem Counts.regsLegal {s t : State} (h : Counts s t) : t.regsLegal = s.regsLegal := h.reports.regsLegal

/-- A walk over a list keeps what each of its steps keeps. -/
theorem forEach_regsLegal {α : Type} (l : List α) (f : State → α → State) (h : ∀ t a, (f t a).regsLegal = t.regsLegal) :
    ∀ s : State, (s.forEach l f).regsLegal = s.regsLegal := by
  induction l with
  | nil => exact fun _ => rfl
  | cons a l ih => exact fun s => (ih (f s a)).trans (h s a)

@[simp] theorem sendFault_regsLegal (f : FaultInfo) : (s.sendFault f).regsLegal = s.regsLegal := (sendFault_reports s f).regsLegal
@[simp] theorem hostFault_regsLegal (k : BitVec 12) (op : BitVec 16) : (s.hostFault k op).regsLegal = s.regsLegal :=
  (hostFault_reports s k op).regsLegal
@[simp] theorem engFault_regsLegal (e : EngId) (l u : Nat) (k : BitVec 12) (op : BitVec 16) (a : Word) (c : Bool) (v : BitVec 4) :
    (s.engFault e l u k op a c v).regsLegal = s.regsLegal := (engFault_reports s e l u k op a c v).regsLegal
@[simp] theorem sheetFault_regsLegal (i u : Nat) (k : BitVec 12) (op : BitVec 16) (a : Word) :
    (s.sheetFault i u k op a).regsLegal = s.regsLegal := (sheetFault_reports s i u k op a).regsLegal
@[simp] theorem engHalt_regsLegal (e : EngId) (pc : Nat) (op : BitVec 16) : (s.engHalt e pc op).regsLegal = s.regsLegal := by
  simp [State.engHalt]
@[simp] theorem parcelEvent_regsLegal (e : EngId) (ev : CntEvent) (c : Option Nat) : (s.parcelEvent e ev c).regsLegal = s.regsLegal :=
  (parcelEvent_counts s e ev c).regsLegal
@[simp] theorem sheetEvent_regsLegal (i : Nat) (ev : CntEvent) : (s.sheetEvent i ev).regsLegal = s.regsLegal :=
  (sheetEvent_counts s i ev).regsLegal
@[simp] theorem linkEvent_regsLegal (p : Nat) (ev : CntEvent) : (s.linkEvent p ev).regsLegal = s.regsLegal :=
  (linkEvent_counts s p ev).regsLegal
@[simp] theorem deviceEvent_regsLegal (ev : CntEvent) : (s.deviceEvent ev).regsLegal = s.regsLegal := (deviceEvent_counts s ev).regsLegal
@[simp] theorem msix_regsLegal (f : BitVec 4) (v : BitVec 12) : (s.msix f v).regsLegal = s.regsLegal := (msix_counts s f v).regsLegal

end Sys2Proof.Machine
end

