-- ==== Sys2Proof/Laws/Seal.lean ====
section
/-! SUPPORT. Laws of records and seals (08 R241, R242): numbers as little-endian bytes, the range of the CRC-64, and that a record
made with the seal of its tile passes the seal check. -/

namespace Sys2Proof.Machine

/-- A number read back from its little-endian bytes. -/
theorem leNat_leBytes (n : Nat) : ∀ v, leNat (leBytes n v) = v % 256 ^ n := by
  induction n with
  | zero => intro v; simp [leBytes, leNat, Nat.mod_one]
  | succ n ih =>
    intro v
    rw [leBytes, leNat, ih, BitVec.toNat_ofNat, show (2 : Nat) ^ 8 = 256 from rfl, Nat.pow_succ, Nat.mul_comm (256 ^ n) 256,
      Nat.mod_mul]

@[simp] theorem leBytes_length (n : Nat) : ∀ v, (leBytes n v).length = n := by
  induction n with
  | zero => intro v; rfl
  | succ n ih => intro v; simp [leBytes, ih]

/-- Shifting the CRC-64 register keeps 64 bits. -/
theorem crcBits_lt (n : Nat) : ∀ c, c < 2 ^ 64 → crcBits 0xC96C5795D7870F42 n c < 2 ^ 64 := by
  induction n with
  | zero => intro c h; simpa [crcBits] using h
  | succ n ih =>
    intro c h
    simp only [crcBits, crcBit]
    refine ih _ ?_
    have : c >>> 1 < 2 ^ 64 := by rw [Nat.shiftRight_eq_div_pow]; omega
    split
    · exact Nat.xor_lt_two_pow this (by decide)
    · exact this

/-- A CRC-64 has 64 bits. -/
theorem crc64_lt (m : List Byte) : crc64 m < 2 ^ 64 := by
  have h : ∀ (l : List Byte) c, c < 2 ^ 64 → l.foldl (crcByte 0xC96C5795D7870F42) c < 2 ^ 64 := by
    intro l
    induction l with
    | nil => intro c h; simpa using h
    | cons b l ih =>
      intro c h
      exact ih _ (crcBits_lt 8 _ (Nat.xor_lt_two_pow h (Nat.lt_trans b.isLt (by decide))))
  exact Nat.xor_lt_two_pow (h m _ (by decide)) (by decide)

/-- A record keeps its header outside byte 21, and its seal stands in bytes 24 to 31. -/
theorem mkRecord_parts (h : List Byte) (p : Bool) (v : Nat) (hl : 24 ≤ h.length) :
    (mkRecord h p v).take 21 = h.take 21 ∧ ((mkRecord h p v).drop 22).take 2 = (h.drop 22).take 2 ∧ (mkRecord h p v).drop 24 = leBytes 8 v := by
  have a : (h.take 21).length = 21 := by simp; omega
  have b : ((h.drop 22).take 2).length = 2 := by simp; omega
  unfold mkRecord
  generalize h.take 21 = x at *
  generalize (h.drop 22).take 2 = y at *
  match x, y, a, b with
  | [_,_,_,_,_,_,_,_,_,_,_,_,_,_,_,_,_,_,_,_,_], [_,_], _, _ => simp

/-- A record made with the seal of its tile passes the seal check. -/
theorem recSeal_mkRecord (h b : List Byte) (p : Bool) (hl : 24 ≤ h.length) :
    recSeal (mkRecord h p (sealOf h b)) = sealOf (mkRecord h p (sealOf h b)) b := by
  have q := mkRecord_parts h p (sealOf h b) hl
  have e : sealOf (mkRecord h p (sealOf h b)) b = sealOf h b := by
    rw [sealOf, q.1, q.2.1, ← sealOf]
  rw [e, recSeal, recField, q.2.2, List.take_of_length_le (by simp [leBytes_length]), leNat_leBytes]
  exact Nat.mod_eq_of_lt (crc64_lt _)

end Sys2Proof.Machine
end

