-- ==== Sys2Proof/Machine/Balls.lean ====
section
/-! DEFINITION. The lands of the package: their names and what each position of the grid holds (19 R488-R496). -/

namespace Sys2Proof.Machine

/-- The letters of row names (19 R488). -/
def rowLetters : List Char :=
  ['A', 'B', 'C', 'D', 'E', 'F', 'G', 'H', 'J', 'K', 'L', 'M', 'N', 'P', 'T', 'U', 'V', 'W', 'Y']
/-- Name of row index i, 1 to 149 (19 R488). -/
def rowName (i : Nat) : List Char :=
  let letter (k : Nat) : List Char := (rowLetters[k]?).toList
  if i ≤ 19 then letter (i - 1) else letter ((i - 20) / 19) ++ letter ((i - 20) % 19)
/-- Name of a ball: its row and then its column. -/
def ballName (row col : Nat) : String := String.ofList (rowName row) ++ toString col

/-- Signals of the sideband field (19 R496). -/
inductive SideSignal where
  | refclk100 (neg : Bool) | refclk156 (neg : Bool) | perstN | pwrDis | pgOut | thermtripN | i3cScl | i3cSda | i3cAddr (bit : Nat)
  | jtagTck | jtagTms | jtagTdi | jtagTdo | jtagTrstN | vref3v3
deriving DecidableEq, Repr
/-- What a land carries (19 R490). -/
inductive Land where
  | voijo (tx neg : Bool) (port lane : Nat)
  | pcie (tx neg : Bool) (lane : Nat)
  | side (s : SideSignal)
  | test (k : Nat)
  | vin (feedB : Bool)
  | vinRtn
  | gnd
deriving DecidableEq, Repr

/-- Row and column of depth d and position q in the field of a Voijo port (19 R491). -/
def portLand (port d q : Nat) : Nat × Nat :=
  let along := 10 + 8 * (port % 16) + q
  match port / 16 with
  | 0 => (d, along)
  | 1 => (along, 150 - d)
  | 2 => (150 - d, along)
  | _ => (along, d)
/-- The port whose field holds a position, with its depth and place along the edge (19 R491). -/
def fieldOf (row col : Nat) : Option (Nat × Nat × Nat) :=
  let side (die d along : Nat) : Option (Nat × Nat × Nat) :=
    if 1 ≤ d ∧ d ≤ 8 ∧ 11 ≤ along ∧ along ≤ 138 then some (16 * die + (along - 11) / 8, d, (along - 11) % 8 + 1) else none
  (((side 0 row col).or (side 1 (150 - col) row)).or (side 2 (150 - row) col)).or (side 3 col row)
/-- What a place of a port field carries (19 R492): transmit lanes at depths 2 and 4, receive lanes at 6 and 8. -/
def fieldLand (port d q : Nat) : Land :=
  let pair : Option (Nat × Bool) :=
    if q = 2 ∨ q = 3 then some (0, q == 3) else if q = 6 ∨ q = 7 then some (1, q == 7) else none
  match pair with
  | some (k, neg) => if d % 2 = 0 then .voijo (d ≤ 4) neg port (k + if d % 4 = 0 then 2 else 0) else .gnd
  | none => .gnd
/-- The signal balls of the sideband field (19 R496). -/
def sideLands : List ((Nat × Nat) × SideSignal) :=
  [((11, 12), .refclk100 false), ((11, 13), .refclk100 true), ((11, 16), .refclk156 false), ((11, 17), .refclk156 true),
   ((13, 12), .perstN), ((13, 14), .pwrDis), ((13, 16), .pgOut), ((13, 18), .thermtripN), ((13, 20), .i3cScl), ((13, 22), .i3cSda),
   ((13, 24), .i3cAddr 0), ((13, 26), .i3cAddr 1), ((15, 12), .jtagTck), ((15, 14), .jtagTms), ((15, 16), .jtagTdi),
   ((15, 18), .jtagTdo), ((15, 20), .jtagTrstN), ((15, 24), .vref3v3), ((15, 26), .vref3v3)]
/-- A PCI Express land: lane k in columns 44 + 4k and 45 + 4k, transmit in row L and receive in row T (19 R493). -/
def pcieLand (row col : Nat) : Option Land :=
  if (row = 11 ∨ row = 15) ∧ 44 ≤ col ∧ col ≤ 105 ∧ (col - 44) % 4 ≤ 1 then
    some (.pcie (row == 11) ((col - 44) % 4 == 1) ((col - 44) / 4))
  else none
/-- First column of the feed field, one position of ring included, that a position lies in (19 R494). -/
def feedField (row col : Nat) : Option Nat :=
  if 131 ≤ row ∧ row ≤ 140 then
    if 30 ≤ col ∧ col ≤ 61 then some 31 else if 89 ≤ col ∧ col ≤ 120 then some 90 else none
  else none
/-- What a position of the 149 × 149 grid holds (19 R489-R496): no land in the corner squares and in the ring around a feed field. -/
def landAt (row col : Nat) : Option Land :=
  let edge (x : Nat) : Bool := decide (x ≤ 10 ∨ 140 ≤ x)
  if row < 1 ∨ 149 < row ∨ col < 1 ∨ 149 < col ∨ (edge row && edge col) then none
  else match feedField row col with
    | some first =>
      if row = 131 ∨ row = 140 ∨ col + 1 = first ∨ col = first + 30 then none
      else if col % 2 = 0 then some .vinRtn else some (.vin (first == 90))
    | none => match fieldOf row col with
      | some (p, d, q) => some (fieldLand p d q)
      | none =>
        if row = 14 ∧ 11 ≤ col ∧ col ≤ 42 then some (.test (col - 11))
        else match sideLands.find? fun x => x.1 == (row, col) with
          | some x => some (.side x.2)
          | none => some ((pcieLand row col).getD .gnd)

end Sys2Proof.Machine
end

