-- ==== Sys2Proof/WellFormed.lean ====
section
/-! DEFINITION. Which commands are well formed: operands inside the ranges that the spec's fields and events give. The
machine's meanings are total; an ill-formed command is one that no interface of the device can present. -/

namespace Sys2Proof

/-- Size of WIN_0 (09 R259). -/
def win0Size : Nat := 2 ^ 26
/-- Largest WIN_4 (09 R260). -/
def win4Size : Nat := 2 ^ 41
/-- Engine words of a program (03 R91). -/
def progWords : Nat := 8192
/-- Lengths of a scribe access (07). -/
def accessLen (n : Nat) : Bool := n == 1 || n == 2 || n == 4 || n == 8
/-- A WIN_4 access stays inside the window, and a write carries its bytes. -/
def win4Wf (offset : Nat) (wr : Option (List Byte)) (len : Nat) : Bool :=
  decide (1 ≤ len ∧ offset + len ≤ win4Size) && match wr with
    | some b => b.length == len
    | none => true
/-- A host read that brought bytes brought the number asked for. -/
def hostWf (n : Nat) (d : HostRead) : Bool :=
  match d with
  | some b => b.length == n
  | none => true
/-- A unit has 64 bytes, and a lane carries 136 symbols of a group (10 R298, R299). -/
def GroupUnit.wf : GroupUnit → Bool
  | .uncorrectable => true
  | .bytes b _ => b.length == 64
  | .wire l => l.length == 4 && l.all fun x => x.length == 136

/-! ### Engine operands (03 R92-R103): the ranges of the words' fields -/

/-- Tile movement. -/
def MoveOp.wf (o : MoveOp) : Bool := decide (o.pc < progWords)
/-- MMA. -/
def MmaOp.wf (o : MmaOp) : Bool :=
  decide (o.pc < progWords ∧ o.td < 32 ∧ 1 ≤ o.rows ∧ o.rows ≤ 128 ∧ o.roff < 128)
/-- Rows `frow` to `frow + nrows - 1` of a tile. -/
def rowsWf (frow nrows : Nat) : Bool := decide (1 ≤ nrows ∧ frow + nrows ≤ 128)
/-- ROW_CHAIN. -/
def ChainOp.wf (o : ChainOp) : Bool := decide (o.pc < progWords) && rowsWf o.frow o.nrows
/-- Reductions. -/
def RedOp.wf (o : RedOp) : Bool := decide (o.pc < progWords) && rowsWf o.frow o.nrows && decide (o.count < 2 ^ 25)
/-- CONVERT and REWINDOW. -/
def ConvOp.wf (o : ConvOp) : Bool := decide (o.pc < progWords) && rowsWf o.frow o.nrows
/-- A pass of a draw. -/
def PassOp.wf (o : PassOp) : Bool :=
  decide (o.pc < progWords ∧ o.vbase < 2 ^ 31 ∧ 1 ≤ o.nelem ∧ o.nelem < 2 ^ 20 ∧ o.draw < 256)
/-- Binary decisions. -/
def BinOp.wf (o : BinOp) : Bool := decide (o.pc < progWords ∧ o.draw < 2 ^ 16) && rowsWf o.frow o.nrows
/-- Chains of a coupled instruction (06 R210). -/
def chainsWf (nch : Nat) : Bool := decide (1 ≤ nch ∧ nch ≤ 128)
/-- CPL_FIELDS. -/
def FieldsOp.wf (o : FieldsOp) : Bool := decide (o.pc < progWords) && chainsWf o.nch
/-- CPL_PROPOSE. -/
def ProposeOp.wf (o : ProposeOp) : Bool := decide (o.pc < progWords ∧ o.draw < 2 ^ 16 ∧ o.midx < 2 ^ 16) && chainsWf o.nch
/-- CPL_SETTLE. -/
def SettleOp.wf (o : SettleOp) : Bool := decide (o.pc < progWords) && chainsWf o.nch
/-- CPL_APPLY. -/
def ApplyOp.wf (o : ApplyOp) : Bool := decide (o.pc < progWords) && chainsWf o.nch
/-- CPL_GROUP. -/
def GroupOp.wf (o : GroupOp) : Bool := decide (o.pc < progWords ∧ o.draw < 2 ^ 16 ∧ o.gidx < 16) && chainsWf o.nch
/-- CPL_ENERGY. -/
def EnergyOp.wf (o : EnergyOp) : Bool := decide (o.pc < progWords) && chainsWf o.nch
/-- CPL_EXCHANGE. -/
def ExchangeOp.wf (o : ExchangeOp) : Bool := decide (o.pc < progWords ∧ o.draw < 2 ^ 16) && chainsWf o.nch

/-- A command is well formed. -/
def Instr.wf : Instr → Bool
  | .instructionDecode _ => true
  | .tileLoad _ o _ => MoveOp.wf o
  | .tileStore _ o _ => MoveOp.wf o
  | .accStore _ o _ => MoveOp.wf o
  | .accLoad _ o _ => MoveOp.wf o
  | .psToAcc _ o _ => MoveOp.wf o
  | .accToPs _ o _ => MoveOp.wf o
  | .tileSend _ o _ => MoveOp.wf o
  | .tileRecv _ o _ => MoveOp.wf o
  | .tileAddMem _ o _ => MoveOp.wf o
  | .sliceAdd _ _ => true
  | .tableLoad _ o _ => MoveOp.wf o
  | .mma _ o _ => MmaOp.wf o
  | .arithmeticCheckVerdict _ => true
  | .rowChain _ o _ => ChainOp.wf o
  | .redSum _ o _ => RedOp.wf o
  | .redMoments _ o _ => RedOp.wf o
  | .redFinish _ o _ => RedOp.wf o
  | .convert _ o _ => ConvOp.wf o
  | .rewindow _ o _ => ConvOp.wf o
  | .smpMax _ o _ => PassOp.wf o
  | .smpWeigh _ o _ => PassOp.wf o
  | .smpCut _ o _ => PassOp.wf o
  | .smpDraw _ o _ => PassOp.wf o
  | .hubReduction _ _ _ => true
  | .smpBernoulli _ o _ => BinOp.wf o
  | .smpHeatbath _ o _ => BinOp.wf o
  | .smpMetropolis _ o _ => BinOp.wf o
  | .cplFields _ o _ => FieldsOp.wf o
  | .cplPropose _ o _ => ProposeOp.wf o
  | .cplSettle _ o _ => SettleOp.wf o
  | .cplApply _ o _ => ApplyOp.wf o
  | .cplGroup _ o _ => GroupOp.wf o
  | .cplEnergy _ o _ => EnergyOp.wf o
  | .hubEnergyCombine _ _ => true
  | .sweepEnd _ _ _ => true
  | .cplExchange _ o _ => ExchangeOp.wf o
  | .hubExchangeDecide _ _ _ => true
  | .nop _ => true
  | .flagSet _ _ => true
  | .flagClear _ _ => true
  | .flagWait _ _ => true
  | .flagWaitRelease _ _ => true
  | .scribeRing _ _ _ => true
  | .scribeWait _ _ => true
  | .scribeWaitDoorbell _ _ => true
  | .unitDrain _ => true
  | .stepEnd _ => true
  | .loopBegin _ _ => true
  | .loopEnd _ => true
  | .branch _ _ _ => true
  | .agSet _ _ _ => true
  | .eflagFromTd _ _ _ _ => true
  | .eflagSet _ _ _ => true
  | .stepProgram _ _ _ => true
  | .stepProgramTimeout _ => true
  | .startOfStepBarrier _ => true
  | .endOfStepBarrier _ _ _ => true
  | .stepRepeat _ => true
  | .parcelMapChange _ => true
  | .runDispatch _ _ => true
  | .scrRingWrite _ => true
  | .scrDbInRead _ => true
  | .scrRecRequest _ _ _ => true
  | .scrRecordArrive _ _ => true
  | .scrStreamGo _ _ _ _ => true
  | .scrStreamResult _ => true
  | .scrOut1Read _ => true
  | .scrFaultSend _ _ _ _ => true
  | .scrDwinWrite _ _ _ => true
  | .scribeWindowLoad _ _ _ len _ => accessLen len
  | .scribeWindowStore _ _ _ bytes _ => accessLen bytes.length
  | .scribeException _ _ => true
  | .scribeParityError _ => true
  | .refreshStallStart _ _ => true
  | .refreshStallEnd _ _ => true
  | .win4Access offset wr len _ => win4Wf offset wr len
  | .win0AccessRefused a => decide (a.offset < win0Size)
  | .registerWrite offset _ => decide (offset < win0Size)
  | .sqTailDoorbell _ _ _ => true
  | .cqHeadDoorbell _ _ _ => true
  | .descriptorFetch _ data => data.all fun d => hostWf 64 d
  | .descriptorArrive _ => true
  | .loadPlan _ _ _ => true
  | .run _ => true
  | .copy _ _ _ _ => true
  | .seed _ bytes => hostWf 32 bytes
  | .fence _ => true
  | .fenceComplete _ => true
  | .checkpoint _ _ => true
  | .restore _ _ _ => true
  | .snapshot _ => true
  | .query _ => true
  | .sealManifest _ => true
  | .teardown _ => true
  | .deviceSeedServe _ => true
  | .completionWrite _ _ => true
  | .qEnable _ => true
  | .qDisable _ => true
  | .qClear _ => true
  | .queueDrained _ => true
  | .progressTimerExpiry _ => true
  | .partCfgWrite _ _ => true
  | .partGo _ => true
  | .partStop _ => true
  | .partReset _ => true
  | .ctxOpen _ => true
  | .ctxKill _ => true
  | .ctxSetgen _ _ => true
  | .quiesceRequestReceive _ _ _ _ => true
  | .quiesceAck _ _ => true
  | .quiesceTimeout _ => true
  | .teardownReleaseDone _ _ => true
  | .functionLevelReset _ => true
  | .pcieTlpIntegrityFail _ => true
  | .perstNAssert => true
  | .portEnable _ => true
  | .portDisable _ => true
  | .vjRetrain _ => true
  | .detectTimer _ => true
  | .signalDetected _ => true
  | .equaliseDone _ _ => true
  | .alignDone _ _ _ _ => true
  | .paramDone _ q => q.seeds.length == 4
  | .linkSlotSelect _ => true
  | .unitReceive _ u => GroupUnit.wf u
  | .replayRequestReceive _ _ _ => true
  | .replayRequestTimeout _ => true
  | .ackStallResend _ => true
  | .retrainLimitExpiry _ => true
  | .packetReceipt _ vl _ => vl != 0
  | .fencedUnitSend _ => true
  | .fencedUnitReceive _ => true
  | .keyPhaseChange _ => true
  | .linkRekey _ => true
  | .correctedGroupRate _ groups => decide (groups ≤ 156250)
  | .linkCreditTimeout _ vl => vl != 0
  | .chartAlign => true
  | .chartSave => true
  | .datumSend => true
  | .datumReceive _ _ _ _ _ => true
  | .datumTimeout => true
  | .delayProbeSend _ => true
  | .delayProbeReceive _ => true
  | .delayEchoReceive _ _ _ _ _ => true
  | .barrierArriveReceive _ m => m.stype == 1
  | .triggerReceive _ m => m.stype == 4
  | .triggerCountReached _ => true
  | .syncFlagReceive _ m => m.stype == 3
  | .epochCommitArrive _ => true
  | .barrierReleaseReceive _ m => m.stype == 2
  | .rollbackDrainComplete _ => true
  | .drainTimeout _ => true
  | .faultRaise _ _ _ => true
  | .sheetCollectorReceive _ _ => true
  | .sheetCollectorForward _ => true
  | .faultRingWrite => true
  | .colRingenWrite _ => true
  | .historyWriteRetry _ => true
  | .serviceHourTick => true
  | .windowExpiry _ => true
  | .colAckWrite _ => true
  | .watchdogExpiry _ => true
  | .haltCaptureDone _ silent => silent.all fun b => decide (2 ≤ b.toNat / 2 ^ 13)
  | .isolationTrialDone _ => true
  | .dmaStallTimeout _ => true
  | .hostWriteHoldTimeout _ => true
  | .rstWarm => true
  | .rstCold => true
  | .rstSheet _ => true
  | .rstParcel _ parcel => decide (parcel.toNat ≤ 17)
  | .rstFreeall _ => true
  | .resetComplete _ => true
  | .dumpGo _ => true
  | .dumpAbort => true
  | .dumpBlockDone _ _ => true
  | .dumpBlockTimeout => true
  | .ftKakgo _ => true
  | .spareKakTimer _ => true
  | .roundStart _ => true
  | .testItemDone _ _ _ _ _ _ => true
  | .squallWindowOpen _ => true
  | .squallWindowLapse _ => true
  | .roundPeriodEnd _ => true
  | .rotationAdvance _ => true
  | .challenge => true
  | .loginOfficer => true
  | .loginUser => true
  | .loginLockoutEnd => true
  | .logout => true
  | .enrollOfficer => true
  | .enrollHwk => true
  | .enrollChartkey => true
  | .config => true
  | .rawEnter => true
  | .rawLeave => true
  | .ecbRawRead => true
  | .rawSampleDiscard _ => true
  | .zeroise => true
  | .selftest => true
  | .fwInstall _ => true
  | .fwCommit => true
  | .packInstall _ => true
  | .recordApply _ => true
  | .random => true
  | .ideKeys => true
  | .getCert => true
  | .signatureDone => true
  | .reservationRetry _ => true
  | .doeGetCert => true
  | .doeQuote nonce => nonce.length == 32
  | .trngHealthFailure _ _ => true
  | .trngRestart => true
  | .trngStartupDone _ _ => true
  | .trngBlockReady _ => true
  | .ecbRngDataRead => true
  | .ecbStateMismatch => true
  | .ecbRestartDone => true
  | .cntArm => true
  | .cntUnfreeze => true
  | .countersResume => true
  | .snapshotLatch => true
  | .counterOverflow bank i => decide (bank < 369) && decide (i < 64)
  | .feedRise _ => true
  | .feedLost _ => true
  | .feedRestored _ => true
  | .feedOvervoltage _ => true
  | .feedShareImbalance => true
  | .bothFeedsLow => true
  | .telemetryLost => true
  | .railOutOfRegulation => true
  | .refclk100Lost => true
  | .refclk156Lost => true
  | .refclk156Return => true
  | .capControllerTick _ => true
  | .thermalTick _ _ _ => true
  | .junctionLimit _ => true
  | .thermtrip => true
  | .clockStepDone _ => true
  | .pwrOffreq => true
  | .pwrDisAssert => true
  | .railStart rail => decide (rail < 6)
  | .ecbumosResetRelease => true
  | .ecbSelftestDone _ => true
  | .ecbBootDone _ => true
  | .pcieConfigReady => true
  | .portGroupEnable _ => true
  | .dramTrainingDone _ _ => true
  | .memoryTestDone _ _ => true
  | .startupKakDone _ failed => decide failed.Nodup
  | .i3cPrivateWrite _ _ => true
  | .i3cPrivateRead => true
  | .i3cCcc _ => true
  | .jtagDbgread _ => true
  | .jtagInstruction _ => true
  | .jtagRelock => true
  | .pwrDisDeassert => true
  | .perstNDeassert => true
  | .identityKeyGenerated _ => true
  | .orphanPagesZeroed => true
  | .ideKeySwitch => true

end Sys2Proof
end

