-- ==== Sys2Proof/Tests/Slice0.lean ====
section
/-! SUPPORT. The smoke test of WellFormed, states that meet the hypotheses of each statement (one theorem hyp_<statement>,
clause by clause), and single steps on small states (test_…), with expected values worked out by hand from the spec. -/

-- One theorem after another: a thread for each waiting `decide` would take the memory of the whole compile.
set_option Elab.async false

namespace Sys2Proof.Machine

/-! ### A kit -/

/-- The state a command leads to. -/
def After (c : Instr) (s : State) : State :=
  match exec c s with
  | .next t => t
  | _ => s
/-- Engine 0 of sheet 0. -/
def engA : EngId := ⟨0, 0⟩
/-- Engine 1 of sheet 0. -/
def engB : EngId := ⟨0, 1⟩
/-- Scribe core 0 of engine 0. -/
def coreA : CoreId := ⟨engA, 0⟩

/-! ### WellFormed refuses each kind of operand out of range -/

/-- A tile movement word. -/
def moveW : MoveOp := { pc := 0, rm := 0, ps := 0, td := 0, handle := 1, tileIdx := 0, fmt := 0, mx := false, src := false }
/-- An MMA word of one row. -/
def mmaW : MmaOp :=
  { pc := 0, a := 0, b := 256, afmt := 0, amx := false, bfmt := 0, bmx := false, td := 0, kblk := 0, rows := 1, init := true
    bkeep := false, roff := 0 }
/-- A ROW_CHAIN word of one row. -/
def chainW : ChainOp :=
  { pc := 0, rm := 1, src := 0, dst := 1, dadr := 0, dsel := true, dfmt := 10, dmx := false, frow := 0, nrows := 1, scadr := 0
    scmode := 0, scexp := 0, badr := 0, bmode := 0, fn := 0 }
/-- A reduction of one row. -/
def redW : RedOp :=
  { pc := 0, rm := 1, src := 0, dst := 1, dadr := 0, dsel := true, dfmt := 10, dmx := false, frow := 0, nrows := 1, dir := false
    cont := false, dsh := 0, count := 1 }
/-- A conversion of one row. -/
def convW : ConvOp :=
  { pc := 0, rm := 1, src := 0, dst := 1, dadr := 0, dsel := true, dfmt := 10, dmx := false, frow := 0, nrows := 1 }
/-- A pass of a draw. -/
def passW : PassOp :=
  { pc := 0, slot := 0, src := 0, vbase := 0, nelem := 1, last := false, pchk := false, draw := 0, ibuf := 0, iword := 0 }
/-- A binary decision. -/
def binW : BinOp := { pc := 0, slot := 0, src := 0, dst := 1, frow := 0, nrows := 1, b2 := false, draw := 0 }
/-- The words of one block of a coupled model. -/
def fieldsW : FieldsOp := { pc := 0, slot := 0, src := 0, dst := 1, nch := 1, hadr := 0, mode := false }
/-- CPL_PROPOSE. -/
def proposeW : ProposeOp :=
  { pc := 0, slot := 0, src := 0, aux := 0, nch := 1, radr := 0, draw := 0, midx := 0, heat := false, sync := false, cchk := false }
/-- CPL_SETTLE. -/
def settleW : SettleOp := { pc := 0, slot := 0, src := 0, nch := 1, qadr := 0, qfmt := 0 }
/-- CPL_APPLY. -/
def applyW : ApplyOp := { pc := 0, slot := 0, src := 0, nch := 1, radr := 0 }
/-- CPL_GROUP. -/
def groupW : GroupOp :=
  { pc := 0, slot := 0, src := 0, aux := 0, nch := 1, radr := 0, gadr := 64, gidx := 0, ng := 1, draw := 0, metro := false }
/-- CPL_ENERGY. -/
def energyW : EnergyOp :=
  { pc := 0, slot := 0, src := 0, aux := 3, nch := 1, radr := 0, hadr := 64, init := false, echk := false, fin := false, prof := false }
/-- CPL_EXCHANGE. -/
def exchW : ExchangeOp := { pc := 0, slot := 0, aux := 3, nch := 1, par := false, draw := 0 }
/-- A sync message of a type. -/
def syncW (ty : Byte) : SyncMsg :=
  { stype := ty, value := true, src := 1, dst := 0, num := 0, operand := 0, sentAt := 0, epoch := 0, ctx := 0, gen := 0 }

theorem test_wf_good : (Instr.tileLoad engA moveW {}).wf = true ∧ (Instr.mma engA mmaW {}).wf = true ∧ (Instr.railStart 5).wf = true := by
  decide
theorem test_wf_words :
    (Instr.tileLoad engA { moveW with pc := 8192 } {}).wf = false ∧ (Instr.mma engA { mmaW with pc := 8192 } {}).wf = false ∧
    (Instr.mma engA { mmaW with td := 32 } {}).wf = false ∧ (Instr.mma engA { mmaW with rows := 0 } {}).wf = false ∧
    (Instr.mma engA { mmaW with rows := 129 } {}).wf = false ∧ (Instr.mma engA { mmaW with roff := 128 } {}).wf = false := by decide
theorem test_wf_rows :
    (Instr.rowChain engA { chainW with frow := 128 } {}).wf = false ∧ (Instr.redSum engA { redW with nrows := 0 } {}).wf = false ∧
    (Instr.redMoments engA { redW with count := 2 ^ 25 } {}).wf = false ∧ (Instr.convert engA { convW with nrows := 129 } {}).wf = false ∧
    (Instr.rowChain engA { chainW with pc := 8192 } {}).wf = false ∧ (Instr.redFinish engA { redW with pc := 8192 } {}).wf = false ∧
    (Instr.rewindow engA { convW with pc := 8192 } {}).wf = false := by decide
theorem test_wf_draws :
    (Instr.smpMax engA { passW with nelem := 0 } {}).wf = false ∧ (Instr.smpWeigh engA { passW with nelem := 2 ^ 20 } {}).wf = false ∧
    (Instr.smpCut engA { passW with vbase := 2 ^ 31 } {}).wf = false ∧ (Instr.smpDraw engA { passW with draw := 256 } {}).wf = false ∧
    (Instr.smpMax engA { passW with pc := 8192 } {}).wf = false ∧ (Instr.smpBernoulli engA { binW with draw := 2 ^ 16 } {}).wf = false ∧
    (Instr.smpHeatbath engA { binW with pc := 8192 } {}).wf = false ∧ (Instr.smpMetropolis engA { binW with frow := 128 } {}).wf = false := by
  decide
theorem test_wf_coupled :
    (Instr.cplFields engA { fieldsW with nch := 0 } {}).wf = false ∧ (Instr.cplFields engA { fieldsW with pc := 8192 } {}).wf = false ∧
    (Instr.cplPropose engA { proposeW with nch := 129 } {}).wf = false ∧ (Instr.cplPropose engA { proposeW with draw := 2 ^ 16 } {}).wf = false ∧
    (Instr.cplPropose engA { proposeW with midx := 2 ^ 16 } {}).wf = false ∧ (Instr.cplSettle engA { settleW with pc := 8192 } {}).wf = false ∧
    (Instr.cplApply engA { applyW with nch := 0 } {}).wf = false ∧ (Instr.cplGroup engA { groupW with gidx := 16 } {}).wf = false ∧
    (Instr.cplGroup engA { groupW with draw := 2 ^ 16 } {}).wf = false ∧ (Instr.cplEnergy engA { energyW with nch := 129 } {}).wf = false ∧
    (Instr.cplEnergy engA { energyW with pc := 8192 } {}).wf = false ∧ (Instr.cplExchange engA { exchW with draw := 2 ^ 16 } {}).wf = false ∧
    (Instr.cplExchange engA { exchW with nch := 0 } {}).wf = false := by decide
theorem test_wf_host :
    (Instr.scribeWindowLoad ⟨coreA, [], {}⟩ 0 0 3 {}).wf = false ∧
    (Instr.scribeWindowStore ⟨coreA, [], {}⟩ 0 0 [1, 2, 3] {}).wf = false ∧ (Instr.win4Access 0 none 0 {}).wf = false ∧
    (Instr.win4Access (2 ^ 41) none 1 {}).wf = false ∧ (Instr.win4Access 0 (some [1]) 2 {}).wf = false ∧
    (Instr.win0AccessRefused ⟨true, 2 ^ 26, 4, none⟩).wf = false ∧ (Instr.registerWrite (2 ^ 26) 0).wf = false ∧
    (Instr.descriptorFetch 0 [some []]).wf = false ∧ (Instr.seed 0 (some [])).wf = false := by decide
theorem test_wf_links :
    (Instr.unitReceive 0 (.bytes [] false)).wf = false ∧ (Instr.packetReceipt 0 0 {}).wf = false ∧
    (Instr.correctedGroupRate 0 156251).wf = false ∧ (Instr.linkCreditTimeout 0 0).wf = false ∧
    (Instr.barrierArriveReceive 0 (syncW 2)).wf = false ∧ (Instr.triggerReceive 0 (syncW 1)).wf = false ∧
    (Instr.syncFlagReceive 0 (syncW 4)).wf = false ∧ (Instr.barrierReleaseReceive 0 (syncW 3)).wf = false := by decide
theorem test_wf_block :
    (Instr.haltCaptureDone 0 [0x3FFF]).wf = false ∧ (Instr.rstParcel 1 18).wf = false ∧ (Instr.doeQuote []).wf = false ∧
    (Instr.counterOverflow 369 0).wf = false ∧ (Instr.counterOverflow 0 64).wf = false ∧ (Instr.railStart 6).wf = false ∧
    (Instr.startupKakDone 0 [1, 1]).wf = false := by decide

/-! ### Small states -/

/-- One sealed tensor of one tile, on sheet 0. -/
def tensorW (h : BitVec 16) (fmt : BitVec 4) (isSealed : Bool) (base bytes : Nat) : Tensor :=
  { handle := h, number := 7, fmt := fmt, mx := false, isSealed := isSealed, bytes := bytes, wexp := 0
    parts := [{ first := 0, count := 1, sheet := 0, base := base, sealBase := h.toNat }], input := false, result := false
    kept := false, ckpt := false, storeUnit := 0 }
/-- A plan with a sealed tensor 1, a sealed A64 tensor 2, and a raw tensor 3. -/
def planW : Plan :=
  { minInsvc := 1, tensors := [tensorW 1 0 true 0x10000 16384, tensorW 2 10 true 0x40000 131072, tensorW 3 0 false 0x1000 4096]
    progs := [⟨[{ sheet := 0, n := 1, engines := [], binds := [], streams := [], routes := [], scan := [.batch 0 0 64 0 1], sweeps := 0
                  ranges := [], models := [] }]⟩]
    slotParams := 0, homeParams := [], span := [], trees := [], epochTree := none, epochLen := 1, compared := [], replicated := false
    f32sigs := [], features := ⟨false, false, false⟩, orderBroken := false, scribeElf := [], journalPages := 0 }
/-- A RUN of that plan, one step of two. -/
def runW : RunState :=
  { queue := 0, ctx := 0, plan := 5, total := 2, committed := 0, first := 0, seed := [], seedSrc := 0, hState := [], hIn := []
    status := 0, kind := 0, notseq := false, f32add := false, sat := false, flagged := false, recovered := false, devSeed := false
    uncovered := false, clkstep := false, divchg := false, restored := false, division0 := [], divLast := [], launch := 0
    lastCommit := 0, scanned := true, written := [], chart := false, waitLaunch := false, provisional := 0, broken := false, provFlags := false, epochTiles := []
    provSat := false, provDiv := [], ledgers := [] }
/-- Partition 0 on sheet 0, in a step of context 0. -/
def partW : Part :=
  { sheets := 1, ports := 1, st := .running, runs := [runW], cur := some 0, phase := .running, turns := [0] }
/-- Context 0, OPEN, holding the plan. -/
def ctxW : Ctx := { st := .opened, plans := [{ handle := 5, hash := [], cls := 0, plan := planW }] }
/-- A valid key for a stream. -/
def keyW (purpose : BitVec 4) : KeyEntry :=
  { ident := { purpose := purpose, slot := 0, tensor := 0 }, valid := true, k0 := 1, k1 := 2, ctx := some 0 }
/-- A state with partition 0 running context 0 on sheet 0. -/
def stateOf (h : Sheet) : State :=
  { State.reset with
    dstate := .ready, sheets := [(0, h)], parts := [(0, partW)], ctxs := [(0, ctxW)] }
/-- A64 and F32 descriptors of a whole tile. -/
def tdW : TileDesc := { vrows := 128, vcols := 128 }
/-- Sheet 0 in SERVICE with an engine 0, keys for draws, and a bound slot 0. -/
def sheetOf (g : Engine) : Sheet :=
  { mode := .service, pmap := [0], engines := [(0, g)]
    slots := [(0, { pend := { bound := true }, reg := { bound := true }, ctx := some 0, sheets := [0], home := some 0 })]
    key := { tab := [(0, keyW 1), (1, keyW 6), (2, keyW 7)], seedOk := true } }
/-- An engine that runs with its descriptors 0 and 1 and one queued word. -/
def engOf (u : Uop) : Engine :=
  let g : Engine := { st := .run, tds := [(0, tdW), (1, { tdW with xbase := 0, base := 0x80 })], progUnit := 0x1E000, progLen := 4 }
  match uopUnit u with
  | 0 => { g with moverQ := [(0, u)], seq := 1 }
  | 1 => { g with arrayQ := [(0, u)], seq := 1 }
  | _ => { g with rowQ := [(0, u)], seq := 1 }
/-- The state in which that word may start. -/
def wordState (u : Uop) : State := stateOf (sheetOf (engOf u))

/-! ### The spec's worked values -/

/-- Rounding decisions of 02 R51: SR with the threshold, and 02 R65: V of the mean and variance. -/
theorem test_rounding_and_variance :
    [roundInt 0 0x3FFF 9 4, roundInt 0 0x4000 9 4, roundInt 0 0 (-7) 4, roundInt 0 0 7 1].map Prod.fst = [3, 2, -1, 7] ∧
    [varNum 4 10 30 0, varNum 4 20 100 0, varNum 4 0 36 0, varNum 4 1 1 0] = [20, 0, 144, 3] := by decide
/-- 02 R68 and R72: exp2_unit and the base-2 sigmoid. -/
theorem test_exp_and_sigmoid :
    [0, -(2 ^ 23), -(2 ^ 24), -(2 ^ 29)].map exp2Unit = [4294967296, 3037000499, 2147483648, 1] ∧
    [0, 2 ^ 24, -(2 ^ 24), 40 * 2 ^ 24].map sigmoid2 = [2147483648, 2863311530, 1431655766, 4294967296] := by decide
/-- 04 R131: scale. -/
theorem test_scale :
    ([(0x10000, 0), (0x10000, -16777216), (0x8000, -16777216), (0x20000, -268435456)].map fun x : BitVec 32 × Int =>
      (tempScale { invt := x.1, base2 := true } x.2).1) = [0, -16777216, -8388608, -536870912] ∧
    ([(0x10000, -16777216), (0x8000, -16777216), (0x10000, -1), (0x10000, 0)].map fun x : BitVec 32 × Int =>
      (tempScale { invt := x.1, base2 := false } x.2).1) = [-24204407, -12102204, -2, 0] := by decide
/-- 05 R158 and R159: the round function and the round keys. -/
theorem test_lane_rounds :
    roundFn (1, 1) 0 0 0 = (0x800000, 0xE2A3C4B596D71F09) ∧ roundFn (3, 0) 1 0 0 = (3, 0x8A8F12D65B5C7C24) ∧
    roundFn (2 ^ 63, 2 ^ 63) 0 (2 ^ 64 - 1) 0 = (0x8EAE1DA534D4707B, 0x8000000000000000) ∧
    roundFn (1, 1) 0 0 1 = (0x20000000000, 0xCB5D2F87A1E34C6D) ∧
    2 * lgW0 % w64 = 0x874B3C3AD64FE91A ∧ (0x3C5A61E294D80B73 + lgW0) % w64 = 0 ∧ 9 * lgW1 % w64 = 0x09B687011D115BDD := by decide
/-- 06 R191 and R192: the bounds of Metropolis and heat-bath at an inverse temperature of 1, base 2. -/
theorem test_accept_bounds :
    let r : ChainRegs := { invt := 0x10000, teff := 0x10000, eexp := 0 }
    ([0, 1, 0x40000000, 0x80000000].map fun u => acceptBound (chainAccepts r true false u)) = [32, 31, 1, 0] ∧
    ([0, 1, 0x7FFFFFFF, 0x80000000].map fun u => acceptBound (chainAccepts r true true u)) = [32, 31, 0, -1] := by decide
/-- 06 R206: what decides an exchange, base 2. -/
theorem test_exchange_operand :
    [exchZ true 0 ((0x10000 - 0x8000) * (-12 + 10)), exchZ true 0 ((0x10000 - 0x8000) * (-12 + 8)),
      exchZ true 0 ((0x20000 - 0x10000) * (0 - 3))] = [-16777216, -33554432, -50331648] ∧
    [-16777216, -33554432, -50331648].map exp2Unit = [2147483648, 1073741824, 536870912] := by decide

/-! ### The queue and the registers (00) -/

theorem hyp_StepRunsFront : State.reset.pending = [] := rfl
theorem hyp_LegalRegistersStayLegal : State.reset.regsLegal = true ∧ step State.reset = .next State.reset.idle := ⟨by decide +kernel, rfl⟩
/-- Sheet 0 with 12 parcels in service, the fewest that a plan runs on. -/
def sheet12 : Sheet := { sheetOf {} with pmap := List.range 12 }

/-! ### Steps (01) -/

/-- Partition 0 with the plan's step programmed next. -/
def nextW : Part := { partW with phase := .none, cur := none, next := some (0, 0, (stateOf (sheetOf {})).division 0, []) }
/-- Whether a decoded word goes to a unit's queue. -/
def isQueued : EngWord → Bool
  | .queued _ => true
  | _ => false
/-- The state with that partition. -/
def partState (x : Part) : State := { stateOf (sheetOf {}) with parts := [(0, x)] }

theorem hyp_StepsStartClean :
    ((partState { nextW with next := none }).part 0).phase = .none ∧ (partState nextW).mayStart 0 0 0 = true ∧
    ((partState nextW).part 0).next = some (0, 0, (partState nextW).division 0, []) ∧
    ({ partState nextW with sheets := [] } : State).mayStart 0 0 0 = false ∧
    (partState { nextW with next := some (0, 0, [], []) }).division 0 ≠ [] ∧
    ((partState { nextW with next := some (0, 0, (partState nextW).division 0, [0]) }).modPart 0 fun y => { y with faults := [] }).poisonAtEnd 0 0 =
      false ∧ nextW.again = false ∧ nextW.noCommit = false ∧
    (partState { partW with phase := .programmed }).mayStart 0 0 0 = true := by decide
theorem test_step_starts :
    ((After (.startOfStepBarrier 0) (partState nextW)).part 0).phase = .running ∧
    ((After (.startOfStepBarrier 0) (partState nextW)).part 0).cur = some 0 := by decide +kernel
/-- A partition in a step whose one engine has arrived. -/
def endState (x : Part) (g : Engine) : State := { stateOf (sheetOf g) with parts := [(0, x)] }
theorem hyp_StepsCommitOrAbandon :
    let up : EngSetup := { parcel := 0, pc := 0, progUnit := 0, words := [], tds := [], carriedRows := [], carriedBlocks := [] }
    let s := endState partW { st := .wait, arrived := true, journal := some ⟨{}, [], []⟩, setup := some up }
    let f : StepFault := { kind := 0x201, address := 0, source := 0x2000, sheet := 0, phys := some 0, again := false }
    (s.part 0).runOf 0 = some runW ∧ ((s.stepEngines 0).all fun e => (s.eng e).arrived || (s.eng e).st == .halt) = true ∧
    s.poisonAtEnd 0 0 = false ∧
    (let t := endState partW { st := .run, setup := some up }
     ((t.stepEngines 0).all fun e => (t.eng e).arrived || (t.eng e).st == .halt) = false) ∧
    (kindSeverity f.kind.toNat false false).getD 0 ≠ 3 ∧ (kindSeverity 0x210 false false).getD 0 = 3 ∧
    (endState { partW with faults := [f] } { st := .halt }).poisonAtEnd 0 0 = false := by decide
theorem hyp_StepsArePrepared :
    let t := partState { partW with phase := .none, cur := none }
    let s : State := { stateOf sheet12 with parts := [(0, { partW with phase := .none, cur := none })] }
    let r : State := { stateOf sheet12 with parts := [(0, { partW with phase := .abandoned })] }
    s.pickRun 0 0 = some runW ∧ s.inService 0 = true ∧ (s.runPlan 0 0).isSome = true ∧ (s.stepProg 0 0 0).isSome = true ∧
    s.stepStop 0 0 0 = none ∧ (t.stepStop 0 0 0).isSome = true ∧ t.pickRun 0 0 = some runW ∧ runW.scanned = true ∧
    ((s.runPlan 0 0).map fun l => (l.poison, (s.stepProg 0 0 0).map fun g => s.progStalls 0 l g true)) = some (false, some false) ∧
    (s.sheet 0).stagingPoison = false ∧ (r.part 0).hang = .normal ∧ r.inService 0 = true ∧ r.portsUp 0 0 0 = true ∧
    max 12 planW.minInsvc ≤ (r.sheet 0).pmap.length ∧ (r.sheet 0).changes = [] ∧ r.runPlan 0 0 = s.runPlan 0 0 ∧
    r.stepProg 0 0 0 = s.stepProg 0 0 0 ∧ s.partOf 0 = some 0 ∧ State.reset.partOf 0 = none ∧ State.reset.pickRun 0 0 = none ∧
    ((partState partW).part 0).runs ≠ [] := by decide +kernel
theorem test_step_timeout :
    ((After (.stepProgramTimeout 0) (partState partW)).sheet 0).wire.map (fun m => m.kind) = [0x730] := by decide
theorem hyp_ParcelMapChanges :
    let s := { stateOf { (sheetOf {}) with changes := [.fence 0] } with parts := [] }
    s.partOf 0 = none ∧ (s.sheet 0).pmap[0]? = some 0 ∧ (s.sheet 0).standing = some 16 ∧ 16 ∉ (s.sheet 0).pmap ∧
    ((partState partW).part 0).phase = .running ∧ (partState { partW with phase := .programmed }).partOf 0 = some 0 := by decide
theorem test_map_fence :
    let s := { stateOf { (sheetOf {}) with changes := [.fence 0] } with parts := [] }
    ((After (.parcelMapChange 0) s).sheet 0).pmap = [16] ∧ ((After (.parcelMapChange 0) s).sheet 0).fenced = 1 := by decide

/-! ### Engine control (03) -/

/-- An engine whose program holds the word `w` at word 0. -/
def ctlState (g : Engine) : State := stateOf (sheetOf { g with st := .run, progLen := 4 })
theorem hyp_ControlWordsAdvance :
    (ctlState {}).decodes engA none = true ∧ ((ctlState {}).core coreA).fifo.length < 16 ∧
    16 ≤ ((ctlState { cores := [(0, { fifo := List.replicate 16 0 })] }).core coreA).fifo.length ∧
    (((ctlState {}).eng engA).queued.any fun x => (uopUses ((ctlState {}).eng engA) x.2).wtd.contains 0) = false ∧
    (((wordState (.mma mmaW)).eng engA).queued.any fun x => (uopUses ((wordState (.mma mmaW)).eng engA) x.2).wtd.contains 0) = true := by
  decide
theorem hyp_FlagAndWaitWords :
    let waits (a : Awaited) : Engine := { awaits := some a, ring := [(0, 1)] }
    (ctlState (waits (.flag 63))).running engA = true ∧ ((ctlState (waits (.flag 63))).sheet 0).flags.getLsbD 63 = false ∧
    (stateOf { sheetOf {} with flags := 0x8000000000000000 }).sheet 0 ≠ (ctlState {}).sheet 0 ∧
    (ctlState (waits (.scribe 0))).running engA = true ∧ tget 0 ((ctlState (waits (.scribe 0))).eng engA).ring 0 ≠ 0 ∧
    tget 0 ((ctlState {}).eng engA).ring 0 = 0 ∧ (ctlState {}).drained engA = true ∧ (wordState (.mma mmaW)).drained engA = false := by
  decide
theorem test_flag_set :
    ((After (.flagSet engA 63) (ctlState {})).sheet 0).flags = 0x8000000000000000 ∧
    ((After (.flagSet engA 63) (ctlState {})).eng engA).pc = 1 := by decide
theorem hyp_LoopWords :
    let f : LoopFrame := { start := 0, count := 2, iter := 0 }
    (ctlState { loops := [f, f, f] }).decodes engA none = true ∧ ((ctlState { loops := [f, f, f] }).eng engA).loops.length < 4 ∧
    4 ≤ ((ctlState { loops := [f, f, f, f] }).eng engA).loops.length ∧
    (let t := stateOf { sheetOf { st := .run, progLen := 4 } with parcels := [(0, { store := [(30, 0x80), (31, 0x90)] })] }
     matchEnd (t.wordAt engA) 3 1 0 = some 1) ∧ ((1 : Nat) : Int) = (0 : BitVec 13).toNat + (1 : BitVec 13).toInt ∧
    ((0 : BitVec 13).toNat : Int) + (0x1FFF : BitVec 13).toInt < 0 ∧ ((4 : Nat) : Int) ≤ (0 : BitVec 13).toNat + (4 : BitVec 13).toInt ∧
    ((ctlState { loops := [f] }).eng engA).loops.getLast? = some f ∧ f.iter + 1 < f.count ∧ f.count ≤ { f with iter := 1 }.iter + 1 ∧
    ((ctlState {}).eng engA).holds ⟨false, 0, false⟩ = true ∧ ((ctlState {}).eng engA).holds ⟨true, 0, false⟩ = false := by decide
theorem test_loop_again :
    let s := ctlState { pc := 3, loops := [{ start := 0, count := 2, iter := 0 }] }
    ((After (.loopEnd engA) s).eng engA).pc = 1 ∧ (((After (.loopEnd engA) s).eng engA).loops.map fun f => f.iter) = [1] := by decide
/-- An engine whose word 0 has these bytes 15 and 14: the class and OP fields (03 R92), with all other fields zero. -/
def wordOf (b15 b14 : Byte) : State :=
  stateOf { sheetOf { st := .run, progLen := 4 } with parcels := [(0, { store := [(14, b14), (15, b15)] })] }
theorem hyp_DecodeQueuesOrRefuses :
    (ctlState {}).decodes engA none = true ∧ ((ctlState {}).eng engA).pc.toNat < ((ctlState {}).eng engA).progLen ∧
    (decodeEngWord (fun _ => some 0) (fun _ => none) 0 ((wordOf 0x10 0x40).wordAt engA 0)).map isQueued = some true ∧
    decodeEngWord (fun _ => some 0) (fun _ => none) 0 ((wordOf 0x80 0x48).wordAt engA 0) ≠ none ∧
    ({} : Engine).holds (decodePred ((wordOf 0x80 0x48).wordAt engA 0)) = false ∧
    decodeEngWord (fun _ => some 0) (fun _ => none) 0 ((ctlState {}).wordAt engA 0) = none ∧
    queueDepth 0 ≤ ((ctlState { moverQ := List.replicate 64 (0, .tileLoad moveW) }).eng engA).moverQ.length ∧
    ((ctlState { pc := 4 }).eng engA).progLen ≤ ((ctlState { pc := 4 }).eng engA).pc.toNat := by decide +kernel
theorem test_decode_reserved_halts : ((After (.instructionDecode engA) (ctlState {})).eng engA).st = .halt := by decide +kernel

/-! ### Tile movement, the array and the row unit (03) -/

theorem hyp_TilesMoveBetweenDramAndStore :
    let s := wordState (.tileLoad moveW)
    let a : MoveOp := { moveW with handle := 2, fmt := 10 }
    s.starts engA (.tileLoad moveW) = true ∧ (s.sheet 0).phys 0 = some 0 ∧ (s.wordTile engA moveW).isSome = true ∧
    inStore moveW.ps (tileBytes 0 false) = true ∧ missesProg (s.eng engA) moveW.ps (tileBytes 0 false) = true ∧
    s.wordTile engA { moveW with handle := 9 } = none ∧ inStore (-1) (tileBytes 0 false) = false ∧
    inStore 196608 (tileBytes 0 false) = false ∧ missesProg (s.eng engA) 0x1E000 1 = false ∧
    (wordState (.tileStore moveW)).starts engA (.tileStore moveW) = true ∧ (wordState (.accStore a)).starts engA (.accStore a) = true ∧
    ((wordState (.accStore a)).wordTile engA a).map (fun x => x.1.fmt) = some tdW.fmt ∧ (s.wordTile engA moveW).map (fun x => x.1.fmt) = some moveW.fmt ∧
    (s.wordTile engA a).map (fun x => x.1.fmt) ≠ some moveW.fmt ∧
    checkTile ((s.sheet 0).mem.record 1) [] { tensor := 7, tile := 0, fmt := some (0, false) } ≠ none := by decide
theorem hyp_AccLoadTakesTile :
    let a : MoveOp := { moveW with handle := 2, fmt := 10, rm := 1 }
    let s := wordState (.accLoad a)
    s.starts engA (.accLoad a) = true ∧ ((s.wordTile engA a).map fun x => x.1.isSealed) = some true ∧ tdW.used = true ∧
    recExp ((s.sheet 0).mem.record 2) = tdW.wexp ∧ recExp ((s.sheet 0).mem.record 2) ≠ ({ tdW with exp := 1 } : TileDesc).wexp ∧
    s.roundKey engA (a.rm == 0) 0 = some (0, 0) := by decide
theorem hyp_MoverCopiesOnDie :
    (wordState (.psToAcc moveW)).starts engA (.psToAcc moveW) = true ∧ inStore 0 (tileElemBytes 10) = true ∧
    (wordState (.accToPs moveW)).starts engA (.accToPs moveW) = true ∧
    missesProg ((wordState (.accToPs moveW)).eng engA) 0 (tileElemBytes 10) = true ∧
    (wordState (.tableLoad moveW)).starts engA (.tableLoad moveW) = true ∧ inStore 0 tableBytes = true := by decide
/-- The header of tile 0 of a tensor in a format, 128 by 128 (08 R241, laid out by hand). -/
def hdrW (tensor fmt : Byte) : List Byte := [tensor, 0, 0, 0, 0, 0, 0, 0, 0, 0, 0, 0, 0, 0, 0, fmt, 128, 128, 0, 0, 1, 0, 0, 0]
/-- A record with that header for a tile's bytes. -/
def recW (tensor fmt : Byte) (b : List Byte) : List Byte := mkRecord (hdrW tensor fmt) false (sealOf (hdrW tensor fmt) b)
/-- The fields of that record, whatever its seal. -/
theorem hdrW_fields (t f : Byte) (v : Nat) :
    recField (mkRecord (hdrW t f) false v) 20 1 = 1 ∧ recField (mkRecord (hdrW t f) false v) 14 1 = 0 ∧
    recField (mkRecord (hdrW t f) false v) 15 1 = f.toNat ∧ recField (mkRecord (hdrW t f) false v) 16 1 = 128 ∧
    recField (mkRecord (hdrW t f) false v) 17 1 = 128 ∧ recField (mkRecord (hdrW t f) false v) 18 2 = 0 ∧
    recField (mkRecord (hdrW t f) false v) 21 1 = 2 ∧ recField (mkRecord (hdrW t f) false v) 22 2 = 0 ∧
    recField (mkRecord (hdrW t f) false v) 0 4 = t.toNat ∧ recField (mkRecord (hdrW t f) false v) 4 4 = 0 :=
  ⟨rfl, rfl, rfl, rfl, rfl, rfl, rfl, rfl, rfl, rfl⟩
/-- Every tile passes the check against the record made for it. -/
theorem recW_ok (b : List Byte) :
    checkTile (recW 7 10 b) b { tensor := 7, tile := 0, fmt := none } = none ∧
    checkTile (recW 0 0 b) b { tensor := 0, tile := 0, fmt := some (0, false) } = none := by
  have sl (t f : Byte) := recSeal_mkRecord (hdrW t f) b false (Nat.le_refl 24 : 24 ≤ (hdrW t f).length)
  constructor
  · have w := hdrW_fields 7 10 (sealOf (hdrW 7 10) b)
    unfold checkTile recW
    rw [sl]
    generalize mkRecord (hdrW 7 10) false (sealOf (hdrW 7 10) b) = r at w
    simp [headerOk, recWritten, recFmt, recMx, recRows, recCols, recTensor, recTile, w, bit, fmtOk]
    decide
  · have w := hdrW_fields 0 0 (sealOf (hdrW 0 0) b)
    unfold checkTile recW
    rw [sl]
    generalize mkRecord (hdrW 0 0) false (sealOf (hdrW 0 0) b) = r at w
    simp [headerOk, recWritten, recFmt, recMx, recRows, recCols, recTensor, recTile, w, bit, fmtOk]
    decide
/-- A route from engine 0 to itself, handle 1. -/
def routeW : Route :=
  { handle := 1, dests := [.engine engA], reduces := false, gathers := false, children := [], rm := 0, dmul := 0, xtile := 0
    xstride := 0 }
/-- An image that a route brought: a header of zeros and a tile of zeros. -/
def arrivalW : Arrival := { route := 1, image := List.replicate 288 0, poison := false, tspec := 0, src := .engine engA }
theorem hyp_TilesTravelRoutes :
    let s := stateOf { sheetOf (engOf (.tileSend moveW)) with routeTab := [routeW] }
    s.starts engA (.tileSend moveW) = true ∧ inStore moveW.ps (tileBytes 0 false) = true ∧ (s.sheet 0).routeOf 1 = some routeW ∧
    routeW.reduces = false ∧ (wordState (.tileRecv { moveW with src := true })).starts engA (.tileRecv { moveW with src := true }) = false ∧
    (stateOf (sheetOf { (engOf (.tileRecv moveW)) with inbox := [arrivalW] })).starts engA (.tileRecv moveW) = true ∧
    ((stateOf (sheetOf { (engOf (.tileRecv moveW)) with inbox := [arrivalW] })).eng engA).firstArrival 1 = some arrivalW := by decide +kernel
theorem hyp_TilesTravelRoutes_receive (b : List Byte) :
    let i := recW 0 0 b ++ b
    checkTile (i.take 32) (i.drop 32) { tensor := 0, tile := 0, fmt := some (0, false) } = none := by
  have h (v : Nat) : (mkRecord (hdrW 0 0) false v ++ b).take 32 = mkRecord (hdrW 0 0) false v ∧
      (mkRecord (hdrW 0 0) false v ++ b).drop 32 = b := ⟨rfl, rfl⟩
  intro i
  rw [show i.take 32 = recW 0 0 b from (h _).1, show i.drop 32 = b from (h _).2]
  exact (recW_ok b).2
/-- A partial sum that waits at the memory of sheet 0. -/
def addW : AddReq :=
  { eng := engA, ctx := 0, tensor := tensorW 2 10 true 0x40000 131072, tile := 0, loc := (0, 0x40000, 2), header := [], bytes := []
    poison := false, pc := 0, time := 0, port := 0 }
theorem hyp_CombineAtMemoryAdds :
    let a : MoveOp := { moveW with handle := 2, fmt := 10 }
    (wordState (.tileAddMem a)).starts engA (.tileAddMem a) = true ∧
    ((wordState (.tileAddMem a)).wordTile engA a).map (fun x => x.1.fmt) = some tdW.fmt ∧ addW.tensor.isSealed = true ∧
    addW.tensor.fmt = 10 ∧ addW.loc.1 = 0 ∧ (stateOf (sheetOf {})).stalls 0 addW.loc.2.1 131072 = false := by decide
/-- The records of a sheet whose record 2 is of the tile of that sum. -/
def recsW (b : List Byte) : Mem := (recW 7 10 b).zipIdx.map fun x => (64 + x.2, x.1)
theorem hyp_CombineAtMemoryAdds_slice :
    let old := mread [] 0x40000 (tileBytes 10 false)
    let m : MemPath := { adds := [addW], recs := recsW old }
    addW ∈ m.adds ∧ nextAdd m.adds = some addW ∧ recWritten (m.record addW.loc.2.2) = true ∧
    checkTile (m.record addW.loc.2.2) (mread m.dram addW.loc.2.1 (tileBytes 10 false))
      { tensor := addW.tensor.number.toNat, tile := addW.tile, fmt := none } = none := by
  intro old m
  have r (v : Nat) : mread ((mkRecord (hdrW 7 10) false v).zipIdx.map fun x => (64 + x.2, x.1)) 64 32 = mkRecord (hdrW 7 10) false v := rfl
  have h : m.record addW.loc.2.2 = recW 7 10 old := r _
  refine ⟨by simp [m], rfl, ?_, ?_⟩
  · rw [h, recWritten, recW, (hdrW_fields 7 10 _).2.2.2.2.2.2.1]; rfl
  · rw [h]; exact (recW_ok old).1
theorem hyp_MmaAccumulates :
    let s := wordState (.mma mmaW)
    let td := (s.eng engA).td mmaW.td
    s.starts engA (.mma mmaW) = true ∧ s.roundKey engA (!({ td with f32 := true, frm := 1 } : TileDesc).f32) td.tensor = some (0, 0) ∧
    (inStore mmaW.a (tileBytes 0 false) && inStore mmaW.b (tileBytes 0 false) && td.used && decide (mmaW.roff + mmaW.rows ≤ td.vrows.toNat)) = true ∧
    inStore (-1) (tileBytes 0 false) = false := by decide +kernel
theorem hyp_CheckHasNoFalseAlarm : ∀ r ∈ [List.replicate 128 Val.nan], r.length = 128 := by decide +kernel
theorem hyp_CheckFindsOneUpset :
    (∀ r ∈ [List.replicate 128 Val.nan], r.length = 128) ∧ 0 < [List.replicate 128 Val.nan].length ∧ residue 1 (-512) ≠ 0 := by decide +kernel
theorem hyp_VerdictRaisesMismatch :
    let v : Verdict := { td := 31, kblk := 0, pc := 0, bad := some (127, 0) }
    let s := stateOf (sheetOf { verdicts := [v] })
    (s.eng engA).verdicts = [v] ∧ (s.sheet 0).phys 0 = some 0 ∧ ((After (.arithmeticCheckVerdict engA) s).sheet 0).wire.map (fun m => m.kind) = [0x201] := by
  decide
theorem hyp_RowChainIntoRows :
    let s := wordState (.rowChain chainW)
    let x : RowDest := { dst := 1, dsel := true, dadr := 0, dfmt := 10, dmx := false }
    s.starts engA (.rowChain chainW) = true ∧ s.destOk engA x = true ∧ ((s.eng engA).td 1).used = true ∧
    s.roundKey engA (chainW.rm == 0) 0 = some (0, 0) ∧ s.destOk engA { x with dsel := false, dadr := -1 } = false ∧
    s.destOk engA { x with dsel := false, dfmt := 0 } = true := by decide
theorem hyp_ReductionsIntoRows :
    (wordState (.redSum redW)).starts engA (.redSum redW) = true ∧ (wordState (.redMoments redW)).starts engA (.redMoments redW) = true ∧
    (wordState (.redFinish redW)).starts engA (.redFinish redW) = true ∧ redW.dsel = true ∧
    (wordState (.redSum redW)).roundKey engA (redW.rm == 0) 0 = some (0, 0) ∧ ((wordState (.redSum redW)).eng engA).td 1 ≠ {} := by decide
theorem hyp_ConversionsIntoRows :
    let s := wordState (.convert convW)
    s.starts engA (.convert convW) = true ∧ s.destOk engA { dst := 1, dsel := true, dadr := 0, dfmt := 10, dmx := false } = true ∧
    s.roundKey engA (convW.rm == 0) 0 = some (0, 0) ∧ (wordState (.rewindow convW)).starts engA (.rewindow convW) = true := by decide

/-! ### Sampling (04) -/

/-- A sampling context on slot 0 at a stage. -/
def hubW (st : SlotPhase) : HubCtx := { slot := 0, stage := st, opened := [(engA, passW)] }
/-- A state with that context and a queued pass. -/
def hubState (u : Uop) (c : HubCtx) : State := stateOf { sheetOf (engOf u) with hubs := [c] }
theorem hyp_PassWordsReport :
    let s := wordState (.smpMax passW)
    s.starts engA (.smpMax passW) = true ∧ (s.participants 0 0).contains engA = true ∧ (s.sheet 0).hubOf 0 = none ∧
    (hubState (.smpWeigh passW) (hubW .maxed)).starts engA (.smpWeigh passW) = true ∧
    (hubState (.smpCut passW) (hubW .weighed)).starts engA (.smpCut passW) = true ∧
    (hubState (.smpDraw passW) (hubW .cut)).starts engA (.smpDraw passW) = true ∧
    (hubState (.smpWeigh passW) (hubW .maxed)).homeOf 0 0 = 0 ∧ ((hubW .maxed).opened.any fun x => x.1 == engA && sameFields x.2 passW) = true ∧
    ((s.sheet 0).slot 0).pend.greedy = false ∧ (hubW .maxed).empty = false := by decide
/-- A report of engine 0: logits or weights of two elements. -/
def reportW : PassReport := { eng := engA, logits := [(0, 3), (1, 5)], weights := [(0, 4), (1, 0)], sflags := 0, poison := false }
theorem hyp_HubDecidesPasses :
    let c (st : SlotPhase) : HubCtx := { hubW st with arrived := [reportW] }
    let s := stateOf { sheetOf {} with hubs := [c .idle] }
    (s.sheet 0).hubOf 0 = some (c .idle) ∧ s.allArrived 0 0 (c .idle) = true ∧ s.allArrived 0 0 (hubW .idle) = false ∧
    (c .idle).draws = [] ∧ rangesOk 0 (c .idle).ranges = true ∧ s.allArrived 0 0 (c .weighed) = true := by decide
/-- The slot 0 whose home is device 9. -/
def farSlot : List (Nat × Slot) := [(0, { pend := { bound := true }, reg := { bound := true }, ctx := some 0, sheets := [0], homeDev := some (9, 0) })]
theorem hyp_HubDecidesPasses_far :
    let c : HubCtx := { hubW .idle with arrived := [reportW] }
    let s (c : HubCtx) := stateOf { sheetOf {} with hubs := [c], slots := farSlot }
    ((s c).sheet 0).hubOf 0 = some c ∧ (((s c).sheet 0).slot 0).homeDev ≠ none ∧ (s c).allHere 0 0 c = true ∧ c.sentPass ≠ some c.pass ∧
    (s (hubW .idle)).allHere 0 0 (hubW .idle) = false ∧
    ({ c with sentPass := some c.pass } : HubCtx).sentPass = some ({ c with sentPass := some c.pass } : HubCtx).pass := by decide
theorem test_hub_max :
    let s := stateOf { sheetOf {} with hubs := [{ hubW .idle with arrived := [reportW] }] }
    (((After (.hubReduction 0 0 {}) s).sheet 0).hubOf 0).map (fun c => (c.stage, c.lmax)) = some (.maxed, some 5) := by decide
theorem hyp_HubDrawsIndex :
    let c : HubCtx := { hubW .cut with kept := [(0, 4)], total := 4, draws := [(engA, passW)], weights := [(0, 4)], scan := [(0, 4)] }
    let s := stateOf { sheetOf {} with hubs := [c] }
    (((s.sheet 0).slot 0).homeDev = none ∧ c.draws ≠ [] ∧ c.empty = false ∧ ((s.sheet 0).slot 0).pend.greedy = false ∧
      (s.sheet 0).phys 0 = some 0) ∧
    (rangesOk 0 c.ranges = true ∧ c.weights.Pairwise (fun a b => a.1 < b.1) ∧ (∀ x ∈ c.weights, x.1 < (c.ranges.map Prod.snd).sum) ∧
      c.kept = keptOf c.qk c.tau c.qp 0 c.weights ∧ c.scan.Perm c.weights ∧ 3 < (c.kept.map Prod.snd).sum) ∧
    s.allArrived 0 0 c = true ∧ s.homeParcel 0 0 = engA ∧ (c.draws.find? fun x => x.1 == engA) = some (engA, passW) ∧
    s.streamOn 0 { purpose := 1, slot := 0, tensor := 0 } = some (1, 2) ∧ missesProg { progUnit := 0x1E000 } 0 4 = true ∧
    (3 : Nat) < ([(0, 4)].map Prod.snd).sum := by decide
theorem hyp_TopKKeepsExactly : 0 < (1 : Nat) ∧ (1 : Nat) < [4, 0, 4].length ∧ 0 < [4, 0, 4].getD 2 0 := by decide
theorem hyp_TopPCoversItsMass : [4, 0].sum ≠ 0 ∧ 65535 < 65536 := by decide
theorem hyp_BinaryDecisions :
    let s := wordState (.bernoulli binW)
    s.starts engA (.bernoulli binW) = true ∧ s.streamOn 0 { purpose := 1, slot := 0, tensor := 0 } = some (1, 2) ∧
    (wordState (.heatbath binW)).starts engA (.heatbath binW) = true ∧ (wordState (.metropolis binW)).starts engA (.metropolis binW) = true ∧
    s.streamOn 0 { purpose := 6, slot := 0, tensor := 0 } = some (1, 2) ∧ ((s.eng engA).td 1).used = true := by decide

/-! ### Coupled models (06) -/

theorem hyp_AcceptanceBoundDecides : 2 ^ 32 - 1 < 2 ^ 32 ∧ -a64Max ≤ a64Max := by decide
/-- Two variables of one block that couple with weight 3. -/
def couplingW (i j : Nat) : Int := if i = j then 0 else 3
theorem hyp_SettledBlockIsSequential :
    [0, 1].Nodup ∧ (∀ j ∈ [0, 1], (4 : Int).natAbs + ([0, 1].map fun i => (couplingW j i).natAbs).sum ≤ 2 ^ 63 - 1) := by decide
theorem hyp_AppliedEnergyIsTheChange :
    let v : SettleVar := { chain := 0, j := 0, x := false, field := some 4, bound := 0, prop := true }
    (∀ i j, couplingW i j = couplingW j i) ∧ (∀ i, couplingW i i = 0) ∧ ([v].map fun v => v.j).Nodup ∧
    (∀ w ∈ [v], w.j < 2 ∧ w.x = false ∧ w.field = some (modelField (fun _ => 4) couplingW 2 (fun _ => false) w.j)) ∧
    (∀ w ∈ [v], (modelField (fun _ => 4) couplingW 2 (fun _ => false) w.j).natAbs + ([v].map fun x => (couplingW w.j x.j).natAbs).sum ≤ 2 ^ 63 - 1) :=
  ⟨fun i j => by simp [couplingW, eq_comm], fun i => by simp [couplingW], by decide, by decide, by decide⟩
theorem hyp_FieldsSetAndCompared :
    let s := wordState (.fields fieldsW)
    s.starts engA (.fields fieldsW) = true ∧ s.slotsOk engA 0 1 = true ∧ s.slotsOk engA 127 2 = false ∧ fieldTileOk ((s.eng engA).td 0) 1 = true ∧
    fieldTileOk ((s.eng engA).td 1) 1 = true ∧ inStore fieldsW.hadr 1024 = true ∧
    accElem (s.pmem engA).acc ((s.eng engA).td 0) 0 0 = accElem (s.pmem engA).acc ((s.eng engA).td 1) 0 0 := by decide
theorem hyp_FieldsSetAndCompared_differ :
    accElem [(0, 1)] tdW 0 0 ≠ accElem [(0, 1)] { tdW with base := 0x80 } 0 0 ∧
    (∃ c j, c < fieldsW.nch ∧ j < tdW.vcols.toNat ∧ j < tdW.vcols.toNat ∧
      accElem [(0, 1)] tdW c j ≠ accElem [(0, 1)] { tdW with base := 0x80 } c j) :=
  ⟨by decide, 0, 0, by decide⟩
/-- A settlement buffer with no proposal. -/
def bufW (done : Bool) : SettleBuf := { slot := 0, nch := 1, src := 0, heat := false, sync := false, done := done, vars := [], poison := false }
theorem hyp_BlockIsProposedSettledApplied :
    let s := wordState (.propose proposeW)
    let t (u : Uop) (b : SettleBuf) : State := stateOf (sheetOf { engOf u with settle := some b })
    s.starts engA (.propose proposeW) = true ∧ (s.eng engA).settle = none ∧ s.slotKey engA 6 0 = some ((1, 2), 0) ∧
    inStore proposeW.radr (recordBytes 1) = true ∧ (t (.settle settleW) (bufW false)).starts engA (.settle settleW) = true ∧
    inStore settleW.qadr (tileBytes 0 false) = true ∧ (t (.apply applyW) (bufW true)).starts engA (.apply applyW) = true ∧
    missesProg ((t (.apply applyW) (bufW true)).eng engA) 0 (recordBytes 1) = true ∧
    ((wordState (.settle settleW)).eng engA).settle = none := by decide
theorem hyp_GroupsMoveTheirHotMember :
    let s := wordState (.group groupW)
    let hot (m : Mem) : State := stateOf { sheetOf (engOf (.group groupW)) with parcels := [(0, { store := m })] }
    let one := hot [(0, 1), (4099, 1)]
    s.starts engA (.group groupW) = true ∧ s.groupFits engA groupW = true ∧ inStore groupW.gadr (4 * (groupW.gidx + groupW.ng)) = true ∧
    one.groupsOf engA groupW = [(0, 2)] ∧ one.groupSpans engA groupW = true ∧ one.groupVars engA groupW = [0, 1] ∧
    inStore 0 (one.groupBytes engA groupW) = true ∧ missesProg (one.eng engA) 0 (one.groupBytes engA groupW) = true ∧
    ((one.membersOf engA groupW 0 (0, 2)).filter fun m => m.x).length = 1 ∧ one.groupBound engA groupW = true ∧
    (((hot [(4099, 1)]).membersOf engA groupW 0 (0, 2)).filter fun m => m.x).length = 0 := by decide
/-- A group of chains whose energies wait at the hub. -/
def groupOf (fin combined : Bool) : HubGroup :=
  { slot := 0, nch := 1, aux := 3, init := false, echk := true, fin := fin, prof := false, arrived := [engA], sums := []
    combined := combined, exch := [], par := false, draw := 0, poison := false }
theorem hyp_EnergiesReachTheHub :
    let s := wordState (.energy energyW)
    let t := stateOf { sheetOf {} with groups := [groupOf false false] }
    s.starts engA (.energy energyW) = true ∧ s.slotsOk engA 0 1 = true ∧ fieldTileOk ((s.eng engA).td 0) 1 = true ∧
    inStore energyW.radr 64 = true ∧ inStore energyW.hadr 1024 = true ∧ (s.sheet 0).energyGroup 0 = none ∧
    (t.sheet 0).energyGroup 0 = some (groupOf false false) ∧ t.groupFull 0 0 [engA] = true ∧ t.groupFull 0 0 [] = false ∧
    recomputed (tget {} (groupOf false false).sums 0) = (t.chainAt 0 0).pend.energy.toInt ∧ (t.tensorAt 0 3).isSome = true := by decide
/-- A schedule with one sweep entry of temperature 1 and one rung (06 R187, R201), at the raw tensor. -/
def schedMem : Mem := [(0x1000, 1), (0x1004, 1), (0x1014, 1), (0x1022, 1)]
theorem hyp_SweepsEnd :
    let t := stateOf { sheetOf {} with groups := [groupOf true true], mem := { dram := schedMem } }
    (((t.tensorAt 0 3).map fun x => (parseSched (t.rawBytes x 0 0 32)).isSome) = some true ∧ parseSched (mread [] 0x1000 32) = none ∧
      (parseSched (t.rawBytes (tensorW 3 0 false 0x1000 4096) 0 0 32)).map (fun h => (h.nrung, h.profh)) = some (1, 0) ∧
      t.auxStalls 0 3 false = false ∧ t.tensorStalls (tensorW 3 0 false 0x1000 4096) = false ∧ (groupOf true true).prof = false) ∧
    (t.sheet 0).energyGroup 0 = some (groupOf true true) ∧ (groupOf true true).fin = true ∧
    (groupOf true false).combined = false ∧ ((t.tensorAt 0 3).map fun x => x.isSealed) = some false := by decide
/-- A schedule with a profile ring of one entry at the raw tensor 4, and a plan that holds both. -/
def ringMem : Mem := [(0x1000, 1), (0x1004, 1), (0x1008, 1), (0x1010, 4), (0x1014, 1), (0x1022, 1)]
/-- The ring's tensor. -/
def ringW : Tensor := tensorW 4 0 false 0x8000 4096
/-- The state whose plan holds that ring. -/
def ringState : State :=
  let s := stateOf { sheetOf {} with groups := [{ groupOf true true with prof := true }], mem := { dram := ringMem } }
  let pl : Plan := { planW with tensors := planW.tensors ++ [ringW] }
  { s with ctxs := [(0, { ctxW with plans := [{ handle := 5, hash := [], cls := 0, plan := pl }] })] }
theorem hyp_SweepsEnd_ring :
    let t := tensorW 3 0 false 0x1000 4096
    (parseSched (ringState.rawBytes t 0 0 32)).map (fun h => (h.profh, h.plen)) = some (4, 1) ∧ ringState.tensorAt 0 4 = some ringW ∧
    ringState.tensorAt 0 3 = some t ∧ ringW.isSealed = false ∧ ringState.auxStalls 0 3 true = false ∧
    (∀ c, c < 1 → (ringState.chainAt 0 c).pend.phead.toNat < 1) ∧ (∀ i, i < 32 → ringW.rawAt 0 i = some (0, 0x8000 + i)) ∧
    (∀ i j, i < 32 → j < 32 → 0x8000 + i = 0x8000 + j → i = j) ∧ (∀ m i, m < 36 → i < 32 → t.rawAt 0 m ≠ some (0, 0x8000 + i)) := by
  refine ⟨by decide +kernel, by decide, by decide, by decide, by decide +kernel, by decide, by decide, fun i j _ _ h => by omega, fun m i hm hi => ?_⟩
  have h : ∀ m, m < 36 → (tensorW 3 0 false 0x1000 4096).rawAt 0 m = some (0, 0x1000 + m) := by decide
  rw [h m hm]
  simp
  omega
theorem test_sweep_end :
    let t := stateOf { sheetOf {} with groups := [groupOf true true], mem := { dram := schedMem } }
    ((After (.sweepEnd 0 0 {}) t).chainAt 0 0).pend.sweep = 1 ∧ ((After (.sweepEnd 0 0 {}) t).chainAt 0 0).pend.teff = 0x10000 ∧
    ((After (.sweepEnd 0 0 {}) t).chainAt 0 0).pend.invt = 0x10000 := by decide
theorem hyp_RungsExchange :
    let s := wordState (.exchange exchW)
    let g : HubGroup := { groupOf false true with exch := [engA] }
    let t := stateOf { sheetOf {} with groups := [g], mem := { dram := schedMem } }
    s.starts engA (.exchange exchW) = true ∧ s.slotsOk engA 0 1 = true ∧ (s.sheet 0).exchGroup 0 = none ∧
    (t.sheet 0).exchGroup 0 = some g ∧ t.groupFull 0 0 g.exch = true ∧ t.streamOn 0 { purpose := 7, slot := 0, tensor := 0 } = some (1, 2) := by
  decide

/-! ### Scribe (07) and memory (08) -/

/-- Scribe core 0 with a state, ring count `n`, on engine 0. -/
def scrState (k : Scribe) (n : BitVec 8) : State := stateOf (sheetOf { cores := [(0, { k with inReset := false, machine := true })], ring := [(0, n)] })
theorem hyp_ScribePortsAnswer :
    let s (k : Scribe) : State := scrState k 254
    (s {}).coreLive coreA = true ∧ tget 0 ((s {}).eng engA).ring 0 = 254 ∧ tget 0 ((scrState {} 255).eng engA).ring 0 = 255 ∧
    ((s { fifo := [7] }).core coreA).fifo = [7] ∧ ((s {}).core coreA).recBusy = false ∧ ((s { recBusy := true }).core coreA).recBusy = true ∧
    ((s { spReqs := List.replicate 6 (0, 0, 0) }).core coreA).spReqs.length = 6 ∧
    ((s { spReqs := List.replicate 7 (0, 0, 0) }).core coreA).spReqs.length = 7 ∧ ((s { spOuts := [1] }).core coreA).spOuts = [1] ∧
    ((s {}).tensorAt 0 1).map (fun t => (t.isSealed, (t.tileLoc 0 0).isSome)) = some (true, true) ∧ (s {}).tensorAt 0 9 = none ∧
    (tget {} ((s {}).sheet 0).key.tab 0).valid = true ∧ (tget {} ((s {}).sheet 0).key.tab 1023).valid = false ∧
    (s {}).coreReady coreA ∧ ((s {}).core coreA).pmpOk 1 0x2000008 8 = true ∧ ((s {}).core coreA).pmpOk 0 0x2001020 8 = true ∧
    ((s {}).core coreA).dataMachine = true ∧ (6 : Nat) < 7 := by
  simp only [State.coreReady, Scribe.quiet]
  decide +kernel
/-- A window register on the raw tensor 3 (07 R224), write-enabled or not. -/
def dwinW (wen : Bool) : Word := 0x0003000000000000 ||| (if wen then 1 else 0)
theorem hyp_ScribeWindowsAndFaults :
    let s := scrState { dwin := [(0, dwinW true), (1, dwinW false)] } 0
    s.coreLive coreA = true ∧ (s.sheet 0).phys 0 = some 0 ∧ winHandle (dwinW true) = 3 ∧ (dwinW true).getLsbD 0 = true ∧
    ((s.tensorAt 0 1).map fun t => t.isSealed) = some true ∧ s.windowAddr coreA 2 0 4 = none ∧ s.windowAddr coreA 0 4096 1 = none ∧
    ((s.windowAddr coreA 0 4092 4).map fun x => (x.1.isSealed, x.2)) = some (false, 0x1FFC) ∧ s.stalls 0 0x1FFC 4 = false ∧
    ((s.windowAddr coreA 1 0 4).map fun x => x.2) = some 0x1000 ∧ (dwinW false).getLsbD 0 = false ∧ (s.core coreA).fltBusy = false ∧
    (0x2F0 ≤ (0x2F0 : BitVec 12).toNat ∧ (0x2FF : BitVec 12).toNat ≤ 0x2FF ∧ ¬(0x300 : BitVec 12).toNat ≤ 0x2FF) ∧
    s.coreReady coreA ∧ (s.core coreA).pmpOk 0 0x1000000FFC 4 = true ∧ (s.core coreA).pmpOk 1 0x2003000 8 = true ∧
    (s.core coreA).dataMachine = true := by
  simp only [State.coreReady, Scribe.quiet]
  decide +kernel
/-- The memory path of sheet 0 with raw page 1 and sealed page 2. -/
def pagesW : MemPath := { dram := [(0x1003, 0xAB)], attrA := [(1, 1), (2, 3)], attrB := [(1, 1), (2, 3)], stalled := [63] }
theorem hyp_HostAccessesMemory :
    let s := stateOf { mem := pagesW }
    let up := stateOf { mode := .startUp }
    ({ s with dstate := .safe } : State).dstate = .safe ∧ s.dstate ≠ .safe ∧ regionOf (s.win4Addr 0x17FFFFFFFF) 1 = .dram 0 0x17FFFFFFFF ∧
    regionOf (s.win4Addr 0x17FFFFFFFF) 2 = .reserved ∧ s.stalls 0 0x1000 4 = false ∧ pagesW.win4Pages (pagesOf 0x1FFC 4) = true ∧
    pagesW.win4Pages (pagesOf 0x1FFC 5) = false ∧ (∀ p ∈ pagesOf 0x1FFC 5, pagesW.differs p = false) ∧
    regionOf 0x18000BFFFFF 1 = .store 0 0 0xBFFFFF ∧ regionOf 0x18000C00000 1 = .acc 0 0 0 ∧ regionOf 0x18000DFFFFF 2 = .reserved ∧
    (up.sheet 0).win4Sram = true ∧ ((stateOf { mode := .service }).sheet 0).win4Sram = false ∧ regOf 0x3FFFFF8 = none ∧
    accessAccepted ⟨true, 0x100001, 8, none⟩ = false ∧ accessAccepted ⟨true, 0, 4, none⟩ = false ∧
    accessAccepted ⟨false, 4, 4, none⟩ = true ∧ State.reset.ecb.ideKeys = none ∧
    ({ State.reset with ecb := { State.reset.ecb with ideKeys := some [1] } } : State).ecb.ideKeys ≠ none ∧ (s.sheet 0).mem.selfRefresh = false ∧ 63 ∈ (s.sheet 0).mem.stalled ∧
    0 ∉ (s.sheet 0).mem.stalled ∧ (s.sheet 0).mem.stalled.length < 2 ∧ (s.sheet 0).mem.stalled.Nodup := by decide
theorem test_win4_reads :
    (After (.win4Access 0x1002 none 2 {}) (stateOf { mem := pagesW })).out = [.readReply [0, 0xAB]] := by decide +kernel

/-! ### Partitions, contexts and queues (09) -/

/-- A descriptor of context 0, generation 0 and sequence number 0 (09 R266). -/
def descW (op sel plan seedptr argptr a0 a1 : Nat) : Desc :=
  { bytes := leBytes 1 op ++ leBytes 1 sel ++ leBytes 10 0 ++ leBytes 4 plan ++ leBytes 8 seedptr ++ leBytes 8 argptr ++ leBytes 8 a0 ++
      leBytes 8 a1 ++ leBytes 16 0
    seq := 0, checked := true, started := false, status := none, kind := 0, cflags := 0, info := 0, digest := 0, datum := 0, wants := 0
    seedBytes := none, doorbell := 0 }
/-- An ACTIVE queue of 16 entries each way with these fetched descriptors. -/
def queueW (l : List Desc) : Queue := { st := .active, sqlog := 4, cqlog := 4, sqbase := 1, cqbase := 2, fetched := l }
/-- The state with queue 0 as given and context 0 as given. -/
def queueState (x : Queue) (c : Ctx) : State :=
  { State.reset with dstate := .ready, queues := [(0, x)], ctxs := [(0, c)], parts := [(0, { sheets := 1, ports := 1, st := .running })] }
/-- A RUN of one step of plan 5. -/
def runD : Desc := descW 2 0 5 0 0 1 0

theorem hyp_ContextsFollowTheirCommands :
    let s (x : Part) (c : Ctx) : State := { State.reset with dstate := .ready, parts := [(0, x)], ctxs := [(0, c)] }
    let setup : Part := { sheets := 1, ports := 1, st := .setup }
    let tear : Ctx := { st := .tearing, tphase := 4, acks := [3] }
    let t := queueState (queueW [descW 11 0 0 0 0 0 0]) { st := .tearing }
    (s setup {}).partShares 0 = false ∧ (s setup {}).transitOk 0 setup.sheets = true ∧ (s setup {}).holdsOff setup = false ∧
    setup.locked = false ∧ ({ setup with st := .running } : Part).locked = true ∧ (s { setup with st := .running } {}).partIdle 0 = true ∧
    (s { setup with st := .running } { st := .opened }).partIdle 0 = false ∧ (s setup { st := .opened }).ctx 0 ≠ {} ∧
    (s setup { slotBase := 127, slotCnt := 1 }).slotRangeOk 0 = true ∧ (s setup { slotBase := 127, slotCnt := 2 }).slotRangeOk 0 = false ∧
    (1 : Byte) ≠ 0 ∧ (1 : Byte) ≠ 0 - 1 ∧ (255 : Byte) = 0 - 1 ∧
    t.headReady 0 11 = some (descW 11 0 0 0 0 0 0) ∧ dCtx (descW 11 0 0 0 0 0 0) = 0 ∧ tear.acks ≠ [] ∧ (3 : DevId) ∈ tear.acks ∧
    tear.timedOut = false ∧ (s setup tear).ports.any (fun y => y.2.owes 0) = false ∧
    (({ State.reset with ports := [(0, { lstate := .up, flitQ := [(2, [{ pk := ⟨1, false, false, false, 0, 0, 0, 0, 0, 0, 0, []⟩, begun := false
                                                                         kph := false, pieces := [] }])] })] } : State).ports.any fun y => y.2.owes 0) = true ∧
    (s setup { st := .tearing, tphase := 5 }).ctx 0 ≠ tear ∧ (s setup {}).flr.contains 0 = false ∧
    ({ State.reset with flr := [15] } : State).flr.contains 15 = true ∧
    (queueState (queueW [runD]) {}).head 0 = some runD ∧ ((queueState (queueW [runD]) {}).part 0).runs = [] := by decide
theorem test_kill_of_open : ((After (.ctxKill 0) (queueState {} { st := .opened })).ctx 0).st = .tearing := by decide
theorem hyp_QueueConfigurationWrites :
    let s := queueState {} {}
    s.dstate ≠ .safe ∧ s.dstate ≠ .startUp ∧ 0x0FFFFFF8FFFFFFFF &&& 0xF000000700000000 = 0 ∧ (s.ctx 0).st = .free ∧
    ((queueState {} { st := .opened }).ctx 0).st ≠ .free ∧ (s.queue 0).st = .disabled ∧ ((queueState (queueW []) {}).queue 0).st ≠ .disabled ∧
    4096 &&& queueReserved 0 = 0 ∧ 4096 &&& queueReserved 1 = 0 ∧ 0x0410000000000000 &&& queueReserved 2 = 0 ∧
    bits 0x0410000000000000 60 56 = 4 ∧ bits 0x0410000000000000 52 48 = 16 ∧ 0xFFFFFFFF &&& queueReserved 3 = 0 ∧ 1 &&& queueReserved 5 = 0 := by
  decide
theorem hyp_QueuesFollowTheirCommands :
    let x := queueW []
    let off : Queue := { x with st := .disabled }
    logOk 4 = true ∧ logOk 16 = true ∧ logOk 3 = false ∧ logOk 17 = false ∧
    (logOk off.sqlog && logOk off.cqlog && off.sqbase != 0 && off.cqbase != 0) = true ∧ x.st = .active ∧
    ((queueState { x with st := .error, err := 3 } {}).queue 0).st = .error ∧ ({ x with st := .draining } : Queue).fetched = [] ∧
    ({ x with st := .draining } : Queue).drainFetch = false ∧ ({ queueW [runD] with st := .draining } : Queue).fetched ≠ [] ∧
    x.func.toNat = 0 ∧ x.func.toNat ≠ 15 ∧ x.sqSize = 16 ∧ x.cqSize = 16 ∧ (15 : Nat) < x.sqSize ∧ x.sqSize ≤ 16 ∧
    (0 + x.cqSize - x.cqhead.toNat) % x.cqSize ≤ (x.cqtail.toNat + x.cqSize - x.cqhead.toNat) % x.cqSize ∧
    (x.cqtail.toNat + x.cqSize - x.cqhead.toNat) % x.cqSize < (1 + x.cqSize - x.cqhead.toNat) % x.cqSize := by decide
theorem test_tail_past_ring_fails :
    ((After (.sqTailDoorbell 0 0 16) (queueState (queueW []) {})).queue 0).err = 1 ∧
    ((After (.sqTailDoorbell 0 0 15) (queueState (queueW []) {})).queue 0).sqtail = 15 := by decide
theorem hyp_DescriptorsFetchedAndChecked :
    let s := queueState { queueW [] with sqtail := 8 } ctxW
    let d (x : Desc) : Desc := { x with checked := false }
    let t (x : Desc) (c : Ctx) : State := queueState (queueW [d x]) c
    s.fetchNext 0 = true ∧ (s.queue 0).ringPending = 8 ∧ (queueState (queueW []) ctxW).fetchNext 0 = false ∧ (d runD).bytes.length = 64 ∧
    (t runD ctxW).head 0 = some (d runD) ∧ (t runD ctxW).validateNext 0 = true ∧ descWellFormed (d runD) = true ∧
    descWellFormed (d (descW 12 0 0 0 0 0 0)) = false ∧ descArgs (d runD) ctxW.plans = true ∧ descArgs (d runD) [] = false ∧
    ((queueW []).nextSeq = 0) ∧ dGen runD = ctxW.gen ∧ dOp runD = 2 ∧ dSeedSel runD = 0 ∧ ctxW.func = (queueW []).func ∧
    ((t runD { st := .tearing, killing := true }).ctx 0).killing = true ∧ dOp (descW 11 0 0 0 0 0 0) = 11 := by decide
theorem hyp_CompletionsInTheirRing :
    let d : Desc := { runD with status := some stOk }
    let s := queueState { queueW [d] with cqtail := 15 } {}
    s.head 0 = some d ∧ (s.queue 0).cqRoom = false ∧ (queueState { queueW [d] with cqtail := 15, cqhead := 1 } {}).dstate ≠ .safe ∧
    ({ queueW [d] with cqtail := 15, cqhead := 1 } : Queue).cqRoom = true ∧ ((15 : Nat) + 1) % (queueW []).cqSize = 0 ∧
    (queueState (queueW []) {}).head 0 = none ∧ (queueW []).ringPending = 0 ∧ (queueState (queueW [runD]) {}).head 0 = some runD ∧
    runD.started = false ∧ runD.status = none ∧ (queueW [runD]).st ≠ .disabled := by decide
theorem test_completion_wraps_phase :
    ((After (.completionWrite 0 true) (queueState { queueW [{ runD with status := some stOk }] with cqtail := 15, cqhead := 1 } {})).queue 0).phase =
      false := by decide +kernel
theorem hyp_DescriptorsRun :
    let s (d : Desc) (c : Ctx) : State := queueState (queueW [d]) c
    let ready (d : Desc) (op : Nat) : Bool := (s d ctxW).headReady 0 op == some d && (s d ctxW).mayDispatch (dCtx d)
    let fence := descW 5 0 0 0 0 0 0
    let block := leBytes 8 4092 ++ leBytes 8 4 ++ leBytes 2 3 ++ leBytes 14 0
    ready runD 2 = true ∧ ready fence 5 = true ∧ ready (descW 4 1 0 32 0 0 0) 4 = true ∧ ready (descW 4 2 0 32 0 0 0) 4 = true ∧
    dSeedSel (descW 4 1 0 32 0 0 0) = 1 ∧ ready (descW 3 0 5 0 64 0 0) 3 = true ∧ ready (descW 1 0 6 0 64 8 1) 1 = true ∧
    ready (descW 6 0 0 0 64 0 0) 6 = true ∧ ready (descW 7 0 0 0 64 0 8) 7 = true ∧ ready (descW 8 0 0 0 0 1000 0) 8 = true ∧
    ready (descW 9 0 0 0 64 1 0) 9 = true ∧ ready (descW 10 0 5 0 64 0 0) 10 = true ∧
    (∀ y ∈ (s { fence with started := true } ctxW).queues, (∀ b ∈ y.2.bells, 0 ≤ b.2) ∧ ∀ e ∈ y.2.fetched, 0 ≤ e.doorbell) ∧
    copyBlock block = some (4092, 4, 3, 0) ∧ copyBlock (leBytes 18 0 ++ leBytes 14 2) = none ∧ (ctxW.planOf 5).isSome = true ∧
    (planW.tensors.find? fun t => t.handle == (3 : BitVec 16)).map (fun t => (t.isSealed, copyRangeOk t 4092 4, copyRangeOk t 4092 5)) =
      some (false, true, false) ∧
    (planW.tensors.find? fun t => t.handle == (9 : BitVec 16)) = none ∧ (ctxW.planOf 6) = none ∧ ctxW.plans.length < 64 ∧
    (s runD ctxW).snapOk 1000 = true ∧ (s runD ctxW).snapOk 999 = false ∧ (stateOf (sheetOf {})).divisionsHeld 0 = true ∧ (s runD ctxW).divisionsHeld 0 = false ∧
    (s runD ctxW).imageFits 0 { seed := none, step := 0, slots := [], tiles := [] } = true ∧
    (s (descW 11 0 0 0 0 0 0) { st := .killed }).headReady 0 11 = some (descW 11 0 0 0 0 0 0) ∧
    ({ State.reset.ecb with seedWait := [0], st := .ready } : Ecb).seedWait.head? = some 0 ∧ State.reset.ecb.signext.toNat < sigEnd ∧
    State.reset.ecb.signing.length < 64 := by decide +kernel
/-- Slice 2 of sheet 0, which holds the raw tensor 3, stalled or not. -/
def stallState (b : Bool) : State :=
  let s := queueState (queueW [runD]) ctxW
  { s with sheets := [(0, { mem := { stalled := if b then [sliceOf 0x1000] else [] } })] }
theorem hyp_DescriptorsRun_stalls :
    let t := tensorW 3 0 false 0x1000 4096
    (stallState true).copyStalls t 0 4 = true ∧ (stallState false).copyStalls t 0 4 = false ∧ (stallState true).tileStalls t 0 = true ∧
    (stallState false).tileStalls t 0 = false ∧ t.parts.length = 1 ∧ (∀ g ∈ pagesOf 0x1000 4, ((stallState false).sheet 0).mem.differs g = false) ∧
    (stallState false).imageStalls 0 { seed := none, step := 0, slots := [], tiles := [] } = false ∧ State.reset.ecb.st ≠ .error := by
  decide +kernel
/-- A record of a RUN's steps 0 to 1 covers the range (09 R270, SEAL_MANIFEST). -/
theorem hyp_DescriptorsRun_cover :
    let r : RunRecord := { run := { runW with committed := 2 }, planHash := [], cls := 0, hOut := [], last := 1, broken := false }
    (coverOf 0 1 [r]).map List.length = some 1 ∧ coverOf 0 2 [r] = none ∧ planW.span = [] := by decide

/-! ### Links (10) and charts (11) -/

/-- A packet of context 0 for device 2 (10 R306), of a type. -/
def packetW (ty : Byte) (ctx : BitVec 12) (gen : Byte) : Packet :=
  { ptype := ty, poison := false, prov := false, enc := false, src := 1, dst := 2, ctx := ctx, gen := gen, dsheet := 0, route := 0, tspec := 0
    body := [] }
/-- That packet as it waits to be sent. -/
def waitW : TxPacket := { pk := packetW 4 0 0, begun := false, kph := false, pieces := [] }
/-- The state with port 0 as given, in partition 0 RUNNING, and port 63 as given, in none; device 2 is reached over port 63. -/
def linkState (x y : Port) : State :=
  { State.reset with
    dstate := .ready, ports := [(0, x), (63, y)], parts := [(0, { sheets := 1, ports := 1, st := .running })]
    chart := { State.reset.chart with routes := [(2, { valid := true, port := 63 })] } }
/-- The partner's parameters that fit or, by their chart number, do not. -/
def paramsW (chartId : BitVec 16) (enc : Bool) : PartnerParams :=
  { chartId := chartId, devId := 1, port := 0, enc := enc, precode := false, delayNs := 91, keyUnwraps := true
    seeds := [1, 2, 3, 4] }
theorem hyp_PortsTrainAndLeaveUp :
    let s (x : Port) : State := linkState x x
    (s {}).dstate ≠ .safe ∧ (s {}).portLocked 0 = true ∧ (s {}).portLocked 63 = false ∧ ((s { en := true }).port 63).en = true ∧
    (s { lstate := .param }).paramsFit 63 (paramsW 0 false) = true ∧ (s { lstate := .param }).paramsFit 63 (paramsW 1 false) = false ∧
    ({ s { lstate := .param, enc := true } with ecb := { State.reset.ecb with chartKey := some [], notrdy := false, pool := [0, 0] } } : State).paramsFit
      63 (paramsW 0 true) = true ∧
    (s { lstate := .param, enc := true }).paramsFit 63 (paramsW 0 true) = false ∧ (s {}).chart.reg.upport.toNat ≠ 63 ∧
    ((s {}).chart.reg.upport.toNat = 255) ∧ (paramsW 0 false).delayNs.toNat = 91 ∧ (1024 : Nat) < 1025 ∧
    ((linkState {} { lstate := .detect, quiet := true }).port 63).quiet = true ∧
    ((linkState {} { lstate := .align, retraining := true }).port 63).retraining = true ∧ LaneOrder.reversed ≠ LaneOrder.other := by decide
theorem test_retrain_keeps_numbers :
    ((After (.vjRetrain 63) (linkState {} { lstate := .up, txSeq := 9 })).port 63).lstate = .align ∧
    ((After (.vjRetrain 63) (linkState {} { lstate := .up, txSeq := 9 })).port 63).txSeq = 9 := by decide
/-- A port UP with a full count of credits. -/
def upW : Port := { lstate := .up, credits := [(1, 32), (2, 160), (3, 160)] }
/-- The port with packets waiting on some lanes. -/
def laneW (l : List Nat) (r1 r2 : Nat) : Port := { upW with flitQ := l.map fun v => (v, [waitW]), vl1Run := r1, vl2Run := r2 }
theorem hyp_LinkStreamsReplayAndDeliver_sending :
    let s (x : Port) : State := linkState upW x
    let lane (x : Port) (v : Nat) : Bool := (x.laneHead v).isSome && decide (0 < tget 0 x.credits v) && !(s x).sendHeld 63
    let sync : SentSync := { seq := 0, kph := false, body := [] }
    upW.encon = false ∧ ({ upW with vl0Run := 0xFFFF } : Port).syncSlots = 16 ∧ ({ upW with vl0Run := 0x7FFF } : Port).syncSlots = 15 ∧
    (laneW [1] 0 0).flitsWait = true ∧ upW.flitsWait = false ∧ ({ upW with resendSyncs := [sync] } : Port).resendSyncs ≠ [] ∧
    ({ upW with syncQ := [syncW 1], replaySyncs := List.replicate 63 sync } : Port).replaySyncs.length < 64 ∧
    64 ≤ ({ upW with syncQ := [syncW 1], replaySyncs := List.replicate 64 sync } : Port).replaySyncs.length ∧
    lane (laneW [1, 2, 3] 15 0) 1 = true ∧ (laneW [1, 2, 3] 15 0).vl1Run < 16 ∧ lane (laneW [1, 2] 16 0) 2 = true ∧
    lane (laneW [1, 3] 17 0) 3 = true ∧ lane (laneW [1] 16 0) 2 = false ∧ lane (laneW [2, 3] 0 2) 2 = true ∧ lane (laneW [2, 3] 0 3) 3 = true ∧
    ((laneW [1] 0 0).laneHead 1).map (fun k => k.pk.poison) = some false ∧ upW.laneHead 1 = none ∧
    ({ upW with encon := true, txCount := 2 ^ 40 - 1 } : Port).txCount < 2 ^ 40 := by decide
theorem hyp_LinkStreamsReplayAndDeliver_receiving :
    let msg := syncUnit false 0 65535 65535 (List.replicate 48 0)
    let flit := flitUnits 1 0 65535 65535 0 false []
    let c (b : List Byte) : Nat := recField b 0 1
    let good (b : List Byte) : Bool := b.length == 64 && parityOk (c b) && controlOk (c b) false && recField b 60 4 == crc32c (b.take 60)
    good msg = true ∧ bits (c msg) 7 6 = 2 ∧ good (msg.set 63 0) = false ∧ parityOk (c (msg.set 0 0)) = false ∧
    parityOk (c [0x8C]) = true ∧ controlOk (c [0x8C]) false = false ∧ precedes 65535 0 = true ∧ precedes 0 0 = false ∧ precedes 0 32767 = true ∧
    precedes 0 32768 = false ∧ flit.length = 4 ∧ (flit.all fun b => b.length == 64 && parityOk (c b) && bits (c b) 7 6 == 1) = true ∧
    (flit.map fun b => bits (c b) 5 4) = [0, 1, 2, 3] ∧ (flit.map fun b => bits (c b) 3 2) = [1, 1, 1, 1] ∧
    recField (flit.flatMap id) 252 4 = crc32c ((flit.flatMap id).take 252) ∧ BitVec.ofNat 16 (recField (flit.headD []) 1 2) = 0 ∧
    bits (recField (flit.headD []) 7 1) 7 6 = 0 ∧ laneBuffer 1 = 32 ∧ laneBuffer 2 = 160 := by decide +kernel
theorem test_sync_in_order :
    let msg := syncUnit false 0 65535 65535 (List.replicate 48 0)
    ((After (.unitReceive 63 (.bytes msg false)) (linkState {} upW)).port 63).rxSync = 1 := by decide +kernel
/-- A written tile header with its seal over an empty body (08 R241, R242). -/
def tileHeaderW : List Byte :=
  let h := List.replicate 21 0 ++ [2] ++ List.replicate 2 0
  h ++ leBytes 8 (sealOf h [])
theorem hyp_LinkStreamsReplayAndDeliver_packets :
    let held (k : Packet) : RxPacket := { need := 1, bytes := (packetHeader k 1 ++ List.replicate 220 0).take 220 }
    let s (k : Packet) : State := linkState { upW with rxPacket := [(3, some (held k))] } upW
    let x (k : Packet) : Port := (s k).port 0
    let seed := tileHeaderW
    tget none (x (packetW 1 0 0)).rxPacket 3 = some (held (packetW 1 0 0)) ∧ (held (packetW 1 0 0)).parse = some { packetW 1 0 0 with body := [0] } ∧
    ({ need := 1 } : RxPacket).parse = none ∧ (packetW 1 0 0).enc = false ∧ (s (packetW 1 0 0)).packetOk 0 3 (packetW 1 0 0) = true ∧
    (s (packetW 1 0 0)).packetOk 0 2 (packetW 1 0 0) = false ∧ (packetW 1 0 9).gen ≠ ((s (packetW 1 0 9)).ctx 0).gen ∧
    (s { packetW 1 0 0 with prov := true }).epochDrops { packetW 1 0 0 with prov := true } = true ∧ (s (packetW 1 0 0)).epochDrops (packetW 1 0 0) = false ∧
    (packetW 1 0 0).dst ≠ (s (packetW 1 0 0)).chart.reg.devId ∧ (s (packetW 1 0 0)).routePort 2 = some 63 ∧
    recWritten seed = true ∧ recSeal seed = sealOf seed (seed.drop 32) ∧ recSeal (seed.set 0 1) ≠ sealOf (seed.set 0 1) ((seed.set 0 1).drop 32) ∧
    (packetW 2 0 0).ptype ≠ 1 ∧ (2 : Nat) ^ 39 ≤ ({ upW with encon := true, txSyncCount := 2 ^ 39 } : Port).txSyncCount ∧
    ({ laneW [1] 0 0 with credits := [] } : Port).laneHead 1 ≠ none ∧ tget 0 ({ laneW [1] 0 0 with credits := [] } : Port).credits 1 = 0 := by decide +kernel

/-- A TILE body that passes the check at receipt, and one that does not. -/
theorem hyp_LinkStreamsReplayAndDeliver_tile (b : List Byte) :
    let i := recW 7 10 b ++ b
    checkTile (i.take 32) (i.drop 32) { tensor := recTensor i, tile := recTile i, fmt := none } = none ∧
    checkTile [] [] { tensor := 0, tile := 0, fmt := none } = some 0x102 := by
  intro i
  have h (v : Nat) : (mkRecord (hdrW 7 10) false v ++ b).take 32 = mkRecord (hdrW 7 10) false v ∧
      (mkRecord (hdrW 7 10) false v ++ b).drop 32 = b := ⟨rfl, rfl⟩
  refine ⟨?_, by decide⟩
  rw [show i.take 32 = recW 7 10 b from (h _).1, show i.drop 32 = b from (h _).2]
  exact (recW_ok b).1
/-- The value of a polynomial whose leading coefficients are 0. -/
theorem gfEval_zeros (n x : Nat) (l : List Nat) : gfEval (List.replicate n 0 ++ l) x = gfEval l x := by
  have z : gfMul 0 x = 0 := by simp [gfMul, List.range, List.range.loop, gfDouble]
  induction n with
  | zero => rfl
  | succ n ih => simpa [gfEval, List.replicate_succ, z] using ih
/-- Sixteen upset symbols: the product of the first fifteen factors of the generator polynomial (10 R298). -/
def upsetW : List Nat := [1, 792, 769, 477, 965, 180, 5, 833, 936, 650, 38, 594, 684, 266, 944, 688]
/-- Their syndromes: all but the last are 0. -/
theorem upsetW_syndromes : rsSyndromes upsetW = List.replicate 15 0 ++ [542] := by
  have p : (List.range 16).map gfExp = [1, 2, 4, 8, 16, 32, 64, 128, 256, 512, 9, 18, 36, 72, 144, 288] := by decide +kernel
  have q : [1, 2, 4, 8, 16, 32, 64, 128, 256, 512, 9, 18, 36, 72, 144, 288].map (gfEval upsetW) = List.replicate 15 0 ++ [542] := by
    decide +kernel
  rw [← q, ← p]
  simp only [rsSyndromes, List.map_map, Function.comp_def]
theorem rsSyndromes_zeros (n : Nat) (l : List Nat) : rsSyndromes (List.replicate n 0 ++ l) = rsSyndromes l := by
  unfold rsSyndromes
  exact List.map_congr_left fun i _ => gfEval_zeros n (gfExp i) l
theorem rsDecode_clean (c : List Nat) (h : (rsSyndromes c).all (· == 0) = true) : rsDecode c = some (c.take 256, false) := by
  rw [rsDecode]; exact if_pos h
theorem rsDecode_lost (c : List Nat) (h : (rsSyndromes c).all (· == 0) = false) (e : rsErrors (rsSyndromes c) = none) :
    rsDecode c = none := by
  rw [rsDecode]; simp only [h, e, Bool.false_eq_true, if_false]
/-- A word of zeros decodes, since the code is linear (10 R298); one with those upset symbols does not. -/
theorem rsDecode_words (n : Nat) :
    rsDecode (List.replicate n 0 ++ []) = some ((List.replicate n 0 ++ []).take 256, false) ∧
    rsDecode (List.replicate n 0 ++ upsetW) = none := by
  have y : rsSyndromes (List.replicate n 0 ++ upsetW) = List.replicate 15 0 ++ [542] := (rsSyndromes_zeros n _).trans upsetW_syndromes
  refine ⟨rsDecode_clean _ ?_, rsDecode_lost _ ?_ ?_⟩
  · rw [rsSyndromes_zeros]; decide +kernel
  · rw [y]; decide +kernel
  · rw [y]; decide +kernel
/-- What lane `l` carries of a group whose codeword A ends with those symbols. -/
def laneUpset (l : Nat) : List Nat := List.replicate 128 0 ++ (List.range 4).flatMap fun i => [upsetW.getD (4 * i + l) 0, 0]
/-- The codewords on the lanes of a group of zeros, and of one that ends with those symbols. -/
theorem lanes_words : fromLanes (List.replicate 4 (List.replicate 136 0)) = (List.replicate 272 0 ++ [], List.replicate 272 0) ∧
    fromLanes ((List.range 4).map laneUpset) = (List.replicate 256 0 ++ upsetW, List.replicate 272 0) := by decide +kernel
/-- What a group gives, from its two codewords. -/
theorem group_of (sts : List Nat) (l : List (List Nat)) (a b : List Nat) (h : fromLanes l = (a, b)) :
    (∀ x y, rsDecode a = some x → rsDecode b = some y → (receiveGroup sts l).1.map (fun x => x.2) = some (x.2 || y.2)) ∧
    (rsDecode a = none → (receiveGroup sts l).1 = none) := by
  unfold receiveGroup
  rw [h]
  exact ⟨fun x y p q => by simp only [p, q, Option.map], fun p => by simp only [p]⟩
theorem hyp_LinkStreamsReplayAndDeliver_group :
    (receiveGroup [1, 2, 3, 4] (List.replicate 4 (List.replicate 136 0))).1.map (fun x => x.2) = some false ∧
    (receiveGroup [1, 2, 3, 4] ((List.range 4).map laneUpset)).1 = none := by
  have z := (rsDecode_words 272).1
  exact ⟨(group_of _ _ _ _ lanes_words.1).1 _ _ z (by rw [List.append_nil] at z; exact z), (group_of _ _ _ _ lanes_words.2).2 (rsDecode_words 256).2⟩

/-- A state whose chart is as given, with port 3 up toward the datum device and port 4 down from here, both UP. -/
def chartState (c : Chart) (dev : BitVec 12) : State :=
  { State.reset with
    dstate := .ready, ports := [(3, { lstate := .up }), (4, { lstate := .up })]
    chart := { c with reg := { chartId := 1, devId := dev, datumDev := 0, size := 2, upport := 3, down := 0x10 } } }
theorem hyp_ChartsAlignAndLock :
    let s := chartState {} 5
    let d := chartState { st := .startUp, lock := true } 0
    s.chart.writable = true ∧ s.isDatum = false ∧ d.isDatum = true ∧ d.chart.writable = false ∧ s.upPort = some 3 ∧ s.downPorts = [4] ∧
    s.treePort 3 = true ∧ s.treePort 5 = false ∧ (s.epoch 0).st ≠ .opened ∧ (chartState { st := .aligning } 5).chart.writable = false ∧
    (2048 : Int).natAbs ≤ 2048 ∧ 2048 < (-2049 : Int).natAbs ∧ (256 : Int).natAbs ≤ 256 ∧ s.portDelay 3 = 0 ∧
    ({ d.chart with childSums := [(4, 1)] } : Chart).joined = d.chart.reg.size.toNat ∧
    d.chart.reg.size.toNat < ({ d.chart with childSums := [(4, 2)] } : Chart).joined ∧ d.chart.serviceAt = none ∧
    (chartState { st := .startUp, serviceAt := some 7 } 5).chart.serviceAt = some 7 ∧ (syncW 1).num = 0 ∧ s.now ≤ (syncW 4).operand.toNat ∧
    (syncW 4).operand.toNat < ({ s with chart := { s.chart with datum := 256 } } : State).now := by decide
theorem hyp_ChartsAlignAndLock_calm :
    let s := chartState {} 5
    (∀ k, (s.epoch k).st ≠ .opened) ∧ (∀ k, (s.epoch k).st ≠ .launch) ∧ (∀ k, (s.epoch k).st = .launch → (s.epoch k).votes = []) ∧
    s.ecb.st ≠ .ready ∧ ({ s with ecb := { s.ecb with st := .ready } } : State).ecb.st = .ready ∧ (s.port 3).pdev = s.chart.reg.datumDev := by
  have h (k : Nat) : ((chartState {} 5).epoch k).st = .idle := rfl
  refine ⟨fun k q => ?_, fun k q => ?_, fun k q => ?_, by decide, by decide, by decide⟩ <;> · rw [h k] at q; cases q
theorem test_sixteenth_datum_locks :
    let s := chartState { st := .aligning, stepped := true, goodRun := 15 } 5
    ((After (.datumReceive 3 0 0 0 256) s).chart.lock = true) ∧ ((After (.datumReceive 3 0 0 0 257) s).chart.lock = false) := by decide +kernel
/-- A chart plan: one span tree, number 1, from this device to its parent over port 3 and its child over port 4 (11 R335). -/
def treeW (up : Bool) : SpanTree := { dev := 5, num := 1, parent := if up then some 3 else none, children := [4] }
/-- A state of a chart RUN of that plan: context 0 on partition 0, its epoch in a state, its RUN with `n` steps provisional. -/
def epochState (e : Epoch) (up : Bool) (n : Nat) (x : Part) : State :=
  let s := chartState { epochs := [(0, e)] } 5
  let pl : Plan := { planW with trees := [treeW up], epochTree := some 1, span := [5, 6] }
  { s with
    parts := [(0, { x with sheets := 1, ports := 0x18, st := .running, runs := [{ runW with chart := true, provisional := n }] })]
    ctxs := [(0, { ctxW with plans := [{ handle := 5, hash := [], cls := 0, plan := pl }] })] }
theorem hyp_EpochsLaunchVoteAndRollBack :
    let s (e : Epoch) : State := epochState e true 0 {}
    let m : SyncMsg := { syncW 2 with num := 1 }
    let fail : Word := verdictWord 2 false 0
    let cmp (v : Nat) : Word := verdictWord 1 true v
    (s {}).msgCurrent 4 m = true ∧ (s {}).msgCurrent 4 { m with gen := 1 } = false ∧ m.num ≠ 0 ∧
    ((s {}).part ((s {}).ctxPart (msgCtx m))).sheetList ≠ [] ∧ ((s {}).part 0).runOf 0 ≠ none ∧ ((s {}).runPlan 0 0).isSome = true ∧
    (s {}).epochTree 0 = some (treeW true) ∧ (epochState {} false 0 {}).epochTree 0 = some (treeW false) ∧
    ((s { st := .launch, launchAt := some 3 }).epoch 0).launchAt = some 3 ∧ ((s { st := .launch, launchAt := some 3 }).epoch 0).votes = [] ∧
    (({ s { st := .launch, launchAt := some 3 } with chart := { (s { st := .launch, launchAt := some 3 }).chart with st := .service } } : State).epoch 0).st =
      .launch ∧ (s {}).chart.st ≠ .unlocked ∧ (s {}).chart.st ≠ .service ∧ (4 : PortId) ∈ (treeW true).children ∧ (3 : PortId) ∉ (treeW true).children ∧
    treeInputs (treeW true) = [none, some 4] ∧ (treeW true).children.Nodup ∧ verdictOf fail = 2 ∧ verdictOf (cmp 1) = 1 ∧
    (cmp 1).getLsbD 61 = true ∧ (cmp 1).toNat % 2 ^ 61 ≠ (cmp 2).toNat % 2 ^ 61 ∧ verdictOf (verdictWord 3 false 0) = 3 ∧
    ((s { st := .opened, votes := [(none, cmp 1)] }).epoch 0).votes = [(none, cmp 1)] ∧
    (epochState {} true 1 {}).part 0 ≠ (s {}).part 0 ∧ planW.epochLen ≤ 1 ∧ runW.total ≤ runW.committed + 2 ∧
    ((s {}).part 0).portList.any (fun n => ((s {}).port n).owes 0) = false ∧ ((s {}).part 0).cur ≠ some 0 ∧
    (epochState { st := .opened } true 0 { cur := some 0, faults := [⟨0x340, 0, 0, 0, none, false⟩] }).epochTree 0 ≠ none ∧ planW.compared = [] := by
  decide

/-! ### Faults (13), hangs, resets and dumps (14), field test (15) -/

/-- A message of physical parcel 0 of sheet 0, level 3, of a kind and severity. -/
def msgW (kind : BitVec 12) (sev : BitVec 4) : FaultMsg :=
  { source := sourceId 3 0 0 0, kind := kind, sev := sev, ctx := 0, gen := 0, scribe := false, overrun := false, again := false, op := 0
    temp := 0, volt := 0, mseq := 0, datum := 0, address := 0, step := 0, detail := 0 }
/-- An open window of that source at a rung. -/
def winW (rung : BitVec 4) (part : Option PartId) : Window :=
  { kind := 0x201, source := sourceId 3 0 0 0, rung := rung, part := part, st := 1 }
/-- A state with a device collector and messages on their way to it; sheet 0 is of partition 0, RUNNING. -/
def colState (c : Collector) (l : List FaultMsg) : State :=
  { State.reset with dstate := .ready, col := c, devWire := l, parts := [(0, { sheets := 1, ports := 1, st := .running })] }
theorem hyp_FaultsAreCollectedAndEscalated :
    let n (k : Nat) : List FaultMsg := List.replicate k (msgW 0x106 1)
    let s := colState {} [msgW 0x201 2]
    let w (rung : BitVec 4) (p : Option PartId) : State := colState { windows := [(255, winW rung p)] } []
    s.nextMsg = some ([], msgW 0x201 2, []) ∧ (colState {} []).nextMsg = none ∧
    (colState { kept := n 896 } [msgW 0x201 2, msgW 0x106 1]).nextMsg = some ([msgW 0x201 2], msgW 0x106 1, []) ∧
    s.severityOf (msgW 0x106 1) = 1 ∧ s.severityOf (msgW 0x201 2) = 2 ∧ s.msgPart (msgW 0x201 2) = some 0 ∧ s.freeWindow = some 1 ∧
    (s.openWindows.find? fun w => w.2.kind == 0x201 && w.2.source == sourceId 3 0 0 0) = none ∧
    ((w 1 none).openWindows.find? fun w => w.2.kind == 0x201 && w.2.source == sourceId 3 0 0 0).isSome = true ∧
    s.severityOf (msgW 0x110 0) = 4 ∧ s.severityOf (msgW 0x611 7) = 7 ∧ srcLevel (sourceId 3 0 0 0) ≤ 3 ∧
    ((w 1 none).window 255).rung = 1 ∧ ((w 2 (some 0)).window 255).part = some 0 ∧ ((w 3 none).window 255).rung = 3 ∧
    ((s.sheet 0).pmap.contains (srcParcel (sourceId 3 0 0 0))) = true ∧ ((w 2 (some 0)).part 0).st = .running ∧
    (w 1 none).mayClose (winW 1 none) = true ∧ (colState { unwritten := [0] } []).mayClose (winW 1 none) = false ∧
    (0x0000000100000001 : Word) &&& 0x7FFF0000FFF00000 = 0 ∧ bits 0x00000001000F4240 19 0 = 1000000 ∧ bits 0x00000001000F4240 47 32 = 0x1 ∧
    bits 0xFF 7 0 = 255 ∧ s.dstate ≠ .safe ∧ (0x1FF : Word) &&& 0xFFFFFFFFFFFFFE00 = 0 ∧ (0x1FF : Word).getLsbD 8 = true := by
  decide +kernel
theorem hyp_FaultsAreCollectedAndEscalated_queues :
    let h (n : Nat) (m : FaultMsg) : State :=
      { colState {} [] with sheets := [(0, { wire := [m], col := { queue := List.replicate n (msgW 0x106 1) } })] }
    let r (t hd : BitVec 16) : Collector := { ringen := true, rlog := 4, rtail := t, rhead := hd, kept := [msgW 0x201 2] }
    ((h 223 (msgW 0x106 1)).sheet 0).col.queue.length < 224 ∧ 224 ≤ ((h 224 (msgW 0x106 1)).sheet 0).col.queue.length ∧
    ((h 255 (msgW 0x201 2)).sheet 0).col.queue.length < 256 ∧ 256 ≤ ((h 256 (msgW 0x201 2)).sheet 0).col.queue.length ∧
    (msgW 0x106 1).sev.toNat < 2 ∧ 2 ≤ (msgW 0x201 2).sev.toNat ∧ ((r 15 1).rtail.toNat + 1) % 2 ^ (r 15 1).rlog.toNat = 0 ∧
    (0 : Nat) ≠ (r 15 1).rhead.toNat % 2 ^ (r 15 1).rlog.toNat ∧ (0 : Nat) = (r 15 0).rhead.toNat % 2 ^ (r 15 0).rlog.toNat := by decide +kernel
theorem hyp_FaultsAreCollectedAndEscalated_more :
    let s := colState {} []
    let open_ := colState { windows := [(1, { winW 1 none with st := 1 })] } []
    open_.winState (open_.window 1) = 1 ∧ s.winState (s.window 1) ≠ 1 ∧ s.col.unwritten = [] ∧ s.col.recentResets = [] ∧
    (let p : RecPair := { a := some { seq := 1, body := .collector 0 0 0 } }
     p.current.map fun x => x.seq.toNat) = some 1 ∧ s.msixMask.contains (0, s.col.rvec) = false ∧
    ({ s with msixMask := [(0, s.col.rvec)] } : State).msixMask.contains (0, s.col.rvec) = true ∧
    ({ s with dstate := .safe } : State).dstate = .safe ∧ (s.sheet 0).pmap.idxOf? 0 = some 0 := by decide
theorem test_window_opens :
    let t := After (.faultRaise true true false) (colState {} [msgW 0x201 2])
    (t.window 1).kind = 0x201 ∧ (t.window 1).rung = 1 ∧ (t.window 1).st = 1 := by decide +kernel

/-- A partition with a step of context 0 on sheet 0, with an engine that has not arrived. -/
def lateState (x : Part) : State :=
  let up : EngSetup := { parcel := 0, pc := 0, progUnit := 0, words := [], tds := [], carriedRows := [], carriedBlocks := [] }
  { stateOf (sheetOf { st := .run, setup := some up }) with parts := [(0, x)] }
theorem hyp_HangsAreIsolatedAndResetsReset :
    let s := lateState partW
    let iso := lateState { partW with hang := .isolation, suspects := [0], cur := none, phase := .none, trialRan := true, runs := [] }
    (s.part 0).phase = .running ∧ ((s.stepEngines 0).filter fun e => !s.hasArrived e) = [engA] ∧ (s.sheet 0).phys 0 = some 0 ∧
    runW.chart = false ∧ (s.ctx 0).st = .opened ∧ ((lateState { partW with hang := .halted, suspects := [0], stuck := [engA] }).part 0).hang = .halted ∧
    (iso.part 0).hang = .isolation ∧ ((iso.part 0).cur = none) ∧ iso.hasWork 0 0 = false ∧ s.hasWork 0 0 = true ∧
    ((lateState { partW with hang := .isolation, suspects := [] }).part 0).suspects = [] ∧ s.pwr.down = false ∧ maskSheets 1 = [0] ∧
    maskSheets 0x8000 = [15] ∧ maskSheets 3 = [0, 1] ∧ s.partOf 0 = some 0 ∧ s.partOf 1 = none ∧ (17 : BitVec 5).toNat = 17 ∧
    17 < (18 : BitVec 5).toNat ∧ (s.sheet 0).pmap.contains 0 = true ∧ (s.sheet 0).pmap.contains 16 = false ∧ (s.sheet 0).pmap.idxOf? 0 = some 0 ∧
    twf {} s.ctxs = true ∧ (lateState { partW with st := .resetting, sheetsReset := true }).part 0 ≠ s.part 0 ∧
    s.rst.parcels = [] ∧ s.rst.sheets = [] ∧ s.rst.warm = false ∧ s.ecb.st ≠ .ready ∧ (stateOf { mode := .off }).sheet 0 ≠ s.sheet 0 := by decide
theorem hyp_HangsAreIsolatedAndResetsReset_more :
    let s := lateState partW
    s.pwr.ref100 = true ∧ (lateState { partW with st := .setup, runs := [], cur := none, phase := .none }).partOf 0 = some 0 ∧
    ({ s with rst := { s.rst with parcels := [(0, 0)] } } : State).rst.parcels ≠ [] ∧
    ({ s with rst := { s.rst with sheets := [0] } } : State).rst.sheets ≠ [] ∧ (s.sheet 0).mode ≠ .off ∧
    ({ s with rst := { s.rst with warm := true }, ecb := { s.ecb with st := .recovery } } : State).ecb.st = .recovery ∧
    s.captureBlocks [engA] ≠ [] ∧ ((lateState { partW with hang := .halted }).part 0).suspects = [] ∧ s.col.unwritten = [] := by decide
theorem test_warm_reset : (After .rstWarm (lateState partW)).dstate = .recovery ∧ (After .rstWarm (lateState partW)).rst.last = 4 := by
  decide +kernel

/-- Sheet 0 in SERVICE with field-test state, in a partition in SETUP or in none. -/
def ftState (f : FieldTest) (x : Sheet) (setup : Bool) : State :=
  { State.reset with
    dstate := .ready, sheets := [(0, { x with mode := .service, ft := f })]
    parts := if setup then [(0, { sheets := 1, ports := 1, st := .setup })] else [(0, { sheets := 1, ports := 1, st := .running })] }
theorem hyp_FieldTestRoundsAndRotation :
    let s (f : FieldTest) : State := ftState f {} true
    let hot : Engine := { st := .run }
    let full : Sheet := { engines := (List.range 12).map fun i => (i, hot), thm := { tmax := 360 } }
    let k : FieldTest := { st := .kak }
    (s {}).partOf 0 = some 0 ∧ ((s {}).part 0).st = .setup ∧ ((ftState {} {} false).part 0).st = .running ∧ 16 < ((s {}).sheet 0).ring.length ∧
    ((s {}).sheet 0).test = some 17 ∧ ((s {}).sheet 0).standing = some 16 ∧ ({ fenced := 0x3 } : Sheet).ring.length = 16 ∧
    (s {}).ecb.packs = [] ∧ k.testCode = 1 ∧ ({ st := .squall } : FieldTest).testCode = 3 ∧ ((s {}).hist 17).count = 0 ∧
    sremove [3] 3 = [] ∧ sremove [3, 4] 3 = [4] ∧
    4 * (({} : FieldTest).tmin.toNat : Int) ≤ full.thm.tmax.toInt ∧ full.thm.tmax.toInt < 400 ∧
    12 ≤ ((List.range full.pmap.length).filter fun l => (full.engine l).st == .run).length ∧ full.thm.step = 0xA ∧
    ({} : Sheet).nextTest = some 0 ∧ ({} : Sheet).standing ≠ some 0 ∧ ({} : Sheet).pmap.contains 0 = true ∧
    ({ test := some 15 } : Sheet).nextTest = some 16 ∧ ({} : FieldTest).roten = true ∧ ({} : Sheet).changes.contains .advance = false := by decide
/-- The output of an item without a tile, as it expects it. -/
def itemW : ItemOutput := { expected := shake256 16 [] }
theorem hyp_FieldTestRoundsAndRotation_items :
    itemPasses itemW 0 = true ∧ (∀ o : ItemOutput, itemPasses o 0x103 = false) ∧ ({ st := .wait } : FieldTest).testCode = 0 := by
  refine ⟨?_, fun o => rfl, rfl⟩
  simp [itemPasses, itemW]
theorem test_kak_good_goes_wait :
    ((State.doTestItem (ftState { st := .kak } {} true) 0 17 true 0 0 false).sheet 0).ft.st = .wait ∧
    ((State.doTestItem (ftState { st := .kak } {} true) 0 17 true 0 0 false).sheet 0).ft.rounds = 1 := by decide +kernel

/-! ### Ecbumos (16), counters and dumps (17, 14), power and package (18, 19) -/

/-- A READY or other state of Ecbumos. -/
def ecbState (e : Ecb) : State := { State.reset with dstate := .ready, ecb := e }
/-- Ecbumos READY, its generator in service. -/
def readyW : Ecb := { st := .ready, tst := .run, notrdy := false, inst := true, idSeed := some [1] }
theorem hyp_MailboxSessionsKeysAndStates :
    let s := ecbState readyW
    s.dstate ≠ .safe ∧ readyW.busy = false ∧ ({ readyW with busy := true, cmd := 0x11 } : Ecb).cmd.toNat = 0x11 ∧ readyW.role ≠ .officer ∧
    ({ readyW with role := .officer } : Ecb).role = .officer ∧ readyW.officer = none ∧ readyW.reqs.toNat < 2 ^ 48 - 1 ∧
    readyW.pool.length < 2 ∧ 2 ≤ ({ readyW with pool := [0, 0] } : Ecb).pool.length ∧ ¬2 ^ readyW.rslog.toNat ≤ readyW.reqs.toNat ∧
    2 ^ ({ readyW with rslog := 10, reqs := 1024 } : Ecb).rslog.toNat ≤ 1024 ∧ ({ readyW with fails := 7 } : Ecb).fails + 1 = 8 ∧
    ({ readyW with locked := true } : Ecb).locked = true ∧ ({ readyW with nonce := some [1], len := 2820 } : Ecb).len.toNat = 2820 ∧
    ({ readyW with nonce := some [1], len := 16 } : Ecb).len.toNat = 16 ∧ ({ readyW with len := 64 } : Ecb).len.toNat = 64 ∧
    ({ readyW with len := 40 } : Ecb).len.toNat = 40 ∧ (20 : Word).toNat % 32 = 20 ∧ (21 : Word).toNat % 32 = 21 ∧ (10 : Word).toNat % 32 = 10 ∧
    ({ readyW with len := 32 } : Ecb).len.toNat ≤ 32 ∧ ({ readyW with tst := .raw } : Ecb).tst = .raw ∧ (4096 : Word).toNat ≤ 4096 ∧
    4096 < (4097 : Word).toNat ∧ ({ readyW with hwk := some [] } : Ecb).hwk = some [] ∧ readyW.hwk = none := by decide
theorem hyp_MailboxSessionsKeysAndStates_records :
    (∀ t ∈ [RecType.officer, .keyStore, .svn], ∀ p, (State.reset.records t 0).current = some p → p.seq.toNat < 2 ^ 64 - 1) ∧
    readyW.seedWait = [] ∧ (ecbState { readyW with role := .officer, hwk := some [1], pool := [0, 0] }).ecb.pool.length = 2 ∧
    readyW.fwsvn.toNat ≤ readyW.minsvn.toNat ∧ ({ readyW with idSeed := none } : Ecb).idSeed = none ∧ readyW.signing = [] := by decide
theorem test_logout : (After .logout (ecbState { readyW with role := .officer })).ecb.role = .none := by decide
/-- The header of a survey pack with no body (15 R406): one item, LEN 64, its body hash over nothing. -/
def packW (ver : Nat) : List Byte :=
  [0x47, 0x4C, 0x53, 0x50, 1, 0] ++ leBytes 2 1 ++ leBytes 4 ver ++ leBytes 4 1 ++ leBytes 4 64 ++ leBytes 2 1 ++ leBytes 2 0 ++ leBytes 8 0 ++
    shake256 32 []
theorem hyp_InstallsAndGalpernoRecords :
    let h := packW 5
    let held : Ecb := { readyW with role := .officer, packs := [(3, { id := 1, ver := 4, len := 1, valid := true })] }
    (ecbState held).dstate ≠ .safe ∧ held.busy = false ∧ held.st = .ready ∧ held.role = .officer ∧ h.length = 64 ∧
    h.take 4 = [0x47, 0x4C, 0x53, 0x50] ∧ recField h 4 1 = 1 ∧ recField h 5 1 ≤ 1 ∧ recField h 6 2 = 1 ∧ recField h 12 4 = 1 ∧
    recField h 16 4 = 64 ∧ recField h 22 2 = 0 ∧ shake256 32 ((h.take 64).drop 64) = (h.drop 32).take 32 ∧ recField h 20 2 = 1 ∧
    (tget ({} : Pack) held.packs 3).ver.toNat < 5 ∧ ¬(tget ({} : Pack) held.packs 3).ver.toNat < 4 ∧ held.packUnits 1 + 1 ≤ 2048 ∧
    recField (packW (2 ^ 32 - 1)) 8 4 = 2 ^ 32 - 1 ∧ (10 * 2 ^ 20 : Nat) ≤ 10 * 2 ^ 20 ∧ ¬(10 * 2 ^ 20 + 1 : Nat) ≤ 10 * 2 ^ 20 ∧
    ({ rootKeyHash := Config.romKeyHash, svn := 1, sigsOk := true, bytes := [] } : FwImage).sigsOk = true ∧ readyW.minsvn.toNat ≤ (1 : BitVec 32).toNat ∧
    ¬(1 : BitVec 32).toNat ≤ (0 : BitVec 32).toNat ∧ (List.range 64).length = 64 ∧ held.applied.length < 64 := by decide +kernel
theorem hyp_EntropySigningAndRestart :
    let e : Ecb := { readyW with signing := [{ queue := none, addr := 0, body := [] }] }
    let full : Ecb := { readyW with hostBuf := List.replicate 1032 0 }
    ({ tst := .startUp } : Ecb).pool = [] ∧ ({ consec := 2, tst := .run } : Ecb).consec.toNat = 2 ∧ ({ tst := .startUp, pool := [0] } : Ecb).hostBuf = [] ∧
    65536 ≤ ({ tst := .run, goodBlocks := 65535 } : Ecb).goodBlocks + 1 ∧ ({ readyW with stretch := true, pool := [0] } : Ecb).stretch = true ∧
    full.hostBuf.length = 1032 ∧ 1032 < ({ readyW with hostBuf := List.replicate 1040 0 } : Ecb).hostBuf.length ∧ full.notrdy = false ∧
    full.reqs.toNat < 2 ^ 48 - 1 ∧ ({ tst := .raw, rawv := true } : Ecb).rawv = true ∧ e.signing ≠ [] ∧ e.idSeed = some [1] ∧ e.resWait = false ∧
    e.signext.toNat < 2 ^ 40 ∧ 2 ^ 40 ≤ ({ e with signext := 0x10000000000 } : Ecb).signext.toNat ∧ e.signext = e.sigres ∧
    ({ readyW with genKey := true, pool := [0, 0] } : Ecb).pool.length = 2 ∧ ({ readyW with restarting := true } : Ecb).restarting = true ∧
    (({ slotA := some { rootKeyHash := Config.romKeyHash, svn := 0, sigsOk := true, bytes := [] } } : Ecb).slotA.map fun x => x.sigsOk) = some true ∧
    (List.replicate 64 ()).length = 64 ∧ readyW.ideNext = none ∧ ({ readyW with ideNext := some [1] } : Ecb).ideNext = some [1] ∧
    (queueState (queueW [{ descW 10 0 5 0 64 0 0 with wants := 2 }]) ctxW).head 0 = some { descW 10 0 5 0 64 0 0 with wants := 2 } := by decide +kernel
theorem hyp_EntropySigningAndRestart_records :
    (∀ p, (State.reset.records .identity 0).current = some p → p.seq.toNat < 2 ^ 64 - 2) ∧ readyW.tst ≠ .off ∧
    ({ readyW with busy := true, cmd := 0x11 } : Ecb).cmd = 0x11 ∧ ({ readyW with st := .off } : Ecb).st = .off ∧
    ({ readyW with signing := List.replicate 64 { queue := none, addr := 0, body := [] } } : Ecb).signing.length = 64 := by decide
theorem test_health_failure :
    (After (.trngHealthFailure true 1) (ecbState readyW)).ecb.tst = .failed ∧ (After (.trngHealthFailure true 1) (ecbState readyW)).ecb.aptf = 1 ∧
    ((After (.trngHealthFailure true 1) (ecbState readyW)).devWire.map fun m => m.kind) = [0x502] := by decide +kernel

/-- A started SNAPSHOT descriptor that waits for its latch (17 R459). -/
def snapW : State :=
  let s := queueState (queueW [{ descW 8 0 0 0 0 1000 0 with started := true, wants := 3 }]) ctxW
  { s with cnt := { s.cnt with pend := true, at0 := 1000, waiter := some 0 } }
theorem hyp_DumpsSnapshotsAndCounters :
    let c (sel : Word) : Counter := { sel := sel, val := 0xFFFFFFFFFFFF }
    let cnt (l : Table Counter) : State := { State.reset with dstate := .ready, cnt := { State.reset.cnt with bank := { ctrs := l } } }
    let arm : State := { State.reset with dstate := .ready, cnt := { State.reset.cnt with snapat := 1000 } }
    let d : Dump := { st := 1, len := 1, used := 64, todo := dumpBlocks 0 }
    arm.now + 1000 ≤ arm.cnt.snapat.toNat ∧ arm.cnt.pend = false ∧ ¬arm.now + 1001 ≤ arm.cnt.snapat.toNat ∧
    (tget ({} : Counter) ((cnt [(63, c 0x8000000000000000)]).bankOf (bankNo 0)).ctrs 63).val.toNat = 2 ^ 48 - 1 ∧
    (c 0x8000000000000000).sel.getLsbD 63 = true ∧ 63 < bankSize (bankNo 0) ∧ bankNo 64 = .port 63 ∧ bankNo 80 = .sheet 15 ∧ bankNo 81 = .parcel 0 0 ∧
    bankNo 368 = .parcel 15 17 ∧ (c 0xC000000000000000).sel.getLsbD 62 = true ∧ (62 : Nat) % 2 = 0 ∧ ({} : Counter).val.toNat + 1 < 2 ^ 48 ∧
    (0xF00000000FFFFFFF : Word) &&& 0x0FFF0000F0000000 = 0 ∧ d.todo ≠ [] ∧ d.room = 4096 ∧ ({ d with used := 4032 } : Dump).used + 64 ≤ d.room ∧
    d.room < ({ d with used := 4033 } : Dump).used + 64 ∧ (({ State.reset with pwr := { State.reset.pwr with rails := [0, 1, 2, 3, 4, 5] } } : State).gated (sheetSource 0 0) = false) ∧
    ({ State.reset with sheets := [(0, { mode := .off })] } : State).gated (sheetSource 0 0) = true ∧
    snapW.cnt.waiter = some 0 ∧ ((snapW.head 0).map fun d => (dOp d, d.wants, d.started)) = some (8, 3, true) := by decide +kernel
/-- Every sheet at the lowest clock step (18 R467). -/
def zeroW : State := { State.reset with sheets := (List.range 16).map fun h => (h, { thm := { step := 0 } }) }
theorem hyp_FeedsClocksHeatAndPowerDown :
    let p : Power := { aok := true, bok := true, origin := true }
    let t (w : BitVec 16) : Telemetry := { inW := w, va := 54, vb := 54, ia := 0, ib := 0 }
    p.down = false ∧ (p.aok && p.bok) = true ∧ ({ p with aok := false } : Power).aok = false ∧ p.tripped = false ∧ State.reset.pkg.pwrDis = false ∧
    p.ref100 = true ∧ ({ p with ref156 := false } : Power).ref156 = false ∧ p.capw.toNat = 3600 ∧ (t 3600).inW.toNat ≤ 3600 ∧ 3600 < (t 3601).inW.toNat ∧
    min p.capw.toNat 2160 = 2160 ∧ (t 3419).inW.toNat * 100 < 3600 * 95 ∧ ¬(t 3420).inW.toNat * 100 < 3600 * 95 ∧
    ({ p with capStep := 9 } : Power).capStep.toNat < p.fmax.toNat ∧ min 100 (({ p with overTicks := 99 } : Power).overTicks + 1) = 100 ∧
    (∀ h, h < 16 → (zeroW.sheet h).mode = .off ∨ (zeroW.sheet h).thm.step = 0) ∧
    ¬(∀ h, h < 16 → (State.reset.sheet h).mode = .off ∨ (State.reset.sheet h).thm.step = 0) ∧
    (400 : BitVec 16).toInt = 400 ∧ ¬(400 : Int) ≤ (399 : BitVec 16).toInt ∧ (388 : BitVec 16).toInt ≤ 388 ∧ 388 < (389 : BitVec 16).toInt ∧
    420 ≤ (420 : BitVec 16).toInt ∧ 95 ≤ (95 : Byte).toNat ∧ 85 < (86 : Byte).toNat ∧ ({} : Thermal).dramHot = false ∧
    (0xA : BitVec 4).toNat = min (min p.fmax.toNat p.capStep.toNat) ({} : Thermal).limit.toNat ∧ ({} : Thermal).step = 0xA := by decide
theorem hyp_DumpsSnapshotsAndCounters_more :
    let c (sel : Word) : Counter := { sel := sel, val := 0xFFFFFFFFFFFF }
    let k : CntCtl := { State.reset.cnt with bank := { ctrs := [(0, c 0x8000000000000000), (1, { sel := 0xC000000000000000 })] } }
    let s : State := { State.reset with cnt := k }
    let d : Dump := { st := 1, mram := true, len := 1 }
    (s.bankOf (bankNo 0)).ctrs.length = 2 ∧ ((tget ({} : Counter) (s.bankOf (bankNo 0)).ctrs 1).sel.getLsbD 62) = true ∧
    ((tget ({} : Counter) (s.bankOf (bankNo 0)).ctrs 1).sel.getLsbD 63) = true ∧ k.frozen = false ∧
    ({ sel := 0x4000000000000000 } : Counter).sel.getLsbD 63 = false ∧ (c 0xF000000000000000).sel.getLsbD 60 = true ∧
    (c 0xF000000000000000).sel.getLsbD 61 = true ∧ s.msixMask.contains (0, k.vec) = false ∧
    (0x0001000010000000 : Word) &&& 0x0FFF0000F0000000 ≠ 0 ∧ (d.room - 64) = 4032 ∧ wholeRecords 4573 4032 d.lastGasp = d.lastGasp ∧
    d.haltArea = [] ∧ 4032 < ({ d with haltArea := List.replicate 4033 0 } : Dump).lastGasp.length + 4033 ∧
    ({ k with resumeAt := some 5 } : CntCtl).resumeAt = some 5 ∧ ({ k with frozen := true } : CntCtl).frozen = true ∧
    ({ State.reset with msixMask := [(0, k.vec)] } : State).msixMask.contains (0, k.vec) = true := by decide +kernel
theorem test_thermal_at_100 :
    ((After (.thermalTick 0 400 0) State.reset).sheet 0).thm.limit = 9 ∧ ((After (.thermalTick 0 399 0) State.reset).sheet 0).thm.limit = 0xA ∧
    (((After (.thermalTick 0 400 0) State.reset).sheet 0).wire.map fun m => m.kind) = [0x610] := by decide +kernel
theorem hyp_StartUpSidebandAndJtag :
    let p : Power := { origin := true, aok := true }
    let s (p : Power) (e : Ecb) (x : Sheet) : State := { State.reset with pwr := p, ecb := e, sheets := [(0, x)] }
    let up : Power := { p with released := true, rails := [0, 1, 2, 3, 4, 5] }
    let open_ : Ecb := { readyW with unlockHour := some 1 }
    p.rails = [] ∧ 5 < 6 ∧ (5 ∉ ({ p with rails := [0, 1, 2, 3, 4] } : Power).rails) ∧ (∀ i, i < 5 → i ∈ ({ p with rails := [0, 1, 2, 3, 4] } : Power).rails) ∧
    (0 ∈ up.rails) ∧ ({} : Ecb).st = .off ∧ (s p { st := .boot } {}).ecb.st = .boot ∧ p.released = false ∧
    ({ State.reset.pkg with perst := false } : Pkg).perst = false ∧ State.reset.pkg.perst = true ∧ (p.aok = true ∧ ({} : Power).origin = false) ∧
    ({} : Sheet).mode = .startUp ∧ ({} : Sheet).trained = false ∧ ({ trained := true } : Sheet).tested = false ∧ ({ dramTries := 2 } : Sheet).dramTries + 1 = 3 ∧
    ({ tested := true } : Sheet).tested = true ∧ ({} : Sheet).fenced.getLsbD 17 = false ∧ (s up {} {}).chart.st = .alone ∧
    bits 0x000003E80A000000 47 32 = 1000 ∧ bits 0x00000E100A000001 47 32 = 3600 ∧ bits 0x000003E70A000000 47 32 = 999 ∧ bits 0x00000E110B000000 47 32 = 3601 ∧
    bits 0x000003E80A000000 27 24 = 10 ∧ bits 0x00000E110B000000 27 24 = 11 ∧ regOf 0x3200000 ≠ none ∧ regOf 0x3200FF8 = none ∧ State.reset.pkg.i3cDv = false ∧
    open_.unlockHour = some 1 ∧ State.reset.col.svch.toNat < (1 : BitVec 32).toNat ∧ ({ State.reset.pkg with jtag := .dbgread } : Pkg).jtag = .dbgread ∧
    (s up { readyW with fenceRecs := [(0, [0], none, none, 0)] } {}).ecb.fenceRecs ≠ [] := by decide
/-- A device whose officer record has two copies. -/
def twoCopies : State :=
  let p : RecPair := { a := some { seq := 1, body := .officer none }, b := some { seq := 2, body := .officer (some [7]) } }
  { State.reset with mram := tset {} State.reset.mram (recKey .officer 0) p }
theorem hyp_StartUpSidebandAndJtag_records :
    let q := (twoCopies.records .officer 0).spoil true
    let lost := (State.reset.records .svn 0).spoil false
    (∀ x ∈ State.reset.mram, x.2.failures = 0) ∧ (∀ x ∈ twoCopies.mram, x.2.failures = 0) ∧ q.failures = 1 ∧
    (q.current.map fun k => k.body) = some (.officer none) ∧ lost.failures = 1 ∧ lost.current = none ∧
    ({ pufOk := false } : BootRead).pufOk = false ∧ State.reset.rst.warm = false ∧ State.reset.pwr.released = false ∧
    ({ State.reset.pwr with trip := true } : Power).trip = true := by decide
theorem test_idcode :
    (After (.jtagInstruction .idcode) State.reset).out = [.jtagOut [0x01, 0x60, 0x71, 0xA4]] := by decide
/-- The four balls that 19 R493 names. -/
theorem test_voijo_balls :
    landAt 2 12 = some (.voijo true false 0 0) ∧ landAt 48 148 = some (.voijo true false 20 1) ∧
    landAt 142 117 = some (.voijo false true 45 2) ∧ landAt 113 8 = some (.voijo false true 60 3) ∧
    [2, 48, 142, 113, 149].map rowName = [['B'], ['B', 'K'], ['G', 'J'], ['E', 'W'], ['G', 'U']] := by decide
/-- A place of a port field is a place of that port alone (19 R491). -/
theorem test_port_fields :
    ([0, 15, 16, 31, 32, 47, 48, 63].all fun p => (List.range 64).all fun i =>
      let x := portLand p (i / 8 + 1) (i % 8 + 1)
      fieldOf x.1 x.2 == some (p, i / 8 + 1, i % 8 + 1)) = true := by decide

end Sys2Proof.Machine
end

section
/-! SUPPORT. Walks over lists of units, what a step's machinery leaves of the sheets, and the engines of a partition (01 R24, R33). -/

namespace Sys2Proof.Machine

/-! ### Walks -/

/-- A walk keeps what each of its steps keeps. -/
theorem foldl_keeps {α β γ : Type} (π : γ → β) (f : γ → α → γ) (h : ∀ x a, π (f x a) = π x) (l : List α) (x : γ) :
    π (l.foldl f x) = π x :=
  List.foldlRecOn l f (motive := fun y => π y = π x) rfl fun y hy a _ => (h y a).trans hy

/-- A walk over units keeps what each of its steps keeps of the state. -/
theorem forEach_keeps {α β : Type} (π : State → β) (f : State → α → State) (h : ∀ t a, π (f t a) = π t) (l : List α) (s : State) :
    π (s.forEach l f) = π s := foldl_keeps π f h l s

/-- What a walk shows of a unit that it does not visit: no other unit's step moves it. -/
theorem forEach_unvisited {α β : Type} (view : State → β) (f : State → α → State) (Inv : State → Prop) (b : α)
    (inv : ∀ t a, Inv t → Inv (f t a)) (there : ∀ t a, Inv t → b ≠ a → view (f t a) = view t) :
    ∀ (l : List α) (s : State), Inv s → b ∉ l → view (s.forEach l f) = view s := by
  intro l
  induction l with
  | nil => intro s _ _; rfl
  | cons a l ih =>
    intro s hs hb
    have hne : b ≠ a := fun e => hb (e ▸ List.mem_cons_self)
    exact (ih (f s a) (inv s a hs) fun m => hb (List.mem_cons_of_mem _ m)).trans (there s a hs hne)

/-- A walk over distinct units takes each of its units once: what it shows of unit `b` is what that one step makes of it. -/
theorem forEach_visited {α β : Type} (view : State → β) (f : State → α → State) (Inv : State → Prop) (b : α) (R : β → β → Prop)
    (inv : ∀ t a, Inv t → Inv (f t a)) (there : ∀ t a, Inv t → b ≠ a → view (f t a) = view t)
    (here : ∀ t, Inv t → R (view t) (view (f t b))) :
    ∀ (l : List α) (s : State), l.Nodup → Inv s → b ∈ l → R (view s) (view (s.forEach l f)) := by
  intro l
  induction l with
  | nil => intro s _ _ hb; cases hb
  | cons a l ih =>
    intro s hl hs hb
    obtain ⟨hal, hl'⟩ := List.nodup_cons.1 hl
    show R (view s) (view ((f s a).forEach l f))
    by_cases e : b = a
    · subst e
      rw [forEach_unvisited view f Inv b inv there l (f s b) (inv s b hs) hal]
      exact here s hs
    · rw [← there s a hs e]
      exact ih (f s a) hl' (inv s a hs) ((List.mem_cons.1 hb).resolve_left e)

/-- A walk over distinct sheets that changes each as `f` says. -/
theorem sheet_forEach_modSheet (f : Nat → Sheet → Sheet) (l : List Nat) (s : State) (hl : l.Nodup) (i : Nat) :
    (s.forEach l fun s h => s.modSheet h (f h)).sheet i = if i ∈ l then f i (s.sheet i) else s.sheet i := by
  have there : ∀ (t : State) (a : Nat), True → i ≠ a → (t.modSheet a (f a)).sheet i = t.sheet i :=
    fun t _ _ h => sheet_modSheet_ne t _ h
  split
  case isTrue hi =>
    exact forEach_visited (State.sheet · i) _ (fun _ => True) i (fun x y => y = f i x) (fun _ _ _ => trivial) there
      (fun t _ => sheet_modSheet_same t i _) l s hl trivial hi
  case isFalse hi => exact forEach_unvisited (State.sheet · i) _ (fun _ => True) i (fun _ _ _ => trivial) there l s trivial hi

@[simp] theorem forEach_modSheet_parts (f : State → Nat → Sheet → Sheet) (l : List Nat) (s : State) :
    (s.forEach l fun s h => s.modSheet h (f s h)).parts = s.parts := by
  refine forEach_keeps State.parts _ (fun _ _ => ?_) l s
  rfl

@[simp] theorem forEach_modSheet_ctxs (f : State → Nat → Sheet → Sheet) (l : List Nat) (s : State) :
    (s.forEach l fun s h => s.modSheet h (f s h)).ctxs = s.ctxs := by
  refine forEach_keeps State.ctxs _ (fun _ _ => ?_) l s
  rfl

/-! ### What is left of every sheet -/

/-- What a projection of each sheet reads is left. -/
def SheetsKeep {β : Type} (π : Sheet → β) (s t : State) : Prop := ∀ i, π (t.sheet i) = π (s.sheet i)

/-- A projection that sees neither counters nor messages on their way. -/
def Unreported {β : Type} (π : Sheet → β) : Prop :=
  ∀ (x : Sheet) b pb w, π { x with bank := b, parcelBanks := pb, wire := w } = π x

/-- The map and DRAM: what the control of a step leaves of a sheet. -/
def Sheet.ground (x : Sheet) : List Nat × Mem := (x.pmap, x.mem.dram)

/-- The map, DRAM and the memories of the parcels. -/
def Sheet.held (x : Sheet) : List Nat × Mem × Table ParcelMem := (x.pmap, x.mem.dram, x.parcels)

theorem ground_unreported : Unreported Sheet.ground := fun _ _ _ _ => rfl
theorem held_unreported : Unreported Sheet.held := fun _ _ _ _ => rfl

section
variable {β : Type} {π : Sheet → β} {s t u : State}

theorem SheetsKeep.refl : SheetsKeep π s s := fun _ => rfl

theorem SheetsKeep.trans (h : SheetsKeep π s t) (k : SheetsKeep π t u) : SheetsKeep π s u := fun i => (k i).trans (h i)

theorem SheetsKeep.of_sheets (h : t.sheets = s.sheets) : SheetsKeep π s t := fun i => by simp only [State.sheet, h]

theorem SheetsKeep.modSheet (i : Nat) (f : Sheet → Sheet) (h : ∀ x, π (f x) = π x) : SheetsKeep π s (s.modSheet i f) := by
  intro j
  rw [sheet_modSheet]
  split
  · next e => subst e; exact h _
  · rfl

theorem SheetsKeep.forEach {α : Type} (l : List α) (f : State → α → State) (h : ∀ s a, SheetsKeep π s (f s a)) :
    SheetsKeep π s (s.forEach l f) :=
  fun i => forEach_keeps (fun t => π (t.sheet i)) f (fun t a => h t a i) l s

theorem SheetsKeep.modEng (e : EngId) (f : Engine → Engine) (h : ∀ x t, π { x with engines := t } = π x) :
    SheetsKeep π s (s.modEng e f) := SheetsKeep.modSheet _ _ fun x => h x _

theorem SheetsKeep.held_ground (h : SheetsKeep Sheet.held s t) : SheetsKeep Sheet.ground s t := fun i => by
  obtain ⟨hm, hd, -⟩ : _ ∧ _ ∧ _ := by simpa only [Sheet.held, Prod.mk.injEq] using h i
  exact Prod.ext hm hd

theorem SheetsKeep.pmap (h : SheetsKeep Sheet.ground s t) (i : Nat) : (t.sheet i).pmap = (s.sheet i).pmap := congrArg Prod.fst (h i)

theorem SheetsKeep.phys (h : SheetsKeep Sheet.ground s t) (i l : Nat) : (t.sheet i).phys l = (s.sheet i).phys l := by
  simp only [Sheet.phys, h.pmap]

theorem SheetsKeep.dram (h : SheetsKeep Sheet.ground s t) : SheetsKeep (fun x => x.mem.dram) s t := fun i => congrArg Prod.snd (h i)

theorem sameDram_of_sheets (h : SheetsKeep (fun x => x.mem.dram) s t) : SameDram s t := fun i a => congrArg (fun m => mget m a) (h i)

theorem SheetsKeep.sameDram (h : SheetsKeep Sheet.ground s t) : SameDram s t := sameDram_of_sheets h.dram

theorem SheetsKeep.sameStores (h : SheetsKeep Sheet.parcels s t) : SameStores s t := fun i p a => by
  simp only [State.storeAt, Sheet.parcel, h i]

theorem SheetsKeep.sameAccs (h : SheetsKeep Sheet.parcels s t) : SameAccs s t := fun i p a => by
  simp only [State.accAt, Sheet.parcel, h i]

theorem SheetsKeep.held_parcels (h : SheetsKeep Sheet.held s t) : SheetsKeep Sheet.parcels s t := fun i =>
  congrArg (fun x => x.2.2) (h i)

theorem SheetsKeep.sameMemories (h : SheetsKeep Sheet.held s t) : SameMemories s t :=
  ⟨h.held_ground.sameDram, h.held_parcels.sameStores, h.held_parcels.sameAccs⟩

theorem Reports.sheetsKeep (h : Reports s t) (hπ : Unreported π) : SheetsKeep π s t := fun i => by
  obtain ⟨b, pb, w, k⟩ := h.sheet i
  rw [k, hπ]

theorem Counts.sheetsKeep (h : Counts s t) (hπ : Unreported π) : SheetsKeep π s t := h.reports.sheetsKeep hπ

end

theorem Counts.parts {s t : State} (h : Counts s t) : t.parts = s.parts := by
  obtain ⟨o, mp, sh, b, pb, rfl⟩ := h.whole
  rfl

theorem Counts.ctxs {s t : State} (h : Counts s t) : t.ctxs = s.ctxs := h.reports.ctxs

/-- Counting leaves the slots. -/
theorem Counts.slot {s t : State} (h : Counts s t) (i n : Nat) : (t.sheet i).slot n = (s.sheet i).slot n :=
  h.sheetsKeep (π := fun x => x.slot n) (fun _ _ _ _ => rfl) i

theorem part_of_parts {s t : State} (h : t.parts = s.parts) (p : Nat) : t.part p = s.part p := by simp only [State.part, h]
theorem ctx_of_ctxs {s t : State} (h : t.ctxs = s.ctxs) (c : Nat) : t.ctx c = s.ctx c := by simp only [State.ctx, h]

/-! ### Units read across a change of other units -/

section
variable (s : State) (i p c : Nat)

@[simp] theorem part_modSheet (f : Sheet → Sheet) : (s.modSheet i f).part p = s.part p := rfl
@[simp] theorem part_modCtx (f : Ctx → Ctx) : (s.modCtx i f).part p = s.part p := rfl
@[simp] theorem part_modQueue (f : Queue → Queue) : (s.modQueue i f).part p = s.part p := rfl
@[simp] theorem ctx_modSheet (f : Sheet → Sheet) : (s.modSheet i f).ctx c = s.ctx c := rfl
@[simp] theorem ctx_modPart (f : Part → Part) : (s.modPart i f).ctx c = s.ctx c := rfl
@[simp] theorem ctx_modQueue (f : Queue → Queue) : (s.modQueue i f).ctx c = s.ctx c := rfl
@[simp] theorem sheet_modPart (f : Part → Part) : (s.modPart i f).sheet p = s.sheet p := rfl
@[simp] theorem sheet_modCtx (f : Ctx → Ctx) : (s.modCtx i f).sheet p = s.sheet p := rfl
@[simp] theorem eng_modPart (f : Part → Part) (e : EngId) : (s.modPart i f).eng e = s.eng e := rfl

end

/-! ### The engines of a partition -/

theorem sheetList_nodup (x : Part) : x.sheetList.Nodup := List.nodup_range.filter _

theorem sheetList_lt {x : Part} {h : Nat} (m : h ∈ x.sheetList) : h < 16 := List.mem_range.1 (List.mem_filter.1 m).1

theorem mem_engineIds {s : State} {p : Nat} {e : EngId} : e ∈ s.engineIds p ↔ e.sheet.val ∈ (s.part p).sheetList := by
  simp only [State.engineIds, List.mem_flatMap, List.mem_map, List.mem_range]
  constructor
  · rintro ⟨h, hh, l, -, rfl⟩
    simpa [Fin.ofNat, Nat.mod_eq_of_lt (sheetList_lt hh)] using hh
  · intro m
    exact ⟨_, m, e.parcel.val, e.parcel.isLt, EngId.ext' (by simp) (by simp)⟩

theorem engineIds_nodup (s : State) (p : Nat) : (s.engineIds p).Nodup := by
  refine List.nodup_flatMap.2 ⟨fun h _ => ?_, ?_⟩
  · refine (List.nodup_range).map_on fun a ha b hb e => ?_
    have := congrArg (fun x : EngId => x.parcel.val) e
    simpa [Fin.ofNat, Nat.mod_eq_of_lt (List.mem_range.1 ha), Nat.mod_eq_of_lt (List.mem_range.1 hb)] using this
  · refine List.Nodup.pairwise_of_forall_ne (sheetList_nodup _) fun a ha b hb hne => ?_
    simp only [Function.onFun, List.disjoint_left, List.mem_map, not_exists, not_and]
    rintro _ ⟨l, -, rfl⟩ m - e
    have := congrArg (fun x : EngId => x.sheet.val) e
    simp only [Fin.ofNat, Nat.mod_eq_of_lt (sheetList_lt ha), Nat.mod_eq_of_lt (sheetList_lt hb)] at this
    exact hne this.symm

/-- The engines of a partition are those of its sheets. -/
theorem engineIds_congr {s t : State} {p : Nat} (h : (t.part p).sheets = (s.part p).sheets) : t.engineIds p = s.engineIds p := by
  simp only [State.engineIds, Part.sheetList, h]

theorem division_congr {s t : State} {p : Nat} (h : (t.part p).sheets = (s.part p).sheets) (k : SheetsKeep Sheet.ground s t) :
    t.division p = s.division p := by
  simp only [State.division, h, k.pmap]

/-- Counting an event of a barrier on the partition's sheets counts and does nothing else. -/
theorem barrierEvent_counts (s : State) (p : Nat) : Counts s (s.barrierEvent p) := forEach_counts _ _ (fun t i => sheetEvent_counts t i _) s

end Sys2Proof.Machine
end

section
/-! SUPPORT. The RUN records of a partition, and what the end of a RUN leaves (09 R273, 12 R360). -/

namespace Sys2Proof.Machine

/-! ### Changes of a sheet's slots, chains and engines -/

theorem foldl_modSlot_keeps {α β : Type} (π : Sheet → β) (hπ : ∀ x t, π { x with slots := t } = π x) (k : α → Nat)
    (f : α → Slot → Slot) (l : List α) (x : Sheet) : π (l.foldl (fun x a => x.modSlot (k a) (f a)) x) = π x :=
  foldl_keeps π _ (fun x _ => hπ x _) l x

theorem foldl_modChain_keeps {α β : Type} (π : Sheet → β) (hπ : ∀ x t, π { x with chains := t } = π x) (k : α → Nat)
    (f : α → Chain → Chain) (l : List α) (x : Sheet) : π (l.foldl (fun x a => x.modChain (k a) (f a)) x) = π x :=
  foldl_keeps π _ (fun x _ => hπ x _) l x

/-- A projection that sees neither slots nor chains. -/
def Unslotted {β : Type} (π : Sheet → β) : Prop := (∀ x t, π { x with slots := t } = π x) ∧ ∀ x t, π { x with chains := t } = π x

theorem held_unslotted : Unslotted Sheet.held := ⟨fun _ _ => rfl, fun _ _ => rfl⟩
theorem ground_unslotted : Unslotted Sheet.ground := ⟨fun _ _ => rfl, fun _ _ => rfl⟩

section
variable {β : Type} {π : Sheet → β} (x : Sheet) (c : CtxId)

theorem discardEpoch_keeps (h : Unslotted π) : π (x.discardEpoch c) = π x :=
  (foldl_modChain_keeps π h.2 id _ _ _).trans (foldl_modSlot_keeps π h.1 id _ _ _)

theorem discard_keeps (h : Unslotted π) : π (x.discard c) = π x :=
  (foldl_modChain_keeps π h.2 id _ _ _).trans (foldl_modSlot_keeps π h.1 id _ _ _)

theorem commitSlots_keeps (h : Unslotted π) : π (x.commitSlots c) = π x :=
  (foldl_modChain_keeps π h.2 id _ _ _).trans (foldl_modSlot_keeps π h.1 id _ _ _)

theorem endSlots_keeps (h : Unslotted π) : π (x.endSlots c) = π x := foldl_modSlot_keeps π h.1 id _ _ _

theorem swapSlots_keeps (b : List SlotBind) (h : Unslotted π) : π (x.swapSlots c b) = π x :=
  (foldl_modSlot_keeps π h.1 (fun b : SlotBind => b.slot.val) _ _ _).trans (foldl_modSlot_keeps π h.1 id _ _ _)

theorem startSlots_keeps (b : List SlotBind) (h : Unslotted π) : π (x.startSlots b) = π x :=
  (foldl_modChain_keeps π h.2 (fun b : SlotBind => b.slot.val) _ _ _).trans
    (foldl_modSlot_keeps π h.1 (fun b : SlotBind => b.slot.val) _ _ _)

end

/-! ### RUN records -/

/-- The record of a context's RUN after a change of it. -/
theorem runOf_map (l : List RunState) (c : CtxId) (f : RunState → RunState) (h : ∀ r, (f r).ctx = r.ctx) :
    (l.map fun r => if r.ctx == c then f r else r).find? (fun r => r.ctx == c) = (l.find? fun r => r.ctx == c).map f := by
  induction l with
  | nil => rfl
  | cons r l ih =>
    rw [List.map_cons, List.find?_cons, List.find?_cons]
    by_cases e : r.ctx == c
    · rw [if_pos e, h r, e]
      rfl
    · rw [if_neg e, Bool.eq_false_of_not_eq_true e]
      exact ih

theorem runOf_filter_self (l : List RunState) (c : CtxId) : (l.filter fun y => y.ctx != c).find? (fun r => r.ctx == c) = none := by
  simp [List.find?_eq_none, bne]

section
variable (s : State) (p : Nat) (c : CtxId)

theorem modRunOf_part (f : RunState → RunState) :
    (s.modRunOf p c f).part p = { s.part p with runs := (s.part p).runs.map fun r => if r.ctx == c then f r else r } :=
  part_modPart_same _ _ _

/-! ### The end of a RUN -/

theorem cycleEvent_counts (s : State) (e : EngId) (code n : Nat) : Counts s (s.cycleEvent e code n) := by
  unfold State.cycleEvent
  split
  · exact Counts.refl _
  · exact parcelEvent_counts _ _ _ _

theorem discardLedgers_counts (l : List (EngId × Ledger)) (s : State) :
    Counts s (l.foldl (fun s x => s.discardLedger x.1 x.2) s) :=
  forEach_counts l _ (fun _ _ => cycleEvent_counts _ _ _ _) s

/-- What a partition is when the RUN of a context has ended (09 R273). -/
def Part.endRun (x : Part) (c : CtxId) : Part :=
  { x with
    runs := x.runs.filter fun y => y.ctx != c
    cur := if x.cur == some c then none else x.cur
    phase := if x.cur == some c then .none else x.phase
    next := match x.next with | some n => if n.1 == c then none else some n | none => none
    turns := x.turns.filter fun y => y != c }

theorem endRun_runOf (x : Part) : (x.endRun c).runOf c = none := runOf_filter_self _ _

/-- Ending the RUN that a context has: counting apart, its partition, the context's records and a queue move. -/
structure EndsRun (s u : State) : Prop where
  sheet : ∀ i, ∃ b pb, u.sheet i = { s.sheet i with bank := b, parcelBanks := pb }
  part : u.part p = (s.part p).endRun c
  step : (u.ctx c.val).step = (s.ctx c.val).step

section
variable (st : Byte) (k : BitVec 12) (fl : Byte)

theorem finishRun_none (h : (s.part p).runOf c = none) : s.finishRun p c st k fl = s := by
  simp only [State.finishRun, h]

theorem finishRun_some {r : RunState} (h : (s.part p).runOf c = some r) : EndsRun p c s (s.finishRun p c st k fl) := by
  have hc := discardLedgers_counts r.ledgers s
  simp only [State.finishRun, h]
  refine ⟨fun i => hc.sheet i, ?_, ?_⟩
  · rw [part_modQueue, part_modCtx, part_modPart_same, part_of_parts hc.parts]
    rfl
  · rw [ctx_modQueue, ctx_modCtx_same, ctx_modPart, ctx_of_ctxs hc.ctxs]

/-- A RUN's end, whether the context has one or not. -/
theorem finishRun_cases : s.finishRun p c st k fl = s ∧ (s.part p).runOf c = none ∨ EndsRun p c s (s.finishRun p c st k fl) := by
  cases h : (s.part p).runOf c with
  | none => exact .inl ⟨finishRun_none s p c st k fl h, rfl⟩
  | some r => exact .inr (finishRun_some s p c st k fl h)

theorem finishRun_sheetsKeep {β : Type} {π : Sheet → β} (hπ : Unreported π) : SheetsKeep π s (s.finishRun p c st k fl) := by
  obtain ⟨e, -⟩ | h := finishRun_cases s p c st k fl
  · rw [e]; exact SheetsKeep.refl
  · intro i
    obtain ⟨b, pb, e⟩ := h.sheet i
    rw [e]
    exact hπ _ _ _ (s.sheet i).wire

/-- No RUN of the context is left. -/
theorem finishRun_runOf : ((s.finishRun p c st k fl).part p).runOf c = none := by
  obtain ⟨e, h⟩ | h := finishRun_cases s p c st k fl
  · rw [e, h]
  · rw [h.part, endRun_runOf]

/-- The context's step counter stays. -/
theorem finishRun_step : ((s.finishRun p c st k fl).ctx c.val).step = (s.ctx c.val).step := by
  obtain ⟨e, -⟩ | h := finishRun_cases s p c st k fl
  · rw [e]
  · exact h.step

theorem endRun_between {x : Part} (hc : x.cur = none) :
    (x.endRun c).cur = none ∧ (x.endRun c).phase = x.phase ∧ (x.next = none → (x.endRun c).next = none) := by
  refine ⟨?_, ?_, fun hn => ?_⟩
  · simp [Part.endRun, hc]
  · simp [Part.endRun, hc]
  · simp only [Part.endRun, hn]

/-- A partition between steps stays so. -/
theorem finishRun_between (hc : (s.part p).cur = none) :
    ((s.finishRun p c st k fl).part p).cur = none ∧ ((s.finishRun p c st k fl).part p).phase = (s.part p).phase ∧
      ((s.part p).next = none → ((s.finishRun p c st k fl).part p).next = none) := by
  obtain ⟨e, -⟩ | h := finishRun_cases s p c st k fl
  · rw [e]; exact ⟨hc, rfl, id⟩
  · rw [h.part]; exact endRun_between c hc

end

/-- A RUN that ends before its next step starts: its epoch apart, its end after the discarding of its epoch's copies. -/
theorem endRun_of_finishRun (st : Byte) (k : BitVec 12) :
    (s.endRun p c st k).sheets =
        ((s.forEach (s.part p).sheetList fun s h => s.modSheet h fun x => x.discardEpoch c).finishRun p c st k).sheets ∧
      (s.endRun p c st k).parts =
        ((s.forEach (s.part p).sheetList fun s h => s.modSheet h fun x => x.discardEpoch c).finishRun p c st k).parts := by
  have epoch (b : Bool) (u : State) (f : Epoch → Epoch) :
      (if b then u.modEpoch c.val f else u).sheets = u.sheets ∧ (if b then u.modEpoch c.val f else u).parts = u.parts := by
    cases b <;> exact ⟨rfl, rfl⟩
  exact epoch _ _ _

theorem endRun_sheetsKeep {β : Type} {π : Sheet → β} (hπ : Unreported π) (hs : Unslotted π) (st : Byte) (k : BitVec 12) :
    SheetsKeep π s (s.endRun p c st k) := by
  have h : SheetsKeep π s ((s.forEach (s.part p).sheetList fun s h => s.modSheet h fun x => x.discardEpoch c).finishRun p c st k) :=
    (SheetsKeep.forEach _ _ fun s i => SheetsKeep.modSheet i _ fun x => discardEpoch_keeps x c hs).trans (finishRun_sheetsKeep _ _ _ _ _ _ hπ)
  exact h.trans (SheetsKeep.of_sheets (endRun_of_finishRun s p c st k).1)

theorem endRun_part_runOf (st : Byte) (k : BitVec 12) : ((s.endRun p c st k).part p).runOf c = none := by
  rw [part_of_parts (endRun_of_finishRun s p c st k).2]
  exact finishRun_runOf _ _ _ _ _ _

end

end Sys2Proof.Machine
end

section
/-! O6: STEP_PROGRAM with its timeout, STEP_REPEAT and RUN_DISPATCH (01 R34; 05 R153, R168; 13 R380; 14 R395). -/

namespace Sys2Proof.Machine

/-! ### What programming leaves -/

/-- `t` is `s` as far as the maps, the memories, the contexts and the partitions go, the faults noted against steps apart. -/
structure Prepares (s t : State) : Prop where
  held : SheetsKeep Sheet.held s t
  ctxs : t.ctxs = s.ctxs
  part : ∀ p, ∃ fs, t.part p = { s.part p with faults := (s.part p).faults ++ fs }

section
variable {s t u : State}

theorem Prepares.of_same (hs : t.sheets = s.sheets) (hc : t.ctxs = s.ctxs) (hp : t.parts = s.parts) : Prepares s t :=
  ⟨SheetsKeep.of_sheets hs, hc, fun p => ⟨[], by simp [part_of_parts hp]⟩⟩

theorem Prepares.refl : Prepares s s := .of_same rfl rfl rfl

theorem Prepares.trans (h : Prepares s t) (k : Prepares t u) : Prepares s u := by
  refine ⟨h.held.trans k.held, k.ctxs.trans h.ctxs, fun p => ?_⟩
  obtain ⟨f, e⟩ := h.part p
  obtain ⟨f', e'⟩ := k.part p
  exact ⟨f ++ f', by rw [e', e]; simp⟩

theorem Prepares.modSheet (i : Nat) (f : Sheet → Sheet) (h : ∀ x, (f x).held = x.held := by intro x; unfold Sheet.held; rfl) :
    Prepares s (s.modSheet i f) :=
  ⟨SheetsKeep.modSheet i f h, rfl, fun p => ⟨[], by simp⟩⟩

theorem Prepares.foldl {α : Type} (l : List α) (f : State → α → State) (h : ∀ s a, Prepares s (f s a)) (s : State) :
    Prepares s (l.foldl f s) :=
  List.foldlRecOn l f .refl fun t ht a _ => ht.trans (h t a)

theorem Prepares.sheets (h : Prepares s t) (p : Nat) : (t.part p).sheets = (s.part p).sheets := by
  obtain ⟨f, e⟩ := h.part p
  rw [e]

theorem Prepares.division (h : Prepares s t) (p : Nat) : t.division p = s.division p :=
  division_congr (h.sheets p) h.held.held_ground

end

theorem Reports.prepares {s t : State} (h : Reports s t) : Prepares s t := ⟨h.sheetsKeep held_unreported, h.ctxs, h.part⟩

theorem noteSat_prepares {n : Nat} (s : State) (v : BitVec n) (g : Nat) : Prepares s (s.noteSat v g) := by
  unfold State.noteSat
  split
  · exact .refl
  · exact .of_same rfl rfl rfl

theorem lookPages_prepares (s : State) (i : Nat) (l : List Nat) (op : BitVec 16) : Prepares s (s.lookPages i l op) := by
  refine .foldl _ _ (fun t p => ?_) s
  exact (sheetFault_reports t i 3 0x106 op _).prepares.trans (.modSheet i _)

theorem shadowSlots_prepares (s : State) (l : LoadedPlan) (d : DivProg) (i : Nat) : Prepares s (s.shadowSlots l d i) := by
  refine .foldl _ _ (fun t b => ?_) s
  dsimp only
  split
  · exact (lookPages_prepares _ _ _ _).trans (.modSheet i _)
  · exact .modSheet i _

/-- No derivation of a key differs where none is named. -/
theorem program_no_mismatch (k : KeyUnit) (c : CtxId) (seed : List Byte) (dev : Bool) (ids : List StreamId) :
    (k.program c seed dev [] ids).2.2 = 0 :=
  List.foldlRecOn (motive := fun acc : Table KeyEntry × Nat × Nat => acc.2.2 = 0) _ _ rfl fun acc h a _ => by simp [h, b2n]

theorem shadowKeys_prepares (s : State) (c : CtxId) (r : RunState) (d : DivProg) (bad : List StreamId) (i : Nat) :
    Prepares s (s.shadowKeys c r d bad i).1 := by
  have count : ∀ (l : List Nat) (s : State), Prepares s (l.foldl (fun s _ => (s.noteSat (s.sheet i).key.derived 2).modSheet i fun x =>
      { x with key := { x.key with derived := satInc x.key.derived } }) s) := fun l s =>
    .foldl l _ (fun t _ => (noteSat_prepares t _ 2).trans (.modSheet i _)) s
  have send : ∀ (l : List Nat) (f : FaultInfo) (s : State), Prepares s (s.forEach l fun s _ => s.sendFault f) := fun l f s =>
    .foldl l _ (fun t _ => (sendFault_reports t f).prepares) s
  exact ((count _ s).trans (.modSheet i _)).trans (send _ _ _)

theorem shadowKeys_clean (s : State) (c : CtxId) (r : RunState) (d : DivProg) (i : Nat) : (s.shadowKeys c r d [] i).2 = false := by
  simp [State.shadowKeys, program_no_mismatch]

theorem programSheet_prepares (s : State) (c : CtxId) (r : RunState) (l : LoadedPlan) (g : StepProg) (keyBad : List KeyUpset) (i : Nat) :
    Prepares s (s.programSheet c r l g keyBad i).1 := by
  have clear : ∀ (s : State) (w : Nat) (ev : CntEvent) (f : Sheet → Sheet), (∀ x, (f x).held = x.held) →
      Prepares s ((({ s with free := w } : State).sheetEvent i ev).modSheet i f) := fun s w ev f hf =>
    (Prepares.of_same (s := s) (t := { s with free := w }) rfl rfl rfl).trans
      ((sheetEvent_counts _ i ev).reports.prepares.trans (.modSheet i f hf))
  unfold State.programSheet
  dsimp only
  split
  · dsimp only
    refine .trans (clear s _ _ _ fun x => ?_) (.modSheet i _)
    unfold Sheet.held
    rfl
  · refine .trans (.trans (clear s _ _ _ fun x => ?_) (.modSheet i _ fun x => ?_))
      ((shadowSlots_prepares _ _ _ i).trans (shadowKeys_prepares _ _ _ _ _ i))
    · unfold Sheet.held
      rfl
    · refine foldl_keeps Sheet.held _ (fun y e => ?_) _ x
      rfl

theorem programSheet_clean (s : State) (c : CtxId) (r : RunState) (l : LoadedPlan) (g : StepProg) (i : Nat) :
    (s.programSheet c r l g [] i).2 = false := by
  unfold State.programSheet
  dsimp only
  split
  · rfl
  · exact shadowKeys_clean _ _ _ _ _

/-- Programming with keys that derive: it prepares the sheets and names none. -/
theorem programAll_clean (s : State) (p : Nat) (c : CtxId) (r : RunState) (l : LoadedPlan) (g : StepProg) :
    Prepares s (s.programAll p c r l g []).1 ∧ (s.programAll p c r l g []).2 = [] :=
  List.foldlRecOn (motive := fun acc : State × List Nat => Prepares s acc.1 ∧ acc.2 = []) _ _ ⟨.refl, rfl⟩
    fun acc h i _ => ⟨h.1.trans (programSheet_prepares _ _ _ _ _ _ i), by simp [programSheet_clean, h.2]⟩

/-! ### What comes before programming -/

/-- Staging that meets no error, of a plan without poison, leaves the state. -/
theorem stagePlan_clean {s : State} {p : Nat} (c : CtxId) (h : BitVec 32)
    (hs : ∀ i ∈ (s.part p).sheetList, (s.sheet i).stagingPoison = false) : s.stagePlan p c h {} = s := by
  have : ((s.part p).sheetList.any fun i => (s.sheet i).stagingPoison) = false := by simpa using hs
  simp [State.stagePlan, State.stagingErrors, State.forEach, this]

/-- A scan with nothing to read leaves the state and rejects nothing. -/
theorem scanAll_nothing {s : State} {p : Nat} {l : LoadedPlan} (h : ∀ v ∈ l.plan.progs, ∀ d ∈ v.divs, d.scan = []) :
    s.scanAll p l = (s, false) := by
  refine List.foldlRecOn (motive := (· = (s, false))) _ _ rfl fun acc ha g hg => ?_
  refine List.foldlRecOn (motive := (· = (s, false))) _ _ ha fun acc ha i _ => ?_
  split
  · exact ha
  · next d hd => rw [h g hg d (List.mem_of_find?_eq_some hd)]; exact ha

theorem tooFew_false {s : State} {p : Nat} {l : Plan} (h : ∀ i ∈ (s.part p).sheetList, max 12 l.minInsvc ≤ (s.sheet i).pmap.length) :
    s.tooFew p l = false := by
  simpa [State.tooFew] using h

/-! ### STEP_PROGRAM -/

/-- What programming the next step of a RUN makes of the state (01 R34). -/
structure Programs (p : Nat) (c : CtxId) (prog : Nat) (s u : State) : Prop where
  same : SameMemories s u
  next : (u.part p).next = some (c, prog, s.division p, [])
  phase : (u.part p).phase = (s.part p).phase
  cur : (u.part p).cur = (s.part p).cur

/-- The next step of a RUN outside a chart is programmed where nothing stops it. -/
theorem programNext_programs {s : State} {p prog : Nat} {r : RunState} {l : LoadedPlan} {g : StepProg}
    (hl : s.runPlan p r.ctx = some l) (hg : s.stepProg p r.ctx prog = some g)
    (hstop : (s.part p).phase = .running ∨ s.stepStop p r.ctx prog = none) (hchart : r.chart = false)
    (hscan : r.scanned = true ∨ ∀ v ∈ l.plan.progs, ∀ d ∈ v.divs, d.scan = []) (hst : s.progStalls p l g r.scanned = false)
    (hpo : l.poison = false) (hsp : ∀ h ∈ (s.part p).sheetList, (s.sheet h).stagingPoison = false) :
    Programs p r.ctx prog s (s.programNext p r prog {}) := by
  obtain ⟨prep, clean⟩ := programAll_clean s p r.ctx r l g
  have hstop : (if (s.part p).phase == .running then none else s.stepStop p r.ctx prog) = none := by
    rcases hstop with h | h <;> simp [h]
  have hsc : (if r.scanned then (s, false) else s.scanAll p l) = (s, false) := by
    rcases hscan with h | h
    · rw [if_pos h]
    · rw [scanAll_nothing h, ite_self]
  have run : s.programNext p r prog {} = (s.programAll p r.ctx r l g []).1.modPart p fun x =>
      { x with next := some (r.ctx, prog, s.division p, []), swapped := none } := by
    simp only [State.programNext, hl, hg, hstop, hst, stagePlan_clean r.ctx r.plan hsp, Option.any_some, hpo, hsc, hchart, clean,
      prep.division, Bool.false_and, Bool.false_eq_true, if_false]
  obtain ⟨fs, hpart⟩ := prep.part p
  rw [run]
  exact ⟨(prep.held.trans (SheetsKeep.of_sheets rfl)).sameMemories, by rw [part_modPart_same], by rw [part_modPart_same, hpart],
    by rw [part_modPart_same, hpart]⟩

/-- A RUN whose next step must not start ends (01 R20; 05 R153). -/
theorem programNext_stops {s : State} {p prog : Nat} {r : RunState} {l : LoadedPlan} {g : StepProg} {st : Byte}
    (hl : s.runPlan p r.ctx = some l) (hg : s.stepProg p r.ctx prog = some g) (hph : (s.part p).phase = .none)
    (hst : s.stepStop p r.ctx prog = some st) (u : ProgUpset) : s.programNext p r prog u = s.endRun p r.ctx st 0 := by
  simp [State.programNext, hl, hg, hph, hst]

theorem doStepProgram_picks {s : State} {p prog : Nat} {r : RunState} (h : (s.part p).st = .running)
    (hph : (s.part p).phase = .none ∨ (s.part p).phase = .running) (hnc : (s.part p).noCommit = false) (hn : (s.part p).next = none)
    (hsv : s.inService p = true) (hr : s.pickRun p prog = some r) (u : ProgUpset) :
    s.doStepProgram p prog u = s.programNext p r prog u := by
  rcases hph with e | e <;> simp [State.doStepProgram, h, e, hnc, hn, hsv, hr]

/-! ### STEP_PROGRAM_TIMEOUT -/

/-- SOURCE of a sheet-level unit: its level and its sheet (13 R367). -/
theorem sheetSource_level (h : SheetId) : srcLevel (sheetSource h.val 0) = 4 ∧ srcSheet (sheetSource h.val 0) = h.val := by
  revert h
  decide

theorem Counts.sheetWire {s t : State} (h : Counts s t) (i : Nat) : (t.sheet i).wire = (s.sheet i).wire := by
  obtain ⟨b, pb, e⟩ := h.sheet i
  rw [e]

/-- A message of a unit of a sheet goes on the sheet's path to its collector; counting apart, nothing else of the sheets moves. -/
theorem sendFault_wire (s : State) (f : FaultInfo) (hl : srcLevel f.source ≤ 4) (hk : f.kind.toNat / 0x100 ≠ 6) :
    ∃ (m : FaultMsg) (t : State), Counts (t.modSheet (srcSheet f.source) fun h => { h with wire := h.wire ++ [m] }) (s.sendFault f) ∧
      t.sheets = s.sheets ∧ m.kind = f.kind ∧ m.address = f.address := by
  have tail : ∀ (n : Nat) (u : State) (ev : CntEvent) (i : Nat), Counts u (if 2 ≤ n then u.sheetEvent i ev else u) := by
    intro n u ev i
    split
    · exact sheetEvent_counts u i ev
    · exact .refl u
  unfold State.sendFault
  dsimp only
  rw [if_pos hl, if_neg hk, if_pos hl]
  exact ⟨_, _, tail _ _ _ _, rfl, rfl, rfl⟩

/-- A fault of a sheet's plan sequencer that abandons no step. -/
theorem sheetFault_raises (s : State) (h : SheetId) (k : BitVec 12) (op : BitVec 16) (a : Word) (hk : k.toNat / 0x100 ≠ 6)
    (ha : abandons k.toNat false = false) : Raises h.val k a s (s.sheetFault h.val 0 k op a) := by
  obtain ⟨hl, hs⟩ := sheetSource_level h
  obtain ⟨m, t, hc, ht, hm, hm'⟩ := sendFault_wire s
    { source := sheetSource h.val 0, kind := k, ctx := s.curCtx h.val, op := op, address := a } hl.le hk
  refine ⟨m, ?_, hm, hm'⟩
  rw [State.sheetFault, ha, if_neg Bool.false_ne_true]
  rw [hc.sheetWire, hs, sheet_modSheet_same, State.sheet, ht]
  rfl

end Sys2Proof.Machine
end

section
/-! O6, continued: STEP_REPEAT and RUN_DISPATCH (05 R168; 13 R380), and the statement. -/

namespace Sys2Proof.Machine

/-! ### STEP_REPEAT -/

/-- An abandoned step is programmed again where the partition does not hang and its sheets stand ready (13 R380). -/
theorem doRepeat_programs {s : State} {p : Nat} {c : CtxId} {r : RunState} {l : LoadedPlan} {g : StepProg}
    (hph : (s.part p).phase = .abandoned) (hcur : (s.part p).cur = some c) (hr : (s.part p).runOf c = some r)
    (hl : s.runPlan p c = some l) (hg : s.stepProg p c (s.part p).prog = some g) (hh : (s.part p).hang = .normal)
    (hht : (s.part p).halted = false) (hnc : (s.part p).noCommit = false) (hsv : s.inService p = true)
    (hup : s.portsUp p c (s.part p).prog = true) (hch : ∀ h ∈ (s.part p).sheetList, (s.sheet h).changes = [])
    (hfew : ∀ h ∈ (s.part p).sheetList, max 12 l.plan.minInsvc ≤ (s.sheet h).pmap.length) (hst : s.progStalls p l g true = false)
    (hpo : l.poison = false) (hsp : ∀ h ∈ (s.part p).sheetList, (s.sheet h).stagingPoison = false) :
    ∃ t, Prepares (s.modPart p fun x => { x with next := none, swapped := none }) t ∧
      s.doRepeat p {} = t.modPart p fun x => { x with phase := .programmed, again := true } := by
  obtain ⟨prep, clean⟩ := programAll_clean (s.modPart p fun x => { x with next := none, swapped := none }) p c r l g
  have ready : ((s.part p).sheetList.all fun h => (s.sheet h).changes.all fun m => m == .advance && (s.sheet h).advanceHeld) = true :=
    List.all_eq_true.2 fun h m => by simp [hch h m]
  refine ⟨_, prep, ?_⟩
  simp only [State.doRepeat, hph, hcur, hr, hl, hg, hh, hht, hnc, hsv, hup, ready, tooFew_false hfew, hst, stagePlan_clean c r.plan hsp,
    Option.any_some, hpo, clean, List.isEmpty_nil, Bool.not_true, Bool.not_false, Bool.or_false, Bool.false_eq_true, if_false, if_true]

theorem doRepeat_not_abandoned {s : State} {p : Nat} (h : (s.part p).phase ≠ .abandoned) (u : ProgUpset) : s.doRepeat p u = s := by
  unfold State.doRepeat
  dsimp only
  split
  · next e _ => exact absurd e h
  · rfl

/-! ### RUN_DISPATCH -/

/-- What the acceptance of a RUN makes of the state (05 R168): the RUN's record stands last among those of the partition. -/
structure Accepts (q : Nat) (d : Desc) (seed : List Byte) (dev : Bool) (s u : State) : Prop where
  same : SameMemories s u
  step : (u.ctx (dCtx d).val).step = if dSeedSel d = 0 then (s.ctx (dCtx d).val).step else 0
  run : ∃ r, (u.part (s.ctxPart (dCtx d))).runOf (dCtx d) = some r ∧ r.seed = seed ∧ r.devSeed = dev ∧ r.total = dArg0 d ∧
    r.committed = 0 ∧ r.plan = dPlan d ∧ r.queue = q

/-- The record of a RUN that joins a partition without one of its context. -/
theorem runOf_append {x : Part} {c : CtxId} {r : RunState} (h : x.runOf c = none) (hr : r.ctx = c) :
    (x.runs ++ [r]).find? (fun y => y.ctx == c) = some r := by
  rw [List.find?_append, show x.runs.find? (fun y => y.ctx == c) = none from h]
  simp [hr]

theorem acceptRun_accepts {s : State} {q : Nat} {d : Desc} {l : LoadedPlan} {seed : List Byte} {dev : Bool}
    (hn : (s.part (s.ctxPart (dCtx d))).runOf (dCtx d) = none)
    (hfew : ∀ h ∈ (s.part (s.ctxPart (dCtx d))).sheetList, max 12 l.plan.minInsvc ≤ (s.sheet h).pmap.length)
    (hstep : dSeedSel d = 0 → (s.ctx (dCtx d).val).step.toNat ≠ 2 ^ 64 - 1)
    (hdraw : ∀ v ∈ l.plan.progs, ∀ w ∈ v.divs, ∀ b ∈ w.binds, b.draws = true →
      ((s.sheet b.home.val).slot b.slot.val).reg.step.toNat ≠ 2 ^ 64 - 1) :
    Accepts q d seed dev s (s.acceptRun q d l seed dev) := by
  obtain ⟨t, et, hsheets, hparts, ht⟩ : ∃ t : State,
      (if dSeedSel d = 0 then s else s.modCtx (dCtx d).val fun x => { x with step := 0 }) = t ∧ t.sheets = s.sheets ∧ t.parts = s.parts ∧
      (t.ctx (dCtx d).val).step = if dSeedSel d = 0 then (s.ctx (dCtx d).val).step else 0 := by
    refine ⟨_, rfl, ?_, ?_, ?_⟩
    · split <;> rfl
    · split <;> rfl
    · split
      · rfl
      · rw [ctx_modCtx_same]
  have room : (t.ctx (dCtx d).val).step.toNat ≠ 2 ^ 64 - 1 := by
    rw [ht]
    split
    · next h => exact hstep h
    · decide
  have few (f : Ctx → Ctx) (rs : List RunState) : ((t.modCtx (dCtx d).val f).modPart (s.ctxPart (dCtx d)) fun y =>
      { y with runs := y.runs ++ rs }).tooFew (s.ctxPart (dCtx d)) l.plan = false := by
    refine tooFew_false fun h m => ?_
    rw [part_modPart_same, part_modCtx, part_of_parts hparts] at m
    rw [sheet_modPart, sheet_modCtx, State.sheet, hsheets]
    exact hfew h m
  have draws : (((l.plan.progs.flatMap StepProg.divs).flatMap DivProg.binds).any fun b =>
      b.draws && decide (((t.sheet b.home.val).slot b.slot.val).reg.step.toNat = 2 ^ 64 - 1)) = false := by
    simp only [List.any_eq_false, List.mem_flatMap, Bool.and_eq_true, decide_eq_true_eq, not_and, State.sheet, hsheets]
    rintro b ⟨w, ⟨v, hv, hw⟩, hb⟩ hd
    exact hdraw v hv w hw b hb hd
  unfold State.acceptRun
  dsimp only
  rw [et, few, if_neg Bool.false_ne_true, if_neg]
  · refine ⟨(SheetsKeep.of_sheets hsheets).sameMemories, ?_, ?_⟩
    · rw [ctx_modPart, ctx_modCtx_same]
      exact ht
    · rw [part_modPart_same, part_modCtx, part_of_parts hparts]
      exact ⟨_, runOf_append hn rfl, rfl, rfl, rfl, rfl, rfl, rfl⟩
  · exact not_or.2 ⟨room, fun h => Bool.false_ne_true (draws.symm.trans h)⟩

end Sys2Proof.Machine

open Sys2Proof Sys2Proof.Machine

/-- Settles O6, command by command: programming keeps memories, contexts and partitions, and the step programmed is noted after it. -/
theorem stepsArePrepared : Obligations.StepsArePrepared := by
  refine ⟨fun p prog s => ?_, fun h s => ?_, fun p s => ?_, fun q arg s => ?_⟩
  · intro x
    have run : exec (.stepProgram p prog {}) s = .next (s.doStepProgram p.val prog {}) := rfl
    refine ⟨fun h => ?_, fun h => ?_, fun r l g hst hph hnc hn hsv hr hl hg => ?_⟩
    · rw [Holds, run]
      simp [State.doStepProgram, show (s.part p.val).st ≠ .running from h]
    · rw [Holds, run]
      simp [State.doStepProgram, h]
    · have e := doStepProgram_picks hst hph hnc hn hsv hr {}
      refine ⟨fun st h0 hs => ⟨_, run, ?_⟩, fun hstop hc hscan hpst hpo hsp => ⟨_, run, ?_⟩⟩
      · rw [e, programNext_stops hl hg h0 hs]
        exact ⟨(endRun_sheetsKeep s p.val r.ctx held_unreported held_unslotted st 0).sameMemories, endRun_part_runOf s p.val r.ctx st 0⟩
      · rw [e]
        obtain ⟨same, next, phase, cur⟩ := programNext_programs hl hg hstop hc hscan hpst hpo hsp
        exact ⟨same, next, phase, cur⟩
  · have run : exec (.stepProgramTimeout h) s = execStepProgramTimeout h s := rfl
    refine ⟨fun hn => ?_, fun p hp => ⟨fun hr => ?_, fun hr => ⟨s.sheetFault h.val 0 0x730 0 0, ?_, ?_, ?_⟩⟩⟩
    · rw [Holds, run, execStepProgramTimeout, hn]
    · simp [Holds, run, execStepProgramTimeout, hp, hr]
    · simp [run, execStepProgramTimeout, hp, hr]
    · exact ((sheetFault_reports s h.val 0 0x730 0 0).sheetsKeep held_unreported).sameMemories
    · exact sheetFault_raises s h 0x730 0 0 (by decide) (by decide)
  · intro x
    refine ⟨fun h v => congrArg _ (doRepeat_not_abandoned h v), ?_⟩
    intro c r l g hph hcur hr hl hg hh hht hnc hsv hup hch hfew hst hpo hsp
    obtain ⟨t, prep, e⟩ := doRepeat_programs hph hcur hr hl hg hh hht hnc hsv hup hch hfew hst hpo hsp
    obtain ⟨fs, hpart⟩ := prep.part p.val
    have run : exec (.stepRepeat ⟨p, {}⟩) s = .next (s.doRepeat p.val {}) := rfl
    refine ⟨_, run, ?_⟩
    rw [e]
    refine ⟨?_, ?_, ?_, ?_, ?_⟩
    · exact ((SheetsKeep.of_sheets rfl).trans (prep.held.trans (SheetsKeep.of_sheets rfl))).sameMemories
    · rw [part_modPart_same]
    · rw [part_modPart_same]
    · rw [part_modPart_same, hpart, part_modPart_same]
      exact hcur
    · rw [ctx_modPart, ctx_of_ctxs prep.ctxs, ctx_modPart]
  · have run : exec (.runDispatch q arg) s = .next (s.doDispatch q.val arg) := rfl
    refine ⟨fun hn => ?_, ?_⟩
    · rw [Holds, run, State.doDispatch, hn]
    · intro d l seed dev hd c p hs hst hop hw hn hrun hsv hl hch harg hseed hfew hstep hdraw
      obtain ⟨same, step, r⟩ := acceptRun_accepts (q := q.val) (seed := seed) (dev := dev) hn hfew hstep hdraw
      refine ⟨_, run, ?_⟩
      have e : s.doDispatch q.val arg = s.acceptRun q.val d l seed dev := by
        have ready : (d.started && d.status == none && dOp d == 2 && d.wants == 0) = true := by simp [hs, hst, hop, hw]
        have chart : (planIsChart l.plan && s.chart.st != .service) = false := by
          cases h : planIsChart l.plan
          · rfl
          · simp [hch h]
        have host : (arg.isNone && (dSeedSel d == 1 || dArgPtr d != 0)) = false := by
          cases arg with
          | some b => rfl
          | none => simp [harg rfl]
        simp only [State.doDispatch, hd]
        rw [if_neg, hl, hseed]
        · simp only [chart, host, Bool.false_eq_true, if_false]
        · rw [ready, show ((s.part (s.ctxPart (dCtx d))).runOf (dCtx d)) = none from hn, hsv,
            show (s.part (s.ctxPart (dCtx d))).st = .running from hrun]
          decide
      rw [e]
      exact ⟨same, step, r⟩
end

section
/-! O7: changes of the parcel map (01 R19, R21; 13 R380). -/

namespace Sys2Proof.Machine

/-! ### What surrounds a change of the map -/

/-- What a sheet holds beside its field test: the units of which a map change speaks. -/
def Sheet.untested (x : Sheet) : Sheet := { x with ft := {} }

theorem saveFence_sheet (s : State) (i j : Nat) : (s.saveFence i).sheet j = s.sheet j := rfl

theorem testRecord_untested (s : State) (i p t r k v m c : Nat) : SheetsKeep Sheet.untested s (s.testRecord i p t r k v m c) :=
  SheetsKeep.trans (SheetsKeep.of_sheets rfl) (SheetsKeep.modSheet i _ fun _ => rfl)

/-- Abandoning the standing spare's kernel touches its field test alone. -/
theorem abandonStanding_untested (s : State) (i : Nat) : SheetsKeep Sheet.untested s (s.abandonStanding i) := by
  unfold State.abandonStanding
  dsimp only
  split
  · exact (testRecord_untested _ _ _ _ _ _ _ _ _).trans (SheetsKeep.modSheet i _ fun _ => rfl)
  · exact SheetsKeep.refl

/-- Rebinding, on what a sheet holds beside its field test. -/
theorem untested_rebind {x y : Sheet} (h : x.untested = y.untested) (p q : Nat) :
    (x.rebind p q).untested = (y.rebind p q).untested := by
  have hp : x.parcels = y.parcels := (congrArg Sheet.parcels h :)
  have hm : x.pmap = y.pmap := (congrArg Sheet.pmap h :)
  have e : ∀ z : Sheet, (z.rebind p q).untested =
      { z.untested with parcels := tset {} z.parcels q (tget {} z.parcels p), pmap := z.pmap.map fun a => if a = p then q else a } :=
    fun _ => rfl
  rw [e, e, h, hp, hm]

/-- A fence whose index the standing spare takes (R19). -/
theorem mapFence_standing {s : State} {i p q : Nat} (hp : p ∈ (s.sheet i).pmap) (hq : (s.sheet i).standing = some q) :
    ∃ t : State, SheetsKeep Sheet.untested s t ∧ s.mapFence i p =
      ((t.modSheet i fun h => { h.rebind p q with standing := none }).modSheet i fun h =>
        { h with fenced := h.fenced ||| fenceBit p }).saveFence i := by
  refine ⟨s.abandonStanding i, abandonStanding_untested s i, ?_⟩
  simp only [State.mapFence, List.contains_iff_mem.2 hp, hq, Bool.not_true, Bool.false_eq_true, if_false]

/-- A fence without a spare takes the parcel out of the map (R19). -/
theorem mapFence_no_spare {s : State} {i p : Nat} (hp : p ∈ (s.sheet i).pmap) (hs : (s.sheet i).standing = none)
    (ht : (s.sheet i).test = none) :
    s.mapFence i p = ((s.modSheet i fun h => { h with pmap := h.pmap.filter (· ≠ p) }).modSheet i fun h =>
        { h with fenced := h.fenced ||| fenceBit p }).saveFence i := by
  simp only [State.mapFence, List.contains_iff_mem.2 hp, hs, ht, Bool.not_true, Bool.false_eq_true, if_false]

/-- A substitution by the standing spare (13 R380). -/
theorem mapSubstitute_standing {s : State} {i p q : Nat} (hp : p ∈ (s.sheet i).pmap) (hq : (s.sheet i).standing = some q) :
    ∃ t u : State, SheetsKeep Sheet.untested s t ∧ s.mapSubstitute i p = u ∧
      u.sheets = (t.modSheet i fun h => { h.rebind p q with standing := some p }).sheets := by
  refine ⟨s.abandonStanding i, _, abandonStanding_untested s i, rfl, ?_⟩
  simp only [State.mapSubstitute, List.contains_iff_mem.2 hp, hq, Bool.not_true, Bool.false_eq_true, if_false]
  split <;> rfl

/-- A boundary at which one fence waits. -/
theorem applyChanges_fence {s : State} {i p : Nat} (h : (s.sheet i).changes = [.fence p]) :
    s.applyChanges i = (s.mapFence i p).modSheet i fun x => { x with changes := [], advanceHeld := false } := by
  simp [State.applyChanges, h, State.forEach]

/-- A boundary at which one substitution waits. -/
theorem applyChanges_substitute {s : State} {i p : Nat} (h : (s.sheet i).changes = [.substitute p]) :
    s.applyChanges i = (s.mapSubstitute i p).modSheet i fun x => { x with changes := [], advanceHeld := false } := by
  simp [State.applyChanges, h, State.forEach]

/-! ### The sheet after a rebinding -/

/-- What a rebinding of `p` to the spare `q` makes of sheet `i`, its map changes done. -/
structure Rebound (i p q : Nat) (s u : State) : Prop where
  others : ∀ j, j ≠ i → (u.sheet j).untested = (s.sheet j).untested
  pmap : (u.sheet i).pmap = (s.sheet i).pmap.map fun x => if x = p then q else x
  parcels : (u.sheet i).parcels = tset {} (s.sheet i).parcels q ((s.sheet i).parcel p)
  dram : (u.sheet i).mem.dram = (s.sheet i).mem.dram
  changes : (u.sheet i).changes = []
  test : (u.sheet i).test = (s.sheet i).test

theorem applyChanges_fence_rebound {s : State} {i p q : Nat} (h : (s.sheet i).changes = [.fence p]) (hp : p ∈ (s.sheet i).pmap)
    (hq : (s.sheet i).standing = some q) :
    Rebound i p q s (s.applyChanges i) ∧ ((s.applyChanges i).sheet i).fenced = (s.sheet i).fenced ||| fenceBit p ∧
      ((s.applyChanges i).sheet i).standing = none := by
  obtain ⟨t, ht, e⟩ := mapFence_standing hp hq
  have hi := untested_rebind (ht i) p q
  rw [applyChanges_fence h, e]
  refine ⟨⟨fun j hj => ?_, ?_, ?_, ?_, ?_, ?_⟩, ?_, ?_⟩
  · rw [sheet_modSheet_ne _ _ hj, saveFence_sheet, sheet_modSheet_ne _ _ hj, sheet_modSheet_ne _ _ hj, ht j]
  all_goals simp only [sheet_modSheet_same, saveFence_sheet]
  · exact (congrArg Sheet.pmap hi :)
  · exact (congrArg Sheet.parcels hi :)
  · exact (congrArg (fun x : Sheet => x.mem.dram) hi :)
  · exact (congrArg Sheet.test hi :)
  · exact (congrArg (fun x : Sheet => x.fenced ||| fenceBit p) (ht i) :)

theorem applyChanges_substitute_rebound {s : State} {i p q : Nat} (h : (s.sheet i).changes = [.substitute p])
    (hp : p ∈ (s.sheet i).pmap) (hq : (s.sheet i).standing = some q) :
    Rebound i p q s (s.applyChanges i) ∧ ((s.applyChanges i).sheet i).fenced = (s.sheet i).fenced ∧
      ((s.applyChanges i).sheet i).standing = some p := by
  obtain ⟨t, v, ht, e, hv⟩ := mapSubstitute_standing hp hq
  have hi := untested_rebind (ht i) p q
  have hs : ∀ j, v.sheet j = (t.modSheet i fun h => { h.rebind p q with standing := some p }).sheet j := fun j => by
    simp only [State.sheet, hv]
  rw [applyChanges_substitute h, e]
  refine ⟨⟨fun j hj => ?_, ?_, ?_, ?_, ?_, ?_⟩, ?_, ?_⟩
  · rw [sheet_modSheet_ne _ _ hj, hs, sheet_modSheet_ne _ _ hj, ht j]
  all_goals simp only [sheet_modSheet_same, hs]
  · exact (congrArg Sheet.pmap hi :)
  · exact (congrArg Sheet.parcels hi :)
  · exact (congrArg (fun x : Sheet => x.mem.dram) hi :)
  · exact (congrArg Sheet.test hi :)
  · exact (congrArg Sheet.fenced (ht i) :)

theorem length_filter_ne {l : List Nat} {p : Nat} (hn : l.Nodup) (hp : p ∈ l) : (l.filter (· ≠ p)).length + 1 = l.length := by
  rw [← List.length_erase_add_one hp, hn.erase_eq_filter]
  congr 3
  funext x
  simp [bne, beq_eq_decide]

/-- A fence on a sheet without a spare takes the parcel out and touches nothing else of the sheets. -/
theorem applyChanges_fence_no_spare {s : State} {i p : Nat} (h : (s.sheet i).changes = [.fence p]) (hp : p ∈ (s.sheet i).pmap)
    (hs : (s.sheet i).standing = none) (ht : (s.sheet i).test = none) (j : Nat) :
    (s.applyChanges i).sheet j = if j = i then
        { s.sheet i with
          pmap := (s.sheet i).pmap.filter (· ≠ p), fenced := (s.sheet i).fenced ||| fenceBit p, changes := [], advanceHeld := false }
      else s.sheet j := by
  rw [applyChanges_fence h, mapFence_no_spare hp hs ht]
  split
  · next e => subst e; simp only [sheet_modSheet_same, saveFence_sheet]
  · next e => simp only [sheet_modSheet_ne _ _ e, saveFence_sheet]

section
variable {i p q : Nat} {s u : State}

theorem Rebound.sameDram (h : Rebound i p q s u) : SameDram s u := fun j a => by
  by_cases hj : j = i
  · subst hj; simp only [State.dramAt, h.dram]
  · exact (congrArg (fun x : Sheet => mget x.mem.dram a) (h.others j hj) :)

theorem Rebound.phys (h : Rebound i p q s u) (k : Nat) :
    (u.sheet i).phys k = ((s.sheet i).phys k).map fun x => if x = p then q else x := by
  simp only [Sheet.phys, h.pmap, List.getElem?_map]

/-- The spare stands where the parcel stood. -/
theorem Rebound.phys_same (h : Rebound i p q s u) {l : Nat} (hl : (s.sheet i).pmap[l]? = some p) : (u.sheet i).phys l = some q := by
  rw [h.phys, Sheet.phys, hl, Option.map_some, if_pos rfl]

/-- Every other index keeps its parcel. -/
theorem Rebound.phys_other (h : Rebound i p q s u) {l k : Nat} (hl : (s.sheet i).pmap[l]? = some p) (hn : (s.sheet i).pmap.Nodup)
    (hk : k ≠ l) : (u.sheet i).phys k = (s.sheet i).phys k := by
  rw [h.phys, Sheet.phys]
  cases e : (s.sheet i).pmap[k]? with
  | none => rfl
  | some x =>
    have hx : x ≠ p := fun hx => hk ((List.getElem?_inj (List.getElem?_eq_some_iff.1 e).1 hn).1 (by rw [e, hl, hx]))
    rw [Option.map_some, if_neg hx]

/-- The memories follow the index. -/
theorem Rebound.parcel (h : Rebound i p q s u) : (u.sheet i).parcel q = (s.sheet i).parcel p := by
  rw [Sheet.parcel, h.parcels, tget_tset_same]

end

/-! ### The command -/

/-- At a boundary the changes are applied, and a repeat that was programmed is to be programmed again; the sheets are those that the
changes leave. -/
theorem doMapChange_boundary {s : State} {i : Nat} (h : ∀ n, s.partOf i = some n → (s.part n).phase ≠ .running) :
    (s.doMapChange i).sheets = (s.applyChanges i).sheets := by
  unfold State.doMapChange
  split
  · rfl
  · next n hn =>
    split
    · rfl
    · rfl
    · rfl
    · next e => exact absurd e (h n hn)

theorem sheet_doMapChange {s : State} {i : Nat} (h : ∀ n, s.partOf i = some n → (s.part n).phase ≠ .running) (j : Nat) :
    (s.doMapChange i).sheet j = (s.applyChanges i).sheet j := by simp only [State.sheet, doMapChange_boundary h]

theorem doMapChange_running {s : State} {i n : Nat} (h : s.partOf i = some n) (hr : (s.part n).phase = .running) :
    s.doMapChange i = s := by
  simp only [State.doMapChange, h, hr]

theorem doMapChange_programmed {s : State} {i n : Nat} (h : s.partOf i = some n) (hr : (s.part n).phase = .programmed) :
    ((s.doMapChange i).part n).phase = .abandoned := by
  simp only [State.doMapChange, h, hr, part_modPart_same]

theorem Rebound.of_sheets {i p q : Nat} {s u v : State} (h : Rebound i p q s u) (e : v.sheets = u.sheets) : Rebound i p q s v := by
  have hs : ∀ j, v.sheet j = u.sheet j := fun j => by simp only [State.sheet, e]
  refine ⟨fun j hj => ?_, ?_, ?_, ?_, ?_, ?_⟩ <;> rw [hs]
  exacts [h.others j hj, h.pmap, h.parcels, h.dram, h.changes, h.test]

end Sys2Proof.Machine

open Sys2Proof Sys2Proof.Machine

/-- Settles O7: a boundary applies the one change that waits, and rebinding is a substitution in the map with the memories carried. -/
theorem parcelMapChanges : Obligations.ParcelMapChanges := by
  intro h s y boundary
  have run : exec (.parcelMapChange h) s = .next (s.doMapChange h.val) := rfl
  refine ⟨fun hb => ?_, fun hb => ?_, fun hb p hch hp hn hst htest => ?_, fun n hn hp => ⟨_, run, doMapChange_programmed hn hp⟩⟩
  · obtain ⟨n, hn, hr⟩ : ∃ n, s.partOf h.val = some n ∧ (s.part n).phase = .running := by
      simpa [boundary] using hb
    rw [Holds, run, doMapChange_running hn hr]
  · intro l p q hl hn _ hst _ _ moved
    have e := doMapChange_boundary hb
    have es := sheet_doMapChange hb h.val
    have hp : p ∈ y.pmap := List.mem_of_getElem? hl
    have m : Rebound h.val p q s (s.doMapChange h.val) → moved (s.doMapChange h.val) := fun r =>
      ⟨r.sameDram, r.changes, r.phys_same hl, fun k hk => r.phys_other hl hn hk,
        fun a => congrArg (fun x : ParcelMem => mget x.store a) r.parcel, fun a => congrArg (fun x : ParcelMem => mget x.acc a) r.parcel⟩
    constructor
    · intro hch
      obtain ⟨r, hf, hs⟩ := applyChanges_fence_rebound hch hp hst
      have r := r.of_sheets e
      exact ⟨_, run, m r, by rw [es, hf], by rw [es, hs], r.test⟩
    · intro hch
      obtain ⟨r, hf, hs⟩ := applyChanges_substitute_rebound hch hp hst
      have r := r.of_sheets e
      exact ⟨_, run, m r, by rw [es, hf], by rw [es, hs], r.test⟩
  · have hs : ∀ j, (s.doMapChange h.val).sheet j = _ := fun j =>
      (sheet_doMapChange hb j).trans (applyChanges_fence_no_spare hch hp hst htest j)
    have keeps : ∀ {β : Type} (π : Sheet → β),
        (∀ (x : Sheet) m f, π { x with pmap := m, fenced := f, changes := [], advanceHeld := false } = π x) →
        SheetsKeep π s (s.doMapChange h.val) := fun π hπ j => by
      rw [hs]
      split
      · next e => rw [e, hπ]
      · rfl
    refine ⟨_, run, ⟨sameDram_of_sheets (keeps _ fun _ _ _ => rfl), (keeps _ fun _ _ _ => rfl).sameStores,
      (keeps _ fun _ _ _ => rfl).sameAccs⟩, ?_, ?_, ?_, ?_⟩ <;> rw [hs, if_pos rfl]
    · simp
    · exact length_filter_ne hn hp
end

section
/-! SUPPORT. Abandonment of a step (13 R379): what it restores, what it drops, and what it leaves. -/

namespace Sys2Proof.Machine

/-! ### Bytes and slots after a walk -/

section
variable {α : Type} (d : α) (k : Nat)

theorem tget_append_left {l : Table α} (m : Table α) (h : ∀ e ∈ l, e.1 ≠ k) : tget d (l ++ m) k = tget d m k := by
  induction l with
  | nil => rfl
  | cons e l ih =>
    rw [List.cons_append, tget, if_neg (h e List.mem_cons_self)]
    exact ih fun x hx => h x (List.mem_cons_of_mem _ hx)

theorem tget_append_right (l : Table α) {m : Table α} (h : ∀ e ∈ m, e.1 ≠ k) : tget d (l ++ m) k = tget d l k := by
  induction l with
  | nil =>
    rw [List.nil_append, ← List.append_nil m, tget_append_left d k [] h]
  | cons e l ih => rw [List.cons_append, tget, tget, ih]

/-- Keys taken from another table. -/
theorem tget_tgraft (t src : Table α) (a n : Nat) :
    tget d (tgraft t src a n) k = if a ≤ k ∧ k < a + n then tget d src k else tget d t k := by
  have lo := tget_filter d t (fun x => decide (x < a)) k
  have hi := tget_filter d t (fun x => decide (a + n ≤ x)) k
  have mid := tget_filter d src (fun x => decide (a ≤ x ∧ x < a + n)) k
  have out {l : Table α} {p : Nat → Bool} (h : p k = false) : ∀ e ∈ l.filter (fun e => p e.1), e.1 ≠ k := by
    rintro e he rfl
    exact absurd (List.mem_filter.1 he).2 (by simp [h])
  unfold tgraft
  by_cases h1 : k < a
  · rw [List.append_assoc, tget_append_right d k _ fun e he => (List.mem_append.1 he).elim
        (out (p := fun x => decide (a ≤ x ∧ x < a + n)) (by simp; omega) e) (out (p := fun x => decide (a + n ≤ x)) (by simp; omega) e),
      lo, if_pos (by simpa using h1), if_neg (by omega)]
  · rw [List.append_assoc, tget_append_left d k _ (out (p := fun x => decide (x < a)) (by simpa using h1))]
    by_cases h2 : k < a + n
    · rw [tget_append_right d k _ (out (p := fun x => decide (a + n ≤ x)) (by simpa using h2)), mid, if_pos (by simp; omega),
        if_pos (by omega)]
    · rw [tget_append_left d k _ (out (p := fun x => decide (a ≤ x ∧ x < a + n)) (by simp; omega)), hi, if_pos (by simp; omega),
        if_neg (by omega)]

end

/-- A byte of the store after carried blocks were taken from a copy. -/
theorem mget_graftBlocks (src : ParcelMem) (bl : List Nat) (a : Nat) :
    ∀ m : ParcelMem, mget (graftBlocks m src bl).store a = if a / 65536 ∈ bl then mget src.store a else mget m.store a := by
  induction bl with
  | nil => intro m; simp [graftBlocks]
  | cons b bl ih =>
    intro m
    have one : mget (tgraft m.store src.store (65536 * b) 65536) a = if a / 65536 = b then mget src.store a else mget m.store a := by
      rw [mget, tget_tgraft]
      exact if_congr (by omega) rfl rfl
    refine (ih _).trans ?_
    by_cases h : a / 65536 ∈ bl
    · simp [h]
    · simp [h, one]

theorem graftRows_store (m src : ParcelMem) (l : List (Nat × Nat)) : (graftRows m src l).store = m.store := by
  refine foldl_keeps ParcelMem.store _ (fun _ _ => ?_) l m
  rfl

theorem slot_modSlot (x : Sheet) (n k : Nat) (f : Slot → Slot) : (x.modSlot k f).slot n = if n = k then f (x.slot k) else x.slot n :=
  tget_tmod _ _ _ _ _

/-- Slots after a walk that changes each in a way that a second time changes nothing. -/
theorem slot_foldl_modSlot (f : Slot → Slot) (hf : ∀ y, f (f y) = f y) (n : Nat) (l : List Nat) :
    ∀ x : Sheet, (l.foldl (fun x k => x.modSlot k f) x).slot n = if n ∈ l then f (x.slot n) else x.slot n := by
  induction l with
  | nil => intro x; rfl
  | cons k l ih =>
    intro x
    rw [List.foldl_cons, ih, slot_modSlot]
    by_cases e : n = k
    · subst e
      by_cases h : n ∈ l <;> simp [h, hf]
    · simp [e]

/-- A slot of a context stands in the list of the context's slots. -/
theorem slot_mem_own {x : Sheet} {n : Nat} {c : CtxId} (h : (x.slot n).ctx = some c) :
    n ∈ (x.slots.filter fun z => z.2.ctx == some c).map Prod.fst := by
  have own : ∀ t : Table Slot, (tget {} t n).ctx = some c → n ∈ (t.filter fun z => z.2.ctx == some c).map Prod.fst := by
    intro t
    induction t with
    | nil => intro h; cases h
    | cons e t ih =>
      intro h
      rw [tget] at h
      split at h
      · next he => simp [h, ← he]
      · have := ih h
        rw [List.mem_map] at this ⊢
        obtain ⟨z, hz, e⟩ := this
        exact ⟨z, List.mem_filter.2 ⟨List.mem_cons_of_mem _ (List.mem_filter.1 hz).1, (List.mem_filter.1 hz).2⟩, e⟩
  exact own _ h

/-- A slot whose pending copy is discarded (04 R126). -/
def Slot.discard (y : Slot) : Slot := { y with pend := y.start, phase := .idle, drew := false, poison := false, started := false }

/-- A slot of a context after the discarding of the context's copies. -/
theorem slot_discard {x : Sheet} {n : Nat} {c : CtxId} (h : (x.slot n).ctx = some c) : (x.discard c).slot n = (x.slot n).discard := by
  refine (foldl_modChain_keeps (fun y => y.slot n) (fun _ _ => rfl) id _ _ _).trans ?_
  refine (slot_foldl_modSlot Slot.discard (fun _ => rfl) n _ x).trans ?_
  rw [if_pos (slot_mem_own h)]

/-! ### One engine -/

theorem eng_modPmem (s : State) (e g : EngId) (f : ParcelMem → ParcelMem) : (s.modPmem e f).eng g = s.eng g := by
  unfold State.modPmem State.eng
  rw [sheet_modSheet]
  split
  · next h => rw [h]; split <;> rfl
  · rfl

theorem modPmem_ground (s : State) (e : EngId) (f : ParcelMem → ParcelMem) : SheetsKeep Sheet.ground s (s.modPmem e f) := by
  refine SheetsKeep.modSheet _ _ fun x => ?_
  split <;> rfl

theorem modEng_ground (s : State) (e : EngId) (f : Engine → Engine) : SheetsKeep Sheet.ground s (s.modEng e f) :=
  SheetsKeep.modEng e f fun _ _ => rfl

/-- A change of an engine leaves every parcel's memories. -/
theorem parcel_modEng (s : State) (e : EngId) (f : Engine → Engine) (h q : Nat) :
    ((s.modEng e f).sheet h).parcel q = (s.sheet h).parcel q :=
  SheetsKeep.modEng (π := fun x => x.parcel q) e f (fun _ _ => rfl) h

theorem parcel_modParcel (x : Sheet) (p q : Nat) (f : ParcelMem → ParcelMem) :
    (x.modParcel p f).parcel q = if q = p then f (x.parcel p) else x.parcel q := tget_tmod _ _ _ _ _

/-- The memories of a physical parcel after a change behind an engine. -/
theorem parcel_modPmem (s : State) (e : EngId) (f : ParcelMem → ParcelMem) (h q : Nat) :
    ((s.modPmem e f).sheet h).parcel q =
      if h = e.sheet.val ∧ (s.sheet h).phys e.parcel.val = some q then f ((s.sheet h).parcel q) else (s.sheet h).parcel q := by
  unfold State.modPmem
  rw [sheet_modSheet]
  by_cases hh : h = e.sheet.val
  · subst hh
    rw [if_pos rfl]
    split
    · next p hp =>
      rw [parcel_modParcel]
      by_cases e : q = p
      · subst e; rw [if_pos rfl, if_pos ⟨rfl, hp⟩]
      · rw [if_neg e, if_neg]
        rintro ⟨-, hq⟩
        exact e (Option.some.inj (hq.symm.trans hp))
    · next hp => rw [if_neg]; rintro ⟨-, hq⟩; exact absurd (hq.symm.trans hp) (by simp)
  · rw [if_neg hh, if_neg fun k => hh k.1]

/-- What an abandonment makes of one engine: its journal restored, what the step left in it dropped. -/
def State.dropEngine (entry : Word) (s : State) (e : EngId) : State :=
  (s.restoreEngine e false).modEng e fun g => { g.dropStep entry with st := if g.st == .halt then .halt else .idle }

/-- A journal that passes its check is restored as it stands; without one nothing is restored. -/
theorem restoreEngine_sound (s : State) (e : EngId) :
    ((s.eng e).journal = none ∧ s.restoreEngine e false = s) ∨ ∃ j, (s.eng e).journal = some j ∧ s.restoreEngine e false =
      (s.modPmem e fun m => graftRows (graftBlocks m j.mem (s.eng e).carriedBlocks) j.mem (s.eng e).carriedRows).modEng e
        fun g => { g with tds := j.tds } := by
  cases h : (s.eng e).journal with
  | none => exact .inl ⟨rfl, by simp only [State.restoreEngine, h]⟩
  | some j => exact .inr ⟨j, rfl, by simp only [State.restoreEngine, h, Bool.false_and, Bool.false_eq_true, if_false]⟩

section
variable (entry : Word) (s : State) (e : EngId)

theorem dropEngine_ground : SheetsKeep Sheet.ground s (s.dropEngine entry e) := by
  unfold State.dropEngine
  obtain ⟨-, h⟩ | ⟨j, -, h⟩ := restoreEngine_sound s e <;> rw [h]
  · exact modEng_ground _ _ _
  · exact ((modPmem_ground _ _ _).trans (modEng_ground _ _ _)).trans (modEng_ground _ _ _)

theorem dropEngine_parts : (s.dropEngine entry e).parts = s.parts := by
  unfold State.dropEngine
  obtain ⟨-, h⟩ | ⟨j, -, h⟩ := restoreEngine_sound s e <;> rw [h] <;> rfl

theorem dropEngine_ctxs : (s.dropEngine entry e).ctxs = s.ctxs := by
  unfold State.dropEngine
  obtain ⟨-, h⟩ | ⟨j, -, h⟩ := restoreEngine_sound s e <;> rw [h] <;> rfl

theorem dropEngine_slots (i : Nat) : ((s.dropEngine entry e).sheet i).slots = (s.sheet i).slots := by
  have hp : ∀ (s : State) f, SheetsKeep Sheet.slots s (s.modPmem e f) := fun s f => SheetsKeep.modSheet _ _ fun x => by split <;> rfl
  have he : ∀ (s : State) f, SheetsKeep Sheet.slots s (s.modEng e f) := fun s f => SheetsKeep.modEng _ _ fun _ _ => rfl
  unfold State.dropEngine
  obtain ⟨-, h⟩ | ⟨j, -, h⟩ := restoreEngine_sound s e <;> rw [h]
  · exact he _ _ i
  · exact (((hp _ _).trans (he _ _)).trans (he _ _)) i

/-- Another engine stays as it is. -/
theorem eng_dropEngine_ne {g : EngId} (h : g ≠ e) : (s.dropEngine entry e).eng g = s.eng g := by
  unfold State.dropEngine
  rw [eng_modEng_ne _ _ h]
  obtain ⟨-, k⟩ | ⟨j, -, k⟩ := restoreEngine_sound s e <;> rw [k]
  rw [eng_modEng_ne _ _ h, eng_modPmem]

/-- The memories of another engine's parcel stay as they are. -/
theorem parcel_dropEngine_ne {h q : Nat} (hq : ¬(h = e.sheet.val ∧ (s.sheet h).phys e.parcel.val = some q)) :
    ((s.dropEngine entry e).sheet h).parcel q = (s.sheet h).parcel q := by
  unfold State.dropEngine
  rw [parcel_modEng]
  obtain ⟨-, k⟩ | ⟨j, -, k⟩ := restoreEngine_sound s e <;> rw [k]
  rw [parcel_modEng, parcel_modPmem, if_neg hq]

/-- An engine with a journal takes back its descriptors and its carried blocks, and keeps no journal. -/
theorem dropEngine_restores {q : Nat} {j : Journal} (hq : (s.sheet e.sheet.val).phys e.parcel.val = some q)
    (hj : (s.eng e).journal = some j) :
    ((s.dropEngine entry e).eng e).tds = j.tds ∧ ((s.dropEngine entry e).eng e).journal = none ∧
      ∀ b ∈ (s.eng e).carriedBlocks, ∀ i, i < 65536 →
        (s.dropEngine entry e).storeAt e.sheet.val q (65536 * b + i) = mget j.mem.store (65536 * b + i) := by
  obtain ⟨hn, -⟩ | ⟨k, hk, h⟩ := restoreEngine_sound s e
  · exact absurd (hn.symm.trans hj) (by simp)
  obtain rfl : k = j := Option.some.inj (hk.symm.trans hj)
  unfold State.dropEngine
  rw [h]
  refine ⟨?_, ?_, fun b hb i hi => ?_⟩
  · rw [eng_modEng_same, eng_modEng_same]; rfl
  · rw [eng_modEng_same]; rfl
  · rw [State.storeAt, parcel_modEng, parcel_modEng, parcel_modPmem, if_pos ⟨rfl, hq⟩, graftRows_store, mget_graftBlocks, if_pos]
    rwa [show (65536 * b + i) / 65536 = b by omega]

end

/-! ### The partition -/

/-- The engines' part of an abandonment. -/
def State.dropEngines (s : State) (p : Nat) : State :=
  let t := s.loseLedgers (s.part p).sheetList
  t.forEach (t.engineIds p) (State.dropEngine (s.scribeEntry p))

/-- The part of an abandonment that concerns the context of the step: pending copies, and with HOLD its unsent packets. -/
def State.discardStep (s : State) (p : Nat) : State :=
  match (s.part p).cur with
  | none => s
  | some c =>
    let s := s.forEach (s.part p).sheetList fun s h => s.modSheet h fun x => x.discard c
    if (s.part p).hold then s.dropUnsent p c else s

/-- Abandonment with sound journals, in its parts. -/
theorem abandonStep_sound (s : State) (p : Nat) :
    s.abandonStep p [] = (((s.dropEngines p).forEach ((s.dropEngines p).part p).sheetList fun s h =>
      s.modSheet h Sheet.dropHubs).discardStep p).modPart p fun x =>
        { x with phase := .abandoned, dramWritten := [], stepSat := false, stepFlagged := false } := rfl

/-- Ledgers lost: counting apart, only ledgers move. -/
theorem loseLedgers_counts (s : State) (l : List Nat) : ∃ t, Counts s t ∧ s.loseLedgers l = t.clearLedgers l :=
  ⟨_, discardLedgers_counts _ _, rfl⟩

theorem clearLedgers_keeps {β : Type} (π : Sheet → β) (h : ∀ x t, π { x with ledgers := t } = π x) (s : State) (l : List Nat) :
    SheetsKeep π s (s.clearLedgers l) := SheetsKeep.forEach _ _ fun _ i => SheetsKeep.modSheet i _ fun x => h x _

theorem loseLedgers_keeps {β : Type} (π : Sheet → β) (hπ : Unreported π) (h : ∀ x t, π { x with ledgers := t } = π x) (s : State)
    (l : List Nat) : SheetsKeep π s (s.loseLedgers l) := by
  obtain ⟨t, ht, e⟩ := loseLedgers_counts s l
  rw [e]
  exact (ht.sheetsKeep hπ).trans (clearLedgers_keeps π h t l)

theorem loseLedgers_parts (s : State) (l : List Nat) : (s.loseLedgers l).parts = s.parts := by
  obtain ⟨t, ht, e⟩ := loseLedgers_counts s l
  rw [e]
  exact (forEach_modSheet_parts _ l t).trans ht.parts

theorem loseLedgers_ctxs (s : State) (l : List Nat) : (s.loseLedgers l).ctxs = s.ctxs := by
  obtain ⟨t, ht, e⟩ := loseLedgers_counts s l
  rw [e]
  exact (forEach_modSheet_ctxs _ l t).trans ht.ctxs

section
variable (s : State) (p : Nat)

theorem dropEngines_parts : (s.dropEngines p).parts = s.parts :=
  (forEach_keeps State.parts _ (fun t e => dropEngine_parts _ t e) _ _).trans (loseLedgers_parts _ _)

theorem dropEngines_ctxs : (s.dropEngines p).ctxs = s.ctxs :=
  (forEach_keeps State.ctxs _ (fun t e => dropEngine_ctxs _ t e) _ _).trans (loseLedgers_ctxs _ _)

theorem dropEngines_ground : SheetsKeep Sheet.ground s (s.dropEngines p) :=
  (loseLedgers_keeps _ ground_unreported (fun _ _ => rfl) s _).trans (SheetsKeep.forEach _ _ fun t e => dropEngine_ground _ t e)

theorem dropEngines_slots : SheetsKeep Sheet.slots s (s.dropEngines p) :=
  (loseLedgers_keeps _ (fun _ _ _ _ => rfl) (fun _ _ => rfl) s _).trans (SheetsKeep.forEach _ _ fun t e i => dropEngine_slots _ t e i)

/-- Two indices of a map without repeats name different parcels. -/
theorem phys_inj {x : Sheet} (hn : x.pmap.Nodup) {l k q : Nat} (hl : x.phys l = some q) (hk : x.phys k = some q) : l = k :=
  (List.getElem?_inj (List.getElem?_eq_some_iff.1 hl).1 hn).1 (hl.trans hk.symm)

/-- An engine and the memories of a physical parcel. -/
def State.behind (s : State) (e : EngId) (q : Nat) : Engine × ParcelMem := (s.eng e, (s.sheet e.sheet.val).parcel q)

/-- Of `x`, the descriptors and the carried blocks are those of its journal `j` in `y`, and the journal is gone. -/
def RestoredFrom (j : Journal) (x y : Engine × ParcelMem) : Prop :=
  x.1.journal = some j → y.1.tds = j.tds ∧ y.1.journal = none ∧
    ∀ b ∈ x.1.carriedBlocks, ∀ i, i < 65536 → mget y.2.store (65536 * b + i) = mget j.mem.store (65536 * b + i)

/-- Each engine of the partition with a journal is restored (13 R379). -/
theorem dropEngines_restores {e : EngId} (he : e ∈ s.engineIds p) {q : Nat} (j : Journal)
    (hn : (s.sheet e.sheet.val).pmap.Nodup) (hq : (s.sheet e.sheet.val).phys e.parcel.val = some q) :
    RestoredFrom j (s.behind e q) ((s.dropEngines p).behind e q) := by
  have start : SheetsKeep Sheet.ground s (s.loseLedgers (s.part p).sheetList) :=
    loseLedgers_keeps _ ground_unreported (fun _ _ => rfl) s _
  have same : (s.loseLedgers (s.part p).sheetList).behind e q = s.behind e q :=
    loseLedgers_keeps (fun x => (x.engine e.parcel.val, x.parcel q)) (fun _ _ _ _ => rfl) (fun _ _ => rfl) s _ e.sheet.val
  have ids : (s.loseLedgers (s.part p).sheetList).engineIds p = s.engineIds p :=
    engineIds_congr (by rw [part_of_parts (loseLedgers_parts s _)])
  rw [← same]
  refine forEach_visited (State.behind · e q) _ (fun t => SheetsKeep Sheet.ground s t) e (RestoredFrom j)
    (fun t a ht => ht.trans (dropEngine_ground _ t a)) (fun t a ht hne => ?_) (fun t ht hj => ?_) _ _
    (engineIds_nodup _ p) start (ids ▸ he)
  · refine Prod.ext (eng_dropEngine_ne _ t a hne) (parcel_dropEngine_ne _ t a ?_)
    rintro ⟨hs, hp⟩
    rw [ht.phys] at hp
    exact hne (EngId.ext' hs (phys_inj hn hq hp))
  · exact dropEngine_restores _ t e ((ht.phys _ _).trans hq) hj

theorem dropUnsent_units (c : CtxId) : (s.dropUnsent p c).sheets = s.sheets ∧ (s.dropUnsent p c).parts = s.parts ∧
    (s.dropUnsent p c).ctxs = s.ctxs := by
  refine ⟨forEach_keeps State.sheets _ (fun _ _ => ?_) _ s, forEach_keeps State.parts _ (fun _ _ => ?_) _ s,
    forEach_keeps State.ctxs _ (fun _ _ => ?_) _ s⟩ <;> rfl

/-- What discarding moves: slots and chains of the sheets, and with HOLD what ports have not sent. -/
theorem discardStep_some {c : CtxId} (h : (s.part p).cur = some c) :
    (s.discardStep p).sheets = (s.forEach (s.part p).sheetList fun s h => s.modSheet h fun x => x.discard c).sheets ∧
      (s.discardStep p).parts = s.parts ∧ (s.discardStep p).ctxs = s.ctxs := by
  have hp : (s.forEach (s.part p).sheetList fun s h => s.modSheet h fun x => x.discard c).parts = s.parts :=
    forEach_modSheet_parts _ _ s
  have hc : (s.forEach (s.part p).sheetList fun s h => s.modSheet h fun x => x.discard c).ctxs = s.ctxs :=
    forEach_modSheet_ctxs _ _ s
  simp only [State.discardStep, h]
  split
  · obtain ⟨us, up, uc⟩ := dropUnsent_units (s.forEach (s.part p).sheetList fun s h => s.modSheet h fun x => x.discard c) p c
    exact ⟨us, up.trans hp, uc.trans hc⟩
  · exact ⟨rfl, hp, hc⟩

theorem discardStep_none (h : (s.part p).cur = none) : s.discardStep p = s := by simp only [State.discardStep, h]

theorem discardStep_parts : (s.discardStep p).parts = s.parts := by
  cases h : (s.part p).cur with
  | none => rw [discardStep_none s p h]
  | some c => exact (discardStep_some s p h).2.1

theorem discardStep_ctxs : (s.discardStep p).ctxs = s.ctxs := by
  cases h : (s.part p).cur with
  | none => rw [discardStep_none s p h]
  | some c => exact (discardStep_some s p h).2.2

theorem discardStep_keeps {β : Type} {π : Sheet → β} (hπ : Unslotted π) : SheetsKeep π s (s.discardStep p) := by
  cases h : (s.part p).cur with
  | none => rw [discardStep_none s p h]; exact SheetsKeep.refl
  | some c =>
    exact (SheetsKeep.forEach _ _ fun t i => SheetsKeep.modSheet i _ fun x => discard_keeps x c hπ).trans
      (SheetsKeep.of_sheets (discardStep_some s p h).1)

/-! ### Abandonment as a whole -/

/-- The hubs' part of an abandonment, on the sheets. -/
theorem dropHubs_keeps {β : Type} {π : Sheet → β} (h : ∀ x, π x.dropHubs = π x) (l : List Nat) :
    SheetsKeep π s (s.forEach l fun s h => s.modSheet h Sheet.dropHubs) :=
  SheetsKeep.forEach _ _ fun _ i => SheetsKeep.modSheet i _ h

/-- After the engines' part, an abandonment moves no engine and no memory: what it leaves of the sheets. -/
theorem abandonStep_after_engines {β : Type} {π : Sheet → β} (h : ∀ x, π x.dropHubs = π x) (hπ : Unslotted π) :
    SheetsKeep π (s.dropEngines p) (s.abandonStep p []) := by
  rw [abandonStep_sound]
  exact ((dropHubs_keeps _ h _).trans (discardStep_keeps _ p hπ)).trans (SheetsKeep.of_sheets rfl)

theorem abandonStep_ground : SheetsKeep Sheet.ground s (s.abandonStep p []) :=
  (dropEngines_ground s p).trans (abandonStep_after_engines s p (fun _ => rfl) ground_unslotted)

theorem abandonStep_ctxs : (s.abandonStep p []).ctxs = s.ctxs := by
  rw [abandonStep_sound]
  exact (discardStep_ctxs _ p).trans ((forEach_modSheet_ctxs _ _ _).trans (dropEngines_ctxs s p))

/-- The partition after an abandonment. -/
theorem abandonStep_part : (s.abandonStep p []).part p =
    { s.part p with phase := .abandoned, dramWritten := [], stepSat := false, stepFlagged := false } := by
  rw [abandonStep_sound, part_modPart_same, part_of_parts (discardStep_parts _ p),
    part_of_parts (forEach_modSheet_parts _ _ _), part_of_parts (dropEngines_parts s p)]

theorem abandonStep_restores {e : EngId} (he : e ∈ s.engineIds p) {q : Nat} (j : Journal)
    (hn : (s.sheet e.sheet.val).pmap.Nodup) (hq : (s.sheet e.sheet.val).phys e.parcel.val = some q) :
    RestoredFrom j (s.behind e q) ((s.abandonStep p []).behind e q) := by
  have same : (s.abandonStep p []).behind e q = (s.dropEngines p).behind e q :=
    abandonStep_after_engines s p (π := fun x => (x.engine e.parcel.val, x.parcel q)) (fun _ => rfl)
      ⟨fun _ _ => rfl, fun _ _ => rfl⟩ e.sheet.val
  rw [same]
  exact dropEngines_restores s p he j hn hq

/-- The slots of the step's context go back to their start (04 R126). -/
theorem abandonStep_slot {c : CtxId} (hc : (s.part p).cur = some c) {h n : Nat} (hh : h ∈ (s.part p).sheetList)
    (hn : ((s.sheet h).slot n).ctx = some c) : ((s.abandonStep p []).sheet h).slot n = ((s.sheet h).slot n).discard := by
  have parts : ((s.dropEngines p).forEach ((s.dropEngines p).part p).sheetList fun s h => s.modSheet h Sheet.dropHubs).part p = s.part p :=
    part_of_parts ((forEach_modSheet_parts _ _ _).trans (dropEngines_parts s p)) p
  have slots : (((s.dropEngines p).forEach ((s.dropEngines p).part p).sheetList fun s h => s.modSheet h Sheet.dropHubs).sheet h).slot n =
      (s.sheet h).slot n :=
    congrArg (fun t : Table Slot => tget ({} : Slot) t n) (((dropEngines_slots s p).trans (dropHubs_keeps _ (fun _ => rfl) _)) h)
  rw [abandonStep_sound, sheet_modPart, State.sheet, (discardStep_some _ p (parts ▸ hc)).1]
  refine (congrArg (fun x => x.slot n) (sheet_forEach_modSheet (fun _ x => x.discard c) _ _ (sheetList_nodup _) h)).trans ?_
  rw [parts, if_pos hh, slot_discard (by rw [slots, hn]), slots]

end

end Sys2Proof.Machine
end

section
/-! SUPPORT. The outcome of a step (01 R36; 13 R380): which of its ends a step takes, and what each of them leaves. -/

namespace Sys2Proof.Machine

section
variable (s : State) (p : Nat) (c : CtxId)

/-! ### A step stopped, and its RUN with it -/

theorem stopStep_part : (s.stopStep p).part p =
    { s.part p with
      phase := .none, cur := none, faults := [], firstFaults := [], again := false, swaps := [], noCommit := false
      dramWritten := [], stepSat := false, stepFlagged := false } := by
  rw [State.stopStep, part_modPart_same, abandonStep_part]

theorem stopStep_ctxs : (s.stopStep p).ctxs = s.ctxs := abandonStep_ctxs s p

theorem stopStep_ground : SheetsKeep Sheet.ground s (s.stopStep p) := (abandonStep_ground s p).trans (SheetsKeep.of_sheets rfl)

/-- A step outside a chart that ends without a repeat ends its RUN. -/
theorem failStep_ends {r : RunState} (hr : (s.part p).runOf c = some r) (hc : r.chart = false) (st : Byte) (k : BitVec 12) :
    s.failStep p c st k = (s.stopStep p).finishRun p c st k := by
  have h : ((s.stopStep p).part p).runOf c = some r := by rw [stopStep_part]; exact hr
  simp only [State.failStep, h, hc, Bool.false_eq_true, if_false]

/-! ### A repeat asked for -/

/-- The suspects' substitutions wait as map changes; nothing else of the sheets moves. -/
def State.askSubstitutes (s : State) (l : List (Nat × Nat)) : State :=
  s.forEach l fun s q => s.modSheet q.1 fun h => { h with changes := h.changes ++ [.substitute q.2] }

theorem askSubstitutes_parts (l : List (Nat × Nat)) : (s.askSubstitutes l).parts = s.parts := by
  refine forEach_keeps State.parts _ (fun _ _ => ?_) l s
  rfl

theorem askSubstitutes_ctxs (l : List (Nat × Nat)) : (s.askSubstitutes l).ctxs = s.ctxs := by
  refine forEach_keeps State.ctxs _ (fun _ _ => ?_) l s
  rfl

theorem askSubstitutes_keeps {β : Type} {π : Sheet → β} (h : ∀ x t, π { x with changes := t } = π x) (l : List (Nat × Nat)) :
    SheetsKeep π s (s.askSubstitutes l) := SheetsKeep.forEach _ _ fun _ q => SheetsKeep.modSheet q.1 _ fun x => h x _

/-- Each suspect's substitution waits on its sheet. -/
theorem askSubstitutes_waits (l : List (Nat × Nat)) :
    ∀ s : State, ∀ y, (MapChange.substitute y.2 ∈ (s.sheet y.1).changes ∨ y ∈ l) →
      MapChange.substitute y.2 ∈ ((s.askSubstitutes l).sheet y.1).changes := by
  induction l with
  | nil => intro s y h; exact h.resolve_right (by simp)
  | cons q l ih =>
    intro s y h
    refine ih (s.modSheet q.1 fun h => { h with changes := h.changes ++ [.substitute q.2] }) y ?_
    rw [List.mem_cons] at h
    rw [sheet_modSheet]
    obtain h | rfl | h := h
    · left; split
      · next e => rw [← e]; exact List.mem_append_left _ h
      · exact h
    · left; simp
    · exact .inr h

theorem askRepeat_eq (bad : List EngId) : s.askRepeat p bad =
    ((s.abandonStep p bad).askSubstitutes (suspectsOf (s.part p).faults)).modPart p fun y =>
      { y with
        firstFaults := if (s.part p).parcelReset && (s.part p).faults.isEmpty then y.firstFaults else (s.part p).faults
        faults := [], swaps := [], parcelReset := false } := rfl

theorem askRepeat_ctxs : (s.askRepeat p []).ctxs = s.ctxs := (askSubstitutes_ctxs _ _).trans (abandonStep_ctxs s p)

/-- What a repeat that is asked for leaves of the sheets, the changes of the map apart, is what the abandonment left. -/
theorem askRepeat_keeps {β : Type} {π : Sheet → β} (h : ∀ x t, π { x with changes := t } = π x) :
    SheetsKeep π (s.abandonStep p []) (s.askRepeat p []) := (askSubstitutes_keeps _ h _).trans (SheetsKeep.of_sheets rfl)

theorem askRepeat_ground : SheetsKeep Sheet.ground s (s.askRepeat p []) :=
  (abandonStep_ground s p).trans (askRepeat_keeps s p fun _ _ => rfl)

/-- The partition that waits for a repeat of a step in which faults came. -/
theorem askRepeat_part (h : (s.part p).faults ≠ []) : (s.askRepeat p []).part p =
    { s.part p with
      phase := .abandoned, firstFaults := (s.part p).faults, faults := [], swaps := [], parcelReset := false
      dramWritten := [], stepSat := false, stepFlagged := false } := by
  have e : ((s.part p).parcelReset && (s.part p).faults.isEmpty) = false := by simp [List.isEmpty_eq_false_iff.2 h]
  rw [askRepeat_eq, part_modPart_same, part_of_parts (askSubstitutes_parts _ _), abandonStep_part, e]
  rfl

/-! ### The ends of a step -/

/-- Whether a fault is of STOP severity (13 R370). -/
def StepFault.stops (f : StepFault) (contain : Bool) : Prop := (kindSeverity f.kind.toNat contain false).getD 0 = 3

variable {s p c}

/-- The step of a RUN outside a chart, in a partition that may commit, with no poison at its end (01 R36). -/
structure Decides (s : State) (p : Nat) (c : CtxId) : Prop where
  commits : (s.part p).noCommit = false
  clean : s.poisonAtEnd p c = false
  first : (s.part p).again = false
  chart : ∀ r, (s.part p).runOf c = some r → r.chart = false

/-- A step without a fault commits. -/
theorem decideStep_commits (h : Decides s p c) (hf : (s.part p).faults = []) (hr : (s.part p).parcelReset = false) (bad : List EngId)
    (hb : Bool) : s.decideStep p c bad hb = s.commitClean p c hb := by
  simp only [State.decideStep, h.commits, h.clean, hf, hr, Bool.false_eq_true, if_false]

/-- A first failure: the first fault of STOP severity ends the RUN; without one a repeat is asked for. -/
theorem decideStep_fails (h : Decides s p c) (hf : (s.part p).faults ≠ []) (bad : List EngId) (hb : Bool) :
    (∃ g, ((s.part p).faults.find? fun f => (kindSeverity f.kind.toNat (s.part p).contain false).getD 0 == 3) = some g ∧
      s.decideStep p c bad hb = (s.abandonStep p bad).failStep p c stCheckFailed g.kind) ∨
    (((s.part p).faults.find? fun f => (kindSeverity f.kind.toNat (s.part p).contain false).getD 0 == 3) = none ∧
      s.decideStep p c bad hb = s.askRepeat p bad) := by
  obtain ⟨f, rest, hf⟩ := List.exists_cons_of_ne_nil hf
  have unfolded : ∀ k, ((s.part p).faults.find? fun f => (kindSeverity f.kind.toNat (s.part p).contain false).getD 0 == 3) = k →
      s.decideStep p c bad hb = k.elim (s.askRepeat p bad) fun g => (s.abandonStep p bad).failStep p c stCheckFailed g.kind := by
    intro k hk
    rw [hf] at hk
    cases hr : (s.part p).runOf c with
    | none =>
      simp only [State.decideStep, h.commits, h.clean, h.first, hf, hr, hk, Bool.false_and, Bool.false_eq_true, if_false]
      cases k <;> simp only [Option.elim_none, Option.elim_some]
    | some r =>
      simp only [State.decideStep, h.commits, h.clean, h.first, hf, hr, hk, RunState.speculative, h.chart r hr, Bool.false_and,
        Bool.false_eq_true, if_false]
      cases k <;> simp only [Option.elim_none, Option.elim_some]
  cases hk : (s.part p).faults.find? fun f => (kindSeverity f.kind.toNat (s.part p).contain false).getD 0 == 3 with
  | none => exact .inr ⟨rfl, by rw [unfolded _ hk, Option.elim_none]⟩
  | some g => exact .inl ⟨g, rfl, by rw [unfolded _ hk, Option.elim_some]⟩

/-- A first failure with no fault of STOP severity asks for a repeat. -/
theorem decideStep_repeats (h : Decides s p c) (hf : (s.part p).faults ≠ [])
    (hs : ∀ g ∈ (s.part p).faults, ¬g.stops (s.part p).contain) (bad : List EngId) (hb : Bool) :
    s.decideStep p c bad hb = s.askRepeat p bad := by
  obtain ⟨g, hg, -⟩ | ⟨-, e⟩ := decideStep_fails h hf bad hb
  · exact absurd (by simpa [StepFault.stops] using List.find?_some hg) (hs g (List.mem_of_find?_eq_some hg))
  · exact e

/-- A fault of STOP severity ends the step and its RUN. -/
theorem decideStep_stops (h : Decides s p c) {g : StepFault} (hg : g ∈ (s.part p).faults) (hs : g.stops (s.part p).contain)
    (bad : List EngId) (hb : Bool) : ∃ k, s.decideStep p c bad hb = (s.abandonStep p bad).failStep p c stCheckFailed k := by
  obtain ⟨f, -, e⟩ | ⟨hn, -⟩ := decideStep_fails h (List.ne_nil_of_mem hg) bad hb
  · exact ⟨f.kind, e⟩
  · exact absurd hs (by simpa [StepFault.stops] using List.find?_eq_none.1 hn g hg)

/-! ### Before and after the decision -/

/-- Counting leaves what the poison commit point looks at. -/
theorem Counts.poisonAtEnd {s t : State} (h : Counts s t) (p : Nat) (c : CtxId) : t.poisonAtEnd p c = s.poisonAtEnd p c := by
  have ids : t.engineIds p = s.engineIds p := engineIds_congr (by rw [part_of_parts h.parts])
  have mem : ∀ i, (t.sheet i).mem = (s.sheet i).mem := h.sheetsKeep fun _ _ _ _ => rfl
  have slots : ∀ i, (t.sheet i).slots = (s.sheet i).slots := h.sheetsKeep fun _ _ _ _ => rfl
  have chain : ∀ i n, (t.sheet i).chain n = (s.sheet i).chain n := fun i n =>
    h.sheetsKeep (π := fun x => x.chain n) (fun _ _ _ _ => rfl) i
  have granule : t.granulePoison = s.granulePoison := funext fun x => by simp only [State.granulePoison, mem]
  simp only [State.poisonAtEnd, ids, h.engine, h.pmem, part_of_parts h.parts, granule, slots, chain]

theorem Decides.of_counts {t : State} (h : Decides s p c) (k : Counts s t) : Decides t p c := by
  obtain ⟨h1, h2, h3, h4⟩ := h
  rw [← part_of_parts k.parts] at h1 h3 h4
  exact ⟨h1, (k.poisonAtEnd p c).trans h2, h3, h4⟩

theorem swapNext_none (h : (s.part p).next = none) : s.swapNext p = s := by
  unfold State.swapNext
  split
  · next e => rw [h] at e; cases e
  · rfl

theorem recheckNext_none (h : (s.part p).next = none) : s.recheckNext p = s := by
  unfold State.recheckNext
  split
  · next e => rw [h] at e; cases e
  · rfl

/-- The end-of-step barrier where the step is over: counting apart, the decision, then what the next step's sets need. -/
theorem doEndStep_decides (hph : (s.part p).phase = .running) (hc : (s.part p).cur = some c)
    (ended : ((s.stepEngines p).all fun e => s.hasArrived e || (s.eng e).st == .halt) = true ∨ (s.part p).faults ≠ []) (bad : List EngId)
    (hb : Bool) : ∃ t, Counts s t ∧ s.doEndStep p bad hb = ((t.decideStep p c bad hb).swapNext p).recheckNext p := by
  have h : (((s.stepEngines p).all fun e => s.hasArrived e || (s.eng e).st == .halt) || !(s.part p).faults.isEmpty || (s.part p).parcelReset) =
      true := by
    obtain h | h := ended
    · rw [h]; rfl
    · rw [List.isEmpty_eq_false_iff.2 h, Bool.not_false, Bool.or_true]; rfl
  simp only [State.doEndStep, hph, hc]
  rw [if_pos h]
  refine ⟨_, ?_, rfl⟩
  split
  · exact barrierEvent_counts s p
  · exact .refl s

theorem doEndStep_waits (hph : (s.part p).phase = .running) (hc : (s.part p).cur = some c)
    (h : ((s.stepEngines p).all fun e => s.hasArrived e || (s.eng e).st == .halt) = false) (hf : (s.part p).faults = [])
    (hr : (s.part p).parcelReset = false) (bad : List EngId) (hb : Bool) : s.doEndStep p bad hb = s := by
  simp only [State.doEndStep, hph, hc, h, hf, hr, List.isEmpty_nil, Bool.not_true, Bool.or_false, Bool.false_eq_true, if_false]

end

end Sys2Proof.Machine
end

section
/-! O4: the start-of-step barrier (01 R31, R34; 03 R501). -/

namespace Sys2Proof.Machine

/-! ### What the start of a step leaves of a sheet -/

/-- The map, the memories and the engines of a sheet. -/
def Sheet.core (x : Sheet) : (List Nat × Mem × Table ParcelMem) × Table Engine := (x.held, x.engines)

theorem core_unslotted : Unslotted Sheet.core := ⟨fun _ _ => rfl, fun _ _ => rfl⟩

theorem SheetsKeep.core_held {s t : State} (h : SheetsKeep Sheet.core s t) : SheetsKeep Sheet.held s t := fun i => congrArg Prod.fst (h i)

theorem SheetsKeep.core_eng {s t : State} (h : SheetsKeep Sheet.core s t) (e : EngId) : t.eng e = s.eng e := by
  have : (t.sheet e.sheet.val).engines = (s.sheet e.sheet.val).engines := congrArg Prod.snd (h e.sheet.val)
  simp only [State.eng, Sheet.engine, this]

theorem SheetsKeep.core_ground {s t : State} (h : SheetsKeep Sheet.core s t) : SheetsKeep Sheet.ground s t := h.core_held.held_ground

theorem swapSets_core (x : Sheet) (c : CtxId) (d : Option DivProg) : (x.swapSets c d).core = x.core :=
  swapSlots_keeps x c (bindsOf d) core_unslotted

theorem startStep_core (x : Sheet) (d : Option DivProg) : (x.startStep d).core = x.core :=
  startSlots_keeps x (bindsOf d) core_unslotted

/-! ### One engine takes its sets and starts -/

theorem programImage_length (x : EngSetup) : (programImage x).length = 16 * x.words.length := by
  unfold programImage
  induction x.words with
  | nil => rfl
  | cons w l ih => rw [List.flatMap_cons, List.length_append, ih, leBytes_length, List.length_cons]; ring

theorem swapEngine_unbound {s : State} {e : EngId} (h : (s.sheet e.sheet.val).phys e.parcel.val = none) :
    s.swapEngine e = s.modEng e fun g => { g with setup := none, shadow := none } := by
  simp only [State.swapEngine, h, Option.isNone_none, if_true]

/-- A bound engine with a shadow set takes it, and its program's words stand in the store (01 R34). -/
theorem swapEngine_takes {s : State} {e : EngId} {q : Nat} (h : (s.sheet e.sheet.val).phys e.parcel.val = some q) {y : EngSetup}
    (hy : (s.eng e).shadow = some y) : s.swapEngine e =
      (s.modEng e Engine.swapIn).modPmem e fun m => { m with store := mwrite m.store (64 * y.progUnit) (programImage y) } := by
  have : ((s.modEng e Engine.swapIn).eng e).setup = some y := by rw [eng_modEng_same, Engine.swapIn, hy]
  simp only [State.swapEngine, h, Option.isNone_some, Bool.false_eq_true, if_false, this]

/-- A bound engine without a shadow set keeps none. -/
theorem swapEngine_bare {s : State} {e : EngId} {q : Nat} (h : (s.sheet e.sheet.val).phys e.parcel.val = some q)
    (hy : (s.eng e).shadow = none) : s.swapEngine e = s.modEng e Engine.swapIn := by
  have : ((s.modEng e Engine.swapIn).eng e).setup = none := by rw [eng_modEng_same, Engine.swapIn, hy]
  simp only [State.swapEngine, h, Option.isNone_some, Bool.false_eq_true, if_false, this]

/-- What an engine's swap does to the state: the engine, and where a program is taken the memories behind it. -/
theorem swapEngine_cases (s : State) (e : EngId) :
    (∃ f, s.swapEngine e = s.modEng e f) ∨
    ∃ q y, (s.sheet e.sheet.val).phys e.parcel.val = some q ∧ (s.eng e).shadow = some y ∧ s.swapEngine e =
      (s.modEng e Engine.swapIn).modPmem e fun m => { m with store := mwrite m.store (64 * y.progUnit) (programImage y) } := by
  cases h : (s.sheet e.sheet.val).phys e.parcel.val with
  | none => exact .inl ⟨_, swapEngine_unbound h⟩
  | some q =>
    cases hy : (s.eng e).shadow with
    | none => exact .inl ⟨_, swapEngine_bare h hy⟩
    | some y => exact .inr ⟨q, y, rfl, rfl, swapEngine_takes h hy⟩

section
variable (s : State) (e : EngId)

theorem swapEngine_parts : (s.swapEngine e).parts = s.parts := by
  obtain ⟨f, h⟩ | ⟨q, y, -, -, h⟩ := swapEngine_cases s e <;> rw [h] <;> rfl

theorem swapEngine_ground : SheetsKeep Sheet.ground s (s.swapEngine e) := by
  obtain ⟨f, h⟩ | ⟨q, y, -, -, h⟩ := swapEngine_cases s e <;> rw [h]
  · exact modEng_ground s e f
  · exact (modEng_ground s e _).trans (modPmem_ground _ e _)

theorem eng_swapEngine_ne {g : EngId} (hg : g ≠ e) : (s.swapEngine e).eng g = s.eng g := by
  obtain ⟨f, h⟩ | ⟨q, y, -, -, h⟩ := swapEngine_cases s e <;> rw [h]
  · exact eng_modEng_ne s f hg
  · rw [eng_modPmem, eng_modEng_ne s _ hg]

theorem swapEngine_acc (h q : Nat) : (((s.swapEngine e).sheet h).parcel q).acc = ((s.sheet h).parcel q).acc := by
  obtain ⟨f, k⟩ | ⟨q, y, -, -, k⟩ := swapEngine_cases s e <;> rw [k]
  · rw [parcel_modEng]
  · rw [parcel_modPmem, parcel_modEng]
    split <;> rfl

/-- A byte of a store outside the program that an engine takes stays. -/
theorem swapEngine_store {h q a : Nat} (out : ∀ y, e.sheet.val = h → (s.sheet h).phys e.parcel.val = some q → (s.eng e).shadow = some y →
    ¬(64 * y.progUnit ≤ a ∧ a < 64 * y.progUnit + 16 * y.words.length)) : (s.swapEngine e).storeAt h q a = s.storeAt h q a := by
  obtain ⟨f, k⟩ | ⟨r, y, hr, hy, k⟩ := swapEngine_cases s e <;> rw [k, State.storeAt]
  · rw [parcel_modEng, State.storeAt]
  · rw [parcel_modPmem, parcel_modEng, (modEng_ground s e _).phys]
    split
    · next hq =>
      have := out y hq.1.symm hq.2 hy
      rw [mget_mwrite_out _ _ _ _ (by rw [programImage_length]; omega), State.storeAt]
    · rfl

/-- The set that a bound engine takes is its shadow set. -/
theorem swapEngine_setup {q : Nat} (h : (s.sheet e.sheet.val).phys e.parcel.val = some q) {y : EngSetup}
    (hy : (s.eng e).shadow = some y) :
    ((s.swapEngine e).eng e).setup = some y ∧ ((s.swapEngine e).eng e).pc = y.pc ∧
      ((s.swapEngine e).eng e).progLen = y.words.length := by
  rw [swapEngine_takes h hy, eng_modPmem, eng_modEng_same, Engine.swapIn, hy]
  exact ⟨rfl, rfl, rfl⟩

/-- Starting an engine changes the engine alone. -/
theorem startEngine_modEng (w : Word) : ∃ f, s.startEngine e w = s.modEng e f := by
  unfold State.startEngine
  split
  · exact ⟨_, rfl⟩
  · exact ⟨_, rfl⟩

end

/-- An engine that has started a step with the set-up, program counter and program of `g` (03 R501). -/
structure Engine.StartedFrom (g u : Engine) : Prop where
  runs : u.st = .run
  loops : u.loops = []
  eflags : u.eflags = 0
  awaits : u.awaits = none
  moverQ : u.moverQ = []
  arrayQ : u.arrayQ = []
  rowQ : u.rowQ = []
  journal : u.journal ≠ none
  arrived : u.arrived = u.setup.isNone
  setup : u.setup = g.setup
  pc : u.pc = g.pc
  progLen : u.progLen = g.progLen

theorem startStep_started (g : Engine) (m : ParcelMem) (w : Word) (t : Nat) : g.StartedFrom (g.startStep m w t) :=
  ⟨rfl, rfl, rfl, rfl, rfl, rfl, rfl, Option.some_ne_none _, rfl, rfl, rfl, rfl⟩

/-- What the start makes of an engine: fenced where its index has no parcel, else started (03 R107, R501). -/
def StartedAt (bound : Option Nat) (g u : Engine) : Prop := (bound = none → u.st = .fenced) ∧ (bound ≠ none → g.StartedFrom u)

theorem startEngine_started (s : State) (e : EngId) (w : Word) :
    StartedAt ((s.sheet e.sheet.val).phys e.parcel.val) (s.eng e) ((s.startEngine e w).eng e) := by
  unfold State.startEngine
  cases h : (s.sheet e.sheet.val).phys e.parcel.val with
  | none =>
    refine ⟨fun _ => ?_, fun h => absurd rfl h⟩
    rw [Option.isNone_none, if_pos rfl, eng_modEng_same]
  | some q =>
    refine ⟨fun h => absurd h (by simp), fun _ => ?_⟩
    rw [Option.isNone_some, if_neg Bool.false_ne_true, eng_modEng_same]
    exact startStep_started _ _ _ _

/-! ### The units of a partition -/

/-- The first part of a step's start: the step is the partition's, and its sets are swapped in where they are not yet. -/
def State.takeStep (s : State) (p : Nat) (c : CtxId) (prog : Nat) (swap : Bool) : State :=
  let s := s.modPart p fun x => { x with cur := some c, prog := prog, swapped := none }
  if swap then s.swapSets p c prog else s
/-- The sheets' part of a step's start. -/
def State.startSheets (s : State) (p : Nat) (c : CtxId) (prog : Nat) : State :=
  s.forEach (s.part p).sheetList fun s h => s.modSheet h fun x => x.startStep (s.sheetDiv p c prog h)
/-- The engines' part of a step's start. -/
def State.startEngines (s : State) (p : Nat) (c : CtxId) : State :=
  s.forEach (s.engineIds p) fun t e => t.startEngine e (BitVec.ofNat 64 (s.drawStep c))

/-- A step's start in its parts. -/
theorem startStep_parts (s : State) (p : Nat) (c : CtxId) (prog : Nat) (swap : Bool) : ∃ f, s.startStep p c prog swap =
    (((((s.takeStep p c prog swap).startSheets p c prog).startEngines p c).modRunOf p c f).barrierEvent p).modPart p fun x =>
      { x with
        phase := .running, faults := [], dramWritten := [], stepSat := false, stepFlagged := false, parcelReset := false
        halted := false, noCommit := false, trialRan := x.hang == .isolation, activity := c :: x.activity.filter fun y => y != c } :=
  ⟨_, rfl⟩

section
variable (s : State) (p : Nat) (c : CtxId) (prog : Nat)

/-- Swapping the sheets' sets leaves maps, memories and engines. -/
theorem swapSheets_core : SheetsKeep Sheet.core s
    (s.forEach (s.part p).sheetList fun s h => s.modSheet h fun x => x.swapSets c (s.sheetDiv p c prog h)) :=
  SheetsKeep.forEach _ _ fun _ i => SheetsKeep.modSheet i _ fun x => swapSets_core x c _

theorem swapSets_engines : ∃ t, SheetsKeep Sheet.core s t ∧ t.parts = s.parts ∧
    s.swapSets p c prog = t.forEach (s.engineIds p) State.swapEngine := by
  refine ⟨_, swapSheets_core s p c prog, forEach_modSheet_parts _ _ s, ?_⟩
  have ids := engineIds_congr (p := p) (congrArg Part.sheets (part_of_parts (forEach_modSheet_parts
    (fun s h x => x.swapSets c (s.sheetDiv p c prog h)) (s.part p).sheetList s) p))
  exact congrArg (fun l => State.forEach _ l State.swapEngine) ids

theorem swapEngines_ground (l : List EngId) : SheetsKeep Sheet.ground s (s.forEach l State.swapEngine) :=
  SheetsKeep.forEach l _ fun t e => swapEngine_ground t e

theorem swapEngines_parts (l : List EngId) : (s.forEach l State.swapEngine).parts = s.parts :=
  forEach_keeps State.parts _ swapEngine_parts l s

/-- Programs taken by distinct engines touch their own words alone. -/
theorem swapEngines_store {h q a : Nat} (l : List EngId) : ∀ s : State, l.Nodup →
    (∀ e ∈ l, ∀ y, e.sheet.val = h → (s.sheet h).phys e.parcel.val = some q → (s.eng e).shadow = some y →
      ¬(64 * y.progUnit ≤ a ∧ a < 64 * y.progUnit + 16 * y.words.length)) →
    (s.forEach l State.swapEngine).storeAt h q a = s.storeAt h q a := by
  induction l with
  | nil => intro s _ _; rfl
  | cons e l ih =>
    intro s hl out
    obtain ⟨hel, hl'⟩ := List.nodup_cons.1 hl
    refine (ih (s.swapEngine e) hl' fun g hg y hs hp hy => ?_).trans (swapEngine_store s e (out e List.mem_cons_self))
    rw [(swapEngine_ground s e).phys] at hp
    rw [eng_swapEngine_ne s e fun k => hel (k ▸ hg)] at hy
    exact out g (List.mem_cons_of_mem _ hg) y hs hp hy

end

end Sys2Proof.Machine
end

section
namespace Sys2Proof.Machine

/-! ### The parts of a step's start -/

/-- What the taking of an engine's sets makes of it: where `swap` holds a bound engine runs its shadow set, else nothing moves. -/
def TakenAt (swap : Bool) (bound : Option Nat) (g u : Engine) : Prop :=
  (swap = true → bound ≠ none → ∀ y, g.shadow = some y → u.setup = some y ∧ u.pc = y.pc ∧ u.progLen = y.words.length) ∧
  (swap = false → u = g)

section
variable (s : State) (p : Nat) (c : CtxId) (prog : Nat) (swap : Bool)

/-- The state after a step's sets are taken, as a walk over the engines. -/
theorem takeStep_engines : ∃ t, SheetsKeep Sheet.core s t ∧
    t.part p = { s.part p with cur := some c, prog := prog, swapped := none } ∧
    s.takeStep p c prog swap = t.forEach (if swap then s.engineIds p else []) State.swapEngine := by
  cases swap with
  | false =>
    exact ⟨s.modPart p fun x => { x with cur := some c, prog := prog, swapped := none }, SheetsKeep.of_sheets rfl,
      part_modPart_same _ _ _, rfl⟩
  | true =>
    obtain ⟨t, hk, ht, e⟩ := swapSets_engines (s.modPart p fun x => { x with cur := some c, prog := prog, swapped := none }) p c prog
    have ids : (s.modPart p fun x => { x with cur := some c, prog := prog, swapped := none }).engineIds p = s.engineIds p :=
      engineIds_congr (by rw [part_modPart_same])
    refine ⟨t, (SheetsKeep.of_sheets rfl).trans hk, by rw [part_of_parts ht, part_modPart_same], ?_⟩
    rw [ids] at e
    exact e

theorem takeStep_part : (s.takeStep p c prog swap).part p = { s.part p with cur := some c, prog := prog, swapped := none } := by
  obtain ⟨t, -, hp, e⟩ := takeStep_engines s p c prog swap
  rw [e, part_of_parts (swapEngines_parts t _), hp]

theorem takeStep_ground : SheetsKeep Sheet.ground s (s.takeStep p c prog swap) := by
  obtain ⟨t, hk, -, e⟩ := takeStep_engines s p c prog swap
  rw [e]
  exact hk.core_ground.trans (swapEngines_ground t _)

theorem takeStep_accs : SameAccs s (s.takeStep p c prog swap) := fun h q a => by
  obtain ⟨t, hk, -, e⟩ := takeStep_engines s p c prog swap
  have acc : (((t.forEach (if swap then s.engineIds p else []) State.swapEngine).sheet h).parcel q).acc = ((t.sheet h).parcel q).acc :=
    forEach_keeps (fun u => ((u.sheet h).parcel q).acc) _ (fun u e => swapEngine_acc u e h q) _ t
  rw [e, State.accAt, acc]
  exact hk.core_held.sameMemories.2.2 h q a

theorem takeStep_store {h q a : Nat} (out : ∀ e ∈ s.engineIds p, ∀ y, e.sheet.val = h → (s.sheet h).phys e.parcel.val = some q →
    (s.eng e).shadow = some y → ¬(64 * y.progUnit ≤ a ∧ a < 64 * y.progUnit + 16 * y.words.length)) :
    (s.takeStep p c prog swap).storeAt h q a = s.storeAt h q a := by
  obtain ⟨t, hk, -, e⟩ := takeStep_engines s p c prog swap
  rw [e]
  refine (swapEngines_store _ t ?_ fun g hg y hs hp hy => ?_).trans (hk.core_held.sameMemories.2.1 h q a)
  · split
    · exact engineIds_nodup s p
    · exact List.nodup_nil
  · rw [hk.core_ground.phys] at hp
    rw [hk.core_eng] at hy
    cases swap
    · cases hg
    · exact out g hg y hs hp hy

theorem takeStep_taken {e : EngId} (he : e ∈ s.engineIds p) :
    TakenAt swap ((s.sheet e.sheet.val).phys e.parcel.val) (s.eng e) ((s.takeStep p c prog swap).eng e) := by
  obtain ⟨t, hk, -, k⟩ := takeStep_engines s p c prog swap
  rw [k]
  cases swap with
  | false => exact ⟨fun h => absurd h Bool.false_ne_true, fun _ => hk.core_eng e⟩
  | true =>
    refine ⟨fun _ hb => ?_, fun h => absurd h (Ne.symm Bool.false_ne_true)⟩
    obtain ⟨q, hq⟩ := Option.ne_none_iff_exists'.1 hb
    rw [← hk.core_eng e]
    refine forEach_visited (State.eng · e) State.swapEngine (fun u => SheetsKeep Sheet.ground t u) e
      (fun g u => ∀ y, g.shadow = some y → u.setup = some y ∧ u.pc = y.pc ∧ u.progLen = y.words.length)
      (fun u a hu => hu.trans (swapEngine_ground u a)) (fun u a _ hne => eng_swapEngine_ne u a hne) (fun u hu y hy => ?_) _ t
      (engineIds_nodup s p) SheetsKeep.refl he
    exact swapEngine_setup u e ((hu.phys _ _).trans ((hk.core_ground.phys _ _).trans hq)) hy

theorem startSheets_core : SheetsKeep Sheet.core s (s.startSheets p c prog) :=
  SheetsKeep.forEach _ _ fun _ i => SheetsKeep.modSheet i _ fun x => startStep_core x _

theorem startSheets_parts : (s.startSheets p c prog).parts = s.parts := forEach_modSheet_parts _ _ s

/-- The flags of each sheet of the partition read 0 (01 R31). -/
theorem startSheets_flags {h : Nat} (hh : h ∈ (s.part p).sheetList) : ((s.startSheets p c prog).sheet h).flags = 0 :=
  forEach_visited (fun t => (t.sheet h).flags) _ (fun _ => True) h (fun _ y => y = 0) (fun _ _ _ => trivial)
    (fun t _ _ hne => congrArg Sheet.flags (sheet_modSheet_ne t _ hne))
    (fun t _ => (congrArg Sheet.flags (sheet_modSheet_same t h _)).trans rfl) _ s (sheetList_nodup _) trivial hh

/-- Starting engines leaves what a sheet holds beside its engines. -/
theorem startEngines_keeps {β : Type} (π : Sheet → β) (h : ∀ x t, π { x with engines := t } = π x) :
    SheetsKeep π s (s.startEngines p c) :=
  SheetsKeep.forEach _ _ fun t e => by
    obtain ⟨f, k⟩ := startEngine_modEng t e (BitVec.ofNat 64 (s.drawStep c))
    rw [k]
    exact SheetsKeep.modEng e f h

theorem startEngines_parts : (s.startEngines p c).parts = s.parts :=
  forEach_keeps State.parts _ (fun t e => by
    obtain ⟨f, k⟩ := startEngine_modEng t e (BitVec.ofNat 64 (s.drawStep c))
    rw [k]
    rfl) _ s

theorem startEngines_started {e : EngId} (he : e ∈ s.engineIds p) :
    StartedAt ((s.sheet e.sheet.val).phys e.parcel.val) (s.eng e) ((s.startEngines p c).eng e) := by
  have modEng (t : State) (a : EngId) : ∃ f, t.startEngine a (BitVec.ofNat 64 (s.drawStep c)) = t.modEng a f := startEngine_modEng t a _
  refine forEach_visited (State.eng · e) _ (fun u => SheetsKeep Sheet.ground s u) e (StartedAt ((s.sheet e.sheet.val).phys e.parcel.val))
    (fun t a ht => ?_) (fun t a _ hne => ?_) (fun t ht => ?_) _ s (engineIds_nodup s p) SheetsKeep.refl he
  · obtain ⟨f, k⟩ := modEng t a
    rw [k]
    exact ht.trans (modEng_ground t a f)
  · obtain ⟨f, k⟩ := modEng t a
    rw [k]
    exact eng_modEng_ne t f hne
  · rw [← ht.phys]
    exact startEngine_started t e _

/-! ### The step's start as a whole -/

/-- What the start of a step makes of the state. -/
structure StepStarts (s u : State) : Prop where
  dram : SameDram s u
  accs : SameAccs s u
  phase : (u.part p).phase = .running
  cur : (u.part p).cur = some c
  flags : ∀ h ∈ (s.part p).sheetList, (u.sheet h).flags = 0
  stores : ∀ h q a, (∀ e ∈ s.engineIds p, ∀ y, e.sheet.val = h → (s.sheet h).phys e.parcel.val = some q →
    (s.eng e).shadow = some y → ¬(64 * y.progUnit ≤ a ∧ a < 64 * y.progUnit + 16 * y.words.length)) → u.storeAt h q a = s.storeAt h q a
  engines : ∀ e ∈ s.engineIds p, ∃ g, TakenAt swap ((s.sheet e.sheet.val).phys e.parcel.val) (s.eng e) g ∧
    StartedAt ((s.sheet e.sheet.val).phys e.parcel.val) g (u.eng e)

theorem startStep_starts : StepStarts p c swap s (s.startStep p c prog swap) := by
  obtain ⟨f, e⟩ := startStep_parts s p c prog swap
  rw [e]
  have take := takeStep_ground s p c prog swap
  have takeP := takeStep_part s p c prog swap
  generalize ht : s.takeStep p c prog swap = t at *
  have tSheets := startSheets_core t p c prog
  have tParts := startSheets_parts t p c prog
  generalize hu : t.startSheets p c prog = u at *
  have uParts := startEngines_parts u p c
  have uHeld := startEngines_keeps u p c Sheet.held fun _ _ => rfl
  generalize hv : u.startEngines p c = v at *
  have counts := barrierEvent_counts (v.modRunOf p c f) p
  have held : SheetsKeep Sheet.held t ((v.modRunOf p c f).barrierEvent p) :=
    tSheets.core_held.trans (uHeld.trans ((SheetsKeep.of_sheets rfl).trans (counts.sheetsKeep held_unreported)))
  have part : u.part p = { s.part p with cur := some c, prog := prog, swapped := none } := (part_of_parts tParts p).trans takeP
  have ids : u.engineIds p = s.engineIds p := engineIds_congr (by rw [part])
  refine ⟨?_, ?_, ?_, ?_, fun h hh => ?_, fun h q a out => ?_, fun e he => ⟨t.eng e, ?_, ?_⟩⟩
  · exact (take.trans (held.held_ground.trans (SheetsKeep.of_sheets rfl))).sameDram
  · intro h q a
    exact (held.sameMemories.2.2 h q a).trans (ht ▸ takeStep_accs s p c prog swap h q a)
  · rw [part_modPart_same]
  · rw [part_modPart_same, part_of_parts counts.parts, modRunOf_part, part_of_parts uParts, part]
  · rw [sheet_modPart, counts.sheetsKeep (π := Sheet.flags) (fun _ _ _ _ => rfl), State.modRunOf, sheet_modPart, ← hv,
      startEngines_keeps u p c Sheet.flags fun _ _ => rfl, ← hu]
    exact startSheets_flags t p c prog (by rw [takeP]; exact hh)
  · exact (held.sameMemories.2.1 h q a).trans (ht ▸ takeStep_store s p c prog swap out)
  · exact ht ▸ takeStep_taken s p c prog swap he
  · rw [eng_modPart, counts.engine, State.modRunOf, eng_modPart, ← tSheets.core_eng, ← take.phys, ← tSheets.core_ground.phys, ← hv]
    exact startEngines_started u p c (ids ▸ he)

end

/-! ### The barrier -/

section
variable {s : State} {p : Nat} {c : CtxId} {prog : Nat} {ns bad : List Nat}

theorem doStartStep_idle (hph : (s.part p).phase = .none) (hn : (s.part p).next = none) : s.doStartStep p = s := by
  simp only [State.doStartStep, hph, hn]

/-- Whether a step of a chart's RUN waits for its epoch (11 R336). -/
def State.waitsEpoch (s : State) (p : Nat) (c : CtxId) : Prop :=
  ∃ r, (s.part p).runOf c = some r ∧ r.chart = true ∧ (s.epoch c.val).st ≠ .opened

/-- A programmed step whose partition is not ready waits. -/
theorem doStartStep_waits (hph : (s.part p).phase = .none) (hn : (s.part p).next = some (c, prog, ns, bad))
    (h : s.mayStart p c prog = false ∨ s.waitsEpoch p c) : s.doStartStep p = s := by
  obtain h | ⟨r, hr, hc, he⟩ := h
  · simp only [State.doStartStep, hph, hn, h, Bool.not_false, Bool.true_or, if_true]
  · simp [State.doStartStep, hph, hn, hr, hc, he]

/-- Where the partition is ready, a programmed step loses its programming, fails for its keys, or starts. -/
theorem doStartStep_ready (hph : (s.part p).phase = .none) (hn : (s.part p).next = some (c, prog, ns, bad))
    (hm : s.mayStart p c prog = true) (he : ¬s.waitsEpoch p c) :
    s.doStartStep p =
      if ns ≠ s.division p then s.modPart p fun x => { x with next := none }
      else if !bad.isEmpty then s.failKeys p c prog bad
      else (s.startStep p c prog ((s.part p).swapped != some (c, prog))).modPart p fun x => { x with next := none } := by
  cases hr : (s.part p).runOf c with
  | none => simp only [State.doStartStep, hph, hn, hm, hr, Bool.not_true, Bool.false_and, Bool.or_false, Bool.false_eq_true, if_false]
  | some r =>
    have : (r.chart && (s.epoch c.val).st != .opened) = false := by
      cases hc : r.chart with
      | false => rfl
      | true => simpa using fun k => he ⟨r, hr, hc, k⟩
    simp only [State.doStartStep, hph, hn, hm, hr, this, Bool.not_true, Bool.or_false, Bool.false_eq_true, if_false]

theorem doStartStep_programmed (hph : (s.part p).phase = .programmed) (hc : (s.part p).cur = some c) :
    s.doStartStep p = if s.mayStart p c (s.part p).prog then s.startStep p c (s.part p).prog true else s := by
  simp only [State.doStartStep, hph, hc]

/-- No fault of a key derivation is of STOP severity. -/
theorem keyFaults_stop {g : StepFault} (hg : g ∈ keyFaults bad) (contain : Bool) : ¬g.stops contain := by
  obtain ⟨h, -, rfl⟩ := List.mem_map.1 hg
  cases contain <;> simp [StepFault.stops, kindSeverity]

/-- The state in which the abandonment of a step whose keys differ is decided (05 R156). -/
def State.keyFailure (s : State) (p : Nat) (c : CtxId) (prog : Nat) (bad : List Nat) : State :=
  s.modPart p fun x =>
    { x with cur := some c, prog := prog, next := none, swapped := none, faults := keyFaults bad, halted := false, parcelReset := false }

theorem failKeys_eq (s : State) (p : Nat) (c : CtxId) (prog : Nat) (bad : List Nat) :
    s.failKeys p c prog bad = (s.keyFailure p c prog bad).decideStep p c [] false := rfl

/-- Faults of key derivations are no poison. -/
theorem keyFailure_clean (hpo : (s.modPart p fun y => { y with faults := [] }).poisonAtEnd p c = false) :
    (s.keyFailure p c prog bad).poisonAtEnd p c = false := by
  have ids : (s.keyFailure p c prog bad).engineIds p = (s.modPart p fun y => { y with faults := [] }).engineIds p :=
    engineIds_congr (by rw [State.keyFailure, part_modPart_same, part_modPart_same])
  have none : (keyFaults bad).any (fun f => f.kind == 0x101) = false := by
    rw [List.any_eq_false]
    intro g hg
    obtain ⟨h, -, rfl⟩ := List.mem_map.1 hg
    exact (by decide : ¬((0x520 : BitVec 12) == 0x101) = true)
  rw [State.poisonAtEnd, ids, State.keyFailure, part_modPart_same, none]
  rw [State.poisonAtEnd, part_modPart_same] at hpo
  exact hpo

/-- What the abandonment of a step whose keys failed to derive leaves (05 R156). -/
theorem failKeys_abandons (hb : bad ≠ []) (ha : (s.part p).again = false) (hnc : (s.part p).noCommit = false)
    (hch : ∀ r, (s.part p).runOf c = some r → r.chart = false)
    (hpo : (s.modPart p fun y => { y with faults := [] }).poisonAtEnd p c = false) :
    SameDram s (s.failKeys p c prog bad) ∧ ((s.failKeys p c prog bad).part p).phase = .abandoned ∧
      ((s.failKeys p c prog bad).part p).next = none ∧ (s.failKeys p c prog bad).ctxs = s.ctxs := by
  have part : (s.keyFailure p c prog bad).part p = _ := part_modPart_same s p _
  have faults : ((s.keyFailure p c prog bad).part p).faults = keyFaults bad := by rw [part]
  have failed : ((s.keyFailure p c prog bad).part p).faults ≠ [] := by rwa [faults, keyFaults, ne_eq, List.map_eq_nil_iff]
  have decides : Decides (s.keyFailure p c prog bad) p c :=
    ⟨by rw [part]; exact hnc, keyFailure_clean hpo, by rw [part]; exact ha, by rw [part]; exact hch⟩
  rw [failKeys_eq, decideStep_repeats decides failed (fun g hg => keyFaults_stop (faults ▸ hg) _)]
  refine ⟨((SheetsKeep.of_sheets rfl).trans (askRepeat_ground (s.keyFailure p c prog bad) p)).sameDram, ?_, ?_, askRepeat_ctxs _ p⟩
  · rw [askRepeat_part _ p failed]
  · rw [askRepeat_part _ p failed, part]

end

end Sys2Proof.Machine

open Sys2Proof Sys2Proof.Machine

/-- Settles O4: the barrier's cases, and for a step that starts what each walk over the partition's sheets and engines makes of one unit. -/
theorem stepsStartClean : Obligations.StepsStartClean := by
  intro p s x starts
  have run : exec (.startOfStepBarrier p) s = .next (s.doStartStep p.val) := rfl
  have started : ∀ (b : Bool) (P : Prop) (c : CtxId) (u : State), (b = true ↔ P) → StepStarts p.val c b s u → starts P c u := by
    intro b P c u hb h
    refine ⟨h.dram, h.accs, h.phase, h.cur, h.flags, fun i q a out => h.stores i q a fun e he y hs hq hy => ?_, fun e he => ?_⟩
    · exact out e he y hs (hs ▸ hq) hy
    · obtain ⟨g, ⟨ht, hk⟩, hn, hs⟩ := h.engines e he
      refine ⟨hn, fun hq => ?_⟩
      have k := hs hq
      refine ⟨k.runs, k.loops, k.eflags, k.awaits, k.moverQ, k.arrayQ, k.rowQ, k.journal, k.arrived, fun hP y hy => ?_, fun hP => ?_⟩
      · obtain ⟨h1, h2, h3⟩ := ht (hb.2 hP) hq y hy
        exact ⟨k.setup.trans h1, k.pc.trans h2, k.progLen.trans h3⟩
      · have e : g = s.eng e := hk (Bool.eq_false_iff.2 fun t => hP (hb.1 t))
        exact ⟨k.setup.trans (congrArg _ e), k.pc.trans (congrArg _ e), k.progLen.trans (congrArg _ e)⟩
  have unhold : ∀ (c : CtxId) (b : Bool), (match x.runOf c with | some r => r.chart | none => false) = b →
      ∀ r, x.runOf c = some r → r.chart = b := by
    intro c b h r hr
    rw [hr] at h
    exact h
  refine ⟨fun hph => ⟨fun hn => ?_, fun c prog ns bad hn => ?_⟩, fun c hph hc => ⟨fun hm => ⟨_, run, ?_⟩, fun hm => ?_⟩⟩
  · rw [Holds, run, doStartStep_idle hph hn]
  · intro chart
    have waits : s.waitsEpoch p.val c → chart = true ∧ (s.epoch c.val).st ≠ .opened := by
      rintro ⟨r, hr, hc, he⟩
      refine ⟨?_, he⟩
      simp only [chart, x, hr, hc]
    refine ⟨fun hm => ?_, fun hc he => ?_, fun hm he => ?_⟩
    · rw [Holds, run, doStartStep_waits hph hn (.inl hm)]
    · rw [Holds, run, doStartStep_waits hph hn (.inr ?_)]
      cases hr : x.runOf c with
      | none => simp [chart, hr] at hc
      | some r => exact ⟨r, hr, unhold c true hc r hr, he⟩
    · have ready := doStartStep_ready hph hn hm fun w => (waits w).2 (he (waits w).1)
      refine ⟨fun hns hb => ⟨_, run, ?_⟩, fun hns hb ha hnc hc hpo => ⟨_, run, ?_⟩, fun hns => ⟨_, run, ?_⟩⟩
      · have st := startStep_starts s p.val c prog (x.swapped != some (c, prog))
        rw [ready, if_neg (not_not_intro hns), hb, List.isEmpty_nil, Bool.not_true, if_neg Bool.false_ne_true]
        refine ⟨started (x.swapped != some (c, prog)) _ c _ bne_iff_ne ⟨st.dram, st.accs, ?_, ?_, st.flags, st.stores, st.engines⟩, ?_⟩
        · rw [part_modPart_same]; exact st.phase
        · rw [part_modPart_same]; exact st.cur
        · exact congrArg Part.next (part_modPart_same _ _ _)
      · obtain ⟨hd, hp, hn', hx⟩ := failKeys_abandons (prog := prog) hb ha hnc (unhold c false hc) hpo
        rw [ready, if_neg (not_not_intro hns), List.isEmpty_eq_false_iff.2 hb, Bool.not_false, if_pos rfl]
        exact ⟨hd, hp, hn', by rw [ctx_of_ctxs hx]⟩
      · rw [ready, if_pos hns]
        exact ⟨(SheetsKeep.of_sheets rfl).sameMemories, part_modPart_same s p.val _⟩
  · rw [doStartStep_programmed hph hc, if_pos hm]
    exact started true True c _ (by simp) (startStep_starts s p.val c x.prog true)
  · rw [Holds, run, doStartStep_programmed hph hc, if_neg (by simpa using hm)]
end

section
/-! O5: the end-of-step barrier (01 R36; 13 R379, R380; 04 R126, R127). -/

namespace Sys2Proof.Machine

/-! ### Slots at a clean end -/

/-- A slot at the end of a step in which it may have drawn (04 R127). -/
def Slot.endStep (y : Slot) : Slot :=
  { y with pend := if y.drew then { y.pend with step := y.pend.step + 1 } else y.pend, phase := .idle, drew := false, started := false }

/-- A slot whose pending copy is committed (04 R126). -/
def Slot.commit (y : Slot) : Slot := { y with reg := y.pend, start := y.pend }

theorem endStep_pend (y : Slot) : y.endStep.pend = { y.pend with step := y.pend.step + if y.drew then 1 else 0 } := by
  unfold Slot.endStep
  cases y.drew with
  | true => rfl
  | false => simp

section
variable {x : Sheet} {n : Nat} {c : CtxId}

theorem slot_endSlots (h : (x.slot n).ctx = some c) : (x.endSlots c).slot n = (x.slot n).endStep := by
  refine (slot_foldl_modSlot Slot.endStep (fun _ => rfl) n _ x).trans ?_
  rw [if_pos (slot_mem_own h)]

theorem slot_commitSlots (h : (x.slot n).ctx = some c) : (x.commitSlots c).slot n = (x.slot n).commit := by
  refine (foldl_modChain_keeps (fun y => y.slot n) (fun _ _ => rfl) id _ _ _).trans ?_
  refine (slot_foldl_modSlot Slot.commit (fun _ => rfl) n _ x).trans ?_
  rw [if_pos (slot_mem_own h)]

end

/-- A change of a RUN's record after which it has `n` more steps committed. -/
structure AdvancesRun (n : Nat) (f : RunState → RunState) : Prop where
  ctx : ∀ r, (f r).ctx = r.ctx
  total : ∀ r, (f r).total = r.total
  chart : ∀ r, (f r).chart = r.chart
  committed : ∀ r, (f r).committed = r.committed + n

section
variable (s : State) (p : Nat) (c : CtxId)

/-! ### The close of a step -/

/-- The engines and the sheets of a partition at the end of a step. -/
def State.closeEngines (s : State) (p : Nat) : State :=
  (s.clearLedgers (s.part p).sheetList).forEach ((s.clearLedgers (s.part p).sheetList).engineIds p) fun s e => s.modEng e Engine.endStep

def State.closeSheets (s : State) (p : Nat) (c : CtxId) : State :=
  (s.closeEngines p).forEach ((s.closeEngines p).part p).sheetList fun s h =>
    s.modSheet h fun x => { x.endSlots c with hubs := [], groups := [] }

/-- A partition after the close of its step. -/
def Part.closeStep (x : Part) (c : CtxId) : Part :=
  { x with
    phase := .none, cur := none, dramWritten := [], faults := [], firstFaults := [], again := false, swaps := []
    stepSat := false, stepFlagged := false, noCommit := false, halted := false
    turns := c :: x.turns.filter fun y => y != c }

theorem closeStep_eq : ∃ f, AdvancesRun 0 f ∧ s.closeStep p c = ((s.closeSheets p c).modRunOf p c f).modPart p fun x => x.closeStep c := by
  refine ⟨_, ?_, rfl⟩
  exact ⟨fun _ => rfl, fun _ => rfl, fun _ => rfl, fun _ => rfl⟩

theorem closeEngines_parts : (s.closeEngines p).parts = s.parts := by
  refine (forEach_keeps State.parts _ (fun _ _ => ?_) _ _).trans (forEach_modSheet_parts _ _ s)
  rfl

theorem closeEngines_ctxs : (s.closeEngines p).ctxs = s.ctxs := by
  refine (forEach_keeps State.ctxs _ (fun _ _ => ?_) _ _).trans (forEach_modSheet_ctxs _ _ s)
  rfl

theorem closeEngines_keeps {β : Type} {π : Sheet → β} (he : ∀ x t, π { x with engines := t } = π x)
    (hl : ∀ x t, π { x with ledgers := t } = π x) : SheetsKeep π s (s.closeEngines p) :=
  (clearLedgers_keeps π hl s _).trans (SheetsKeep.forEach _ _ fun _ e => SheetsKeep.modEng e _ he)

theorem closeSheets_part : (s.closeSheets p c).part p = s.part p :=
  part_of_parts ((forEach_modSheet_parts _ _ _).trans (closeEngines_parts s p)) p

theorem closeSheets_ctxs : (s.closeSheets p c).ctxs = s.ctxs := (forEach_modSheet_ctxs _ _ _).trans (closeEngines_ctxs s p)

theorem closeStep_held : SheetsKeep Sheet.held s (s.closeStep p c) := by
  obtain ⟨f, -, e⟩ := closeStep_eq s p c
  rw [e]
  exact (closeEngines_keeps s p (fun _ _ => rfl) fun _ _ => rfl).trans
    (SheetsKeep.forEach _ _ fun _ i => SheetsKeep.modSheet i _ fun x => endSlots_keeps x c held_unslotted)

theorem closeStep_part : ∃ f, AdvancesRun 0 f ∧ (s.closeStep p c).part p =
    ({ s.part p with runs := (s.part p).runs.map fun r => if r.ctx == c then f r else r } : Part).closeStep c := by
  obtain ⟨f, hf, e⟩ := closeStep_eq s p c
  exact ⟨f, hf, by rw [e, part_modPart_same, modRunOf_part, closeSheets_part]⟩

theorem closeStep_ctxs : (s.closeStep p c).ctxs = s.ctxs := by
  obtain ⟨f, -, e⟩ := closeStep_eq s p c
  rw [e]
  exact closeSheets_ctxs s p c

variable {p c} in
theorem closeStep_slot {h n : Nat} (hh : h ∈ (s.part p).sheetList) (hn : ((s.sheet h).slot n).ctx = some c) :
    ((s.closeStep p c).sheet h).slot n = ((s.sheet h).slot n).endStep := by
  obtain ⟨f, -, e⟩ := closeStep_eq s p c
  have slot : ((s.closeEngines p).sheet h).slot n = (s.sheet h).slot n :=
    closeEngines_keeps s p (π := fun x => x.slot n) (fun _ _ => rfl) (fun _ _ => rfl) h
  rw [e, sheet_modPart, State.modRunOf, sheet_modPart]
  refine (congrArg (fun x => x.slot n)
    (sheet_forEach_modSheet (fun _ x => { x.endSlots c with hubs := [], groups := [] }) _ _ (sheetList_nodup _) h)).trans ?_
  rw [part_of_parts (closeEngines_parts s p), if_pos hh, ← slot]
  exact slot_endSlots (by rw [slot, hn])

/-! ### Steps that commit -/

theorem bookLedgers_counts (l : List (EngId × Ledger)) (s : State) : Counts s (l.foldl (fun s x => s.bookLedger x.1 x.2) s) := by
  refine forEach_counts l _ (fun s x => ?_) s
  have accounts := (((cycleEvent_counts s x.1 0x02 x.2.productive).trans (cycleEvent_counts _ x.1 0x03 x.2.discarded)).trans
    (cycleEvent_counts _ x.1 0x04 x.2.feed)).trans (cycleEvent_counts _ x.1 0x05 x.2.drain)
  exact accounts.trans ((cycleEvent_counts _ x.1 0x0A x.2.sync).trans (forEach_counts _ _ (fun _ _ => cycleEvent_counts _ _ _ _) _))

/-- The slots and chains of the context in a partition's sheets are committed. -/
def State.commitSheets (s : State) (p : Nat) (c : CtxId) : State :=
  s.forEach (s.part p).sheetList fun s h => s.modSheet h fun x => x.commitSlots c

/-- What `n` steps that commit make of the state: counting apart, slots, the context's counter, its RUN, and the activity measured. -/
theorem commitSteps_eq (n : Nat) : ∃ t f, Counts s t ∧ AdvancesRun n f ∧
    let u := ((t.commitSheets p c).modCtx c.val fun x => { x with step := x.step + BitVec.ofNat 64 n }).modRunOf p c f
    s.commitSteps p c n = if u.clearPoint p then u.modPart p fun x => { x with activity := [] } else u := by
  refine ⟨_, _, bookLedgers_counts _ s, ?_, rfl⟩
  exact ⟨fun _ => rfl, fun _ => rfl, fun _ => rfl, fun _ => rfl⟩

theorem commitSheets_parts : (s.commitSheets p c).parts = s.parts := forEach_modSheet_parts _ _ s

theorem commitSheets_ctxs : (s.commitSheets p c).ctxs = s.ctxs := forEach_modSheet_ctxs _ _ s

theorem commitSteps_sheets (n : Nat) : ∃ t, Counts s t ∧ (s.commitSteps p c n).sheets = (t.commitSheets p c).sheets := by
  obtain ⟨t, f, ht, -, e⟩ := commitSteps_eq s p c n
  refine ⟨t, ht, ?_⟩
  rw [e]
  split <;> rfl

theorem commitSteps_held (n : Nat) : SheetsKeep Sheet.held s (s.commitSteps p c n) := by
  obtain ⟨t, ht, e⟩ := commitSteps_sheets s p c n
  exact (ht.sheetsKeep held_unreported).trans
    ((SheetsKeep.forEach _ _ fun _ i => SheetsKeep.modSheet i _ fun x => commitSlots_keeps x c held_unslotted).trans (SheetsKeep.of_sheets e))

variable {p c} in
theorem commitSteps_slot (k : Nat) {h n : Nat} (hh : h ∈ (s.part p).sheetList) (hn : ((s.sheet h).slot n).ctx = some c) :
    ((s.commitSteps p c k).sheet h).slot n = ((s.sheet h).slot n).commit := by
  obtain ⟨t, ht, e⟩ := commitSteps_sheets s p c k
  rw [State.sheet, e]
  refine (congrArg (fun x => x.slot n) (sheet_forEach_modSheet (fun _ x => x.commitSlots c) _ t (sheetList_nodup _) h)).trans ?_
  rw [part_of_parts ht.parts, if_pos hh, slot_commitSlots (by rw [ht.slot, hn]), ht.slot]

theorem commitSteps_step (n : Nat) : ((s.commitSteps p c n).ctx c.val).step = (s.ctx c.val).step + BitVec.ofNat 64 n := by
  obtain ⟨t, f, ht, -, e⟩ := commitSteps_eq s p c n
  have ctx : (((t.commitSheets p c).modCtx c.val fun x => { x with step := x.step + BitVec.ofNat 64 n }).ctx c.val).step =
      (s.ctx c.val).step + BitVec.ofNat 64 n := by
    rw [ctx_modCtx_same, ctx_of_ctxs (commitSheets_ctxs t p c), ctx_of_ctxs ht.ctxs]
  rw [e]
  split <;> exact ctx

theorem commitSteps_part (n : Nat) : ∃ f a, AdvancesRun n f ∧ (s.commitSteps p c n).part p =
    { s.part p with runs := (s.part p).runs.map fun r => if r.ctx == c then f r else r, activity := a } := by
  obtain ⟨t, f, ht, hf, e⟩ := commitSteps_eq s p c n
  have part : (((t.commitSheets p c).modCtx c.val fun x => { x with step := x.step + BitVec.ofNat 64 n }).modRunOf p c f).part p =
      { s.part p with runs := (s.part p).runs.map fun r => if r.ctx == c then f r else r } := by
    rw [modRunOf_part, part_modCtx, part_of_parts (commitSheets_parts t p c), part_of_parts ht.parts]
  rw [e]
  split
  · exact ⟨f, [], hf, by rw [part_modPart_same, part]⟩
  · exact ⟨f, (s.part p).activity, hf, part⟩

/-! ### A clean end as a whole -/

variable {p c}

theorem finishIfDone_some {r : RunState} (h : (s.part p).runOf c = some r) :
    s.finishIfDone p c = if r.total ≤ r.committed then s.finishRun p c r.status r.kind else s := by
  simp only [State.finishIfDone, h]

/-- A step that closes leaves what its RUN has committed. -/
theorem closeStep_runOf {r : RunState} (hr : (s.part p).runOf c = some r) :
    ∃ r', ((s.closeStep p c).part p).runOf c = some r' ∧ r'.total = r.total ∧ r'.committed = r.committed ∧ r'.chart = r.chart := by
  obtain ⟨f, hf, e⟩ := closeStep_part s p c
  refine ⟨f r, ?_, hf.total r, hf.committed r, hf.chart r⟩
  rw [e]
  exact (runOf_map _ _ _ hf.ctx).trans (congrArg _ hr)

/-- A RUN's step commits, and the RUN's record counts it. -/
theorem commitSteps_closeStep_runOf {r : RunState} (hr : (s.part p).runOf c = some r) :
    ∃ r', (((s.closeStep p c).commitSteps p c 1).part p).runOf c = some r' ∧ r'.total = r.total ∧ r'.committed = r.committed + 1 := by
  obtain ⟨r', closed, total, committed, -⟩ := closeStep_runOf s hr
  obtain ⟨g, a, hg, k⟩ := commitSteps_part (s.closeStep p c) p c 1
  refine ⟨g r', ?_, (hg.total r').trans total, (hg.committed r').trans (congrArg (· + 1) committed)⟩
  rw [k]
  exact (runOf_map _ _ _ hg.ctx).trans (congrArg _ closed)

/-- The end of a first execution that commits, outside a chart. -/
theorem commitClean_first {r : RunState} (ha : (s.part p).again = false) (hr : (s.part p).runOf c = some r) (hc : r.chart = false)
    (hb : Bool) : s.commitClean p c hb = ((s.closeStep p c).commitSteps p c 1).finishIfDone p c := by
  obtain ⟨r', closed, -, -, chart⟩ := closeStep_runOf s hr
  simp only [State.commitClean, ha, Bool.false_and, Bool.false_eq_true, if_false, closed, chart.trans hc]

/-- What a step that commits makes of a state in which its context has RUN `r` (01 R36; 04 R126, R127). -/
structure StepCommits (p : Nat) (c : CtxId) (r : RunState) (s u : State) : Prop where
  held : SheetsKeep Sheet.held s u
  step : (u.ctx c.val).step = (s.ctx c.val).step + 1
  phase : (u.part p).phase = .none
  cur : (u.part p).cur = none
  next : (s.part p).next = none → (u.part p).next = none
  goesOn : r.committed + 1 < r.total → ∃ r', (u.part p).runOf c = some r' ∧ r'.committed = r.committed + 1
  ends : r.total ≤ r.committed + 1 → (u.part p).runOf c = none
  slot : ∀ h n, h ∈ (s.part p).sheetList → ((s.sheet h).slot n).ctx = some c →
    (u.sheet h).slot n = ((s.sheet h).slot n).endStep.commit

theorem closeStep_commitSteps_slot {h n : Nat} (hh : h ∈ (s.part p).sheetList) (hn : ((s.sheet h).slot n).ctx = some c) :
    (((s.closeStep p c).commitSteps p c 1).sheet h).slot n = ((s.sheet h).slot n).endStep.commit := by
  obtain ⟨f, -, e⟩ := closeStep_part s p c
  have closed := closeStep_slot s hh hn
  have mine : h ∈ ((s.closeStep p c).part p).sheetList := by rw [e]; exact hh
  rw [commitSteps_slot (s.closeStep p c) 1 mine (by rw [closed]; exact hn), closed]

theorem closeStep_commitSteps_between : (((s.closeStep p c).commitSteps p c 1).part p).phase = .none ∧
    (((s.closeStep p c).commitSteps p c 1).part p).cur = none ∧
    (((s.closeStep p c).commitSteps p c 1).part p).next = (s.part p).next := by
  obtain ⟨f, -, e⟩ := closeStep_part s p c
  obtain ⟨g, a, -, k⟩ := commitSteps_part (s.closeStep p c) p c 1
  rw [k, e]
  exact ⟨rfl, rfl, rfl⟩

theorem commitClean_commits {r : RunState} (ha : (s.part p).again = false) (hr : (s.part p).runOf c = some r) (hc : r.chart = false)
    (hb : Bool) : StepCommits p c r s (s.commitClean p c hb) := by
  have held := (closeStep_held s p c).trans (commitSteps_held (s.closeStep p c) p c 1)
  have slot := fun h n => closeStep_commitSteps_slot s (p := p) (c := c) (h := h) (n := n)
  obtain ⟨phase, cur, next⟩ := closeStep_commitSteps_between s (p := p) (c := c)
  have step : (((s.closeStep p c).commitSteps p c 1).ctx c.val).step = (s.ctx c.val).step + 1 := by
    rw [commitSteps_step, ctx_of_ctxs (closeStep_ctxs s p c)]
    rfl
  obtain ⟨r', hr', total, committed⟩ := commitSteps_closeStep_runOf s hr
  rw [commitClean_first s ha hr hc, finishIfDone_some _ hr']
  generalize (s.closeStep p c).commitSteps p c 1 = u at *
  split
  case isTrue done =>
    obtain ⟨hcur, hphase, hnext⟩ := finishRun_between u p c r'.status r'.kind 0 cur
    refine ⟨held.trans (finishRun_sheetsKeep _ _ _ _ _ _ held_unreported), by rw [finishRun_step, step], by rw [hphase, phase], hcur,
      fun h => hnext (next.trans h), fun h => by omega, fun _ => finishRun_runOf _ _ _ _ _ _, fun h n hh hn => ?_⟩
    rw [← slot h n hh hn]
    exact finishRun_sheetsKeep u p c _ _ _ (π := fun x => x.slot n) (fun _ _ _ _ => rfl) h
  case isFalse more =>
    exact ⟨held, step, phase, cur, next.trans, fun _ => ⟨r', hr', committed⟩, fun h => by omega, slot⟩

/-! ### A step that asks for its repeat, and one that ends its RUN -/

/-- What a step that is abandoned for its repeat makes of the state (13 R379, R380; 04 R126). -/
structure StepRepeats (p : Nat) (c : CtxId) (s u : State) : Prop where
  dram : SameDram s u
  phase : (u.part p).phase = .abandoned
  next : (u.part p).next = (s.part p).next
  firstFaults : (u.part p).firstFaults = (s.part p).faults
  step : (u.ctx c.val).step = (s.ctx c.val).step
  slot : ∀ h n, h ∈ (s.part p).sheetList → ((s.sheet h).slot n).ctx = some c → (u.sheet h).slot n = ((s.sheet h).slot n).discard
  suspects : ∀ y ∈ suspectsOf (s.part p).faults, MapChange.substitute y.2 ∈ (u.sheet y.1).changes
  restores : ∀ e ∈ s.engineIds p, ∀ q j, (s.sheet e.sheet.val).pmap.Nodup → (s.sheet e.sheet.val).phys e.parcel.val = some q →
    RestoredFrom j (s.behind e q) (u.behind e q)

theorem askRepeat_repeats (hc : (s.part p).cur = some c) (hf : (s.part p).faults ≠ []) : StepRepeats p c s (s.askRepeat p []) := by
  have part := askRepeat_part s p hf
  refine ⟨(askRepeat_ground s p).sameDram, by rw [part], by rw [part], by rw [part], by rw [ctx_of_ctxs (askRepeat_ctxs s p)],
    fun h n hh hn => ?_, fun y hy => ?_, fun e he q j hnd hq => ?_⟩
  · rw [← abandonStep_slot s p hc hh hn]
    exact askRepeat_keeps s p (π := fun x => x.slot n) (fun _ _ => rfl) h
  · rw [askRepeat_eq, sheet_modPart]
    exact askSubstitutes_waits _ _ y (.inr hy)
  · have kept : (s.askRepeat p []).behind e q = (s.abandonStep p []).behind e q :=
      askRepeat_keeps s p (π := fun x => (x.engine e.parcel.val, x.parcel q)) (fun _ _ => rfl) e.sheet.val
    rw [kept]
    exact abandonStep_restores s p he j hnd hq

/-- What a step that ends its RUN makes of the state. -/
structure StepStops (p : Nat) (c : CtxId) (s u : State) : Prop where
  dram : SameDram s u
  step : (u.ctx c.val).step = (s.ctx c.val).step
  runOf : (u.part p).runOf c = none
  next : (s.part p).next = none → (u.part p).next = none

theorem failStep_stops {r : RunState} (hr : (s.part p).runOf c = some r) (hc : r.chart = false) (st : Byte) (k : BitVec 12) :
    StepStops p c s ((s.abandonStep p []).failStep p c st k) := by
  have hr' : ((s.abandonStep p []).part p).runOf c = some r := by rw [abandonStep_part]; exact hr
  have part : ((s.abandonStep p []).stopStep p).part p = _ := stopStep_part _ _
  obtain ⟨-, -, next⟩ := finishRun_between ((s.abandonStep p []).stopStep p) p c st k 0 (by rw [part])
  rw [failStep_ends _ p c hr' hc]
  refine ⟨SheetsKeep.sameDram ?_, ?_, finishRun_runOf _ _ _ _ _ _, fun h => next ?_⟩
  · exact ((abandonStep_ground s p).trans (stopStep_ground _ p)).trans (finishRun_sheetsKeep _ _ _ _ _ _ ground_unreported)
  · rw [finishRun_step, ctx_of_ctxs (stopStep_ctxs _ p), ctx_of_ctxs (abandonStep_ctxs s p)]
  · rw [part, abandonStep_part]
    exact h

/-! ### The barrier -/

section
variable {s} {t u : State} (k : Counts s t)
include k

theorem StepCommits.of_counts {r : RunState} (h : StepCommits p c r t u) : StepCommits p c r s u := by
  obtain ⟨held, step, phase, cur, next, goesOn, ends, slot⟩ := h
  rw [part_of_parts k.parts] at next slot
  rw [ctx_of_ctxs k.ctxs] at step
  refine ⟨(k.sheetsKeep held_unreported).trans held, step, phase, cur, next, goesOn, ends, fun h n hh hn => ?_⟩
  rw [slot h n hh (by rw [k.slot, hn]), k.slot]

theorem StepRepeats.of_counts (h : StepRepeats p c t u) : StepRepeats p c s u := by
  obtain ⟨dram, phase, next, firstFaults, step, slot, suspects, restores⟩ := h
  have ground := k.sheetsKeep ground_unreported
  have part := part_of_parts k.parts p
  have ids : t.engineIds p = s.engineIds p := engineIds_congr (by rw [part])
  have behind (e : EngId) (q : Nat) : t.behind e q = s.behind e q :=
    k.sheetsKeep (π := fun x => (x.engine e.parcel.val, x.parcel q)) (fun _ _ _ _ => rfl) e.sheet.val
  rw [part] at next firstFaults slot suspects
  rw [ctx_of_ctxs k.ctxs] at step
  refine ⟨fun i a => (dram i a).trans (ground.sameDram i a), phase, next, firstFaults, step, fun h n hh hn => ?_, suspects,
    fun e he q j hn hq => ?_⟩
  · rw [slot h n hh (by rw [k.slot, hn]), k.slot]
  · rw [← behind]
    exact restores e (ids ▸ he) q j (by rw [ground.pmap]; exact hn) (by rw [ground.phys, hq])

theorem StepStops.of_counts (h : StepStops p c t u) : StepStops p c s u := by
  obtain ⟨dram, step, runOf, next⟩ := h
  rw [part_of_parts k.parts] at next
  rw [ctx_of_ctxs k.ctxs] at step
  exact ⟨fun i a => (dram i a).trans ((k.sheetsKeep ground_unreported).sameDram i a), step, runOf, next⟩

end

/-- Where no next step is programmed, a step that is over ends as it is decided, whatever was counted before. -/
theorem doEndStep_ends {s : State} (hph : (s.part p).phase = .running) (hc : (s.part p).cur = some c)
    (ended : ((s.stepEngines p).all fun e => s.hasArrived e || (s.eng e).st == .halt) = true ∨ (s.part p).faults ≠ []) {bad : List EngId}
    {hb : Bool} {Q : State → State → Prop} (counted : ∀ t u, Counts s t → Q t u → Q s u) (next : ∀ u, Q s u → (u.part p).next = none)
    (decided : ∀ t, Counts s t → Q t (t.decideStep p c bad hb)) : Q s (s.doEndStep p bad hb) := by
  obtain ⟨t, ht, e⟩ := doEndStep_decides hph hc ended bad hb
  have h := counted _ _ ht (decided t ht)
  rw [e, swapNext_none (next _ h), recheckNext_none (next _ h)]
  exact h

section
variable {s} {r : RunState} (hph : (s.part p).phase = .running) (hcur : (s.part p).cur = some c) (hnext : (s.part p).next = none)
  (hr : (s.part p).runOf c = some r) (hchart : r.chart = false) (d : Decides s p c)
include hph hcur hnext d

theorem doEndStep_repeats (hf : (s.part p).faults ≠ []) (hs : ∀ g ∈ (s.part p).faults, ¬g.stops (s.part p).contain) :
    StepRepeats p c s (s.doEndStep p [] false) := by
  refine doEndStep_ends hph hcur (.inr hf) (fun t u k h => h.of_counts k) (fun u h => h.next.trans hnext) fun t ht => ?_
  rw [← part_of_parts ht.parts] at hcur hf hs
  rw [decideStep_repeats (d.of_counts ht) hf hs]
  exact askRepeat_repeats t hcur hf

include hr hchart

theorem doEndStep_commits (hall : ((s.stepEngines p).all fun e => s.hasArrived e || (s.eng e).st == .halt) = true)
    (hf : (s.part p).faults = []) (hres : (s.part p).parcelReset = false) : StepCommits p c r s (s.doEndStep p [] false) := by
  refine doEndStep_ends hph hcur (.inl hall) (fun t u k h => h.of_counts k) (fun u h => h.next hnext) fun t ht => ?_
  rw [← part_of_parts ht.parts] at hf hres hr
  rw [decideStep_commits (d.of_counts ht) hf hres]
  exact commitClean_commits t (d.of_counts ht).first hr hchart false

theorem doEndStep_stops {g : StepFault} (hg : g ∈ (s.part p).faults) (hs : g.stops (s.part p).contain) :
    StepStops p c s (s.doEndStep p [] false) := by
  refine doEndStep_ends hph hcur (.inr (List.ne_nil_of_mem hg)) (fun t u k h => h.of_counts k) (fun u h => h.next hnext) fun t ht => ?_
  rw [← part_of_parts ht.parts] at hg hs hr
  obtain ⟨k, e⟩ := decideStep_stops (d.of_counts ht) hg hs [] false
  rw [e]
  exact failStep_stops t hr hchart _ k

end

end

end Sys2Proof.Machine

open Sys2Proof Sys2Proof.Machine

/-- Settles O5: the barrier counts, decides, and each decision's outcome is what closing, committing or abandoning the step leaves. -/
theorem stepsCommitOrAbandon : Obligations.StepsCommitOrAbandon := by
  intro p c r s x all hph hcur hnext hr hchart hnc endCmd slot mine
  have run : exec endCmd s = .next (s.doEndStep p.val [] false) := rfl
  have decides : x.again = false → s.poisonAtEnd p.val c = false → Decides s p.val c := fun ha hp =>
    ⟨hnc, hp, ha, fun r' hr' => Option.some.inj (hr.symm.trans hr') ▸ hchart⟩
  refine ⟨fun hall hf hres => ?_, fun hall hf hres ha hp => ⟨_, run, ?_⟩, fun f rest hf ha hp hs hnd => ⟨_, run, ?_⟩,
    fun ha hp ⟨g, hg, hs⟩ => ⟨_, run, ?_⟩⟩
  · rw [Holds, run, doEndStep_waits hph hcur hall hf hres]
  · have h := doEndStep_commits hph hcur hnext hr hchart (decides ha hp) hall hf hres
    refine ⟨h.held.sameMemories, h.step, h.phase, h.cur, h.goesOn, h.ends, fun i n ⟨hi, hn⟩ => ?_⟩
    have committed : slot (s.doEndStep p.val [] false) i n = (slot s i n).endStep.commit := h.slot i n hi hn
    rw [committed]
    exact ⟨rfl, rfl, endStep_pend _⟩
  · have failed : x.faults ≠ [] := by rw [hf]; exact List.cons_ne_nil _ _
    have h := doEndStep_repeats hph hcur hnext (decides ha hp) failed hs
    refine ⟨h.dram, h.phase, h.firstFaults, h.step, fun i n ⟨hi, hn⟩ => ?_, h.suspects, fun e he q j hq hj => ?_⟩
    · have discarded : slot (s.doEndStep p.val [] false) i n = (slot s i n).discard := h.slot i n hi hn
      rw [discarded]
      exact ⟨rfl, rfl⟩
    · exact h.restores e he q j (hnd _ (mem_engineIds.1 he)) hq hj
  · have h := doEndStep_stops hph hcur hnext hr hchart (decides ha hp) hg hs
    exact ⟨h.dram, h.step, h.runOf⟩
end

section
/-! SUPPORT. Residues modulo 2^61 - 1 (03 R108) as a ring, and the arithmetic check over them (03 R110 to R112). -/

namespace Sys2Proof.Machine

/-! ### The ring of residues -/

/-- 2^61 is 1 modulo 2^61 - 1. -/
theorem two_pow_period : (2 : ZMod resP) ^ 61 = 1 := by
  have h : ((2 ^ 61 : ℕ) : ZMod resP) = ((1 : ℕ) : ZMod resP) := (ZMod.natCast_eq_natCast_iff' _ _ _).2 (by decide)
  simpa only [Nat.cast_pow, Nat.cast_ofNat, Nat.cast_one] using h

/-- 2 as a unit of the residues. -/
def resTwo : (ZMod resP)ˣ where
  val := 2
  inv := 2 ^ 60
  val_inv := by rw [← pow_succ', two_pow_period]
  inv_val := by rw [← pow_succ, two_pow_period]

theorem resTwo_period : resTwo ^ (61 : ℤ) = 1 := Units.ext two_pow_period

theorem resTwo_zpow_mod (t : ℤ) : resTwo ^ t = resTwo ^ (t % 61) := by
  conv_lhs => rw [← Int.mul_ediv_add_emod t 61, zpow_add, zpow_mul, resTwo_period, one_zpow, one_mul]

/-- The residue of n · 2^t. -/
def dyRes (n t : ℤ) : ZMod resP := n * ((resTwo ^ t : (ZMod resP)ˣ) : ZMod resP)

@[simp] theorem dyRes_zero (t : ℤ) : dyRes 0 t = 0 := by simp [dyRes]

theorem dyRes_mul (n t m u : ℤ) : dyRes (n * m) (t + u) = dyRes n t * dyRes m u := by
  simp only [dyRes, zpow_add, Units.val_mul, Int.cast_mul]
  ring

/-- A numerator scaled up by the distance of two exponents. -/
theorem dyRes_rescale (n : ℤ) {t u : ℤ} (h : t ≤ u) : dyRes (n * 2 ^ (u - t).toNat) t = dyRes n u := by
  have e : (2 : ZMod resP) ^ (u - t).toNat * ((resTwo ^ t : (ZMod resP)ˣ) : ZMod resP) = ((resTwo ^ u : (ZMod resP)ˣ) : ZMod resP) := by
    calc (2 : ZMod resP) ^ (u - t).toNat * ((resTwo ^ t : (ZMod resP)ˣ) : ZMod resP)
        = ((resTwo ^ ((u - t).toNat : ℤ) * resTwo ^ t : (ZMod resP)ˣ) : ZMod resP) := by rw [zpow_natCast]; rfl
      _ = ((resTwo ^ u : (ZMod resP)ˣ) : ZMod resP) := by rw [← zpow_add]; congr 2; omega
  simp only [dyRes, Int.cast_mul, Int.cast_pow, Int.cast_ofNat, mul_assoc, e]

theorem dyRes_add (n m t : ℤ) : dyRes (n + m) t = dyRes n t + dyRes m t := by simp [dyRes, add_mul]

theorem dyRes_dyAdd (a b : ℤ × ℤ) : dyRes (dyAdd a b).1 (dyAdd a b).2 = dyRes a.1 a.2 + dyRes b.1 b.2 := by
  unfold dyAdd
  split
  case isTrue ha => simp [ha]
  split
  case isTrue hb => simp [hb]
  split
  case isTrue h => rw [dyRes_add, dyRes_rescale _ h]
  case isFalse h => rw [dyRes_add, dyRes_rescale _ (by omega)]

/-- The 61-bit residue that the hardware holds stands for that of the value. -/
theorem residue_cast (n t : ℤ) : ((residue n t : ℕ) : ZMod resP) = dyRes n t := by
  have hn : (((n.fmod resP).toNat : ℕ) : ZMod resP) = n := by
    have h : (((n.fmod resP).toNat : ℕ) : ℤ) = n % resP := by
      rw [Int.toNat_of_nonneg (Int.fmod_nonneg_of_pos _ (by decide)), Int.fmod_eq_emod_of_nonneg _ (by decide)]
    rw [← Int.cast_natCast, h, ZMod.intCast_mod]
  have ht : ((2 : ZMod resP)) ^ (t.fmod 61).toNat = ((resTwo ^ t : (ZMod resP)ˣ) : ZMod resP) := by
    rw [resTwo_zpow_mod, ← Int.fmod_eq_emod_of_nonneg t (by decide : (0 : ℤ) ≤ 61)]
    conv_rhs => rw [← Int.toNat_of_nonneg (Int.fmod_nonneg_of_pos t (by decide : (0 : ℤ) < 61)), zpow_natCast]
    rfl
  rw [residue, ZMod.natCast_mod, Nat.cast_mul, Nat.cast_pow, hn, dyRes, ← ht]
  rfl

/-- A residue is 0 only where the value's is. -/
theorem dyRes_ne_zero {n t : ℤ} (h : residue n t ≠ 0) : dyRes n t ≠ 0 := by
  rw [← residue_cast, Ne, ZMod.natCast_eq_zero_iff]
  exact fun d => h (Nat.eq_zero_of_dvd_of_lt d (Nat.mod_lt _ (by decide)))

/-! ### Operands and partials -/

/-- The residue of an operand; special ones count as zero (03 R111). -/
def Val.res : Val → ZMod resP
  | .fin n t => dyRes n t
  | _ => 0

/-- The residue of a partial. -/
def Partial.res (p : Partial) : ZMod resP := dyRes p.n p.t

theorem valRes_cast (v : Val) : ((valRes v : ℕ) : ZMod resP) = v.res := by
  cases v with
  | fin n t => exact residue_cast n t
  | inf _ => rfl
  | nan => rfl

/-- A product with a special operand moves no residue. -/
theorem mulAdd_inf_left (p : Partial) (x : Bool) (b : Val) : (mulAdd p (.inf x) b).res = p.res := by
  cases b with
  | nan => rfl
  | inf y => simp only [mulAdd, valNeg]; split <;> rfl
  | fin m u => simp only [mulAdd, valNeg]; split <;> (try split) <;> rfl

theorem mulAdd_inf_right (p : Partial) (n t : ℤ) (y : Bool) : (mulAdd p (.fin n t) (.inf y)).res = p.res := by
  simp only [mulAdd, valNeg]; split <;> (try split) <;> rfl

/-- A product of the sum adds the product of the residues. -/
theorem mulAdd_res (p : Partial) (a b : Val) : (mulAdd p a b).res = p.res + a.res * b.res := by
  match a, b with
  | .nan, _ => simp [mulAdd, Val.res, Partial.res]
  | .inf x, b => simp [mulAdd_inf_left, Val.res]
  | .fin n t, .nan => simp [mulAdd, Val.res, Partial.res]
  | .fin n t, .inf y => simp [mulAdd_inf_right, Val.res]
  | .fin n t, .fin m u => simp only [mulAdd, Partial.res, dyRes_dyAdd, dyRes_mul, Val.res]

/-- The residue of a partial is the inner product of its operands' residues. -/
theorem partialOf_res (a b : List Val) : (partialOf a b).res = ((a.zip b).map fun x => x.1.res * x.2.res).sum := by
  have fold : ∀ (l : List (Val × Val)) (p : Partial),
      (l.foldl (fun p x => mulAdd p x.1 x.2) p).res = p.res + (l.map fun x => x.1.res * x.2.res).sum := by
    intro l
    induction l with
    | nil => intro p; simp
    | cons x l ih => intro p; rw [List.foldl_cons, ih, mulAdd_res, List.map_cons, List.sum_cons, add_assoc]
  exact (fold (a.zip b) {}).trans (by simp [Partial.res])


/-! ### Rows of 128 operands -/

/-- Position k of an operand row. -/
def rowAt (r : List Val) (k : Nat) : Val := r.getD k (.fin 0 0)

/-- The inner product of two rows' residues. -/
def rowDot (a b : List Val) : ZMod resP := ∑ k ∈ Finset.range 128, (rowAt a k).res * (rowAt b k).res

theorem rowDot_comm (a b : List Val) : rowDot a b = rowDot b a := Finset.sum_congr rfl fun _ _ => mul_comm _ _

/-- A list is its positions. -/
theorem list_eq_map {α : Type} {r : List α} {n : Nat} (h : r.length = n) (d : α) : r = (List.range n).map fun k => r.getD k d := by
  refine List.ext_getElem (by simp [h]) fun k h1 h2 => ?_
  simp [List.getD_eq_getElem?_getD, List.getElem?_eq_getElem h1]

theorem sum_map_range {M : Type} [AddCommMonoid M] (n : Nat) (f : Nat → M) :
    ((List.range n).map f).sum = ∑ k ∈ Finset.range n, f k := rfl

theorem list_sum_map {α M : Type} [AddCommMonoid M] {l : List α} {n : Nat} (h : l.length = n) (d : α) (f : α → M) :
    (l.map f).sum = ∑ k ∈ Finset.range n, f (l.getD k d) := by
  conv_lhs => rw [list_eq_map h d, List.map_map]
  rfl

theorem partialOf_res_rowDot {a b : List Val} (ha : a.length = 128) (hb : b.length = 128) : (partialOf a b).res = rowDot a b := by
  conv_lhs => rw [partialOf_res, list_eq_map ha (.fin 0 0), list_eq_map hb (.fin 0 0), List.zip_map', List.map_map]
  rfl

/-- Position k of the check row holds the sum of the rows' residues there. -/
theorem resSums_cast (rows : List (List Val)) {k : Nat} (hk : k < 128) :
    (((resSums rows).getD k 0 : ℕ) : ZMod resP) = (rows.map fun r => (rowAt r k).res).sum := by
  have at_ : (resSums rows).getD k 0 = (rows.map fun r => valRes (rowAt r k)).sum % resP := by
    simp [resSums, List.getD_eq_getElem?_getD, List.getElem?_range hk, rowAt]
  rw [at_, ZMod.natCast_mod, Nat.cast_list_sum, List.map_map]
  congr 1
  exact List.map_congr_left fun r _ => valRes_cast _

theorem sum_mul_list_sum {α M : Type} [NonUnitalNonAssocSemiring M] (n : Nat) (x : Nat → M) (f : Nat → α → M) (l : List α) :
    ∑ k ∈ Finset.range n, x k * (l.map (f k)).sum = (l.map fun b => ∑ k ∈ Finset.range n, x k * f k b).sum := by
  induction l with
  | nil => simp
  | cons b l ih => simp [mul_add, Finset.sum_add_distrib, ih]

/-- A row against the check row of the other operand: what the partials of its row of the product sum to (03 R110). -/
theorem resDot_resSums {r : List Val} {rows : List (List Val)} (hr : r.length = 128) :
    ((resDot r (resSums rows) : ℕ) : ZMod resP) = (rows.map fun b => rowDot r b).sum := by
  have len : (resSums rows).length = 128 := by simp [resSums]
  have dot : ((resDot r (resSums rows) : ℕ) : ZMod resP) =
      ∑ k ∈ Finset.range 128, (rowAt r k).res * (((resSums rows).getD k 0 : ℕ) : ZMod resP) := by
    rw [resDot, ZMod.natCast_mod]
    conv_lhs => rw [list_eq_map hr (.fin 0 0), list_eq_map len 0, List.zip_map', List.map_map, Nat.cast_list_sum, List.map_map]
    rw [sum_map_range]
    refine Finset.sum_congr rfl fun k _ => ?_
    simp only [Function.comp, Nat.cast_mul, valRes_cast]
    rfl
  rw [dot, Finset.sum_congr rfl fun k hk => by rw [resSums_cast rows (Finset.mem_range.1 hk)]]
  exact sum_mul_list_sum 128 _ (fun k r => (rowAt r k).res) rows

/-! ### Products of partials as grids -/

/-- The element at row i and column j of a product. -/
def elemAt (ps : List (List Partial)) (i j : Nat) : Partial := (ps.getD i []).getD j {}

/-- A product of n rows and m columns. -/
def IsGrid (n m : Nat) (ps : List (List Partial)) : Prop := ps.length = n ∧ ∀ i < n, (ps.getD i []).length = m

theorem getD_of_lt {α : Type} {l : List α} {i : Nat} (h : i < l.length) (d : α) : l.getD i d = l[i] := by
  simp [List.getD_eq_getElem?_getD, List.getElem?_eq_getElem h]

theorem getD_mem {α : Type} {l : List α} {i : Nat} (h : i < l.length) (d : α) : l.getD i d ∈ l := by
  rw [getD_of_lt h]; exact List.getElem_mem h

theorem partialsOf_grid (as bs : List (List Val)) : IsGrid as.length bs.length (partialsOf as bs) :=
  ⟨by simp [partialsOf], fun i hi => by simp [partialsOf, List.getD_eq_getElem?_getD, hi]⟩

theorem elemAt_partialsOf {as bs : List (List Val)} {i j : Nat} (hi : i < as.length) (hj : j < bs.length) :
    elemAt (partialsOf as bs) i j = partialOf (as.getD i []) (bs.getD j []) := by
  simp [elemAt, partialsOf, List.getD_eq_getElem?_getD, hi, hj]

theorem upsetPartials_grid {n m : Nat} {ps : List (List Partial)} (h : IsGrid n m ps) (l : List (Nat × Nat × Int)) :
    IsGrid n m (upsetPartials ps l) := by
  refine ⟨by simp [upsetPartials, h.1], fun i hi => ?_⟩
  have len := h.2 i hi
  rw [getD_of_lt (by rw [h.1]; exact hi)] at len
  rw [getD_of_lt (by simpa [upsetPartials, h.1] using hi)]
  simpa [upsetPartials] using len

/-- One upset adds its residue to the partial it names and to no other. -/
theorem elemAt_upsetPartials {n m : Nat} {ps : List (List Partial)} (h : IsGrid n m ps) {i j : Nat} (hi : i < n) (hj : j < m)
    (a b : Nat) (x : Int) : (elemAt (upsetPartials ps [(a, b, x)]) i j).res =
      (elemAt ps i j).res + if i = a ∧ j = b then dyRes x (-512) else 0 := by
  have hi' : i < ps.length := by rw [h.1]; exact hi
  have hj' : j < (ps[i]).length := by rw [← getD_of_lt hi' [], h.2 i hi]; exact hj
  have elem : elemAt (upsetPartials ps [(a, b, x)]) i j =
      if a = i ∧ b = j then { elemAt ps i j with
        n := (dyAdd ((elemAt ps i j).n, (elemAt ps i j).t) (x, -512)).1
        t := (dyAdd ((elemAt ps i j).n, (elemAt ps i j).t) (x, -512)).2 } else elemAt ps i j := by
    simp [elemAt, upsetPartials, List.getD_eq_getElem?_getD, hi', hj']
  rw [elem]
  by_cases k : i = a ∧ j = b
  · rw [if_pos ⟨k.1.symm, k.2.symm⟩, if_pos k]
    exact dyRes_dyAdd _ _
  · rw [if_neg fun c => k ⟨c.1.symm, c.2.symm⟩, if_neg k, add_zero]

/-! ### What the check answers -/

/-- Two sums taken modulo 2^61 - 1 differ where their residues do. -/
theorem mod_bne (a b : Nat) : (a % resP != b % resP) = decide ((b : ZMod resP) - a ≠ 0) := by
  rw [Bool.eq_iff_iff, bne_iff_ne, decide_eq_true_eq, sub_ne_zero, ne_comm, Ne, Ne, ZMod.natCast_eq_natCast_iff']

theorem residues_cast (l : List Partial) : (((l.map fun p => residue p.n p.t).sum : ℕ) : ZMod resP) = (l.map Partial.res).sum := by
  rw [Nat.cast_list_sum, List.map_map]
  congr 1
  exact List.map_congr_left fun p _ => residue_cast _ _

/-- The place that the check answers with: the first row and the first column that differ (03 R112). -/
def badPlace : Option Nat → Option Nat → Option (Nat × Nat)
  | none, none => none
  | i, j => some (i.getD 0, j.getD 0)

theorem findRange_congr {n : Nat} {p q : Nat → Bool} (h : ∀ i < n, p i = q i) : (List.range n).find? p = (List.range n).find? q :=
  List.find?_congr fun i hi => h i (List.mem_range.1 hi)

section
variable {as bs : List (List Val)} {ps : List (List Partial)} {err : Nat → Nat → ZMod resP}
  (grid : IsGrid as.length bs.length ps)
  (hps : ∀ i j, i < as.length → j < bs.length → (elemAt ps i j).res = rowDot (as.getD i []) (bs.getD j []) + err i j)
include grid hps

/-- What the check finds along a row is the sum of the row's errors. -/
theorem rowCheck (ha : ∀ r ∈ as, r.length = 128) {i : Nat} (hi : i < as.length) :
    (resDot (as.getD i []) (resSums bs) % resP != ((ps.getD i []).map fun p => residue p.n p.t).sum % resP) =
      decide (∑ j ∈ Finset.range bs.length, err i j ≠ 0) := by
  have row : ((ps.getD i []).map Partial.res).sum = ∑ j ∈ Finset.range bs.length, (elemAt ps i j).res :=
    list_sum_map (grid.2 i hi) {} Partial.res
  rw [mod_bne, residues_cast, row, resDot_resSums (ha _ (getD_mem hi _)), list_sum_map (l := bs) rfl [] (rowDot _),
    ← Finset.sum_sub_distrib, Finset.sum_congr rfl fun j hj => sub_eq_of_eq_add' (hps i j hi (Finset.mem_range.1 hj))]

/-- What the check finds along a column is the sum of the column's errors. -/
theorem colCheck (hb : ∀ r ∈ bs, r.length = 128) {j : Nat} (hj : j < bs.length) :
    (resDot (bs.getD j []) (resSums as) % resP != (ps.map fun r => residue (r.getD j {}).n (r.getD j {}).t).sum % resP) =
      decide (∑ i ∈ Finset.range as.length, err i j ≠ 0) := by
  have col : (((ps.map fun r => residue (r.getD j {}).n (r.getD j {}).t).sum : ℕ) : ZMod resP) =
      ∑ i ∈ Finset.range as.length, (elemAt ps i j).res := by
    rw [list_sum_map grid.1 [], Nat.cast_sum]
    exact Finset.sum_congr rfl fun i _ => residue_cast _ _
  rw [mod_bne, col, resDot_resSums (hb _ (getD_mem hj _)), list_sum_map (l := as) rfl [] (rowDot _), ← Finset.sum_sub_distrib,
    Finset.sum_congr rfl fun i hi => sub_eq_of_eq_add' ((hps i j (Finset.mem_range.1 hi) hj).trans (by rw [rowDot_comm]))]

/-- The check answers from the sums of the errors alone. -/
theorem checkProduct_errors (ha : ∀ r ∈ as, r.length = 128) (hb : ∀ r ∈ bs, r.length = 128) : checkProduct as bs ps [] =
    badPlace ((List.range as.length).find? fun i => decide (∑ j ∈ Finset.range bs.length, err i j ≠ 0))
      ((List.range bs.length).find? fun j => decide (∑ i ∈ Finset.range as.length, err i j ≠ 0)) := by
  have rows := findRange_congr fun i hi => rowCheck grid hps ha (i := i) hi
  have cols := findRange_congr fun j hj => colCheck grid hps hb (j := j) hj
  simp only [checkProduct, List.filterMap_nil, List.sum_nil, Nat.add_zero, ← rows, ← cols]
  rfl

end

/-- Undisturbed partials pass (03 R110). -/
theorem checkProduct_partialsOf {as bs : List (List Val)} (ha : ∀ r ∈ as, r.length = 128) (hb : ∀ r ∈ bs, r.length = 128) :
    checkProduct as bs (partialsOf as bs) [] = none := by
  rw [checkProduct_errors (err := fun _ _ => 0) (partialsOf_grid as bs) (fun i j hi hj => by
    rw [elemAt_partialsOf hi hj, partialOf_res_rowDot (ha _ (getD_mem hi _)) (hb _ (getD_mem hj _)), add_zero]) ha hb]
  have clean : ∀ n : Nat, ((List.range n).find? fun _ => decide ((0 : ZMod resP) ≠ 0)) = none := fun n => by simp
  simp only [Finset.sum_const_zero, clean, badPlace]

/-- The first index of a range that is `a`. -/
theorem findRange_eq {n a : Nat} (h : a < n) {p : Nat → Bool} (hp : ∀ i < n, p i = decide (i = a)) :
    (List.range n).find? p = some a := by
  rw [List.find?_range_eq_some]
  exact ⟨by simp [hp a h], List.mem_range.2 h, fun i hi => by simp [hp i (hi.trans h), hi.ne]⟩

/-- A single upset whose residue is not 0 is found where it is (03 R112). -/
theorem checkProduct_upsetPartials {as bs : List (List Val)} {a b : Nat} {x : Int} (ha : ∀ r ∈ as, r.length = 128)
    (hb : ∀ r ∈ bs, r.length = 128) (hi : a < as.length) (hj : b < bs.length) (hx : residue x (-512) ≠ 0) :
    checkProduct as bs (upsetPartials (partialsOf as bs) [(a, b, x)]) [] = some (a, b) := by
  have hd := dyRes_ne_zero hx
  rw [checkProduct_errors (err := fun i j => if i = a ∧ j = b then dyRes x (-512) else 0)
    (upsetPartials_grid (partialsOf_grid as bs) _) (fun i j hi hj => by
      rw [elemAt_upsetPartials (partialsOf_grid as bs) hi hj, elemAt_partialsOf hi hj,
        partialOf_res_rowDot (ha _ (getD_mem hi _)) (hb _ (getD_mem hj _))]) ha hb]
  rw [findRange_eq hi fun i _ => ?_, findRange_eq hj fun j _ => ?_]
  · rfl
  · by_cases e : j = b <;> simp [e, hi, hd]
  · by_cases e : i = a <;> simp [e, hj, hd]

end Sys2Proof.Machine
end

section
open Sys2Proof Sys2Proof.Machine

/-- Settles O18: modulo 2^61 - 1 a check sum and the sum of the partials it stands for are the same bilinear form. -/
theorem checkHasNoFalseAlarm : Obligations.CheckHasNoFalseAlarm := fun _ _ ha hb => checkProduct_partialsOf ha hb

/-- Settles O19: an upset moves the sums of its own row and its own column, and those alone. -/
theorem checkFindsOneUpset : Obligations.CheckFindsOneUpset := fun _ _ _ _ _ ha hb hi hj hx =>
  checkProduct_upsetPartials ha hb hi hj hx
end

section
/-! SUPPORT. What a change of one engine leaves, and the words that decode carries out (03 R91, R94, R104, R105, R502). -/

namespace Sys2Proof.Machine

theorem leads_of {c : Instr} {s t : State} {P : State → Prop} (h : exec c s = .next t) (hp : P t) : Leads c s P := ⟨t, h, hp⟩

/-! ### A change of one engine -/

variable {s t u : State} {e : EngId}

theorem OnlySheet.trans {i : Nat} (h : OnlySheet i s t) (k : OnlySheet i t u) : OnlySheet i s u :=
  ⟨k.1.trans h.1, fun j hj => (k.2 j hj).trans (h.2 j hj)⟩

theorem OtherEngines.trans (h : OtherEngines e s t) (k : OtherEngines e t u) : OtherEngines e s u :=
  fun g hg => (k g hg).trans (h g hg)

theorem OnlyEngine.trans (h : OnlyEngine e s t) (k : OnlyEngine e t u) : OnlyEngine e s u :=
  ⟨h.1.trans k.1, h.2.1.trans k.2.1, k.2.2.trans h.2.2⟩

theorem onlySheet_modSheet (s : State) (i : Nat) (f : Sheet → Sheet) : OnlySheet i s (s.modSheet i f) :=
  ⟨rfl, fun _ hj => sheet_modSheet_ne s f hj⟩

theorem onlyEngine_modEng (s : State) (e : EngId) (f : Engine → Engine) : OnlyEngine e s (s.modEng e f) := by
  refine ⟨onlySheet_modSheet _ _ _, fun g hg => eng_modEng_ne s f hg, ?_⟩
  rw [State.modEng, sheet_modSheet_same]
  rfl

/-- `t` is `s` but for engine `e`, which reads as `g`. -/
def EngineBecomes (e : EngId) (s t : State) (g : Engine) : Prop := OnlyEngine e s t ∧ t.eng e = g

theorem modEng_becomes (s : State) (e : EngId) (f : Engine → Engine) : EngineBecomes e s (s.modEng e f) (f (s.eng e)) :=
  ⟨onlyEngine_modEng s e f, eng_modEng_same s e f⟩

theorem EngineBecomes.trans {g g' : Engine} (h : EngineBecomes e s t g) (k : EngineBecomes e t u g') : EngineBecomes e s u g' :=
  ⟨h.1.trans k.1, k.2⟩

/-! ### Moving on, waiting, halting -/

theorem goTo_becomes {n : Nat} (h : n < 8192) :
    EngineBecomes e s (s.goTo e n) { s.eng e with pc := BitVec.ofNat 13 n, st := .run, awaits := none } := by
  rw [State.goTo, if_pos h]
  exact modEng_becomes s e _

theorem advance_becomes (h : (s.eng e).pc.toNat < 8191) : EngineBecomes e s (s.advance e) (s.eng e).stepOn := by
  have next : BitVec.ofNat 13 ((s.eng e).pc.toNat + 1) = (s.eng e).pc + 1 := by
    apply BitVec.eq_of_toNat_eq
    simp [BitVec.toNat_add]
  have k := goTo_becomes (s := s) (e := e) (n := (s.eng e).pc.toNat + 1) (by omega)
  rwa [next] at k

/-- An engine that changes and moves on. -/
theorem EngineBecomes.advance {g : Engine} (h : EngineBecomes e s t g) (hpc : g.pc.toNat < 8191) :
    EngineBecomes e s (t.advance e) g.stepOn := by
  obtain ⟨only, rfl⟩ := h
  exact ⟨only.trans (advance_becomes hpc).1, (advance_becomes hpc).2⟩

theorem EngineBecomes.goTo {g : Engine} {n : Nat} (h : EngineBecomes e s t g) (hn : n < 8192) :
    EngineBecomes e s (t.goTo e n) { g with pc := BitVec.ofNat 13 n, st := .run, awaits := none } := by
  obtain ⟨only, rfl⟩ := h
  exact ⟨only.trans (goTo_becomes hn).1, (goTo_becomes hn).2⟩

theorem await_becomes (s : State) (e : EngId) (a : Awaited) :
    EngineBecomes e s (s.await e a) { s.eng e with st := .wait, awaits := some a } := modEng_becomes s e _

theorem engHalt_halts (s : State) (e : EngId) (pc : Nat) (op : BitVec 16) : ((s.engHalt e pc op).eng e).st = .halt := by
  rw [engHalt_eng, if_pos rfl]

/-! ### Carrying out a control word -/

theorem decodes_running {a : Option Awaited} (h : s.decodes e a = true) : s.running e = true := by
  simp only [State.decodes, Bool.and_eq_true] at h
  exact h.1

/-- An engine that waits for nothing decodes whatever word comes. -/
theorem decodes_any (h : s.decodes e none = true) (a : Option Awaited) : s.decodes e a = true := by
  simp only [State.decodes, Bool.and_eq_true, Bool.or_eq_true, beq_iff_eq, or_self] at h ⊢
  exact ⟨h.1, .inl h.2⟩

/-- What a control word does on an engine that decodes. -/
def State.carry (s : State) (e : EngId) : CtlWord → State
  | .nop => s.advance e
  | .flagSet n => s.doFlag e n true
  | .flagClear n => s.doFlag e n false
  | .flagWait n => s.doFlagWait e n
  | .scribeRing k v => s.doScribeRing e k (BitVec.ofNat 16 v)
  | .scribeWait k => s.doScribeWait e k
  | .unitDrain => s.doUnitDrain e
  | .stepEnd => s.doStepEnd e
  | .loopBegin n => s.doLoopBegin e n
  | .loopEnd => s.doLoopEnd e
  | .branch o => s.doBranch e o
  | .agSet a g => s.doAgSet e a g
  | .eflagFromTd t f m => s.doEflagFromTd e t f (BitVec.ofNat 5 m)
  | .eflagSet f v => s.doEflagSet e f v

theorem runCtl_carries (h : s.decodes e none = true) (c : CtlWord) : s.runCtl e c = s.carry e c := by
  unfold State.runCtl
  rw [decodes_any h, Bool.not_true, if_neg Bool.false_ne_true]
  cases c <;> rfl

/-- A command that is a control word does what the word does. -/
theorem leads_carry {c : Instr} {w : CtlWord} {P : State → Prop} (h : s.decodes e none = true) (run : exec c s = .next (s.runCtl e w))
    (hp : P (s.carry e w)) : Leads c s P :=
  leads_of (run.trans (congrArg _ (runCtl_carries h w))) hp

theorem holds_carry {c : Instr} {w : CtlWord} (h : s.decodes e none = true) (run : exec c s = .next (s.runCtl e w))
    (hp : s.carry e w = s) : Holds c s := by
  rw [Holds, run, runCtl_carries h w, hp]

/-! ### Single bits of flag registers -/

theorem getLsbD_setBit {w : Nat} (x : BitVec w) (n k : Nat) (v : Bool) (hk : k < w) :
    (if v then x ||| BitVec.ofNat w (2 ^ n) else x &&& ~~~(BitVec.ofNat w (2 ^ n))).getLsbD k =
      if k = n then v else x.getLsbD k := by
  have one : (BitVec.ofNat w (2 ^ n)).getLsbD k = decide (k = n) := by
    rw [BitVec.getLsbD_ofNat, Nat.testBit_two_pow, decide_eq_true hk, Bool.true_and, decide_eq_decide, eq_comm]
  have other : (~~~(BitVec.ofNat w (2 ^ n))).getLsbD k = decide (k ≠ n) := by
    rw [BitVec.getLsbD_not, one, decide_eq_true hk, Bool.true_and, ← decide_not]
  cases v with
  | true =>
    rw [if_pos rfl, BitVec.getLsbD_or, one]
    split
    case isTrue h => rw [decide_eq_true h, Bool.or_true]
    case isFalse h => rw [decide_eq_false h, Bool.or_false]
  | false =>
    rw [if_neg Bool.false_ne_true, BitVec.getLsbD_and, other]
    split
    case isTrue h => rw [decide_eq_false (not_not.2 h), Bool.and_false]
    case isFalse h => rw [decide_eq_true h, Bool.and_true]

/-! ### The words that change a field of their engine -/

theorem eflag_becomes (hpc : (s.eng e).pc.toNat < 8191) (n : Nat) (v : Bool) :
    EngineBecomes e s ((s.putEflag e n v).advance e) { (s.eng e).stepOn with eflags :=
      (if v then (s.eng e).eflags ||| BitVec.ofNat 8 (2 ^ n) else (s.eng e).eflags &&& ~~~(BitVec.ofNat 8 (2 ^ n))) } :=
  (modEng_becomes s e _).advance hpc

theorem agSet_becomes (hpc : (s.eng e).pc.toNat < 8191) (n : Nat) (a : AddrGen) :
    EngineBecomes e s (s.doAgSet e n a) { (s.eng e).stepOn with ags := tset {} (s.eng e).ags n a } :=
  (modEng_becomes s e _).advance hpc

/-- A core after a doorbell entered its FIFO (07 R221). -/
def Scribe.rung (k : Scribe) (v : BitVec 16) (now : Nat) : Scribe :=
  ({ k with fifo := k.fifo ++ [v], meip := true } : Scribe).poll now

theorem scribeRing_becomes (hpc : (s.eng e).pc.toNat < 8191) (c : Fin 4) (v : BitVec 16) (room : (s.core ⟨e, c⟩).fifo.length < 16) :
    EngineBecomes e s (s.doScribeRing e c.val v)
      { (s.eng e).stepOn with cores := tmod {} (s.eng e).cores c.val fun k => k.rung v s.now } := by
  have self : Fin.ofNat 4 c.val = c := Fin.ext (Nat.mod_eq_of_lt c.isLt)
  rw [State.doScribeRing, self, if_neg (by omega)]
  exact (modEng_becomes s e _).advance hpc

theorem scribeRing_waits (c : Fin 4) (v : BitVec 16) (full : 16 ≤ (s.core ⟨e, c⟩).fifo.length) : s.doScribeRing e c.val v = s := by
  have self : Fin.ofNat 4 c.val = c := Fin.ext (Nat.mod_eq_of_lt c.isLt)
  rw [State.doScribeRing, self, if_pos full]

theorem core_of_cores {l : Table Scribe} (h : (t.eng e).cores = l) (c : Fin 4) : t.core ⟨e, c⟩ = tget {} l c.val := by
  rw [State.core, h]

theorem eflag_changes (hpc : (s.eng e).pc.toNat < 8191) (n : Nat) (v : Bool) (h : t = (s.putEflag e n v).advance e) :
    OnlyEngine e s t ∧ t.eng e = { (s.eng e).stepOn with eflags := (t.eng e).eflags } ∧
      ∀ k : Nat, k < 8 → (t.eng e).eflags.getLsbD k = if k = n then v else (s.eng e).eflags.getLsbD k := by
  obtain ⟨only, eng⟩ := eflag_becomes hpc n v
  rw [← h] at only eng
  refine ⟨only, by rw [eng], fun k hk => ?_⟩
  rw [eng]
  exact getLsbD_setBit _ n k v hk

theorem agSet_changes (hpc : (s.eng e).pc.toNat < 8191) (n : Nat) (a : AddrGen) (h : t = s.doAgSet e n a) :
    OnlyEngine e s t ∧ t.eng e = { (s.eng e).stepOn with ags := (t.eng e).ags } ∧
      ∀ k, tget {} (t.eng e).ags k = if k = n then a else tget {} (s.eng e).ags k := by
  obtain ⟨only, eng⟩ := agSet_becomes hpc n a
  rw [← h] at only eng
  refine ⟨only, by rw [eng], fun k => ?_⟩
  rw [eng]
  exact tget_tset _ _ _ _ _

theorem scribeRing_changes (hpc : (s.eng e).pc.toNat < 8191) (c : Fin 4) (v : BitVec 16) (room : (s.core ⟨e, c⟩).fifo.length < 16)
    (h : t = s.doScribeRing e c.val v) :
    OnlyEngine e s t ∧ t.eng e = { (s.eng e).stepOn with cores := (t.eng e).cores } ∧
      t.core ⟨e, c⟩ = (s.core ⟨e, c⟩).rung v s.now ∧ ∀ k, k ≠ c → t.core ⟨e, k⟩ = s.core ⟨e, k⟩ := by
  obtain ⟨only, eng⟩ := scribeRing_becomes hpc c v room
  rw [← h] at only eng
  have cores : (t.eng e).cores = tmod {} (s.eng e).cores c.val fun k => k.rung v s.now := by rw [eng]
  refine ⟨only, by rw [eng], ?_, fun k hk => ?_⟩
  · rw [core_of_cores cores, tget_tmod_same]
    rfl
  · rw [core_of_cores cores, tget_tmod_ne _ _ _ fun h => hk (Fin.ext h)]
    rfl

theorem eflagFromTd_moves {td : Nat} (free : ((s.eng e).queued.any fun x => (uopUses (s.eng e) x.2).wtd.contains td) = false)
    (ef : Nat) (m : BitVec 5) :
    s.doEflagFromTd e td ef m = (s.putEflag e ef (((s.eng e).td td).nflags &&& m != 0)).advance e := by
  rw [State.doEflagFromTd, if_neg (by rw [free]; exact Bool.false_ne_true)]

theorem eflagFromTd_waits {td : Nat} (busy : ((s.eng e).queued.any fun x => (uopUses (s.eng e) x.2).wtd.contains td) = true)
    (ef : Nat) (m : BitVec 5) : s.doEflagFromTd e td ef m = s := by
  rw [State.doEflagFromTd, if_pos busy]

/-! ### Sheet flags and words that wait -/

theorem eng_putFlag (i n : Nat) (v : Bool) (g : EngId) : (s.putFlag i n v).eng g = s.eng g := by
  simp only [State.eng, State.putFlag, sheet_modSheet]
  split
  · next h => rw [h]; rfl
  · rfl

theorem flag_changes (hpc : (s.eng e).pc.toNat < 8191) (n : Nat) (v : Bool) (h : t = s.doFlag e n v) :
    OnlySheet e.sheet.val s t ∧ OtherEngines e s t ∧
      { t.sheet e.sheet.val with engines := [], flags := 0 } = { s.sheet e.sheet.val with engines := [], flags := 0 } ∧
      t.eng e = (s.eng e).stepOn ∧
      ∀ k : Nat, k < 64 → (t.sheet e.sheet.val).flags.getLsbD k = if k = n then v else (s.sheet e.sheet.val).flags.getLsbD k := by
  have hpc' : ((s.putFlag e.sheet.val n v).eng e).pc.toNat < 8191 := by rwa [eng_putFlag]
  obtain ⟨⟨only, others, rest⟩, eng⟩ := advance_becomes hpc'
  rw [State.doFlag] at h
  rw [← h] at only others rest eng
  have put : (s.putFlag e.sheet.val n v).sheet e.sheet.val = { s.sheet e.sheet.val with flags :=
      (if v then (s.sheet e.sheet.val).flags ||| BitVec.ofNat 64 (2 ^ n)
        else (s.sheet e.sheet.val).flags &&& ~~~(BitVec.ofNat 64 (2 ^ n))) } := sheet_modSheet_same s _ _
  rw [put] at rest
  refine ⟨(onlySheet_modSheet _ _ _).trans only, fun g hg => (others g hg).trans (eng_putFlag _ _ _ g),
    congrArg (fun x : Sheet => { x with flags := 0 }) rest, eng.trans (by rw [eng_putFlag]), fun k hk => ?_⟩
  have flags := congrArg Sheet.flags rest
  dsimp only at flags
  rw [flags]
  exact getLsbD_setBit _ n k v hk

/-- FLAG_WAIT goes on where its flag is 1. -/
theorem flagWait_passes (hpc : (s.eng e).pc.toNat < 8191) {n : Nat} (h : (s.sheet e.sheet.val).flags.getLsbD n = true) :
    EngineBecomes e s (s.doFlagWait e n) (s.eng e).stepOn := by
  rw [State.doFlagWait, if_pos h]
  exact advance_becomes hpc

theorem flagWait_waits {n : Nat} (h : (s.sheet e.sheet.val).flags.getLsbD n = false) :
    EngineBecomes e s (s.doFlagWait e n) { s.eng e with st := .wait, awaits := some (.flag n) } := by
  rw [State.doFlagWait, if_neg (by rw [h]; exact Bool.false_ne_true)]
  exact await_becomes s e _

theorem scribeWait_waits {c : Nat} (h : tget 0 (s.eng e).ring c = 0) :
    EngineBecomes e s (s.doScribeWait e c) { s.eng e with st := .wait, awaits := some (.scribe c) } := by
  rw [State.doScribeWait, if_pos h]
  exact await_becomes s e _

/-- SCRIBE_WAIT takes one doorbell where one is pending. -/
theorem scribeWait_takes (hpc : (s.eng e).pc.toNat < 8191) {c : Nat} (hc : tget 0 (s.eng e).ring c ≠ 0) (h : t = s.doScribeWait e c) :
    OnlyEngine e s t ∧ t.eng e = { (s.eng e).stepOn with ring := (t.eng e).ring } ∧
      ∀ k, tget 0 (t.eng e).ring k = if k = c then tget 0 (s.eng e).ring k - 1 else tget 0 (s.eng e).ring k := by
  have run : EngineBecomes e s (s.doScribeWait e c)
      { (s.eng e).stepOn with ring := tset 0 (s.eng e).ring c (tget 0 (s.eng e).ring c - 1) } := by
    rw [State.doScribeWait, if_neg hc]
    exact (modEng_becomes s e _).advance hpc
  rw [← h] at run
  obtain ⟨only, eng⟩ := run
  refine ⟨only, by rw [eng], fun k => ?_⟩
  rw [eng]
  refine (tget_tset _ _ _ _ _).trans ?_
  split
  · next h => rw [h]
  · rfl

theorem unitDrain_passes (hpc : (s.eng e).pc.toNat < 8191) (h : s.drained e = true) :
    EngineBecomes e s (s.doUnitDrain e) (s.eng e).stepOn := by
  rw [State.doUnitDrain, if_pos h]
  exact advance_becomes hpc

theorem unitDrain_waits (h : s.drained e = false) : s.doUnitDrain e = s := by
  rw [State.doUnitDrain, if_neg (by rw [h]; exact Bool.false_ne_true)]

/-- An event that an engine waits for runs its word. -/
theorem leads_awaited {c : Instr} {a : Awaited} {P : State → Prop} (hr : s.running e = true) (ha : (s.eng e).awaits = some a)
    (run : exec c s = .next (if s.running e && (s.eng e).awaits == some a then u else s)) (hp : P u) : Leads c s P := by
  refine leads_of (run.trans ?_) hp
  rw [hr, ha, Bool.true_and, beq_self_eq_true, if_pos rfl]

/-! ### Loops and branches -/

/-- A loop opens at its first iteration. -/
theorem loopBegin_opens (hpc : (s.eng e).pc.toNat < 8191) {n : Nat} (hn : n ≠ 0) (hl : (s.eng e).loops.length < 4) :
    EngineBecomes e s (s.doLoopBegin e n)
      { (s.eng e).stepOn with loops := (s.eng e).loops ++ [{ start := (s.eng e).pc.toNat, count := n, iter := 0 }] } := by
  simp only [State.doLoopBegin, if_neg hn, if_neg (Nat.not_le.2 hl)]
  exact (modEng_becomes s e _).advance hpc

theorem loopBegin_fifth {n : Nat} (hn : n ≠ 0) (hl : 4 ≤ (s.eng e).loops.length) :
    ((s.doLoopBegin e n).eng e).st = .halt := by
  simp only [State.doLoopBegin, if_neg hn, if_pos hl]
  exact engHalt_halts _ _ _ _

/-- A loop of COUNT 0 is passed over. -/
theorem loopBegin_skips {j : Nat}
    (hj : matchEnd (s.wordAt e) ((s.eng e).progLen - ((s.eng e).pc.toNat + 1)) ((s.eng e).pc.toNat + 1) 0 = some j) (h : j < 8191) :
    EngineBecomes e s (s.doLoopBegin e 0) { (s.eng e).stepOn with pc := BitVec.ofNat 13 (j + 1) } := by
  simp only [State.doLoopBegin, if_pos, hj]
  exact goTo_becomes (by omega)

theorem loopEnd_repeats {f : LoopFrame} (hf : (s.eng e).loops.getLast? = some f) (more : f.iter + 1 < f.count) (hs : f.start < 8191) :
    EngineBecomes e s (s.doLoopEnd e) { (s.eng e).stepOn with
      pc := BitVec.ofNat 13 (f.start + 1), loops := (s.eng e).loops.dropLast ++ [{ f with iter := f.iter + 1 }] } := by
  simp only [State.doLoopEnd, hf, if_pos more]
  exact (modEng_becomes s e _).goTo (by omega)

theorem loopEnd_closes (hpc : (s.eng e).pc.toNat < 8191) {f : LoopFrame} (hf : (s.eng e).loops.getLast? = some f)
    (last : f.count ≤ f.iter + 1) :
    EngineBecomes e s (s.doLoopEnd e) { (s.eng e).stepOn with loops := (s.eng e).loops.dropLast } := by
  simp only [State.doLoopEnd, hf, if_neg (Nat.not_lt.2 last)]
  exact (modEng_becomes s e _).advance hpc

theorem loopEnd_outside (h : (s.eng e).loops = []) : ((s.doLoopEnd e).eng e).st = .halt := by
  simp only [State.doLoopEnd, h, List.getLast?_nil]
  exact engHalt_halts _ _ _ _

/-- A branch into the program goes there and closes the loops that it leaves. -/
theorem branch_goes {o : Int} {n : Nat} (hn : (n : Int) = (s.eng e).pc.toNat + o) (inside : n < (s.eng e).progLen) (h : n < 8192) :
    ∃ l, l <+: (s.eng e).loops ∧
      EngineBecomes e s (s.doBranch e o) { (s.eng e).stepOn with pc := BitVec.ofNat 13 n, loops := l } := by
  have not_out : ¬((n : Int) < 0 ∨ ((s.eng e).progLen : Int) ≤ n) := by omega
  simp only [State.doBranch, ← hn, if_neg not_out, Int.toNat_natCast]
  exact ⟨_, List.takeWhile_prefix _, (modEng_becomes s e _).goTo h⟩

theorem branch_outside {o : Int} (out : (s.eng e).pc.toNat + o < 0 ∨ ((s.eng e).progLen : Int) ≤ (s.eng e).pc.toNat + o) :
    ((s.doBranch e o).eng e).st = .halt := by
  simp only [State.doBranch, if_pos out]
  exact engHalt_halts _ _ _ _

/-- A branch that is no reserved word is taken where its predicate holds. -/
theorem leads_branch {p : Pred} {o : BitVec 13} {P : State → Prop} (hd : s.decodes e none = true) (ho : o ≠ 0)
    (hp : P (if (s.eng e).holds p then s.doBranch e o.toInt else s.advance e)) : Leads (.branch e p o) s P := by
  have run : exec (.branch e p o) s = .next (if !s.decodes e none then s
    else if o = 0 then s.engHalt e (s.eng e).pc.toNat (opEngine 9 3)
    else if (s.eng e).holds p then s.runCtl e (.branch o.toInt) else s.advance e) := rfl
  refine leads_of (run.trans ?_) hp
  rw [hd, Bool.not_true, if_neg Bool.false_ne_true, if_neg ho, runCtl_carries hd]
  rfl

/-! ### Decode -/

/-- What decode does with a word inside the program that means something. -/
theorem decode_word (hr : s.running e = true) (inside : (s.eng e).pc.toNat < (s.eng e).progLen) {x : EngWord}
    (hx : decodeEngWord (s.eng e).operandAddr (fun d => ((s.eng e).loops[d]?).map LoopFrame.iter) (s.eng e).pc.toNat
      (s.wordAt e (s.eng e).pc.toNat) = some x) :
    s.doDecode e = if !(s.eng e).holds (decodePred (s.wordAt e (s.eng e).pc.toNat)) then s.advance e else
      match x with
      | .control c => s.runCtl e c
      | .queued u =>
        if !s.decodes e none || decide (queueDepth (uopUnit u) ≤ ((s.eng e).queueOf (uopUnit u)).length) then s
        else (s.modEng e fun g =>
          { g.setQueueOf (uopUnit u) (g.queueOf (uopUnit u) ++ [(g.seq, u)]) with seq := g.seq + 1 }).advance e := by
  simp only [State.doDecode, hr, Bool.not_true, Bool.false_eq_true, if_false, if_neg (Nat.not_le.2 inside), hx]
  cases x <;> rfl

theorem decode_reserved (hr : s.running e = true) (inside : (s.eng e).pc.toNat < (s.eng e).progLen)
    (hx : decodeEngWord (s.eng e).operandAddr (fun d => ((s.eng e).loops[d]?).map LoopFrame.iter) (s.eng e).pc.toNat
      (s.wordAt e (s.eng e).pc.toNat) = none) : ((s.doDecode e).eng e).st = .halt := by
  simp only [State.doDecode, hr, Bool.not_true, Bool.false_eq_true, if_false, if_neg (Nat.not_le.2 inside), hx]
  exact engHalt_halts _ _ _ _

theorem decode_outside (hr : s.running e = true) (out : (s.eng e).progLen ≤ (s.eng e).pc.toNat) :
    ((s.doDecode e).eng e).st = .halt := by
  simp only [State.doDecode, hr, Bool.not_true, Bool.false_eq_true, if_false, if_pos out]
  exact engHalt_halts _ _ _ _

theorem pc_setQueueOf (g : Engine) (n : Nat) (q : List (Nat × Uop)) : (g.setQueueOf n q).pc = g.pc := by
  unfold Engine.setQueueOf
  split
  · rfl
  · split <;> rfl

/-- A word enters the queue of its unit at the end, with its place in program order. -/
theorem enqueue_becomes (hpc : (s.eng e).pc.toNat < 8191) (u : Uop) : EngineBecomes e s
    ((s.modEng e fun g =>
      { g.setQueueOf (uopUnit u) (g.queueOf (uopUnit u) ++ [(g.seq, u)]) with seq := g.seq + 1 }).advance e)
    { (s.eng e).setQueueOf (uopUnit u) ((s.eng e).queueOf (uopUnit u) ++ [((s.eng e).seq, u)]) with
      seq := (s.eng e).seq + 1, pc := (s.eng e).pc + 1, st := .run, awaits := none } := by
  have pc := pc_setQueueOf (s.eng e) (uopUnit u) ((s.eng e).queueOf (uopUnit u) ++ [((s.eng e).seq, u)])
  have queued := modEng_becomes s e fun g =>
    { g.setQueueOf (uopUnit u) (g.queueOf (uopUnit u) ++ [(g.seq, u)]) with seq := g.seq + 1 }
  obtain ⟨only, eng⟩ := queued.advance ((congrArg (·.toNat) pc).trans_lt hpc)
  exact ⟨only, eng.trans (by simp only [Engine.stepOn, pc])⟩

end Sys2Proof.Machine

open Sys2Proof Sys2Proof.Machine

/-- Settles O8: each word is a change of its engine alone, after which the engine moves on. -/
theorem controlWordsAdvance : Obligations.ControlWordsAdvance := by
  intro e s hd hpc
  have operand {w : Nat} (v : BitVec w) : BitVec.ofNat w v.toNat = v := by simp
  refine ⟨leads_carry hd rfl (advance_becomes hpc), fun ag g => leads_carry hd rfl (agSet_changes hpc ag.val g rfl),
    fun ef v => leads_carry hd rfl (eflag_changes hpc ef.val v rfl), fun c v => ⟨fun room => ?_, fun full => ?_⟩,
    fun td ef m => ⟨fun free => ?_, fun busy => ?_⟩⟩
  · exact leads_carry (w := .scribeRing c.val v.toNat) hd rfl
      (scribeRing_changes hpc c v room (congrArg (s.doScribeRing e c.val) (operand v)))
  · exact holds_carry (w := .scribeRing c.val v.toNat) hd rfl
      ((congrArg (s.doScribeRing e c.val) (operand v)).trans (scribeRing_waits c v full))
  · exact leads_carry (w := .eflagFromTd td.val ef.val m.toNat) hd rfl (eflag_changes hpc ef.val _
      ((congrArg (s.doEflagFromTd e td.val ef.val) (operand m)).trans (eflagFromTd_moves free ef.val m)))
  · exact holds_carry (w := .eflagFromTd td.val ef.val m.toNat) hd rfl
      ((congrArg (s.doEflagFromTd e td.val ef.val) (operand m)).trans (eflagFromTd_waits busy ef.val m))

/-- Settles O9: a wait is a test of a flag, a doorbell or the queues; each word then moves on or stays. -/
theorem flagAndWaitWords : Obligations.FlagAndWaitWords := by
  refine ⟨fun e n s hpc => ⟨fun hd => ⟨leads_carry hd rfl (flag_changes hpc n.val true rfl),
      leads_carry hd rfl (flag_changes hpc n.val false rfl), fun h => leads_carry hd rfl (flagWait_passes hpc h),
      fun h => leads_carry hd rfl (flagWait_waits h)⟩, fun hr ha => ⟨fun h => ?_, fun h => ?_⟩⟩,
    fun e s hpc => ⟨fun c => ⟨?_, ?_, ?_⟩, fun hd => ⟨?_, ?_, ?_⟩⟩⟩
  · exact leads_awaited hr ha rfl (flagWait_passes hpc h)
  · exact leads_awaited hr ha rfl (flagWait_waits h)
  · exact fun hd h => leads_carry hd rfl (scribeWait_takes hpc h rfl)
  · exact fun hd h => leads_carry hd rfl (scribeWait_waits h)
  · exact fun hr ha h => leads_awaited hr ha rfl (scribeWait_takes hpc h rfl)
  · exact fun h => leads_carry hd rfl (unitDrain_passes hpc h)
  · exact fun h => holds_carry hd rfl (unitDrain_waits h)
  · exact leads_carry hd rfl (modEng_becomes s e _)

/-- Settles O10: each loop word is a change of the loop stack and of the program counter. -/
theorem loopWords : Obligations.LoopWords := by
  intro e s hd
  have count {n : BitVec 24} (hn : n ≠ 0) : n.toNat ≠ 0 := fun h => hn (BitVec.eq_of_toNat_eq h)
  refine ⟨fun n hpc hn hl => leads_carry hd rfl (loopBegin_opens hpc (count hn) hl),
    fun n hn hl => leads_carry hd rfl (loopBegin_fifth (count hn) hl), fun j hj h => leads_carry hd rfl (loopBegin_skips hj h),
    fun f hf more hs => leads_carry hd rfl (loopEnd_repeats hf more hs),
    fun f hpc hf last => leads_carry hd rfl (loopEnd_closes hpc hf last), fun h => leads_carry hd rfl (loopEnd_outside h),
    fun p o hpc ho hp => leads_branch hd ho ?_, fun p o n ho hp hn inside h => leads_branch hd ho ?_,
    fun p o ho hp out => leads_branch hd ho ?_⟩
  · rw [hp, if_neg Bool.false_ne_true]
    exact advance_becomes hpc
  · rw [hp, if_pos rfl]
    obtain ⟨l, pre, only, eng⟩ := branch_goes hn inside h
    exact ⟨only, by rw [eng], by rw [eng]; exact pre⟩
  · rw [hp, if_pos rfl]
    exact branch_outside out

/-- Settles O11: decode goes by the predicate, then by what the word is. -/
theorem decodeQueuesOrRefuses : Obligations.DecodeQueuesOrRefuses := by
  intro e s hd hpc
  have hr := decodes_running hd
  have run : exec (.instructionDecode e) s = .next (s.doDecode e) := rfl
  refine ⟨fun inside => ⟨fun u hw hp => ⟨fun room => leads_of run ?_, fun full => run.trans (congrArg _ ?_)⟩,
    fun c hw hp => run.trans (congrArg _ ?_), fun x hw hp => leads_of run ?_, fun hw => leads_of run (decode_reserved hr inside hw)⟩,
    fun out => leads_of run (decode_outside hr out)⟩
  · rw [decode_word hr inside hw, hp, Bool.not_true, if_neg Bool.false_ne_true]
    simp only [hd, Bool.not_true, Bool.false_or, decide_eq_true_eq, if_neg (Nat.not_le.2 room)]
    exact enqueue_becomes hpc u
  · rw [decode_word hr inside hw, hp, Bool.not_true, if_neg Bool.false_ne_true]
    simp only [hd, Bool.not_true, Bool.false_or, decide_eq_true_eq, if_pos full]
  · rw [decode_word hr inside hw, hp, Bool.not_true, if_neg Bool.false_ne_true]
  · rw [decode_word hr inside hw, hp, Bool.not_false, if_pos rfl]
    exact advance_becomes hpc
end

section
/-! SUPPORT. What the units' shared operations leave of memories and engines, and what a word that starts finds (03 R94, R113; 13 R365). -/

namespace Sys2Proof.Machine

/-! ### Cells and words -/

/-- The bytes of a parcel's memories. -/
def ParcelMem.cells (m : ParcelMem) : Mem × Mem := (m.store, m.acc)

/-- The map of a sheet and its bytes: DRAM, the adds on their way to it, parcel stores and accumulator memories. -/
def Sheet.cells (x : Sheet) : List Nat × Mem × List AddReq × (Nat → Mem × Mem) :=
  (x.pmap, x.mem.dram, x.mem.adds, fun p => (x.parcel p).cells)

/-- What engine words read and write of an engine, marks and queues apart. -/
def Engine.words (g : Engine) : Table TileDesc × Option BOperand × List Verdict × List Arrival × Nat :=
  (g.tds, g.bReg, g.verdicts, g.inbox, g.progUnit)

/-- The engines of a sheet and its stream keys as words see them. -/
def Sheet.words (x : Sheet) : KeyUnit × (Nat → Table TileDesc × Option BOperand × List Verdict × List Arrival × Nat) :=
  (x.key, fun l => (x.engine l).words)

/-- Bytes and engines read as before: only marks, records, messages and counts moved. -/
structure Still (s t : State) : Prop where
  cells : SheetsKeep Sheet.cells s t
  words : SheetsKeep Sheet.words s t

variable {s t u : State} {e : EngId}

theorem Still.refl : Still s s := ⟨.refl, .refl⟩
theorem Still.trans (h : Still s t) (k : Still t u) : Still s u := ⟨h.cells.trans k.cells, h.words.trans k.words⟩
theorem Still.of_sheets (h : t.sheets = s.sheets) : Still s t := ⟨.of_sheets h, .of_sheets h⟩

theorem Reports.still (h : Reports s t) : Still s t := ⟨h.sheetsKeep fun _ _ _ _ => rfl, h.sheetsKeep fun _ _ _ _ => rfl⟩
theorem Counts.still (h : Counts s t) : Still s t := h.reports.still

theorem Still.forEach {α : Type} (l : List α) (f : State → α → State) (h : ∀ s a, Still s (f s a)) (s : State) : Still s (s.forEach l f) :=
  ⟨.forEach l f fun s a => (h s a).cells, .forEach l f fun s a => (h s a).words⟩

theorem Still.modSheet (i : Nat) (f : Sheet → Sheet) (hc : ∀ x, (f x).cells = x.cells) (hw : ∀ x, (f x).words = x.words) :
    Still s (s.modSheet i f) := ⟨.modSheet i f hc, .modSheet i f hw⟩

theorem Still.modMem (i : Nat) (f : MemPath → MemPath) (hd : ∀ m, (f m).dram = m.dram) (ha : ∀ m, (f m).adds = m.adds) :
    Still s (s.modMem i f) :=
  .modSheet i _ (fun x => by simp only [Sheet.cells, hd, ha]; rfl) fun _ => rfl

theorem words_modEngine (x : Sheet) (l : Nat) (f : Engine → Engine) (h : ∀ g, (f g).words = g.words) :
    (x.modEngine l f).words = x.words := by
  have engines : (fun k => ((x.modEngine l f).engine k).words) = fun k => (x.engine k).words := by
    funext k
    rw [engine_modEngine]
    split
    · next e => rw [h, e]
    · rfl
  exact congrArg (Prod.mk x.key) engines

theorem cells_modEng (s : State) (e : EngId) (f : Engine → Engine) : SheetsKeep Sheet.cells s (s.modEng e f) :=
  .modEng e f fun _ _ => rfl

theorem Still.modEng (e : EngId) (f : Engine → Engine) (h : ∀ g, (f g).words = g.words) : Still s (s.modEng e f) :=
  ⟨cells_modEng s e f, .modSheet _ _ fun x => words_modEngine x _ f h⟩

theorem cells_modParcel (x : Sheet) (p : Nat) (f : ParcelMem → ParcelMem) (h : ∀ m, (f m).cells = m.cells) :
    (x.modParcel p f).cells = x.cells := by
  have parcels : (fun q => ((x.modParcel p f).parcel q).cells) = fun q => (x.parcel q).cells := by
    funext q
    rw [parcel_modParcel]
    split
    · next e => rw [h, e]
    · rfl
  exact congrArg (fun c => (x.pmap, x.mem.dram, x.mem.adds, c)) parcels

theorem words_modPmem (s : State) (e : EngId) (f : ParcelMem → ParcelMem) : SheetsKeep Sheet.words s (s.modPmem e f) := by
  refine .modSheet _ _ fun x => ?_
  split <;> rfl

theorem Still.modPmem (e : EngId) (f : ParcelMem → ParcelMem) (h : ∀ m, (f m).cells = m.cells) : Still s (s.modPmem e f) := by
  refine ⟨.modSheet _ _ fun x => ?_, words_modPmem s e f⟩
  split
  · exact cells_modParcel x _ f h
  · rfl

/-! ### What cells and words show -/

section
variable (h : SheetsKeep Sheet.cells s t)
include h

theorem cells_dram (i : Nat) : (t.sheet i).mem.dram = (s.sheet i).mem.dram := congrArg (·.2.1) (h i)
theorem cells_adds (i : Nat) : (t.sheet i).mem.adds = (s.sheet i).mem.adds := congrArg (·.2.2.1) (h i)
theorem cells_parcel (i p : Nat) : ((t.sheet i).parcel p).cells = ((s.sheet i).parcel p).cells := congrFun (congrArg (·.2.2.2) (h i)) p
theorem cells_store (i p : Nat) : ((t.sheet i).parcel p).store = ((s.sheet i).parcel p).store := congrArg Prod.fst (cells_parcel h i p)
theorem cells_acc (i p : Nat) : ((t.sheet i).parcel p).acc = ((s.sheet i).parcel p).acc := congrArg Prod.snd (cells_parcel h i p)
theorem cells_phys (i l : Nat) : (t.sheet i).phys l = (s.sheet i).phys l := by
  simp only [Sheet.phys, show (t.sheet i).pmap = (s.sheet i).pmap from congrArg Prod.fst (h i)]

theorem cells_pmem (e : EngId) : (t.pmem e).cells = (s.pmem e).cells := by
  unfold State.pmem
  rw [cells_phys h]
  split
  · exact cells_parcel h _ _
  · rfl

theorem cells_sameDram : SameDram s t := fun i a => congrArg (fun m => mget m a) (cells_dram h i)
theorem cells_sameStores : SameStores s t := fun i p a => congrArg (fun m => mget m a) (cells_store h i p)
theorem cells_sameAccs : SameAccs s t := fun i p a => congrArg (fun m => mget m a) (cells_acc h i p)
theorem cells_sameMemories : SameMemories s t := ⟨cells_sameDram h, cells_sameStores h, cells_sameAccs h⟩

end

section
variable (h : Still s t) (g : EngId)
include h

theorem Still.eng_words : (t.eng g).words = (s.eng g).words :=
  congrFun (congrArg Prod.snd (h.words g.sheet.val)) g.parcel.val
theorem Still.tds : (t.eng g).tds = (s.eng g).tds := congrArg Prod.fst (h.eng_words g)
theorem Still.bReg : (t.eng g).bReg = (s.eng g).bReg := congrArg (·.2.1) (h.eng_words g)
theorem Still.verdicts : (t.eng g).verdicts = (s.eng g).verdicts := congrArg (·.2.2.1) (h.eng_words g)
theorem Still.inbox : (t.eng g).inbox = (s.eng g).inbox := congrArg (·.2.2.2.1) (h.eng_words g)
theorem Still.roundKey (b : Bool) (n : BitVec 32) : t.roundKey g b n = s.roundKey g b n := by
  have key : (t.sheet g.sheet.val).key = (s.sheet g.sheet.val).key := congrArg Prod.fst (h.words g.sheet.val)
  simp only [State.roundKey, State.streamOn, Sheet.findKey, key]
theorem Still.td (i : Nat) : (t.eng g).td i = (s.eng g).td i := by simp only [Engine.td, h.tds]

end

/-! ### The shared operations -/

theorem markBlocks_still (s : State) (e : EngId) (l : List Nat) : Still s (s.markBlocks e l) := .modPmem e _ fun _ => rfl
theorem markTds_still (s : State) (e : EngId) (l : List Nat) : Still s (s.markTds e l) := .modEng e _ fun _ => rfl

theorem storeDouble_still (s : State) (e : EngId) (w : Nat) : Still s (s.storeDouble e w) :=
  (engFault_reports _ _ _ _ _ _ _ _ _).still.trans (markBlocks_still _ _ _)
theorem accDouble_still (s : State) (e : EngId) (w : Nat) : Still s (s.accDouble e w) :=
  (engFault_reports _ _ _ _ _ _ _ _ _).still.trans (markTds_still _ _ _)

/-- A read of the parcel's memories marks and reports what it meets, and moves no byte (03 R88; 08 R247). -/
theorem sramRead_still (s : State) (e : EngId) (d : Disturb) (st ac : List (Nat × Nat)) : Still s (s.sramRead e d st ac) := by
  unfold State.sramRead
  exact (((Still.forEach _ _ (fun t w => (parcelEvent_counts t e _ _).still) _).trans
    (.forEach _ _ (fun t w => (parcelEvent_counts t e _ _).still) _)).trans (.forEach _ _ (fun t w => storeDouble_still t e w) _)).trans
    (.forEach _ _ (fun t w => accDouble_still t e w) _)

theorem wroteStore_still (s : State) (e : EngId) (a n : Nat) (p : Bool) : Still s (s.wroteStore e a n p) := by
  unfold State.wroteStore
  dsimp only
  split
  · exact (Still.modEng e _ (by intro _; rfl)).trans (markBlocks_still _ _ _)
  · exact .modEng e _ fun _ => rfl

theorem wroteTd_still (s : State) (e : EngId) (i : Nat) (p : Bool) : Still s (s.wroteTd e i p) := by
  unfold State.wroteTd
  dsimp only
  split
  · exact (Still.modEng e _ (by intro _; rfl)).trans (markTds_still _ _ _)
  · exact .modEng e _ fun _ => rfl

theorem wroteTdWhole_still (s : State) (e : EngId) (i : Nat) (p : Bool) : Still s (s.wroteTdWhole e i p) := by
  unfold State.wroteTdWhole
  dsimp only
  split
  · exact (Still.modEng e _ (by intro _; rfl)).trans (markTds_still _ _ _)
  · exact (Still.modEng e _ (by intro _; rfl)).trans (.modEng e _ (by intro _; rfl))

/-- Range checks report, and note what they reported (03 R116). -/
theorem rangeCheck_still (s : State) (e : EngId) (i : Nat) (op : BitVec 16) : Still s (s.rangeCheck e i op) := by
  unfold State.rangeCheck
  dsimp only
  split
  · exact .refl
  · refine .forEach _ _ (fun t k => ?_) s
    split
    · exact .refl
    · exact (engFault_reports _ _ _ _ _ _ _ _ _).still.trans (.modEng e _ (by intro _; rfl))

theorem noteSat_still {n : Nat} (s : State) (v : BitVec n) (g : Nat) : Still s (s.noteSat v g) := by
  unfold State.noteSat
  split
  · exact .refl
  · exact .of_sheets rfl

theorem poisonMem_sheets (s : State) (i : Nat) (f : MemPath → MemPath) : (s.poisonMem i f).sheets = (s.modMem i f).sheets := by
  unfold State.poisonMem
  dsimp only
  split <;> rfl

theorem poisonMem_still (i : Nat) (f : MemPath → MemPath) (hd : ∀ m, (f m).dram = m.dram) (ha : ∀ m, (f m).adds = m.adds) :
    Still s (s.poisonMem i f) :=
  (Still.modMem i f hd ha).trans (.of_sheets (poisonMem_sheets s i f))

theorem lookPages_still (s : State) (i : Nat) (l : List Nat) (op : BitVec 16) : Still s (s.lookPages i l op) :=
  .forEach _ _ (fun t _ => (sheetFault_reports t i 3 0x106 op _).still.trans (.modMem i _ (by intro _; rfl) (by intro _; rfl))) s

theorem sealFailed_still (s : State) (i : Nat) (k : BitVec 12) (a : Nat) (r : Option Nat) (op : BitVec 16) :
    Still s (s.sealFailed i k a r op) := by
  unfold State.sealFailed
  refine ((sheetFault_reports _ _ _ _ _ _).still.trans (noteSat_still _ _ _)).trans (poisonMem_still i _ (fun m => ?_) fun m => ?_)
  all_goals cases r <;> rfl

theorem modRun_sheets (s : State) (i : Nat) (f : RunState → RunState) : (s.modRun i f).sheets = s.sheets := by
  unfold State.modRun
  split
  · rfl
  · split <;> rfl

theorem noteTensor_sheets (s : State) (i : Nat) (n : BitVec 32) : (s.noteTensor i n).sheets = s.sheets := by
  unfold State.noteTensor
  split
  · rfl
  · split <;> rfl

theorem noteGranule_sheets (s : State) (i g : Nat) : (s.noteGranule i g).sheets = s.sheets := by
  unfold State.noteGranule
  split
  · rfl
  · split <;> rfl

/-! ### Halting -/

theorem engHalt_cells (s : State) (e : EngId) (pc : Nat) (op : BitVec 16) : SheetsKeep Sheet.cells s (s.engHalt e pc op) :=
  (engFault_reports _ _ _ _ _ _ _ _ _).still.cells.trans (cells_modEng _ _ _)

/-- A word that halts its engine moves no byte (03 R91). -/
theorem engHalt_stops (h : SheetsKeep Sheet.cells s t) (e : EngId) (pc : Nat) (op : BitVec 16) :
    ((t.engHalt e pc op).eng e).st = .halt ∧ SameMemories s (t.engHalt e pc op) :=
  ⟨engHalt_halts _ _ _ _, cells_sameMemories (h.trans (engHalt_cells _ _ _ _))⟩

/-! ### A word that starts -/

/-- A word that starts runs on a state in which it has left its queue, and only that has changed. -/
theorem popUop_only (s : State) (e : EngId) (w : Uop) : OnlyEngine e s (s.popUop e w) := onlyEngine_modEng s e _

theorem words_setQueueOf (g : Engine) (n : Nat) (q : List (Nat × Uop)) : (g.setQueueOf n q).words = g.words := by
  unfold Engine.setQueueOf
  split
  · rfl
  · split <;> rfl

theorem popUop_still (s : State) (e : EngId) (w : Uop) : Still s (s.popUop e w) := .modEng e _ fun g => words_setQueueOf g _ _

/-- Apart from one engine's queues, `t` is `s`: the state in which a word of that engine runs. -/
structure Popped (e : EngId) (s t : State) : Prop where
  still : Still s t
  only : OnlyEngine e s t

theorem popUop_popped (s : State) (e : EngId) (w : Uop) : Popped e s (s.popUop e w) := ⟨popUop_still s e w, popUop_only s e w⟩

/-! ### What that word finds -/

theorem OnlyEngine.sheet (h : OnlyEngine e s t) (i : Nat) : { t.sheet i with engines := [] } = { s.sheet i with engines := [] } := by
  by_cases k : i = e.sheet.val
  · subst k; exact h.2.2
  · rw [h.1.2 i k]

section
variable (h : OnlyEngine e s t)
include h

/-- A projection that sees no engine reads as before. -/
theorem OnlyEngine.keeps {β : Type} (π : Sheet → β) (hπ : ∀ x, π { x with engines := [] } = π x) : SheetsKeep π s t := fun i => by
  rw [← hπ, h.sheet i, hπ]

theorem OnlyEngine.outer {β : Type} (π : State → β) (hπ : ∀ x : State, π { x with sheets := [] } = π x) : π t = π s := by
  rw [← hπ t, ← hπ s]
  exact congrArg π h.1.1

theorem OnlyEngine.parts : t.parts = s.parts := h.outer State.parts fun _ => rfl
theorem OnlyEngine.ctxs : t.ctxs = s.ctxs := h.outer State.ctxs fun _ => rfl
theorem OnlyEngine.now : t.now = s.now := h.outer State.now fun _ => rfl
theorem OnlyEngine.mem (i : Nat) : (t.sheet i).mem = (s.sheet i).mem := h.keeps Sheet.mem (fun _ => rfl) i
theorem OnlyEngine.key (i : Nat) : (t.sheet i).key = (s.sheet i).key := h.keeps Sheet.key (fun _ => rfl) i
theorem OnlyEngine.pmap (i : Nat) : (t.sheet i).pmap = (s.sheet i).pmap := h.keeps Sheet.pmap (fun _ => rfl) i
theorem OnlyEngine.parcels (i : Nat) : (t.sheet i).parcels = (s.sheet i).parcels := h.keeps Sheet.parcels (fun _ => rfl) i
theorem OnlyEngine.routeTab (i : Nat) : (t.sheet i).routeTab = (s.sheet i).routeTab := h.keeps Sheet.routeTab (fun _ => rfl) i
theorem OnlyEngine.mode (i : Nat) : (t.sheet i).mode = (s.sheet i).mode := h.keeps Sheet.mode (fun _ => rfl) i
theorem OnlyEngine.collecting (i : Nat) : (t.sheet i).collecting = (s.sheet i).collecting := h.keeps Sheet.collecting (fun _ => rfl) i

theorem OnlyEngine.phys (i l : Nat) : (t.sheet i).phys l = (s.sheet i).phys l := by simp only [Sheet.phys, h.pmap]
theorem OnlyEngine.parcel (i p : Nat) : (t.sheet i).parcel p = (s.sheet i).parcel p := by simp only [Sheet.parcel, h.parcels]
theorem OnlyEngine.pmem (g : EngId) : t.pmem g = s.pmem g := by simp only [State.pmem, h.phys, h.parcel]
theorem OnlyEngine.partOf (i : Nat) : t.partOf i = s.partOf i := by simp only [State.partOf, part_of_parts h.parts]
theorem OnlyEngine.curCtx (i : Nat) : t.curCtx i = s.curCtx i := by
  simp only [State.curCtx, h.partOf, part_of_parts h.parts]
theorem OnlyEngine.stepNo (i : Nat) : t.stepNo i = s.stepNo i := by
  simp only [State.stepNo, h.curCtx, State.drawStep, State.waitingSteps, ctx_of_ctxs h.ctxs, part_of_parts h.parts]
theorem OnlyEngine.roundKey (g : EngId) (b : Bool) (n : BitVec 32) : t.roundKey g b n = s.roundKey g b n := by
  simp only [State.roundKey, State.streamOn, Sheet.findKey, h.key]
theorem OnlyEngine.wordTile (g : EngId) (o : MoveOp) : t.wordTile g o = s.wordTile g o := by
  simp only [State.wordTile, State.tensorAt, State.curPlan, h.partOf, ctx_of_ctxs h.ctxs, part_of_parts h.parts]
theorem OnlyEngine.routeOf (i : Nat) (rt : BitVec 16) : (t.sheet i).routeOf rt = (s.sheet i).routeOf rt := by
  simp only [Sheet.routeOf, h.routeTab]
theorem OnlyEngine.readyNode (i : Nat) : (t.sheet i).readyNode = (s.sheet i).readyNode := by
  simp only [Sheet.readyNode, h.routeTab, h.mode, h.collecting]

end

section
variable (h : Popped e s t)
include h

theorem Popped.missesProg (u : Int) (n : Nat) : Machine.missesProg (t.eng e) u n = Machine.missesProg (s.eng e) u n := by
  have k : (t.eng e).progUnit = (s.eng e).progUnit := congrArg (·.2.2.2.2) (h.still.eng_words e)
  simp only [Machine.missesProg, k]
theorem Popped.destOk (x : RowDest) : t.destOk e x = s.destOk e x := by simp only [State.destOk, h.missesProg]
theorem Popped.aRows (o : MmaOp) : t.aRows e o = s.aRows e o := by simp only [State.aRows, h.only.pmem]
theorem Popped.bOperand (o : MmaOp) : t.bOperand e o = s.bOperand e o := by
  simp only [State.bOperand, h.only.pmem, h.still.bReg, State.readPoison, List.any_nil]
theorem Popped.firstArrival (rt : BitVec 16) : (t.eng e).firstArrival rt = (s.eng e).firstArrival rt := by
  simp only [Engine.firstArrival, h.still.inbox]

end

/-- A word of an engine that starts does what it does in a state where it has left its queue. -/
theorem leads_starts {c : Instr} {w : Uop} {f : State → State} {P : State → Prop} (hs : s.starts e w = true)
    (run : exec c s = .next (s.runUop e w f)) (hp : ∀ t, Popped e s t → P (f t)) : Leads c s P :=
  leads_of (run.trans (congrArg _ (runUop_runs s e w f hs))) (hp _ (popUop_popped s e w))

/-! ### A change of one parcel's memories -/

theorem pmem_of_phys {p : Nat} (h : (s.sheet e.sheet.val).phys e.parcel.val = some p) :
    s.pmem e = (s.sheet e.sheet.val).parcel p := by simp only [State.pmem, h]

/-- In `u` the memories of parcel `p` of sheet `h` hold `m`; every other byte is as in `s`. -/
structure Lands (h p : Nat) (m : Mem × Mem) (s u : State) : Prop where
  dram : ∀ i, (u.sheet i).mem.dram = (s.sheet i).mem.dram
  parcel : ∀ i q, ((u.sheet i).parcel q).cells = if i = h ∧ q = p then m else ((s.sheet i).parcel q).cells

/-- A change behind an engine, and whatever keeps the bytes before it and after it. -/
theorem modPmem_lands {p : Nat} {v : State} (hp : (s.sheet e.sheet.val).phys e.parcel.val = some p) (hs : SheetsKeep Sheet.cells s t)
    {f : ParcelMem → ParcelMem} (hu : SheetsKeep Sheet.cells (t.modPmem e f) v) {m : Mem × Mem}
    (hm : (f ((t.sheet e.sheet.val).parcel p)).cells = m) : Lands e.sheet.val p m s v := by
  refine ⟨fun i => ?_, fun i q => ?_⟩
  · have ground : (i : Nat) → ((t.modPmem e f).sheet i).mem.dram = (t.sheet i).mem.dram := (modPmem_ground t e f).dram
    rw [cells_dram hu, ground, cells_dram hs]
  · rw [cells_parcel hu, parcel_modPmem]
    by_cases k : i = e.sheet.val ∧ q = p
    · obtain ⟨rfl, rfl⟩ := k
      rw [if_pos ⟨rfl, (cells_phys hs _ _).trans hp⟩, if_pos ⟨rfl, rfl⟩, hm]
    · have k' : ¬(i = e.sheet.val ∧ (t.sheet i).phys e.parcel.val = some q) := by
        rintro ⟨rfl, b⟩
        rw [cells_phys hs, hp] at b
        exact k ⟨rfl, (Option.some.inj b).symm⟩
      rw [if_neg k', if_neg k, cells_parcel hs]

theorem Lands.of_cells {h p : Nat} {m : Mem × Mem} (c : SheetsKeep Sheet.cells s t) (k : Lands h p m t u) : Lands h p m s u :=
  ⟨fun i => (k.dram i).trans (cells_dram c i), fun i q => by rw [k.parcel, cells_parcel c]⟩

section
variable {h p : Nat} {m : Mem × Mem} (k : Lands h p m s u)
include k

theorem Lands.sameDram : SameDram s u := fun i a => congrArg (fun m => mget m a) (k.dram i)

theorem Lands.here : ((u.sheet h).parcel p).cells = m := by rw [k.parcel, if_pos ⟨rfl, rfl⟩]
theorem Lands.acc_here : ((u.sheet h).parcel p).acc = m.2 := congrArg Prod.snd k.here

theorem Lands.sameStores (hm : m.1 = ((s.sheet h).parcel p).store) : SameStores s u := fun i q a => by
  have c := congrArg Prod.fst (k.parcel i q)
  by_cases e : i = h ∧ q = p
  · obtain ⟨rfl, rfl⟩ := e
    rw [if_pos ⟨rfl, rfl⟩] at c
    exact congrArg (fun m => mget m a) (c.trans hm)
  · rw [if_neg e] at c
    exact congrArg (fun m => mget m a) c

theorem Lands.sameAccs (hm : m.2 = ((s.sheet h).parcel p).acc) : SameAccs s u := fun i q a => by
  have c := congrArg Prod.snd (k.parcel i q)
  by_cases e : i = h ∧ q = p
  · obtain ⟨rfl, rfl⟩ := e
    rw [if_pos ⟨rfl, rfl⟩] at c
    exact congrArg (fun m => mget m a) (c.trans hm)
  · rw [if_neg e] at c
    exact congrArg (fun m => mget m a) c

theorem Lands.accsBut {a n : Nat} (hm : ∀ b, ¬(a ≤ b ∧ b < a + n) → mget m.2 b = mget ((s.sheet h).parcel p).acc b) :
    AccsBut h p a n s u := fun i q b hb => by
  have c := congrArg Prod.snd (k.parcel i q)
  by_cases e : i = h ∧ q = p
  · obtain ⟨rfl, rfl⟩ := e
    rw [if_pos ⟨rfl, rfl⟩] at c
    exact (congrArg (fun m => mget m b) c).trans (hm b fun x => hb ⟨rfl, rfl, x⟩)
  · rw [if_neg e] at c
    exact congrArg (fun m => mget m b) c

theorem Lands.storesBut {a n : Nat} (hm : ∀ b, ¬(a ≤ b ∧ b < a + n) → mget m.1 b = mget ((s.sheet h).parcel p).store b) :
    StoresBut h p a n s u := fun i q b hb => by
  have c := congrArg Prod.fst (k.parcel i q)
  by_cases e : i = h ∧ q = p
  · obtain ⟨rfl, rfl⟩ := e
    rw [if_pos ⟨rfl, rfl⟩] at c
    exact (congrArg (fun m => mget m b) c).trans (hm b fun x => hb ⟨rfl, rfl, x⟩)
  · rw [if_neg e] at c
    exact congrArg (fun m => mget m b) c

/-- Bytes written into the store. -/
theorem Lands.storeTakes {a : Nat} {l : List Byte} (hm : m.1 = mwrite ((s.sheet h).parcel p).store a l) :
    StoreTakes h p a l.length (fun i => l.getD i 0) s u := fun i q b => by
  have c := congrArg Prod.fst (k.parcel i q)
  by_cases e : i = h ∧ q = p
  · obtain ⟨rfl, rfl⟩ := e
    rw [if_pos ⟨rfl, rfl⟩] at c
    have byte : u.storeAt i q b = mget (mwrite ((s.sheet i).parcel q).store a l) b := congrArg (fun m => mget m b) (c.trans hm)
    rw [byte, mget_mwrite]
    simp only [true_and]
    rfl
  · rw [if_neg e] at c
    rw [if_neg fun x => e ⟨x.1, x.2.1⟩]
    exact congrArg (fun m => mget m b) c

end

end Sys2Proof.Machine
end

section
/-! O20: the verdict of an arithmetic check (03 R112, R113; 13 R367, R368). -/

namespace Sys2Proof.Machine

/-- SOURCE of a unit of a parcel: its level and its sheet (13 R367). -/
theorem sourceId_level {l h p u : Nat} (hl : l < 8) (hh : h < 16) (hp : p < 32) (hu : u < 16) :
    srcLevel (sourceId l h p u) = l ∧ srcSheet (sourceId l h p u) = h := by
  have v : (sourceId l h p u).toNat = l * 2 ^ 13 + h * 2 ^ 9 + p * 2 ^ 4 + u := by
    rw [sourceId, BitVec.toNat_ofNat, Nat.mod_eq_of_lt (by omega)]
  constructor
  · rw [srcLevel, v, bits, Nat.shiftRight_eq_div_pow]; omega
  · rw [srcSheet, v, bits, Nat.shiftRight_eq_div_pow]; omega

theorem noteStepFault_sheets (s : State) (i : Nat) (p : Option Nat) (k : BitVec 12) (src : BitVec 16) (a : Word) :
    (s.noteStepFault i p k src a).sheets = s.sheets := by
  unfold State.noteStepFault
  split <;> rfl

/-- A fault of an engine's parcel is one message on the sheet's path to its collector. -/
theorem engFault_raises (s : State) (e : EngId) {l n : Nat} (k : BitVec 12) (op : BitVec 16) (a : Word) (hl : l ≤ 4) (hn : n < 16)
    (hk : k.toNat / 0x100 ≠ 6) (hp : ∀ p, (s.sheet e.sheet.val).phys e.parcel.val = some p → p < 18) :
    Raises e.sheet.val k a s (s.engFault e l n k op a) := by
  have phys : ((s.sheet e.sheet.val).phys e.parcel.val).getD 0x1F < 32 := by
    cases h : (s.sheet e.sheet.val).phys e.parcel.val with
    | none => decide
    | some p => exact (hp p h).trans (by decide)
  obtain ⟨level, sheet⟩ := sourceId_level (l := l) (by omega) e.sheet.isLt phys hn
  obtain ⟨m, t, counts, sheets, kind, address⟩ := sendFault_wire s
    { source := sourceId l e.sheet.val (((s.sheet e.sheet.val).phys e.parcel.val).getD 0x1F) n, kind := k
      ctx := s.curCtx e.sheet.val, op := op, address := a } (by rw [level]; exact hl) hk
  refine ⟨m, ?_, kind, address⟩
  have sent := counts.sheetWire e.sheet.val
  have same : t.sheet e.sheet.val = s.sheet e.sheet.val := by simp only [State.sheet, sheets]
  rw [sheet, sheet_modSheet_same, same] at sent
  unfold State.engFault
  dsimp only
  split
  · rw [State.sheet, noteStepFault_sheets]
    exact sent
  · exact sent

/-- The oldest verdict leaves the queue of verdicts. -/
def State.takeVerdict (s : State) (e : EngId) (rest : List Verdict) : State :=
  (s.modEng e fun g => { g with verdicts := rest }).parcelEvent e { cls := 6, code := 0x01 }

theorem takeVerdict_counts (s : State) (e : EngId) (rest : List Verdict) :
    Counts (s.modEng e fun g => { g with verdicts := rest }) (s.takeVerdict e rest) := parcelEvent_counts _ _ _ _

theorem takeVerdict_verdicts (s : State) (e : EngId) (rest : List Verdict) : ((s.takeVerdict e rest).eng e).verdicts = rest := by
  rw [(takeVerdict_counts s e rest).engine, eng_modEng_same]

theorem takeVerdict_cells (s : State) (e : EngId) (rest : List Verdict) : SheetsKeep Sheet.cells s (s.takeVerdict e rest) :=
  (cells_modEng _ _ _).trans (takeVerdict_counts s e rest).still.cells

theorem takeVerdict_wire (s : State) (e : EngId) (rest : List Verdict) (i : Nat) :
    ((s.takeVerdict e rest).sheet i).wire = (s.sheet i).wire := by
  rw [(takeVerdict_counts s e rest).sheetWire]
  exact SheetsKeep.modEng (π := Sheet.wire) e _ (fun _ _ => rfl) i

variable {s : State} {e : EngId} {v : Verdict} {rest : List Verdict}

theorem doVerdict_clean (h : (s.eng e).verdicts = v :: rest) (hv : v.bad = none) : s.doVerdict e = s.takeVerdict e rest := by
  simp only [State.doVerdict, h, hv]
  rfl

theorem doVerdict_mismatch {r c : Nat} (h : (s.eng e).verdicts = v :: rest) (hv : v.bad = some (r, c)) :
    s.doVerdict e = (s.takeVerdict e rest).engFault e 2 1 0x201 (opEngine 2 1) (checkAddr v.td v.kblk r c) := by
  simp only [State.doVerdict, h, hv]
  rfl

end Sys2Proof.Machine

open Sys2Proof Sys2Proof.Machine

/-- Settles O20: the verdict leaves its queue, and a mismatch is one message on the sheet's wire. -/
theorem verdictRaisesMismatch : Obligations.VerdictRaisesMismatch := by
  intro e s v rest hv hp
  have run : exec (.arithmeticCheckVerdict e) s = .next (s.doVerdict e) := rfl
  have cells := takeVerdict_cells s e rest
  refine ⟨fun hb => leads_of run ?_, fun r c hb => leads_of run ?_⟩
  · rw [doVerdict_clean hv hb]
    exact ⟨takeVerdict_verdicts s e rest, takeVerdict_wire s e rest _, (takeVerdict_counts s e rest).parts, cells_sameDram cells,
      cells_sameStores cells, cells_sameAccs cells⟩
  · rw [doVerdict_mismatch hv hb]
    have reports := engFault_reports (s.takeVerdict e rest) e 2 1 0x201 (opEngine 2 1) (checkAddr v.td v.kblk r c) false 0
    have all := cells.trans reports.still.cells
    obtain ⟨m, wire, kind, address⟩ := engFault_raises (s.takeVerdict e rest) e (l := 2) (n := 1) 0x201 (opEngine 2 1)
      (checkAddr v.td v.kblk r c) (by decide) (by decide) (by decide) (fun p h => hp p ((cells_phys cells _ _).symm.trans h))
    rw [takeVerdict_wire] at wire
    exact ⟨by rw [reports.engine, takeVerdict_verdicts], cells_sameDram all, cells_sameStores all, cells_sameAccs all, m, wire, kind,
      address⟩
end

section
/-! SUPPORT. Elements of tiles in accumulator memory (03 R85, R86), and walks that write them one after another. -/

namespace Sys2Proof.Machine

variable {t : TileDesc} {i j k l : Nat}

/-! ### Places -/

theorem elemBytes_cases (t : TileDesc) : t.elemBytes = 4 ∧ t.f32 = true ∨ t.elemBytes = 8 ∧ t.f32 = false := by
  unfold TileDesc.elemBytes
  cases t.f32
  · exact .inr ⟨rfl, rfl⟩
  · exact .inl ⟨rfl, rfl⟩

/-- An accumulator row holds 128 elements. -/
theorem elemAddr_eq (t : TileDesc) (i j : Nat) : t.elemAddr i j = 1024 * t.base.toNat + t.elemBytes * (128 * i + j) := by
  rcases elemBytes_cases t with ⟨e, f⟩ | ⟨e, f⟩
  · rw [TileDesc.elemAddr, f, if_pos rfl, e]; omega
  · rw [TileDesc.elemAddr, f, if_neg Bool.false_ne_true, e]; omega

/-- An element of a valid row lies in its descriptor's rows. -/
theorem elemAddr_inside (hi : i < t.vrows.toNat) (hj : j < 128) :
    t.accRange.1 ≤ t.elemAddr i j ∧ t.elemAddr i j + t.elemBytes ≤ t.accRange.1 + t.accRange.2 := by
  rw [elemAddr_eq]
  rcases elemBytes_cases t with ⟨e, f⟩ | ⟨e, f⟩
  · simp only [TileDesc.accRange, TileDesc.rowSpan, f, e, if_true]; omega
  · simp only [TileDesc.accRange, TileDesc.rowSpan, f, e, Bool.false_eq_true, if_false]; omega

/-- Two elements share no byte. -/
theorem elemAddr_disjoint (hj : j < 128) (hl : l < 128) (h : (i, j) ≠ (k, l)) :
    t.elemAddr i j + t.elemBytes ≤ t.elemAddr k l ∨ t.elemAddr k l + t.elemBytes ≤ t.elemAddr i j := by
  have places : 128 * i + j ≠ 128 * k + l := fun e => h (by rw [Prod.mk.injEq]; omega)
  rw [elemAddr_eq, elemAddr_eq]
  rcases elemBytes_cases t with ⟨e, -⟩ | ⟨e, -⟩ <;> rw [e] <;> omega

/-! ### One write -/

theorem accElem_putAccElem_same (m : Mem) (t : TileDesc) (i j c : Nat) :
    accElem (putAccElem m t i j c) t i j = c % 2 ^ (8 * t.elemBytes) := by
  have read := mread_mwrite (leBytes t.elemBytes c) m (t.elemAddr i j)
  rw [leBytes_length] at read
  rw [accElem, putAccElem, read, leNat_leBytes, show (256 : Nat) = 2 ^ 8 from rfl, ← pow_mul]

theorem accElem_putAccElem_ne (m : Mem) (c : Nat) (hj : j < 128) (hl : l < 128) (h : (i, j) ≠ (k, l)) :
    accElem (putAccElem m t i j c) t k l = accElem m t k l := by
  rw [accElem, putAccElem, mread_mwrite_out _ _ _ _ _ (by rw [leBytes_length]; exact (elemAddr_disjoint hj hl h).symm), accElem]

theorem putAccElem_outside (m : Mem) (c : Nat) (hi : i < t.vrows.toNat) (hj : j < 128) {b : Nat}
    (hb : ¬(t.accRange.1 ≤ b ∧ b < t.accRange.1 + t.accRange.2)) : mget (putAccElem m t i j c) b = mget m b := by
  obtain ⟨lo, hi⟩ := elemAddr_inside hi hj
  exact mget_mwrite_out _ _ _ _ (by rw [leBytes_length]; omega)

/-! ### Walks that write elements -/

/-- Each step `f` of a walk writes the element at its place, from what stood there. -/
structure WritesElems {R X : Type} (t : TileDesc) (acc : R → Mem) (place : X → Nat × Nat) (val : Nat → X → Nat) (f : R → X → R) : Prop where
  step : ∀ r x, acc (f r x) = putAccElem (acc r) t (place x).1 (place x).2 (val (accElem (acc r) t (place x).1 (place x).2) x)

section
variable {R X : Type} {acc : R → Mem} {place : X → Nat × Nat} {val : Nat → X → Nat} {f : R → X → R}
  (w : WritesElems t acc place val f)
include w

/-- A walk over elements of the valid rows leaves the bytes outside them. -/
theorem WritesElems.outside {b : Nat} (hb : ¬(t.accRange.1 ≤ b ∧ b < t.accRange.1 + t.accRange.2)) (l : List X) :
    ∀ r, (∀ x ∈ l, (place x).1 < t.vrows.toNat ∧ (place x).2 < 128) → mget (acc (l.foldl f r)) b = mget (acc r) b := by
  induction l with
  | nil => intro r _; rfl
  | cons x l ih =>
    intro r hl
    obtain ⟨hi, hj⟩ := hl x List.mem_cons_self
    rw [List.foldl_cons, ih _ fun y hy => hl y (List.mem_cons_of_mem _ hy), w.step, putAccElem_outside _ _ hi hj hb]

/-- An element that a walk does not visit stands as before. -/
theorem WritesElems.unvisited {q : Nat × Nat} (hq : q.2 < 128) (l : List X) :
    ∀ r, (∀ x ∈ l, (place x).2 < 128) → q ∉ l.map place → accElem (acc (l.foldl f r)) t q.1 q.2 = accElem (acc r) t q.1 q.2 := by
  induction l with
  | nil => intro r _ _; rfl
  | cons x l ih =>
    intro r hl hn
    rw [List.map_cons, List.mem_cons, not_or] at hn
    rw [List.foldl_cons, ih _ (fun y hy => hl y (List.mem_cons_of_mem _ hy)) hn.2, w.step,
      accElem_putAccElem_ne _ _ (hl x List.mem_cons_self) hq fun e => hn.1 e.symm]

/-- A walk over distinct elements makes of each what its one step makes of it. -/
theorem WritesElems.visited {x : X} (l : List X) :
    ∀ r, (l.map place).Nodup → (∀ y ∈ l, (place y).2 < 128) → x ∈ l →
      accElem (acc (l.foldl f r)) t (place x).1 (place x).2 =
        val (accElem (acc r) t (place x).1 (place x).2) x % 2 ^ (8 * t.elemBytes) := by
  induction l with
  | nil => intro r _ _ hx; cases hx
  | cons y l ih =>
    intro r hn hl hx
    rw [List.map_cons, List.nodup_cons] at hn
    have rest : ∀ z ∈ l, (place z).2 < 128 := fun z hz => hl z (List.mem_cons_of_mem _ hz)
    rcases List.mem_cons.1 hx with rfl | hx
    · rw [List.foldl_cons, w.unvisited (hl x hx) l _ rest hn.1, w.step, accElem_putAccElem_same]
    · have apart : place y ≠ place x := fun e => hn.1 (e ▸ List.mem_map_of_mem hx)
      rw [List.foldl_cons, ih _ hn.2 rest hx, w.step,
        accElem_putAccElem_ne _ _ (hl y List.mem_cons_self) (rest x hx) apart]

end

/-- A walk within a walk is one walk over pairs. -/
theorem foldl_foldl_range {R : Type} (f : R → Nat → Nat → R) (n m : Nat) (r : R) :
    (List.range n).foldl (fun r i => (List.range m).foldl (fun r j => f r i j) r) r =
      ((List.range n).flatMap fun i => (List.range m).map fun j => (i, j)).foldl (fun r p => f r p.1 p.2) r := by
  rw [List.foldl_flatMap]
  simp only [List.foldl_map]

/-- The places of a block of rows and columns. -/
def places (n m : Nat) : List (Nat × Nat) := (List.range n).flatMap fun i => (List.range m).map fun j => (i, j)

theorem mem_places {n m : Nat} {p : Nat × Nat} : p ∈ places n m ↔ p.1 < n ∧ p.2 < m := by
  obtain ⟨a, b⟩ := p
  simp [places]

theorem places_nodup (n m : Nat) : (places n m).Nodup := by
  refine List.nodup_flatMap.2 ⟨fun i _ => List.nodup_range.map fun a b e => (Prod.mk.inj e).2, ?_⟩
  refine List.nodup_range.pairwise_of_forall_ne fun a _ b _ hne => ?_
  simp only [Function.onFun, List.disjoint_left, List.mem_map, not_exists, not_and]
  rintro _ ⟨x, -, rfl⟩ y - e
  exact hne (Prod.mk.inj e).1.symm

theorem used_cols (h : t.used = true) : t.vcols.toNat ≤ 128 := by
  simp only [TileDesc.used, decide_eq_true_eq] at h
  exact h.2.2.2

theorem used_rows (h : t.used = true) : t.vrows.toNat ≤ 128 := by
  simp only [TileDesc.used, decide_eq_true_eq] at h
  exact h.2.1

end Sys2Proof.Machine
end

section
/-! O14: the words that copy on the die (03 R96). -/

namespace Sys2Proof.Machine

variable {s t u : State} {e : EngId} {o : MoveOp} {p : Nat}

theorem retally_cells (s : State) (e : EngId) (i : Nat) : SheetsKeep Sheet.cells s (s.retally e i) := cells_modEng _ _ _

/-- PS_TO_ACC puts a tile's bytes into its descriptor's rows. -/
theorem doPsToAcc_lands (hp : (s.sheet e.sheet.val).phys e.parcel.val = some p)
    (h : inStore o.ps (tileElemBytes ((s.eng e).td o.td.val).fmt) = true) :
    let r := ((s.eng e).td o.td.val).accRange
    let m := (s.sheet e.sheet.val).parcel p
    Lands e.sheet.val p (m.store, mwrite (mzero m.acc r.1 r.2) r.1 (mread m.store (unitByte o.ps) r.2)) s (s.doPsToAcc e o {}) := by
  simp only [State.doPsToAcc, h, Bool.not_true, Bool.false_eq_true, if_false, sramRead_none]
  exact modPmem_lands hp .refl (((wroteTdWhole_still _ _ _ _).cells.trans (retally_cells _ _ _)).trans (rangeCheck_still _ _ _ _).cells) rfl

/-- ACC_TO_PS puts a descriptor's rows into the store. -/
theorem doAccToPs_lands (hp : (s.sheet e.sheet.val).phys e.parcel.val = some p)
    (h : inStore o.ps (tileElemBytes ((s.eng e).td o.td.val).fmt) = true)
    (hm : missesProg (s.eng e) o.ps (tileElemBytes ((s.eng e).td o.td.val).fmt) = true) :
    let m := (s.sheet e.sheet.val).parcel p
    Lands e.sheet.val p (mwrite m.store (unitByte o.ps) (tdBytes m.acc ((s.eng e).td o.td.val)), m.acc) s (s.doAccToPs e o {}) := by
  simp only [State.doAccToPs, h, hm, Bool.not_true, Bool.or_self, Bool.false_eq_true, if_false, sramRead_none]
  exact modPmem_lands hp .refl (wroteStore_still _ _ _ _ _).cells rfl

/-- TABLE_LOAD changes a table slot and no byte. -/
theorem doTableLoad_modPmem (h : inStore o.ps tableBytes = true) : ∃ poison : List Nat → List Nat, s.doTableLoad e o {} = s.modPmem e fun m =>
    { m with fnTables := tset {} m.fnTables (o.td.val % 8) (readTable m.store (unitByte o.ps)), fnPoison := poison m.fnPoison } := by
  simp only [State.doTableLoad, h, Bool.not_true, Bool.false_eq_true, if_false, sramRead_none]
  exact ⟨fun l => if s.readPoison e [(unitByte o.ps, tableBytes)] [] then sinsert l (o.td.val % 8) else sremove l (o.td.val % 8), rfl⟩

theorem mget_copied (m : Mem) (l : List Byte) {a i : Nat} (h : i < l.length) : mget (mwrite m a l) (a + i) = l.getD i 0 := by
  rw [mget_mwrite, if_pos (by omega), Nat.add_sub_cancel_left]

end Sys2Proof.Machine

open Sys2Proof Sys2Proof.Machine

/-- Settles O14: each word is one change of its parcel's memories. -/
theorem moverCopiesOnDie : Obligations.MoverCopiesOnDie := by
  intro e o s p hp
  have phys {t : State} (k : Popped e s t) := (k.only.phys e.sheet.val e.parcel.val).trans hp
  refine ⟨fun hs h => leads_starts hs rfl fun t k => ?_, fun hs h hm => leads_starts hs rfl fun t k => ?_,
    fun hs h => leads_starts hs rfl fun t k => ?_⟩
  · have lands := doPsToAcc_lands (o := o) (phys k) (by rw [k.still.td]; exact h)
    simp only [k.only.parcel, k.still.td] at lands
    have lands := lands.of_cells k.still.cells
    refine ⟨fun i hi => ?_, lands.accsBut fun b hb => ?_, lands.sameStores rfl, lands.sameDram⟩
    · have read := mread_getD ((s.sheet e.sheet.val).parcel p).store ((s.eng e).td o.td.val).accRange.2 (unitByte o.ps) i hi
      rw [State.accAt, lands.acc_here, mget_copied _ _ (by rw [mread_length]; exact hi), read]
      rfl
    · rw [mget_mwrite_out _ _ _ _ (by rw [mread_length]; omega), mget_mzero, if_neg hb]
  · have lands := doAccToPs_lands (o := o) (phys k) (by rw [k.still.td]; exact h) (by rw [k.still.td, k.missesProg]; exact hm)
    simp only [k.only.parcel, k.still.td] at lands
    have lands := lands.of_cells k.still.cells
    rw [← pmem_of_phys hp] at lands
    exact ⟨lands.storeTakes (by rw [pmem_of_phys hp]), lands.sameAccs (by rw [pmem_of_phys hp]), lands.sameDram⟩
  · obtain ⟨poison, run⟩ := doTableLoad_modPmem (s := t) (e := e) h
    have still : Still t (t.doTableLoad e o {}) := by rw [run]; exact .modPmem e _ fun _ => rfl
    have cells := (k.still.trans still).cells
    refine ⟨fun n => ?_, cells_sameStores cells, cells_sameAccs cells, cells_sameDram cells⟩
    rw [run, parcel_modPmem, if_pos ⟨rfl, phys k⟩, k.only.parcel, pmem_of_phys hp]
    exact tget_tset _ _ _ _ _
end

section
/-! SUPPORT. The memory path: what a tile read and a tile write do to DRAM and to records (08 R241 to R246). -/

namespace Sys2Proof.Machine

variable {s t u v : State} {e : EngId} {p : Nat}

/-! ### What physics did -/

/-- The memory path after what physics did to it. -/
def MemPath.upset (m : MemPath) (d : Disturb) : MemPath :=
  { m with dram := mflip m.dram d.dram, recs := mflip m.recs d.seals, attrB := d.attrB.foldl (fun t p => tset 0 t p.1 p.2) m.attrB }

theorem upset_counts (s : State) (h : Nat) (d : Disturb) : Counts (s.modMem h fun m => m.upset d) (s.upset h d) :=
  forEach_counts _ _ (fun t _ => sheetEvent_counts t h _) _

theorem sheet_modMem (s : State) (h i : Nat) (f : MemPath → MemPath) :
    (s.modMem h f).sheet i = if i = h then { s.sheet h with mem := f (s.sheet h).mem } else s.sheet i := sheet_modSheet _ _ _ _

theorem upset_mem (s : State) (h i : Nat) (d : Disturb) :
    ((s.upset h d).sheet i).mem = if i = h then (s.sheet h).mem.upset d else (s.sheet i).mem := by
  rw [(upset_counts s h d).reports.mem, sheet_modMem]
  split <;> rfl

/-- A projection that sees neither counters, nor messages, nor the memory path. -/
theorem upset_keeps {β : Type} {π : Sheet → β} (hπ : Unreported π) (hm : ∀ x m, π { x with mem := m } = π x) (s : State) (h : Nat)
    (d : Disturb) : SheetsKeep π s (s.upset h d) :=
  (SheetsKeep.modSheet h _ fun x => hm x _).trans ((upset_counts s h d).sheetsKeep hπ)

theorem upset_none_mem (s : State) (h i : Nat) : ((s.upset h {}).sheet i).mem = (s.sheet i).mem := by
  rw [upset_mem]
  split
  · next e => rw [e]; rfl
  · rfl

/-- An upset of a sheet's stack as seen from outside it. -/
theorem upset_words (s : State) (h : Nat) (d : Disturb) : SheetsKeep Sheet.words s (s.upset h d) :=
  upset_keeps (fun _ _ _ _ => rfl) (fun _ _ => rfl) s h d

theorem upset_pmap (s : State) (h : Nat) (d : Disturb) : SheetsKeep Sheet.pmap s (s.upset h d) :=
  upset_keeps (fun _ _ _ _ => rfl) (fun _ _ => rfl) s h d

theorem upset_parcels (s : State) (h : Nat) (d : Disturb) : SheetsKeep Sheet.parcels s (s.upset h d) :=
  upset_keeps (fun _ _ _ _ => rfl) (fun _ _ => rfl) s h d

theorem upset_none_still (s : State) (h : Nat) : Still s (s.upset h {}) := by
  refine ⟨fun i => ?_, upset_words s h {}⟩
  simp only [Sheet.cells, upset_none_mem, upset_pmap s h {} i, Sheet.parcel, upset_parcels s h {} i]

/-! ### Reading a tile -/

/-- What a read of a tile finds once physics has done what it did. -/
structure ReadsTile (x : Tensor) (l : TileLoc) (n : Nat) (f : Option (BitVec 4 × Bool)) (s : State) (r : State × TileRead) : Prop where
  still : Still s r.1
  bytes : r.2.bytes = mread (s.sheet l.sheet).mem.dram l.addr (tileBytes x.fmt x.mx)
  record : x.isSealed = true → r.2.record = (s.sheet l.sheet).mem.record l.sealIx
  poison : x.isSealed = true → checkTile ((s.sheet l.sheet).mem.record l.sealIx)
    (mread (s.sheet l.sheet).mem.dram l.addr (tileBytes x.fmt x.mx)) { tensor := x.number.toNat, tile := n, fmt := f } ≠ none →
    r.2.poison = true

theorem readTile_reads (s : State) (x : Tensor) (l : TileLoc) (n : Nat) (f : Option (BitVec 4 × Bool)) (op : BitVec 16) (d : Disturb) :
    ReadsTile x l n f (s.upset l.sheet d) (s.readTile x l n f op d) := by
  unfold State.readTile
  dsimp only
  generalize s.upset l.sheet d = s
  have looked : Still s ((s.lookPages l.sheet (pagesOf l.addr (tileBytes x.fmt x.mx)) op).sheetEvent l.sheet
      { cls := 3, code := 0x10, inc := (tileBytes x.fmt x.mx + 63) / 64, addr := some (dramDevAddr l.sheet l.addr) }) :=
    (lookPages_still _ _ _ _).trans (sheetEvent_counts _ _ _).still
  split
  case isFalse raw => exact ⟨looked, rfl, fun h => absurd h raw, fun h => absurd h raw⟩
  case isTrue sealed =>
    have checked := looked.trans (sheetEvent_counts _ l.sheet { cls := 3, code := 0x14, addr := some (dramDevAddr l.sheet l.addr) }).still
    split
    · refine ⟨?_, rfl, fun _ => rfl, fun _ _ => rfl⟩
      dsimp only
      exact checked.trans (sealFailed_still _ _ _ _ _ _)
    · next ok => exact ⟨checked, rfl, fun _ => rfl, fun _ bad => absurd ok bad⟩

/-- A read that notes what it reads. -/
theorem noteRead_sheets (s : State) (i : Nat) (x : Tensor) : (s.noteRead i x).sheets = s.sheets := modRun_sheets _ _ _

/-! ### States that physics upsets alike -/

theorem Still.upset (k : Still s t) (h : Nat) (d : Disturb) : Still (s.upset h d) (t.upset h d) := by
  refine ⟨fun i => ?_, fun i => ?_⟩
  · have dram : ((t.upset h d).sheet i).mem.dram = ((s.upset h d).sheet i).mem.dram := by
      rw [upset_mem, upset_mem]
      split
      · exact congrArg (mflip · d.dram) (cells_dram k.cells h)
      · exact cells_dram k.cells i
    have adds : ((t.upset h d).sheet i).mem.adds = ((s.upset h d).sheet i).mem.adds := by
      rw [upset_mem, upset_mem]
      split
      · exact cells_adds k.cells h
      · exact cells_adds k.cells i
    have pmap : (t.sheet i).pmap = (s.sheet i).pmap := congrArg Prod.fst (k.cells i)
    have parcels : (fun q => ((t.sheet i).parcel q).cells) = fun q => ((s.sheet i).parcel q).cells := funext (cells_parcel k.cells i)
    simp only [Sheet.parcel] at parcels
    simp only [Sheet.cells, Sheet.parcel, dram, adds, upset_pmap _ h d i, upset_parcels _ h d i, pmap, parcels]
  · rw [upset_words t, upset_words s, k.words]

theorem upset_sameMem (k : SheetsKeep Sheet.mem s t) (h : Nat) (d : Disturb) : SheetsKeep Sheet.mem (s.upset h d) (t.upset h d) := by
  intro i
  rw [upset_mem, upset_mem, k h, k i]

/-- Physics upsets no parcel. -/
theorem upset_parcel (s : State) (h : Nat) (d : Disturb) (i q : Nat) : ((s.upset h d).sheet i).parcel q = (s.sheet i).parcel q := by
  simp only [Sheet.parcel, upset_parcels s h d i]

theorem upset_phys (s : State) (h : Nat) (d : Disturb) (i q : Nat) : ((s.upset h d).sheet i).phys q = (s.sheet i).phys q := by
  simp only [Sheet.phys, upset_pmap s h d i]

/-! ### Writing bytes of DRAM -/

/-- In `u` the bytes at address `a` of a sheet are those written; every other byte, and the adds on their way, are as in `s`. -/
structure PutsDram (h a : Nat) (bytes : List Byte) (s u : State) : Prop where
  dram : ∀ i, (u.sheet i).mem.dram = if i = h then mwrite (s.sheet h).mem.dram a bytes else (s.sheet i).mem.dram
  adds : ∀ i, (u.sheet i).mem.adds = (s.sheet i).mem.adds
  parcel : ∀ i q, ((u.sheet i).parcel q).cells = ((s.sheet i).parcel q).cells

section
variable {h a : Nat} {bytes : List Byte}

theorem modMem_puts {f : MemPath → MemPath} (hd : ∀ m, (f m).dram = mwrite m.dram a bytes) (ha : ∀ m, (f m).adds = m.adds) :
    PutsDram h a bytes s (s.modMem h f) := by
  refine ⟨fun i => ?_, fun i => ?_, fun i q => ?_⟩
  all_goals
    rw [sheet_modMem]
    split
  · exact hd _
  · rfl
  · next e => rw [e]; exact ha _
  · rfl
  · next e => rw [e]; rfl
  · rfl

theorem PutsDram.before (c : SheetsKeep Sheet.cells s t) (k : PutsDram h a bytes t u) : PutsDram h a bytes s u :=
  ⟨fun i => by rw [k.dram, cells_dram c, cells_dram c], fun i => by rw [k.adds, cells_adds c], fun i q => by rw [k.parcel, cells_parcel c]⟩

theorem PutsDram.after (k : PutsDram h a bytes s t) (c : SheetsKeep Sheet.cells t u) : PutsDram h a bytes s u :=
  ⟨fun i => by rw [cells_dram c, k.dram], fun i => by rw [cells_adds c, k.adds], fun i q => by rw [cells_parcel c, k.parcel]⟩

theorem PutsDram.takes (k : PutsDram h a bytes s u) : DramTakes h a bytes.length (fun i => bytes.getD i 0) s u := fun i b => by
  have c := congrArg (fun m => mget m b) (k.dram i)
  by_cases e : i = h
  · subst e
    rw [if_pos rfl] at c
    simp only [mget_mwrite] at c
    simp only [true_and]
    exact c
  · rw [if_neg e] at c
    rw [if_neg fun x => e x.1]
    exact c

theorem PutsDram.stores (k : PutsDram h a bytes s u) : SameStores s u := fun i q b =>
  congrArg (fun c : Mem × Mem => mget c.1 b) (k.parcel i q)
theorem PutsDram.accs (k : PutsDram h a bytes s u) : SameAccs s u := fun i q b =>
  congrArg (fun c : Mem × Mem => mget c.2 b) (k.parcel i q)

end

theorem keepHash_cells (m : MemPath) (x : Tensor) (i : Nat) (r b : List Byte) :
    (m.keepHash x i r b).dram = m.dram ∧ (m.keepHash x i r b).adds = m.adds ∧ (m.keepHash x i r b).recs = m.recs := by
  unfold MemPath.keepHash
  split <;> exact ⟨rfl, rfl, rfl⟩

/-- A write of a sealed tile and its record. -/
def MemPath.putTile (m : MemPath) (x : Tensor) (l : TileLoc) (r bytes : List Byte) : MemPath :=
  ({ m with dram := mwrite m.dram l.addr bytes }.putRecord l.sealIx r).keepHash x l.sealIx r bytes

theorem putTile_puts (s : State) (x : Tensor) (l : TileLoc) (r bytes : List Byte) :
    PutsDram l.sheet l.addr bytes s (s.modMem l.sheet fun m => m.putTile x l r bytes) :=
  modMem_puts (fun _ => (keepHash_cells _ _ _ _ _).1) fun _ => (keepHash_cells _ _ _ _ _).2.1

theorem putTile_record (m : MemPath) (x : Tensor) (l : TileLoc) {r : List Byte} (bytes : List Byte) (hr : r.length = 32) :
    (m.putTile x l r bytes).record l.sealIx = r := by
  have read := mread_mwrite r m.recs (32 * l.sealIx)
  rw [hr] at read
  rw [MemPath.record, MemPath.putTile, (keepHash_cells _ _ _ _ _).2.2]
  exact read

theorem storeRaw_puts (s : State) (h a : Nat) (bytes : List Byte) (p one : Bool) (lo hi : Nat) (op : BitVec 16) :
    PutsDram h a bytes s (s.storeRaw h a bytes p one lo hi op) := by
  have wrote (t : State) : PutsDram h a bytes t (t.modMem h fun m => { m with dram := mwrite m.dram a bytes }) :=
    modMem_puts (fun _ => rfl) fun _ => rfl
  unfold State.storeRaw
  dsimp only
  refine ((wrote _).before (lookPages_still _ _ _ _).cells).after (.forEach _ _ (fun t g => ?_))
  have setAttr (v : BitVec 2) : Still t (t.poisonMem h fun m => m.setAttr g v) := poisonMem_still h _ (fun _ => rfl) fun _ => rfl
  split
  · exact .refl
  · split
    · exact (setAttr 2).cells
    · split
      · exact (Still.modMem h _ (by intro _; rfl) (by intro _; rfl)).cells
      · exact .refl

theorem writeRaw_puts (s : State) (h a : Nat) (bytes : List Byte) (p one : Bool) (lo hi : Nat) (op : BitVec 16) :
    PutsDram h a bytes s (s.writeRaw h a bytes p one lo hi op) :=
  (storeRaw_puts _ h a bytes p one lo hi op).before
    (.forEach _ _ fun t _ => .of_sheets (noteGranule_sheets t h _))

/-- A sealed tile is written whole with a record of its header (08 R244). -/
theorem writeTile_sealed (s : State) (x : Tensor) (l : TileLoc) (header bytes : List Byte) (p : Bool) (op : BitVec 16) (d : Disturb)
    (sealed : x.isSealed = true) : ∃ poison t, SheetsKeep Sheet.cells (s.upset l.sheet d) t ∧
      (s.writeTile x l header bytes p op d).sheets =
        (t.modMem l.sheet fun m => m.putTile x l (mkRecord header poison (sealOf header bytes)) bytes).sheets := by
  unfold State.writeTile
  generalize s.upset l.sheet d = s
  dsimp only
  rw [if_pos sealed, noteGranule_sheets, poisonMem_sheets]
  exact ⟨_, _, ((sheetEvent_counts _ _ _).still.cells.trans (.of_sheets (noteTensor_sheets _ _ _))).trans
    (lookPages_still _ _ _ _).cells, rfl⟩

/-- A tile written whole (08 R244). -/
theorem writeTile_puts (s : State) (x : Tensor) (l : TileLoc) (header bytes : List Byte) (p : Bool) (op : BitVec 16) (d : Disturb) :
    PutsDram l.sheet l.addr bytes (s.upset l.sheet d) (s.writeTile x l header bytes p op d) := by
  by_cases sealed : x.isSealed = true
  · obtain ⟨poison, t, kept, wrote⟩ := writeTile_sealed s x l header bytes p op d sealed
    exact ((putTile_puts t x l _ bytes).before kept).after (.of_sheets wrote)
  · unfold State.writeTile
    generalize s.upset l.sheet d = s
    dsimp only
    rw [if_neg sealed]
    exact (writeRaw_puts _ _ _ _ _ _ _ _ _).before
      ((sheetEvent_counts _ _ _).still.cells.trans (.of_sheets (noteTensor_sheets _ _ _)))

theorem mkRecord_length {h : List Byte} (p : Bool) (v : Nat) (hl : h.length = 24) : (mkRecord h p v).length = 32 := by
  simp [mkRecord, leBytes_length, hl]

theorem mkHeader_length (n i bw sat fl : Nat) (f : BitVec 4) (mx : Bool) (vr vc : Nat) (e : Int) :
    (mkHeader n i bw sat fl f mx vr vc e).length = 24 := by
  simp [mkHeader, leBytes_length]

theorem writeTile_record (s : State) (x : Tensor) (l : TileLoc) {header : List Byte} (bytes : List Byte) (p : Bool) (op : BitVec 16)
    (d : Disturb) (hl : header.length = 24) (sealed : x.isSealed = true) :
    ∃ poison, ((s.writeTile x l header bytes p op d).sheet l.sheet).mem.record l.sealIx = mkRecord header poison (sealOf header bytes) := by
  obtain ⟨poison, t, -, wrote⟩ := writeTile_sealed s x l header bytes p op d sealed
  refine ⟨poison, ?_⟩
  rw [State.sheet, wrote, ← State.sheet, sheet_modMem, if_pos rfl]
  exact putTile_record _ x l bytes (mkRecord_length _ _ hl)

end Sys2Proof.Machine
end

section
/-! O12: tiles that move between DRAM and the die (03 R90, R96; 08 R244, R245). -/

namespace Sys2Proof.Machine

variable {s t u : State} {e : EngId} {o : MoveOp} {p : Nat}

theorem mem_sinsert {b c : Nat} (l : List Nat) : b ∈ sinsert l c ↔ b = c ∨ b ∈ l := by
  induction l with
  | nil => simp [sinsert]
  | cons y l ih =>
    unfold sinsert
    split
    · rw [List.mem_cons]
    · split
      · next e => simp [e]
      · rw [List.mem_cons, ih, List.mem_cons, or_left_comm]

theorem mem_foldl_sinsert {b : Nat} (l : List Nat) : ∀ m : List Nat, b ∈ l.foldl sinsert m ↔ b ∈ l ∨ b ∈ m := by
  induction l with
  | nil => intro m; simp
  | cons c l ih => intro m; rw [List.foldl_cons, ih, mem_sinsert, List.mem_cons, or_left_comm, or_assoc]

theorem modPmem_phys (s : State) (e : EngId) (f : ParcelMem → ParcelMem) (i l : Nat) :
    ((s.modPmem e f).sheet i).phys l = (s.sheet i).phys l := by
  have pmap : SheetsKeep Sheet.pmap s (s.modPmem e f) := .modSheet _ _ fun x => by split <;> rfl
  simp only [Sheet.phys, pmap i]

/-- A change behind an engine that is a change `g` of its parcel's bytes. -/
theorem modPmem_lands_on {v : State} (hp : (s.sheet e.sheet.val).phys e.parcel.val = some p) (hs : SheetsKeep Sheet.cells s t)
    {f : ParcelMem → ParcelMem} (hu : SheetsKeep Sheet.cells (t.modPmem e f) v) {g : Mem × Mem → Mem × Mem}
    (hg : ∀ m, (f m).cells = g m.cells) : Lands e.sheet.val p (g ((s.sheet e.sheet.val).parcel p).cells) s v :=
  modPmem_lands hp hs hu ((hg _).trans (congrArg g (cells_parcel hs _ _)))

/-- A poisoned write marks every block of the store that it touches (08 R247). -/
theorem wroteStore_poisons (hp : (s.sheet e.sheet.val).phys e.parcel.val = some p) (a n : Nat) :
    ∀ b ∈ storeBlocks a n, b ∈ (((s.wroteStore e a n true).sheet e.sheet.val).parcel p).blkPoison := by
  intro b hb
  unfold State.wroteStore State.markBlocks
  dsimp only
  rw [if_pos rfl, parcel_modPmem, if_pos ⟨rfl, (cells_phys (cells_modEng _ _ _) _ _).trans hp⟩]
  exact (mem_foldl_sinsert _ _).2 (.inl hb)

/-- TILE_LOAD puts the bytes that its read finds into the store, poisoned where the read is. -/
theorem doTileLoad_lands {x : Tensor} {l : TileLoc} {d : Disturb} (hp : (s.sheet e.sheet.val).phys e.parcel.val = some p)
    (ht : s.wordTile e o = some (x, l)) (hi : inStore o.ps (tileBytes o.fmt o.mx) = true)
    (hm : missesProg (s.eng e) o.ps (tileBytes o.fmt o.mx) = true) :
    let m := (s.sheet e.sheet.val).parcel p
    let r := ((s.noteRead e.sheet.val x).readTile x l o.tileIdx.toNat (some (o.fmt, o.mx)) (opEngine 1 1) d).2
    Lands e.sheet.val p (mwrite m.store (unitByte o.ps) (r.bytes.take (tileBytes o.fmt o.mx)), m.acc) (s.upset l.sheet d)
        (s.doTileLoad e o d) ∧
      (r.poison = true → ∀ b ∈ storeBlocks (unitByte o.ps) (tileBytes o.fmt o.mx),
        b ∈ (((s.doTileLoad e o d).sheet e.sheet.val).parcel p).blkPoison) := by
  have reads := readTile_reads (s.noteRead e.sheet.val x) x l o.tileIdx.toNat (some (o.fmt, o.mx)) (opEngine 1 1) d
  simp only [State.doTileLoad, ht, hi, hm, Bool.not_true, Bool.or_self, Bool.false_eq_true, if_false]
  generalize (s.noteRead e.sheet.val x).readTile x l o.tileIdx.toNat (some (o.fmt, o.mx)) (opEngine 1 1) d = r at reads ⊢
  have still := (Still.of_sheets (noteRead_sheets s e.sheet.val x)).upset l.sheet d |>.trans reads.still
  have phys := (upset_phys s l.sheet d e.sheet.val e.parcel.val).trans hp
  have counted := still.trans
    (parcelEvent_counts r.1 e
      { cls := 3, code := 0x01, inc := (r.2.bytes.length + 63) / 64, addr := some (dramDevAddr l.sheet l.addr) } none).still
  constructor
  · have lands := modPmem_lands_on phys counted.cells (wroteStore_still _ e (unitByte o.ps) (tileBytes o.fmt o.mx) r.2.poison).cells
      (f := fun m => { m with store := mwrite m.store (unitByte o.ps) (r.2.bytes.take (tileBytes o.fmt o.mx)) }.putShape o.ps.toNat
        { vrows := recRows r.2.record, vcols := recCols r.2.record, fmt := o.fmt, mx := o.mx, wexp := recExp r.2.record })
      (g := fun c => (mwrite c.1 (unitByte o.ps) (r.2.bytes.take (tileBytes o.fmt o.mx)), c.2)) fun _ => rfl
    rw [upset_parcel] at lands
    exact lands
  · intro poison
    rw [poison]
    refine wroteStore_poisons ?_ _ _
    rw [modPmem_phys, cells_phys counted.cells, phys]

/-- What a store of a descriptor's tile leaves: the bytes in DRAM and, for a sealed tensor, their record. -/
def Stores (x : Tensor) (l : TileLoc) (header bytes : List Byte) (s u : State) : Prop :=
  PutsDram l.sheet l.addr bytes s u ∧
    (x.isSealed = true → ∃ poison, (u.sheet l.sheet).mem.record l.sealIx = mkRecord header poison (sealOf header bytes))

theorem Stores.before {x : Tensor} {l : TileLoc} {header bytes : List Byte} (c : SheetsKeep Sheet.cells s t)
    (k : Stores x l header bytes t u) : Stores x l header bytes s u := ⟨k.1.before c, k.2⟩

theorem tdHeader_length (d : TileDesc) (n : BitVec 32) (i : Nat) (f : BitVec 4) (mx : Bool) : (tdHeader d n i f mx).length = 24 :=
  mkHeader_length _ _ _ _ _ _ _ _ _ _

theorem writeTile_stores (h : Still s t) (x : Tensor) (l : TileLoc) {header : List Byte} (hl : header.length = 24) (bytes : List Byte)
    (p : Bool) (op : BitVec 16) (d : Disturb) :
    Stores x l header bytes (s.upset l.sheet d) (t.writeTile x l header bytes p op d) :=
  ⟨(writeTile_puts _ _ _ _ _ _ _ _).before (h.upset _ _).cells, writeTile_record _ _ _ _ _ _ _ hl⟩

theorem doTileStore_stores {x : Tensor} {l : TileLoc} (d : Disturb) (ht : s.wordTile e o = some (x, l))
    (hi : inStore o.ps (tileBytes o.fmt o.mx) = true) (hf : x.fmt = o.fmt) (hx : x.mx = o.mx) :
    Stores x l (tdHeader ((s.eng e).td o.td.val) x.number o.tileIdx.toNat o.fmt o.mx)
      (mread (s.pmem e).store (unitByte o.ps) (tileBytes o.fmt o.mx)) (s.upset l.sheet d) (s.doTileStore e o d) := by
  have read := sramRead_still s e d [(unitByte o.ps, tileBytes o.fmt o.mx)] []
  have bytes := congrArg (fun c : Mem × Mem => mread c.1 (unitByte o.ps) (tileBytes o.fmt o.mx)) (cells_pmem read.cells e)
  simp only [State.doTileStore, ht, hi, hf, hx, bne_self_eq_false, Bool.not_true, Bool.or_self, Bool.false_eq_true, if_false]
  dsimp only [ParcelMem.cells] at bytes
  rw [read.td, bytes]
  exact writeTile_stores (read.trans (parcelEvent_counts _ _ _ _).still) x l (tdHeader_length _ _ _ _ _) _ _ _ _

theorem doAccStore_stores {x : Tensor} {l : TileLoc} (d : Disturb) (ht : s.wordTile e o = some (x, l))
    (hf : x.fmt = ((s.eng e).td o.td.val).fmt) (hx : x.mx = false) :
    Stores x l (tdHeader ((s.eng e).td o.td.val) x.number o.tileIdx.toNat ((s.eng e).td o.td.val).fmt false)
      (tdBytes (s.pmem e).acc ((s.eng e).td o.td.val)) (s.upset l.sheet d) (s.doAccStore e o d) := by
  have read := sramRead_still s e d [] [((s.eng e).td o.td.val).accRange]
  have bytes := congrArg (fun c : Mem × Mem => tdBytes c.2 ((s.eng e).td o.td.val)) (cells_pmem read.cells e)
  simp only [State.doAccStore, ht, hf, hx, bne_self_eq_false, Bool.or_self, Bool.false_eq_true, if_false]
  dsimp only [ParcelMem.cells] at bytes
  rw [bytes]
  exact writeTile_stores (read.trans (parcelEvent_counts _ _ _ _).still) x l (tdHeader_length _ _ _ _ _) _ _ _ _

/-- Parcel stores read before and after an upset of DRAM alike. -/
theorem StoreTakes.of_upset {h : Nat} {d : Disturb} {i q a n : Nat} {f : Nat → Byte} (k : StoreTakes i q a n f (s.upset h d) u) :
    StoreTakes i q a n f s u := fun j r b => by
  have same : (s.upset h d).storeAt j r b = s.storeAt j r b := by rw [State.storeAt, upset_parcel]; rfl
  rw [← same]
  exact k j r b

theorem StoreTakes.congr {h q a n m : Nat} {f g : Nat → Byte} (k : StoreTakes h q a n f s u) (hn : n = m)
    (hf : ∀ i, i < m → f i = g i) : StoreTakes h q a m g s u := fun j r b => by
  subst hn
  rw [k j r b]
  split
  · next inside => exact hf _ (by omega)
  · rfl

theorem mread_take_getD (m : Mem) (a : Nat) {i n k : Nat} (h : i < min n k) : ((mread m a k).take n).getD i 0 = mget m (a + i) := by
  rw [List.getD_eq_getElem?_getD, List.getElem?_take_of_lt (by omega), ← List.getD_eq_getElem?_getD, mread_getD _ _ _ _ (by omega)]

theorem upset_sameStores (h : Nat) (d : Disturb) (k : SameStores (s.upset h d) u) : SameStores s u := fun i q b =>
  (k i q b).trans (by rw [State.storeAt, upset_parcel]; rfl)
theorem upset_sameAccs (h : Nat) (d : Disturb) (k : SameAccs (s.upset h d) u) : SameAccs s u := fun i q b =>
  (k i q b).trans (by rw [State.accAt, upset_parcel]; rfl)

/-- TILE_LOAD halts its engine where it has no tile, or no place in the store. -/
theorem doTileLoad_refused (h : s.wordTile e o = none ∨ inStore o.ps (tileBytes o.fmt o.mx) = false ∨
    missesProg (s.eng e) o.ps (tileBytes o.fmt o.mx) = false) (d : Disturb) :
    s.doTileLoad e o d = s.engHalt e o.pc (opEngine 1 1) := by
  unfold State.doTileLoad
  cases k : s.wordTile e o with
  | none => rfl
  | some x =>
    obtain ⟨x, l⟩ := x
    rcases h with h | h | h
    · rw [k] at h; cases h
    all_goals simp [h]

theorem doTileStore_refused {x : Tensor} {l : TileLoc} (ht : s.wordTile e o = some (x, l))
    (h : inStore o.ps (tileBytes o.fmt o.mx) = false ∨ x.fmt ≠ o.fmt ∨ x.mx ≠ o.mx) (d : Disturb) :
    s.doTileStore e o d = s.engHalt e o.pc (opEngine 1 2) := by
  simp only [State.doTileStore, ht]
  rcases h with h | h | h <;> simp [h]

theorem doAccStore_refused {x : Tensor} {l : TileLoc} (ht : s.wordTile e o = some (x, l))
    (h : x.fmt ≠ ((s.eng e).td o.td.val).fmt ∨ x.mx = true) (d : Disturb) :
    s.doAccStore e o d = s.engHalt e o.pc (opEngine 1 3) := by
  simp only [State.doAccStore, ht]
  rcases h with h | h <;> simp [h]

end Sys2Proof.Machine

open Sys2Proof Sys2Proof.Machine

/-- Settles O12: a load is one write of the store, a store one write of DRAM, whatever physics did to the cells before it. -/
theorem tilesMoveBetweenDramAndStore : Obligations.TilesMoveBetweenDramAndStore := by
  refine ⟨fun e o d s p hs hp => ⟨fun x l ht hi hm => leads_starts hs rfl fun t k => ?_,
    fun h => leads_starts hs rfl fun t k => ?_⟩, fun e o d s x l hp ht => ⟨fun hs => ⟨fun hi hf hx => leads_starts hs rfl fun t k => ?_,
    fun h => leads_starts hs rfl fun t k => ?_⟩, fun hs => ⟨fun hf hx => leads_starts hs rfl fun t k => ?_,
    fun h => leads_starts hs rfl fun t k => ?_⟩⟩⟩
  · obtain ⟨lands, poisons⟩ := doTileLoad_lands (d := d) ((k.only.phys _ _).trans hp) ((k.only.wordTile _ _).trans ht) hi
      ((k.missesProg _ _).trans hm)
    have reads := readTile_reads (t.noteRead e.sheet.val x) x l o.tileIdx.toNat (some (o.fmt, o.mx)) (opEngine 1 1) d
    have mem := upset_sameMem (fun i => (k.only.mem i).trans rfl) l.sheet d |>.trans
      (upset_sameMem (SheetsKeep.of_sheets (noteRead_sheets t e.sheet.val x)) l.sheet d)
    have m := mem l.sheet
    have lands := lands.of_cells (k.still.upset l.sheet d).cells
    rw [reads.bytes, m, k.only.parcel] at lands
    have takes := lands.storeTakes (by rw [upset_parcel])
    refine ⟨takes.of_upset.congr (by rw [List.length_take, mread_length]) fun i hi => mread_take_getD _ _ hi,
      upset_sameAccs _ _ (lands.sameAccs (by rw [upset_parcel])), lands.sameDram, fun sealed bad => poisons (reads.poison sealed ?_)⟩
    rw [m]
    exact bad
  · rw [doTileLoad_refused (by rwa [k.only.wordTile, k.missesProg])]
    obtain ⟨stopped, dram, stores, accs⟩ := engHalt_stops k.still.cells e o.pc (opEngine 1 1)
    exact ⟨stopped, stores, accs, dram⟩
  · have stored := (doTileStore_stores d ((k.only.wordTile _ _).trans ht) hi hf hx).before (k.still.upset l.sheet d).cells
    rw [k.still.td, k.only.pmem] at stored
    exact ⟨stored.1.takes, upset_sameStores _ _ stored.1.stores, upset_sameAccs _ _ stored.1.accs, stored.2⟩
  · rw [doTileStore_refused ((k.only.wordTile _ _).trans ht) h]
    obtain ⟨stopped, dram, -⟩ := engHalt_stops k.still.cells e o.pc (opEngine 1 2)
    exact ⟨stopped, dram⟩
  · have stored := (doAccStore_stores d ((k.only.wordTile _ _).trans ht) (hf.trans (by rw [k.still.td])) hx).before
      (k.still.upset l.sheet d).cells
    rw [k.still.td, k.only.pmem] at stored
    exact ⟨stored.1.takes, upset_sameStores _ _ stored.1.stores, upset_sameAccs _ _ stored.1.accs, stored.2⟩
  · rw [doAccStore_refused ((k.only.wordTile _ _).trans ht) (by rwa [k.still.td])]
    obtain ⟨stopped, dram, -⟩ := engHalt_stops k.still.cells e o.pc (opEngine 1 3)
    exact ⟨stopped, dram⟩
end

section
/-! O13: ACC_LOAD (03 R90; 02 R61). -/

namespace Sys2Proof.Machine

variable {s t u : State} {e : EngId} {o : MoveOp} {p : Nat}

/-! ### Tiles placed in a descriptor's rows -/

theorem putTd_walk (m : Mem) (d : TileDesc) (src : Mem) (vr vc : Nat) :
    putTd m d src vr vc = (places (min vr d.vrows.toNat) (min vc d.vcols.toNat)).foldl
      (fun m q => putAccElem m d q.1 q.2 (storeElem src 0 d.fmt q.1 q.2)) (mzero m d.accRange.1 d.accRange.2) :=
  foldl_foldl_range (fun m i j => putAccElem m d i j (storeElem src 0 d.fmt i j)) _ _ _

theorem putTd_writes (d : TileDesc) (src : Mem) : WritesElems d id id (fun _ q => storeElem src 0 d.fmt q.1 q.2)
    fun m q => putAccElem m d q.1 q.2 (storeElem src 0 d.fmt q.1 q.2) := ⟨fun _ _ => rfl⟩

theorem mget_mzero_outside {d : TileDesc} (m : Mem) {b : Nat} (hb : ¬(d.accRange.1 ≤ b ∧ b < d.accRange.1 + d.accRange.2)) :
    mget (mzero m d.accRange.1 d.accRange.2) b = mget m b := by rw [mget_mzero, if_neg hb]

/-- An element inside both valid shapes is the incoming tile's (03 R90). -/
theorem putTd_elem {d : TileDesc} (hu : d.used = true) (m src : Mem) {vr vc i j : Nat} (hi : i < min vr d.vrows.toNat)
    (hj : j < min vc d.vcols.toNat) : accElem (putTd m d src vr vc) d i j = storeElem src 0 d.fmt i j % 2 ^ (8 * d.elemBytes) := by
  have cols := used_cols hu
  rw [putTd_walk]
  refine (putTd_writes d src).visited (x := (i, j)) _ _ ?_ (fun q hq => ?_) (mem_places.2 ⟨hi, hj⟩)
  · rw [List.map_id]
    exact places_nodup _ _
  · have := (mem_places.1 hq).2
    simp only [id_eq]
    omega

theorem putTd_outside {d : TileDesc} (hu : d.used = true) (m src : Mem) (vr vc : Nat) {b : Nat}
    (hb : ¬(d.accRange.1 ≤ b ∧ b < d.accRange.1 + d.accRange.2)) : mget (putTd m d src vr vc) b = mget m b := by
  have cols := used_cols hu
  rw [putTd_walk]
  refine ((putTd_writes d src).outside hb _ _ fun q hq => ?_).trans (mget_mzero_outside m hb)
  have := mem_places.1 hq
  simp only [id_eq]
  omega

/-! ### Bytes and their descriptor -/

/-- A change of a parcel's bytes and of one descriptor, and whatever keeps both before and after it. -/
theorem modTd_lands {v : State} {i : Nat} {k : TileDesc → TileDesc} (hp : (s.sheet e.sheet.val).phys e.parcel.val = some p)
    (hs : Still s t) {f : ParcelMem → ParcelMem} (hv : Still ((t.modPmem e f).modEng e fun x => x.modTd i k) v)
    (g : Mem × Mem → Mem × Mem) (hg : ∀ m, (f m).cells = g m.cells)
    {d : TileDesc} (hd : k ((s.eng e).td i) = d) :
    Lands e.sheet.val p (g ((s.sheet e.sheet.val).parcel p).cells) s v ∧ (v.eng e).td i = d := by
  refine ⟨modPmem_lands_on hp hs.cells ((cells_modEng _ _ _).trans hv.cells) hg, ?_⟩
  rw [hv.td, eng_modEng_same, td_modTd, if_pos rfl, ← hd, ← hs.td]
  exact congrArg (fun w : Table TileDesc => k (tget {} w i)) (congrArg Prod.fst (congrFun (congrArg Prod.snd
    (words_modPmem t e f e.sheet.val)) e.parcel.val))

theorem pmem_modPmem (hp : (s.sheet e.sheet.val).phys e.parcel.val = some p) (f : ParcelMem → ParcelMem) :
    (s.modPmem e f).pmem e = f (s.pmem e) := by
  rw [pmem_of_phys ((modPmem_phys s e f _ _).trans hp), pmem_of_phys hp, parcel_modPmem, if_pos ⟨rfl, hp⟩]

/-- What a read of a sealed tile finds where physics did nothing. -/
theorem readTile_found (s : State) (i : Nat) (x : Tensor) (l : TileLoc) (n : Nat) (f : Option (BitVec 4 × Bool)) (op : BitVec 16)
    (sealed : x.isSealed = true) :
    let r := (s.noteRead i x).readTile x l n f op {}
    Still s r.1 ∧ r.2.bytes = mread (s.sheet l.sheet).mem.dram l.addr (tileBytes x.fmt x.mx) ∧
      r.2.record = (s.sheet l.sheet).mem.record l.sealIx := by
  have reads := readTile_reads (s.noteRead i x) x l n f op {}
  have noted : Still s (s.noteRead i x) := .of_sheets (noteRead_sheets s i x)
  have mem : (((s.noteRead i x).upset l.sheet {}).sheet l.sheet).mem = (s.sheet l.sheet).mem := by
    rw [upset_none_mem, State.sheet, noteRead_sheets, State.sheet]
  exact ⟨(noted.trans (upset_none_still _ _)).trans reads.still, by rw [reads.bytes, mem], by rw [reads.record sealed, mem]⟩

/-! ### Re-windowing -/

/-- The elements that a re-windowed tile keeps are those inside both valid shapes. -/
theorem rewindowTile_places (k : Nat × Nat) (n : Nat) (rm : RoundMode) (d : TileDesc) (src : Mem) (e0 : Int) (vr vc : Nat) :
    (rewindowTile k n rm d src e0 vr vc).1.map (fun x => (x.1, x.2.1)) = places (min vr d.vrows.toNat) (min vc d.vcols.toNat) := by
  have walk (ps : List (Nat × Nat)) (g : List (Nat × Nat × Nat) × NFlags × Nat → Nat × Nat → List (Nat × Nat × Nat) × NFlags × Nat)
      (hg : ∀ a q, (g a q).1.map (fun x => (x.1, x.2.1)) = a.1.map (fun x => (x.1, x.2.1)) ++ [q]) :
      ∀ a, (ps.foldl g a).1.map (fun x => (x.1, x.2.1)) = a.1.map (fun x => (x.1, x.2.1)) ++ ps := by
    induction ps with
    | nil => intro a; simp
    | cons q ps ih => intro a; rw [List.foldl_cons, ih, hg, List.append_assoc, List.singleton_append]
  unfold rewindowTile
  rw [walk _ _ (fun a q => by simp)]
  rfl

/-- Rows cleared, and the elements listed written into them. -/
def putElems (d : TileDesc) (els : List (Nat × Nat × Nat)) (m : Mem) : Mem :=
  els.foldl (fun a y => putAccElem a d y.1 y.2.1 y.2.2) (mzero m d.accRange.1 d.accRange.2)

theorem putElems_writes (d : TileDesc) : WritesElems d id (fun x : Nat × Nat × Nat => (x.1, x.2.1)) (fun _ x => x.2.2)
    fun m x => putAccElem m d x.1 x.2.1 x.2.2 := ⟨fun _ _ => rfl⟩

theorem satCount_lt (m : Mem) (d : TileDesc) : satCount m d < 2 ^ 16 := by
  have := Nat.min_le_left 65535 (d.elems.filter fun q => codeIsSat d.f32 (accElem m d q.1 q.2)).length
  unfold satCount
  omega

/-- Flags joined to others stay set. -/
theorem getLsbD_ofNat_or {w a b n : Nat} (h : (BitVec.ofNat w a).getLsbD n = true) : (BitVec.ofNat w (a ||| b)).getLsbD n = true := by
  simp only [BitVec.getLsbD_ofNat, Nat.testBit_or, Bool.and_eq_true, Bool.or_eq_true] at h ⊢
  exact ⟨h.1, .inl h.2⟩

/-! ### ACC_LOAD -/

/-- What ACC_LOAD leaves where the header's exponent is the descriptor's. -/
theorem doAccLoad_copies {x : Tensor} {l : TileLoc} (hp : (s.sheet e.sheet.val).phys e.parcel.val = some p)
    (ht : s.wordTile e o = some (x, l)) (sealed : x.isSealed = true) {r : List Byte}
    (hr : (s.sheet l.sheet).mem.record l.sealIx = r)
    (same : ((s.eng e).td o.td.val).f32 = true ∨ recExp r = ((s.eng e).td o.td.val).wexp) :
    let d := (s.eng e).td o.td.val
    let m := (s.sheet e.sheet.val).parcel p
    Lands e.sheet.val p (m.store, putTd m.acc d (bytesMem (mread (s.sheet l.sheet).mem.dram l.addr (tileBytes x.fmt x.mx)))
        (recRows r) (recCols r)) s (s.doAccLoad e o {}) ∧
      ((s.doAccLoad e o {}).eng e).td o.td.val = { d with
        nflags := BitVec.ofNat 5 (recFlags r), bwcnt := BitVec.ofNat 32 (recBw r), satcnt := BitVec.ofNat 16 (recSat r) } := by
  obtain ⟨still, bytes, record⟩ := readTile_found s e.sheet.val x l o.tileIdx.toNat (some (((s.eng e).td o.td.val).fmt, false))
    (opEngine 1 4) sealed
  simp only [State.doAccLoad, ht]
  generalize (s.noteRead e.sheet.val x).readTile x l o.tileIdx.toNat (some (((s.eng e).td o.td.val).fmt, false)) (opEngine 1 4) {} = a
    at still bytes record ⊢
  obtain ⟨a, b, c, q⟩ := a
  dsimp only at still bytes record ⊢
  subst bytes record hr
  rw [if_pos (by simpa using same)]
  exact modTd_lands hp (still.trans (parcelEvent_counts _ _ _ _).still)
    ((wroteTdWhole_still _ _ _ _).trans (rangeCheck_still _ _ _ _)) (fun c => (c.1, putTd c.2 _ _ _ _)) (fun _ => rfl) rfl

/-- What ACC_LOAD leaves where the exponents differ: the re-windowed elements in the descriptor's rows. -/
theorem doAccLoad_rewindows {x : Tensor} {l : TileLoc} (hp : (s.sheet e.sheet.val).phys e.parcel.val = some p)
    (ht : s.wordTile e o = some (x, l)) (sealed : x.isSealed = true) {r : List Byte} {k : Nat × Nat}
    (hr : (s.sheet l.sheet).mem.record l.sealIx = r) (hf : ((s.eng e).td o.td.val).f32 = false)
    (he : recExp r ≠ ((s.eng e).td o.td.val).wexp) (hk : s.roundKey e (o.rm == 0) ((s.eng e).td o.td.val).tensor = some k) :
    let d := (s.eng e).td o.td.val
    let m := (s.sheet e.sheet.val).parcel p
    ∃ (els : List (Nat × Nat × Nat)) (fl : NFlags) (bw : BitVec 32),
      els.map (fun y => (y.1, y.2.1)) = places (min (recRows r) d.vrows.toNat) (min (recCols r) d.vcols.toNat) ∧
      let acc := putElems d els m.acc
      Lands e.sheet.val p (m.store, acc) s (s.doAccLoad e o {}) ∧
      ((s.doAccLoad e o {}).eng e).td o.td.val = { d with
        nflags := BitVec.ofNat 5 (recFlags r ||| fl), bwcnt := bw, satcnt := BitVec.ofNat 16 (satCount acc d) } := by
  obtain ⟨still, bytes, record⟩ := readTile_found s e.sheet.val x l o.tileIdx.toNat (some (((s.eng e).td o.td.val).fmt, false))
    (opEngine 1 4) sealed
  simp only [State.doAccLoad, ht]
  generalize (s.noteRead e.sheet.val x).readTile x l o.tileIdx.toNat (some (((s.eng e).td o.td.val).fmt, false)) (opEngine 1 4) {} = a
    at still bytes record ⊢
  obtain ⟨a, b, c, q⟩ := a
  dsimp only at still bytes record ⊢
  subst bytes record hr
  have counted (ev : CntEvent) : Still s (a.parcelEvent e ev) := still.trans (parcelEvent_counts _ _ _ _).still
  rw [if_neg (by simp [hf, he]), (counted _).roundKey, hk]
  dsimp only
  generalize event : a.parcelEvent e _ = t
  have counted : Still s t := event ▸ counted _
  have inside := rewindowTile_places k (t.stepNo e.sheet.val) o.rm ((s.eng e).td o.td.val)
    (bytesMem (mread (s.sheet l.sheet).mem.dram l.addr (tileBytes x.fmt x.mx))) (recExp ((s.sheet l.sheet).mem.record l.sealIx))
    (recRows ((s.sheet l.sheet).mem.record l.sealIx)) (recCols ((s.sheet l.sheet).mem.record l.sealIx))
  generalize rewindowTile k (t.stepNo e.sheet.val) o.rm ((s.eng e).td o.td.val)
    (bytesMem (mread (s.sheet l.sheet).mem.dram l.addr (tileBytes x.fmt x.mx))) (recExp ((s.sheet l.sheet).mem.record l.sealIx))
    (recRows ((s.sheet l.sheet).mem.record l.sealIx)) (recCols ((s.sheet l.sheet).mem.record l.sealIx)) = w at inside ⊢
  obtain ⟨els, fl, bw⟩ := w
  refine ⟨els, fl, stopAdd 32 (recBw ((s.sheet l.sheet).mem.record l.sealIx)) bw, inside, ?_⟩
  have acc : (t.pmem e).acc = ((s.sheet e.sheet.val).parcel p).acc := by
    rw [← pmem_of_phys hp]
    exact congrArg Prod.snd (cells_pmem counted.cells e)
  rw [pmem_modPmem ((cells_phys counted.cells _ _).trans hp)]
  dsimp only
  rw [acc]
  exact modTd_lands (f := fun m => { m with acc := putElems ((s.eng e).td o.td.val) els m.acc }) hp counted
    ((wroteTdWhole_still _ _ _ _).trans (rangeCheck_still _ _ _ _)) (fun c => (c.1, putElems _ els c.2)) (fun _ => rfl) rfl

end Sys2Proof.Machine

open Sys2Proof Sys2Proof.Machine

/-- Settles O13: the tile's elements fill the descriptor's rows, and the header or the elements themselves give its flags and counts. -/
theorem accLoadTakesTile : Obligations.AccLoadTakesTile := by
  intro e o s x l p hs hp ht sealed used
  refine ⟨fun same => leads_starts hs rfl fun t k => ?_, fun key hf he hk => leads_starts hs rfl fun t k => ?_⟩
  · obtain ⟨lands, td⟩ := doAccLoad_copies ((k.only.phys _ _).trans hp) ((k.only.wordTile _ _).trans ht) sealed
      (by rw [k.only.mem]) (by rwa [k.still.td])
    simp only [k.only.parcel, k.only.mem, k.still.td] at lands td
    have lands := lands.of_cells k.still.cells
    refine ⟨⟨lands.accsBut fun b hb => putTd_outside used _ _ _ _ hb, lands.sameStores rfl, lands.sameDram⟩, fun i j hi hj => ?_, ?_⟩
    · rw [lands.acc_here]
      exact putTd_elem used _ _ hi hj
    · rw [td]
      exact ⟨rfl, rfl, rfl⟩
  · obtain ⟨els, fl, bw, inside, lands, td⟩ := doAccLoad_rewindows ((k.only.phys _ _).trans hp) ((k.only.wordTile _ _).trans ht) sealed
      (by rw [k.only.mem]) (by rwa [k.still.td]) (by rwa [k.still.td]) (by rwa [k.still.td, k.only.roundKey])
    simp only [k.only.parcel, k.still.td] at inside lands td
    have lands := lands.of_cells k.still.cells
    have cols := used_cols used
    refine ⟨⟨lands.accsBut fun b hb => ?_, lands.sameStores rfl, lands.sameDram⟩, ?_⟩
    · refine ((putElems_writes _).outside hb _ _ fun y hy => ?_).trans (mget_mzero_outside _ hb)
      have place := mem_places.1 (inside ▸ List.mem_map_of_mem (f := fun y : Nat × Nat × Nat => (y.1, y.2.1)) hy)
      dsimp only at place ⊢
      omega
    · rw [td, lands.acc_here]
      refine ⟨fun b hb => getLsbD_ofNat_or hb, ?_⟩
      exact (BitVec.toNat_ofNat _ _).trans (Nat.mod_eq_of_lt (satCount_lt _ _))
end

section
/-! O16: combine-at-memory (03 R117, R118; 08 R233, R252). -/

namespace Sys2Proof.Machine

variable {s t u : State} {e : EngId} {o : MoveOp} {p : Nat}

/-! ### A tile in A64 lies in every slice -/

/-- Every slice occurs among 126 blocks of 512 bytes in a row. -/
theorem exists_sliceOf (a : Nat) {c : Nat} (hc : c < 64) : ∃ i, i ≤ 126 ∧ sliceOf (a + 512 * i) = c := by
  set k := (a / 512 + 63) / 64 with hk
  set r := c ^^^ ((k ^^^ k / 64) % 64) with hr
  have small : r < 2 ^ 6 := Nat.xor_lt_two_pow (by omega) (by omega)
  refine ⟨64 * k + r - a / 512, by omega, ?_⟩
  have block : (a + 512 * (64 * k + r - a / 512)) / 512 = 64 * k + r := by omega
  have row : (64 * k + r) / 64 = k := by omega
  have slice : sliceOf (a + 512 * (64 * k + r - a / 512)) = ((64 * k + r) ^^^ k ^^^ k / 64) % 2 ^ 6 := by
    rw [sliceOf, Nat.shiftRight_eq_div_pow, Nat.shiftRight_eq_div_pow, Nat.shiftRight_eq_div_pow,
      show 2 ^ 15 = 2 ^ 9 * 64 from rfl, show 2 ^ 21 = 2 ^ 9 * 64 * 64 from rfl, ← Nat.div_div_eq_div_mul, ← Nat.div_div_eq_div_mul,
      ← Nat.div_div_eq_div_mul, show 2 ^ 9 = 512 from rfl, block, row]
    rfl
  rw [slice, Nat.xor_assoc, Nat.xor_mod_two_pow, show (64 * k + r) % 2 ^ 6 = r by omega, hr, Nat.xor_assoc]
  simp

/-- Where any transfer waits for a slice, a transfer of 131,072 bytes waits for one (08 R253). -/
theorem stalls_of_stalls {h a n b : Nat} (k : s.stalls h a n = true) : s.stalls h b 131072 = true := by
  simp only [State.stalls, Bool.and_eq_true, Bool.not_eq_true', List.any_eq_true, List.contains_iff_mem] at k ⊢
  obtain ⟨stalled, i, -, hi⟩ := k
  obtain ⟨j, hj, slice⟩ := exists_sliceOf b (c := sliceOf (a + 512 * i)) (Nat.mod_lt _ (by decide))
  exact ⟨stalled, j, List.mem_range.2 (by omega), slice ▸ hi⟩

/-! ### Which add comes next -/

theorem before_false_iff (a b : AddReq) : a.before b = false ↔ b.time < a.time ∨ b.time = a.time ∧ b.port ≤ a.port := by
  simp only [AddReq.before, Bool.or_eq_false_iff, Bool.and_eq_false_iff, decide_eq_false_iff_not, beq_eq_false_iff_ne]
  omega

theorem nextAdd_eq_none {l : List AddReq} (h : nextAdd l = none) : l = [] := by
  cases l with
  | nil => rfl
  | cons c l =>
    rw [nextAdd] at h
    split at h
    · cases h
    · split at h <;> cases h

/-- The next add is a least one (03 R118). -/
theorem nextAdd_least {l : List AddReq} : ∀ {a : AddReq}, nextAdd l = some a → ∀ b ∈ l, b.before a = false := by
  induction l with
  | nil => intro a h; cases h
  | cons c l ih =>
    intro a h
    have self : c.before c = false := (before_false_iff _ _).2 (.inr ⟨rfl, Nat.le_refl _⟩)
    rw [nextAdd] at h
    cases k : nextAdd l with
    | none =>
      rw [k] at h
      obtain rfl := Option.some.inj h
      rw [nextAdd_eq_none k]
      exact List.forall_mem_singleton.2 self
    | some d =>
      rw [k] at h
      dsimp only at h
      have rest := ih k
      split at h
      · next first =>
        obtain rfl := Option.some.inj h
        refine List.forall_mem_cons.2 ⟨?_, rest⟩
        have : ¬d.before c = false := by rw [first]; decide
        rw [before_false_iff] at this ⊢
        omega
      · next later =>
        obtain rfl := Option.some.inj h
        refine List.forall_mem_cons.2 ⟨self, fun b hb => ?_⟩
        have least := (before_false_iff _ _).1 (rest b hb)
        have after := (before_false_iff _ _).1 (Bool.eq_false_iff.2 later)
        rw [before_false_iff]
        omega

/-! ### Partial writes -/

/-- A partial write of a written tile that passes its check, where physics does nothing: the changed bytes in its place (08 R244). -/
theorem partialWrite_puts (s : State) (x : Tensor) (l : TileLoc) (i : Nat) (q : Bool) (op : BitVec 16)
    (change : List Byte → List Byte → List Byte × List Byte) {r old : List Byte} (hr : (s.sheet l.sheet).mem.record l.sealIx = r)
    (ho : mread (s.sheet l.sheet).mem.dram l.addr (tileBytes x.fmt x.mx) = old) (written : recWritten r = true)
    (ok : checkTile r old { tensor := x.number.toNat, tile := i, fmt := none } = none) :
    PutsDram l.sheet l.addr (change r old).2 s (s.partialWrite x l i q op {} change) := by
  have mem := upset_none_mem s l.sheet l.sheet
  rw [← mem] at hr ho
  refine PutsDram.before (upset_none_still s l.sheet).cells ?_
  unfold State.partialWrite
  generalize s.upset l.sheet {} = s at hr ho ⊢
  subst hr ho
  simp only [written, ok, Bool.not_true, Bool.false_eq_true, if_false]
  refine PutsDram.after ?_ ((sheetEvent_counts _ _ _).still.cells.trans
    ((SheetsKeep.of_sheets (noteTensor_sheets _ _ _)).trans (.of_sheets (noteGranule_sheets _ _ _))))
  exact (PutsDram.after (putTile_puts _ x l _ _) (.of_sheets (poisonMem_sheets _ _ _))).before
    ((lookPages_still _ _ _ _).trans (sheetEvent_counts _ _ _).still).cells

/-! ### The two words -/

/-- TILE_ADD_MEM puts one add at the end of those on their way, and moves no byte. -/
theorem doTileAddMem_adds {x : Tensor} {l : TileLoc} (ht : s.wordTile e o = some (x, l)) (hf : x.fmt = ((s.eng e).td o.td.val).fmt)
    (hx : x.mx = false) : ∃ (t : State) (a : AddReq), t.sheets = s.sheets ∧
      s.doTileAddMem e o {} = t.modMem l.sheet (fun m => { m with adds := m.adds ++ [a] }) ∧ a.eng = e ∧ a.tensor = x ∧
      a.tile = o.tileIdx.toNat ∧ a.loc = (l.sheet, l.addr, l.sealIx) ∧ a.bytes = tdBytes (s.pmem e).acc ((s.eng e).td o.td.val) ∧
      a.header = tdHeader ((s.eng e).td o.td.val) x.number o.tileIdx.toNat ((s.eng e).td o.td.val).fmt false := by
  simp only [State.doTileAddMem, ht, hf, hx, bne_self_eq_false, Bool.or_self, Bool.false_eq_true, if_false, sramRead_none]
  generalize noted : (if ((s.eng e).td o.td.val).f32 = true then s.modRun e.sheet.val fun r => { r with f32add := true } else s) = t
  have sheets : t.sheets = s.sheets := by
    rw [← noted]
    split
    · exact modRun_sheets _ _ _
    · rfl
  have pmem : t.pmem e = s.pmem e := by simp only [State.pmem, State.sheet, sheets]
  exact ⟨t, _, sheets, rfl, rfl, rfl, rfl, rfl, by rw [pmem], rfl⟩

theorem addChange_bytes (f : BitVec 4) (header bytes hOld bOld : List Byte) : (addChange f header bytes hOld bOld).2 =
    (if f.toNat = 10 then addA64 16384 bOld bytes else addF32 1 0 16384 bOld bytes).1 := by
  rw [addChange]

theorem addChange_a64 {f : BitVec 4} (hf : f.toNat = 10) (header bytes hOld bOld : List Byte) :
    (addChange f header bytes hOld bOld).2 = (addA64 16384 bOld bytes).1 :=
  (addChange_bytes f header bytes hOld bOld).trans (congrArg Prod.fst (if_pos hf))

theorem modMem_parcel (s : State) (h : Nat) (f : MemPath → MemPath) (i q : Nat) :
    ((s.modMem h f).sheet i).parcel q = (s.sheet i).parcel q := by
  rw [sheet_modMem]
  split
  · next e => rw [e]; rfl
  · rfl

/-- SLICE_ADD of the add that comes next leaves the sums of its bytes and the tile's in the tile's place. -/
theorem doSliceAdd_puts (h : Nat) {a : AddReq} (next : nextAdd (s.sheet h).mem.adds = some a) (sealed : a.tensor.isSealed = true)
    (hf : a.tensor.fmt = 10) (here : a.loc.1 = h)
    (free : s.stalls h a.loc.2.1 (tileBytes a.tensor.fmt a.tensor.mx) = false) {r old new : List Byte}
    (hr : (s.sheet h).mem.record a.loc.2.2 = r) (ho : mread (s.sheet h).mem.dram a.loc.2.1 (tileBytes a.tensor.fmt a.tensor.mx) = old)
    (written : recWritten r = true) (ok : checkTile r old { tensor := a.tensor.number.toNat, tile := a.tile, fmt := none } = none)
    (hn : (addA64 16384 old (clipBytes 10 (recRows a.header) (recCols a.header) a.bytes)).1 = new) :
    PutsDram h a.loc.2.1 new (s.modMem h fun m => { m with adds := m.adds.erase a }) (s.doSliceAdd h {}) := by
  simp only [State.doSliceAdd, next, free, sealed, Bool.false_eq_true, if_false, if_true]
  have counts := sheetEvent_counts (s.modMem h fun m => { m with adds := m.adds.erase a }) h
    { cls := 3, code := 0x15, addr := some (dramDevAddr h a.loc.2.1) }
  have mem := counts.reports.mem h
  rw [sheet_modMem, if_pos rfl] at mem
  have puts := partialWrite_puts _ a.tensor { sheet := h, addr := a.loc.2.1, sealIx := a.loc.2.2 } a.tile a.poison (opEngine 1 9)
    (addChange a.tensor.fmt a.header (clipBytes a.tensor.fmt (recRows a.header) (recCols a.header) a.bytes))
    ((congrArg (MemPath.record · a.loc.2.2) mem).trans hr) ((congrArg (fun m : MemPath => mread m.dram _ _) mem).trans ho) written ok
  have sums : (addChange a.tensor.fmt a.header (clipBytes a.tensor.fmt (recRows a.header) (recCols a.header) a.bytes) r old).2 = new := by
    rw [addChange_a64 (by rw [hf]; rfl), hf, hn]
  rw [sums] at puts
  rw [here]
  exact puts.before counts.still.cells

/-- The add leaves the list of those on their way, the tile takes the sums, and nothing else moves. -/
theorem doSliceAdd_sums {h : Nat} {a : AddReq} {new : List Byte}
    (puts : PutsDram h a.loc.2.1 new (s.modMem h fun m => { m with adds := m.adds.erase a }) u) :
    (u.sheet h).mem.adds = (s.sheet h).mem.adds.erase a ∧
      DramTakes h a.loc.2.1 new.length (fun i => new.getD i 0) s u ∧ SameStores s u ∧ SameAccs s u := by
  have dram : SameDram s (s.modMem h fun m => { m with adds := m.adds.erase a }) := fun i b => by
    rw [State.dramAt, sheet_modMem]
    split
    · next e => rw [e]; rfl
    · rfl
  refine ⟨?_, fun i b => ?_, fun i q b => ?_, fun i q b => ?_⟩
  · rw [puts.adds, sheet_modMem, if_pos rfl]
  · rw [puts.takes i b, dram i b]
  · rw [puts.stores i q b, State.storeAt, modMem_parcel, State.storeAt]
  · rw [puts.accs i q b, State.accAt, modMem_parcel, State.accAt]

end Sys2Proof.Machine

open Sys2Proof Sys2Proof.Machine

/-- Settles O16: the add waits at the tile's memory path, and its application is one write of the tile. -/
theorem combineAtMemoryAdds : Obligations.CombineAtMemoryAdds := by
  refine ⟨fun e o s x l hs ht hf hx hp => leads_starts hs rfl fun t k => ?_, fun h s a ha next => ⟨nextAdd_least next, ?_⟩⟩
  · obtain ⟨v, a, sheets, run, eng, tensor, tile, loc, bytes, header⟩ :=
      doTileAddMem_adds ((k.only.wordTile _ _).trans ht) (hf.trans (by rw [k.still.td])) hx
    have cells : SheetsKeep Sheet.cells t v := .of_sheets sheets
    have dram : SheetsKeep (fun x => x.mem.dram) v (v.modMem l.sheet fun m => { m with adds := m.adds ++ [a] }) :=
      .modSheet _ _ fun _ => rfl
    have kept := k.still.cells.trans cells
    rw [run]
    refine ⟨fun i b => ?_, fun i q b => ?_, fun i q b => ?_, a, ?_, eng, tensor, tile, loc, ?_, ?_⟩
    · exact (congrArg (fun m => mget m b) (dram i)).trans (cells_sameDram kept i b)
    · rw [State.storeAt, modMem_parcel]
      exact cells_sameStores kept i q b
    · rw [State.accAt, modMem_parcel]
      exact cells_sameAccs kept i q b
    · rw [sheet_modMem, if_pos rfl]
      exact congrArg (· ++ [a]) (cells_adds kept l.sheet)
    · rw [bytes, k.only.pmem, k.still.td]
    · rw [header, k.still.td]
  · intro sealed hf hx here free m r old written ok
    have tile : tileBytes a.tensor.fmt a.tensor.mx = 131072 := by rw [hf, hx]; rfl
    have run : exec (.sliceAdd h {}) s = .next (s.doSliceAdd h.val {}) := by
      refine congrArg Host.Outcome.next ?_
      cases adds : (s.sheet h.val).mem.adds with
      | nil => rw [adds] at ha; cases ha
      | cons b rest =>
        dsimp only
        rw [if_neg]
        intro stalled
        rw [tile, stalls_of_stalls stalled] at free
        cases free
    exact leads_of run (doSliceAdd_sums (doSliceAdd_puts h.val next sealed hf here free rfl rfl written ok rfl))
end

section
/-! O15: tiles that travel on routes (01 R28, R29; 03 R96; 08 R243, R245). -/

namespace Sys2Proof.Machine

variable {s t u : State} {e : EngId} {o : MoveOp} {p : Nat}

/-! ### Deliveries -/

/-- DRAM reads as before, and arrivals may have followed those at each engine. -/
structure Delivers (s u : State) : Prop where
  dram : ∀ i, (u.sheet i).mem.dram = (s.sheet i).mem.dram
  inbox : ∀ g, ∃ l, (u.eng g).inbox = (s.eng g).inbox ++ l

theorem Still.delivers (h : Still s t) : Delivers s t :=
  ⟨cells_dram h.cells, fun g => ⟨[], by rw [h.inbox, List.append_nil]⟩⟩

theorem Delivers.trans (h : Delivers s t) (k : Delivers t u) : Delivers s u := by
  refine ⟨fun i => (k.dram i).trans (h.dram i), fun g => ?_⟩
  obtain ⟨l, hl⟩ := h.inbox g
  obtain ⟨m, hm⟩ := k.inbox g
  exact ⟨l ++ m, by rw [hm, hl, List.append_assoc]⟩

theorem Delivers.foldl {α : Type} (f : State → α → State) (h : ∀ s a, Delivers s (f s a)) (l : List α) : ∀ s, Delivers s (l.foldl f s) := by
  induction l with
  | nil => intro s; exact Still.refl.delivers
  | cons a l ih => intro s; exact (h s a).trans (ih _)

/-- An arrival put at the end of an engine's inbox. -/
theorem putInbox_delivers (s : State) (e : EngId) (a : Arrival) :
    Delivers s (s.modEng e fun g => { g with inbox := g.inbox ++ [a] }) := by
  refine ⟨cells_dram (cells_modEng _ _ _), fun g => ?_⟩
  rw [eng_modEng]
  split
  · next h => exact ⟨[a], by rw [h]⟩
  · exact ⟨[], (List.append_nil _).symm⟩

theorem checkDigest_reports (s : State) (i : Nat) (r : Route) (a : Arrival) : Reports s (s.checkDigest i r a) := by
  unfold State.checkDigest
  split
  · exact .refl _
  · split
    · split
      · exact .refl _
      · exact sheetFault_reports _ _ _ _ _ _
    · exact sheetFault_reports _ _ _ _ _ _

theorem launchPacket_still (s : State) (pk : Packet) (n : Nat) : Still s (s.launchPacket pk n) := by
  unfold State.launchPacket State.sendPacket
  split
  · split
    · exact .refl
    · exact .of_sheets rfl
  · exact (sendFault_reports _ _).still

theorem collect_still (s : State) (i : Nat) (f : List Arrival → List Arrival) :
    Still s (s.modSheet i fun x => { x with collecting := f x.collecting }) := .modSheet _ _ (fun _ => rfl) fun _ => rfl

theorem toDest_delivers (s : State) (i : Nat) (r : Route) (a : Arrival) (d : RouteDest) : Delivers s (s.toDest i r a d) := by
  cases d with
  | engine e => exact (checkDigest_reports _ _ _ _).still.delivers.trans (putInbox_delivers _ _ _)
  | node h rt => exact (collect_still s h.val fun l => l ++ [{ a with route := rt }]).delivers
  | device d h rt =>
    unfold State.toDest
    dsimp only
    split
    · exact Still.refl.delivers
    · exact (launchPacket_still _ _ _).delivers

theorem toDests_delivers (s : State) (i : Nat) (r : Route) (a : Arrival) : Delivers s (s.toDests i r a) :=
  (sheetEvent_counts _ _ _).still.delivers.trans (.foldl _ (fun s d => toDest_delivers s i r a d) _ _)

/-- A node takes its children's contributions, compares their digests and counts itself. -/
def State.takeNode (s : State) (h : Nat) (r : Route) (l others : List Arrival) : State :=
  let s := ((l.foldl (fun s a => s.checkDigest h r a) s).modSheet h fun x => { x with collecting := others }).sheetEvent h
    { cls := 4, code := 0x02, inc := l.length - 1 }
  { s with free := s.free + 1 }

theorem takeNode_delivers (s : State) (h : Nat) (r : Route) (l others : List Arrival) : Delivers s (s.takeNode h r l others) := by
  refine (Delivers.foldl _ (fun s a => (checkDigest_reports s h r a).still.delivers) l s).trans (Still.delivers ?_)
  exact ((collect_still _ h fun _ => others).trans (sheetEvent_counts _ _ _).still).trans (.of_sheets rfl)

/-- Nodes that settle deliver sums. -/
theorem settleNodes_delivers (n : Nat) : ∀ s : State, Delivers s (s.settleNodes n) := by
  induction n with
  | zero => intro s; exact Still.refl.delivers
  | succ n ih =>
    intro s
    unfold State.settleNodes
    split
    · exact Still.refl.delivers
    · next h r l others _ =>
      have taken := takeNode_delivers s h r l others
      dsimp only
      split
      · exact taken.trans (ih _)
      · refine taken.trans (Delivers.trans ?_ ((toDests_delivers _ h r _).trans (ih _)))
        split
        · exact (sheetFault_reports _ _ _ _ _ _).still.delivers
        · exact Still.refl.delivers

/-- Where no node is ready, none settles. -/
theorem settleNodes_idle (h : ∀ i, i < 16 → (s.sheet i).readyNode = none) (n : Nat) : s.settleNodes n = s := by
  cases n with
  | zero => rfl
  | succ n =>
    have idle : (sheetIdx.findSome? fun h => (s.sheet h).readyNode.map fun x => (h, x)) = none :=
      List.findSome?_eq_none_iff.2 fun i hi => by rw [h i (List.mem_range.1 hi)]; rfl
    unfold State.settleNodes
    rw [idle]

/-! ### One engine as the destination -/

/-- What a node needs to be ready. -/
def Sheet.nodes (x : Sheet) : SheetMode × List Route × List Arrival := (x.mode, x.routeTab, x.collecting)

theorem readyNode_of_nodes {x y : Sheet} (h : y.nodes = x.nodes) : y.readyNode = x.readyNode := by
  simp only [Sheet.nodes, Prod.mk.injEq] at h
  simp only [Sheet.readyNode, h]

/-- On a route to one engine the arrival is the first to follow those in its inbox. -/
theorem toDests_engine {r : Route} {g : EngId} (hd : r.dests = [.engine g]) (s : State) (i : Nat) (a : Arrival) :
    ((s.toDests i r a).eng g).inbox = (s.eng g).inbox ++ [{ a with route := r.handle }] ∧ SheetsKeep Sheet.nodes s (s.toDests i r a) := by
  rw [State.toDests, hd]
  dsimp only [List.foldl, State.toDest]
  constructor
  · rw [eng_modEng_same]
    exact congrArg (· ++ _) (((sheetEvent_counts _ _ _).reports.trans (checkDigest_reports _ _ _ _)).still.inbox g)
  · exact (((sheetEvent_counts _ _ _).reports.trans (checkDigest_reports _ _ _ _)).sheetsKeep fun _ _ _ _ => rfl).trans
      (.modEng g _ fun _ _ => rfl)

/-- A route that no node of this sheet sums, to one engine: the arrival, and sums of nodes that were ready after it. -/
theorem routeSend_engine {r : Route} {g : EngId} {i : Nat} {rt : BitVec 16} (hr : (s.sheet i).routeOf rt = some r)
    (hd : r.dests = [.engine g]) (sums : r.reduces = false) (a : Arrival) :
    SameDram s (s.routeSend i rt a) ∧ ∃ l, ((s.routeSend i rt a).eng g).inbox = (s.eng g).inbox ++ { a with route := r.handle } :: l ∧
      ((∀ i, i < 16 → (s.sheet i).readyNode = none) → l = []) := by
  have run : s.routeSend i rt a = (s.toDests i r a).settleNodes 64 := by
    rw [State.routeSend, hr]
    simp only [sums, passesOn, hd, List.all_cons, List.all_nil, Bool.false_and, Bool.false_eq_true, if_false]
  obtain ⟨inbox, nodes⟩ := toDests_engine hd s i a
  have settled := settleNodes_delivers 64 (s.toDests i r a)
  obtain ⟨l, hl⟩ := settled.inbox g
  rw [run]
  refine ⟨fun j b => congrArg (mget · b) (((toDests_delivers s i r a).trans settled).dram j), l, ?_, fun idle => ?_⟩
  · rw [hl, inbox, List.append_assoc, List.singleton_append]
  · have quiet := settleNodes_idle (s := s.toDests i r a) (fun j hj => (readyNode_of_nodes (nodes j)).trans (idle j hj)) 64
    rw [quiet, List.self_eq_append_right] at hl
    exact hl

/-! ### Tile images -/

theorem take_mkRecord (h : List Byte) (q : Bool) (v : Nat) (b : List Byte) {n : Nat} (hn : n ≤ 21) (hl : h.length = 24) :
    (mkRecord h q v ++ b).take n = h.take n := by
  have record := mkRecord_length q v hl
  have head (l : List Byte) : (l.take 21).take n = l.take n := by rw [List.take_take, Nat.min_eq_left hn]
  rw [List.take_append_of_le_length (by omega), ← head, (mkRecord_parts h q v (by omega)).1, head]

/-- An image carries its tensor and tile in its first eight bytes. -/
theorem image_names (d : TileDesc) (n : BitVec 32) (i : BitVec 32) (f : BitVec 4) (mx q : Bool) (v : Nat) (b : List Byte) :
    recTensor (mkRecord (tdHeader d n i.toNat f mx) q v ++ b) = n.toNat ∧
      recTile (mkRecord (tdHeader d n i.toNat f mx) q v ++ b) = i.toNat := by
  have first := take_mkRecord (tdHeader d n i.toNat f mx) q v b (n := 8) (by decide) (tdHeader_length _ _ _ _ _)
  have names : (tdHeader d n i.toNat f mx).take 8 = leBytes 4 n.toNat ++ leBytes 4 i.toNat := by
    simp [tdHeader, mkHeader, leBytes_length, List.take_append]
  rw [names] at first
  have field (lo : Nat) (hlo : lo ≤ 4) (l : List Byte) : recField l lo 4 = recField (l.take 8) lo 4 := by
    rw [recField, recField, List.drop_take, List.take_take, Nat.min_eq_left (by omega)]
  constructor
  · rw [recTensor, field 0 (by decide), first, recField, List.drop_zero, List.take_left' (leBytes_length _ _), leNat_leBytes]
    exact Nat.mod_eq_of_lt n.isLt
  · rw [recTile, field 4 (by decide), first, recField, List.drop_left' (leBytes_length _ _),
      List.take_of_length_le (by rw [leBytes_length]), leNat_leBytes]
    exact Nat.mod_eq_of_lt i.isLt

/-! ### The two words -/

/-- The bytes that TILE_SEND puts into its image. -/
def State.sentBytes (s : State) (e : EngId) (o : MoveOp) : List Byte :=
  let d := (s.eng e).td o.td.val
  if o.src then tdBytes (s.pmem e).acc d
  else mread (s.pmem e).store (unitByte o.ps) (tileBytes (if o.src then d.fmt else o.fmt) (!o.src && o.mx))

/-- TILE_SEND puts the image of its bytes on the route. -/
theorem doTileSend_sends
    (ok : o.src = true ∨ inStore o.ps (tileBytes (if o.src then ((s.eng e).td o.td.val).fmt else o.fmt) (!o.src && o.mx)) = true) :
    ∃ (f : BitVec 4) (mx q : Bool) (v : Nat) (ts : Word), s.doTileSend e o {} = s.routeSend e.sheet.val o.handle
      { route := o.handle, poison := q, tspec := ts, src := .engine e
        image := mkRecord (tdHeader ((s.eng e).td o.td.val) ((s.eng e).td o.td.val).tensor o.tileIdx.toNat f mx) q v ++ s.sentBytes e o } := by
  unfold State.doTileSend State.sentBytes
  cases h : o.src with
  | true =>
    simp only [Bool.not_true, Bool.false_and, Bool.false_eq_true, if_false, if_true, sramRead_none]
    exact ⟨_, _, _, _, _, rfl⟩
  | false =>
    have place : inStore o.ps (tileBytes o.fmt o.mx) = true := by simpa [h] using ok
    simp only [place, Bool.not_true, Bool.not_false, Bool.true_and, Bool.false_eq_true, if_false, sramRead_none]
    exact ⟨_, _, _, _, _, rfl⟩

/-- An arrival that carries a descriptor's tile. -/
structure Carries (r : Route) (e : EngId) (n i : BitVec 32) (bytes : List Byte) (a : Arrival) : Prop where
  route : a.route = r.handle
  src : a.src = .engine e
  length : a.image.length = 32 + bytes.length
  bytes : a.image.drop 32 = bytes
  tensor : recTensor a.image = n.toNat
  tile : recTile a.image = i.toNat

/-- TILE_SEND on a route to one engine. -/
theorem doTileSend_arrives {r : Route} {g : EngId}
    (ok : o.src = true ∨ inStore o.ps (tileBytes (if o.src then ((s.eng e).td o.td.val).fmt else o.fmt) (!o.src && o.mx)) = true)
    (hr : (s.sheet e.sheet.val).routeOf o.handle = some r) (hd : r.dests = [.engine g]) (sums : r.reduces = false) :
    SameDram s (s.doTileSend e o {}) ∧ ∃ a l, ((s.doTileSend e o {}).eng g).inbox = (s.eng g).inbox ++ a :: l ∧
      ((∀ i, i < 16 → (s.sheet i).readyNode = none) → l = []) ∧
      Carries r e ((s.eng e).td o.td.val).tensor o.tileIdx (s.sentBytes e o) a := by
  obtain ⟨f, mx, q, v, ts, run⟩ := doTileSend_sends ok
  obtain ⟨dram, l, inbox, idle⟩ := routeSend_engine hr hd sums
    { route := o.handle, poison := q, tspec := ts, src := .engine e
      image := mkRecord (tdHeader ((s.eng e).td o.td.val) ((s.eng e).td o.td.val).tensor o.tileIdx.toNat f mx) q v ++ s.sentBytes e o }
  have record := mkRecord_length (h := tdHeader ((s.eng e).td o.td.val) ((s.eng e).td o.td.val).tensor o.tileIdx.toNat f mx) q v
    (tdHeader_length _ _ _ _ _)
  obtain ⟨tensor, tile⟩ := image_names ((s.eng e).td o.td.val) ((s.eng e).td o.td.val).tensor o.tileIdx f mx q v (s.sentBytes e o)
  rw [run]
  refine ⟨dram, _, l, inbox, idle, rfl, rfl, ?_, ?_, tensor, tile⟩
  · dsimp only
    rw [List.length_append, record]
  · exact List.drop_left' record

theorem flipBytes_nil (b : List Byte) : flipBytes b [] = b := rfl

/-- A change of one parcel's memories, and what keeps the words after it, leave inboxes. -/
theorem modPmem_inbox {f : ParcelMem → ParcelMem} (h : Still (t.modPmem e f) u) : (u.eng e).inbox = (t.eng e).inbox :=
  (h.inbox e).trans (congrArg (·.2.2.2.1) (congrFun (congrArg Prod.snd (words_modPmem t e f e.sheet.val)) e.parcel.val))

/-- TILE_RECV into the store: the image's bytes in their place. -/
theorem doTileRecv_store {a : Arrival} (hp : (s.sheet e.sheet.val).phys e.parcel.val = some p) (src : o.src = false)
    (ha : (s.eng e).firstArrival o.handle = some a) (hi : inStore o.ps (tileBytes o.fmt o.mx) = true)
    (hm : missesProg (s.eng e) o.ps (tileBytes o.fmt o.mx) = true)
    (ok : checkTile (a.image.take 32) (a.image.drop 32)
      { tensor := ((s.eng e).td o.td.val).tensor.toNat, tile := o.tileIdx.toNat, fmt := some (o.fmt, o.mx) } = none) :
    let m := (s.sheet e.sheet.val).parcel p
    Lands e.sheet.val p (mwrite m.store (unitByte o.ps) ((a.image.drop 32).take (tileBytes o.fmt o.mx)), m.acc) s (s.doTileRecv e o {}) ∧
      ((s.doTileRecv e o {}).eng e).inbox = takeArrival o.handle (s.eng e).inbox := by
  unfold State.doTileRecv
  simp only [src, ha, hi, hm, ok, flipBytes_nil, Bool.not_true, Bool.not_false, Bool.true_and, Bool.or_self, Bool.false_eq_true, if_false]
  constructor
  · exact modPmem_lands_on hp (cells_modEng _ _ _) (wroteStore_still _ _ _ _ _).cells
      (g := fun c => (mwrite c.1 (unitByte o.ps) ((a.image.drop 32).take (tileBytes o.fmt o.mx)), c.2)) fun _ => rfl
  · rw [modPmem_inbox (wroteStore_still _ _ _ _ _), eng_modEng_same]

/-- TILE_RECV into a descriptor's rows. -/
theorem doTileRecv_rows {a : Arrival} (hp : (s.sheet e.sheet.val).phys e.parcel.val = some p) (src : o.src = true)
    (ha : (s.eng e).firstArrival o.handle = some a)
    (ok : checkTile (a.image.take 32) (a.image.drop 32)
      { tensor := ((s.eng e).td o.td.val).tensor.toNat, tile := o.tileIdx.toNat, fmt := some (((s.eng e).td o.td.val).fmt, false) } = none) :
    let m := (s.sheet e.sheet.val).parcel p
    Lands e.sheet.val p (m.store, putTd m.acc ((s.eng e).td o.td.val) (bytesMem (a.image.drop 32)) (recRows (a.image.take 32))
        (recCols (a.image.take 32))) s (s.doTileRecv e o {}) ∧
      ((s.doTileRecv e o {}).eng e).inbox = takeArrival o.handle (s.eng e).inbox := by
  unfold State.doTileRecv
  simp only [src, ha, ok, flipBytes_nil, Bool.not_true, Bool.false_and, Bool.false_eq_true, if_false, if_true]
  constructor
  · exact modPmem_lands_on hp (cells_modEng _ _ _)
      ((cells_modEng _ _ _).trans ((wroteTdWhole_still _ _ _ _).trans (rangeCheck_still _ _ _ _)).cells)
      (g := fun c => (c.1, putTd c.2 ((s.eng e).td o.td.val) (bytesMem (a.image.drop 32)) (recRows (a.image.take 32))
        (recCols (a.image.take 32)))) fun _ => rfl
  · rw [(((wroteTdWhole_still _ _ _ _).trans (rangeCheck_still _ _ _ _)).inbox e), eng_modEng_same, Engine.modTd, modPmem_inbox .refl,
      eng_modEng_same]

/-- A record's shape is read from its image. -/
theorem recShape_take (l : List Byte) : recRows (l.take 32) = recRows l ∧ recCols (l.take 32) = recCols l := by
  have field (lo n : Nat) (h : lo + n ≤ 32) : recField (l.take 32) lo n = recField l lo n := by
    rw [recField, recField, List.drop_take, List.take_take, Nat.min_eq_left (by omega)]
  exact ⟨field 16 1 (by decide), field 17 1 (by decide)⟩

end Sys2Proof.Machine

open Sys2Proof Sys2Proof.Machine

/-- Settles O15: a sent image is the first arrival to follow at its engine, and a received one is one change of the parcel's memories. -/
theorem tilesTravelRoutes : Obligations.TilesTravelRoutes := by
  intro e o s p hp
  refine ⟨fun r g hs ok hr hd sums => leads_starts hs rfl fun t k => ?_, fun a hs ha ok passes => leads_starts hs rfl fun t k => ?_⟩
  · obtain ⟨dram, a, l, inbox, idle, carries⟩ := doTileSend_arrives (s := t) (by rwa [k.still.td]) ((k.only.routeOf _ _).trans hr) hd sums
    have bytes : t.sentBytes e o = s.sentBytes e o := by simp only [State.sentBytes, k.only.pmem, k.still.td]
    rw [bytes, k.still.td] at carries
    obtain ⟨route, src, length, image, tensor, tile⟩ := carries
    exact ⟨fun i b => (dram i b).trans (cells_sameDram k.still.cells i b), a, l, inbox.trans (by rw [k.still.inbox]),
      fun none => idle fun i hi => (k.only.readyNode i).trans (none i hi), route, src, length, image, tensor, tile⟩
  · have phys := (k.only.phys e.sheet.val e.parcel.val).trans hp
    have arrives := (k.firstArrival o.handle).trans ha
    cases src : o.src with
    | false =>
      simp only [src, Bool.not_false, Bool.true_and, Bool.false_eq_true, if_false, false_or] at ok passes ⊢
      obtain ⟨lands, inbox⟩ := doTileRecv_store phys src arrives ok.1 ((k.missesProg _ _).trans ok.2) (by rwa [k.still.td])
      rw [k.only.parcel] at lands
      have lands := lands.of_cells k.still.cells
      exact ⟨lands.sameDram, inbox.trans (by rw [k.still.inbox]), fun _ => ⟨lands.storeTakes rfl, lands.sameAccs rfl⟩, fun h => nomatch h⟩
    | true =>
      simp only [src, Bool.not_true, Bool.false_and, if_true] at passes ⊢
      obtain ⟨lands, inbox⟩ := doTileRecv_rows phys src arrives (by rwa [k.still.td])
      rw [k.only.parcel, k.still.td] at lands
      have lands := lands.of_cells k.still.cells
      obtain ⟨rows, cols⟩ := recShape_take a.image
      refine ⟨lands.sameDram, inbox.trans (by rw [k.still.inbox]), (fun h => nomatch h), fun _ used => ⟨lands.sameStores rfl,
        lands.accsBut fun b hb => putTd_outside used _ _ _ _ hb, fun i j hi hj => ?_⟩⟩
      rw [lands.acc_here]
      exact putTd_elem used _ _ (by rwa [rows]) (by rwa [cols])
end

section
/-! O17: the tile product in its descriptor's rows (03 R97, R98; 02 R45, R51). -/

namespace Sys2Proof.Machine

variable {s t u : State} {e : EngId} {o : MmaOp} {p : Nat}

/-! ### The elements of a product -/

/-- The elements of a grid of partials with their places, in order. -/
def cellsOf (ps : List (List Partial)) : List ((Nat × Nat) × Partial) :=
  ps.zipIdx.flatMap fun row => row.1.zipIdx.map fun c => ((row.2, c.2), c.1)

theorem mem_cellsOf {ps : List (List Partial)} {x : (Nat × Nat) × Partial} :
    x ∈ cellsOf ps ↔ ∃ r, ps[x.1.1]? = some r ∧ r[x.1.2]? = some x.2 := by
  obtain ⟨⟨i, j⟩, q⟩ := x
  simp only [cellsOf, List.mem_flatMap, List.mem_map, Prod.exists, List.mk_mem_zipIdx_iff_getElem?, Prod.mk.injEq]
  constructor
  · rintro ⟨r, k, hr, c, l, hc, ⟨rfl, rfl⟩, rfl⟩
    exact ⟨r, hr, hc⟩
  · rintro ⟨r, hr, hc⟩
    exact ⟨r, i, hr, q, j, hc, ⟨rfl, rfl⟩, rfl⟩

theorem pairwise_zipIdx {α : Type} (l : List α) : l.zipIdx.Pairwise fun a b => a.2 ≠ b.2 := by
  have nodup : (l.zipIdx.map Prod.snd).Nodup := by
    rw [List.zipIdx_map_snd]
    exact List.nodup_range'
  exact List.pairwise_map.1 nodup

theorem cellsOf_nodup (ps : List (List Partial)) : ((cellsOf ps).map Prod.fst).Nodup := by
  rw [cellsOf, List.map_flatMap]
  refine List.nodup_flatMap.2 ⟨fun row _ => ?_, (pairwise_zipIdx ps).imp fun {a b} hab => ?_⟩
  · rw [List.map_map, List.nodup_iff_pairwise_ne, List.pairwise_map]
    exact (pairwise_zipIdx row.1).imp fun {a b} hab h => hab (Prod.mk.inj h).2
  · simp only [Function.onFun, List.map_map, List.disjoint_left, List.mem_map, not_exists, not_and, Function.comp]
    rintro _ ⟨c, -, rfl⟩ c' - h
    exact hab (Prod.mk.inj h).1.symm

/-- Nothing upset: the partials stand. -/
theorem upsetPartials_nil (ps : List (List Partial)) : upsetPartials ps [] = ps := by
  have row (r : List Partial) : (r.zipIdx.map fun c => c.1) = r := List.zipIdx_map_fst 0 r
  simp only [upsetPartials, List.foldl_nil, row]
  exact List.zipIdx_map_fst 0 ps

/-- An element of a product takes its block's partial. -/
theorem mem_cells_product {as bs : List (List Val)} {i j : Nat} {x y : List Val} (hx : as[i]? = some x) (hy : bs[j]? = some y) :
    ((i, j), partialOf x y) ∈ cellsOf (partialsOf as bs) :=
  mem_cellsOf.2 ⟨bs.map (partialOf x), by simp [partialsOf, hx], by simp [hy]⟩

theorem cells_product_lt {as bs : List (List Val)} {x : (Nat × Nat) × Partial} (h : x ∈ cellsOf (partialsOf as bs)) :
    x.1.1 < as.length ∧ x.1.2 < bs.length := by
  obtain ⟨r, hr, hc⟩ := mem_cellsOf.1 h
  obtain ⟨a, ha, rfl⟩ : ∃ a, as[x.1.1]? = some a ∧ bs.map (partialOf a) = r := by simpa [partialsOf] using hr
  obtain ⟨hi, -⟩ := List.getElem?_eq_some_iff.1 ha
  obtain ⟨hj, -⟩ := List.getElem?_eq_some_iff.1 hc
  exact ⟨hi, by simpa using hj⟩

/-- The threshold of an element's rounding (02 R51). -/
def mmaThreshold (o : MmaOp) (d : TileDesc) (k : Nat × Nat) (n : Nat) (q : Nat × Nat) : Nat :=
  if !d.f32 || d.frm == 0 then roundThreshold k.1 k.2 n (d.elemIndex (o.roff + q.1) q.2) o.kblk else 0

/-- One element takes its partial. -/
def mmaStep (o : MmaOp) (d : TileDesc) (k : Nat × Nat) (n : Nat) (r : ProductOut) (x : (Nat × Nat) × Partial) : ProductOut :=
  let i := o.roff + x.1.1
  let y := takeBlock d (mmaThreshold o d k n x.1) (if o.init then 0 else accElem r.acc d i x.1.2) x.2
  { acc := putAccElem r.acc d i x.1.2 y.1, fl := r.fl ||| y.2.1, bw := r.bw + b2n y.2.2 }

/-- A product taken into a descriptor's rows. -/
def mmaOut (o : MmaOp) (d : TileDesc) (k : Nat × Nat) (n : Nat) (m : Mem) (ps : List (List Partial)) : ProductOut :=
  (cellsOf ps).foldl (mmaStep o d k n) { acc := m, fl := 0, bw := 0 }

theorem mmaStep_writes (o : MmaOp) (d : TileDesc) (k : Nat × Nat) (n : Nat) :
    WritesElems d ProductOut.acc (fun x => (o.roff + x.1.1, x.1.2))
      (fun old x => (takeBlock d (mmaThreshold o d k n x.1) (if o.init then 0 else old) x.2).1) (mmaStep o d k n) := ⟨fun _ _ => rfl⟩

section
variable {d : TileDesc} {k : Nat × Nat} {n : Nat} {m : Mem} {as bs : List (List Val)}

theorem mmaOut_outside (rows : o.roff + as.length ≤ d.vrows.toNat) (cols : bs.length ≤ 128) {b : Nat}
    (hb : ¬(d.accRange.1 ≤ b ∧ b < d.accRange.1 + d.accRange.2)) :
    mget (mmaOut o d k n m (partialsOf as bs)).acc b = mget m b :=
  (mmaStep_writes o d k n).outside hb _ _ fun x hx => by
    have := cells_product_lt hx
    dsimp only
    omega

/-- Each element of the product is what stood there and its partial, rounded (02 R45). -/
theorem mmaOut_elem (cols : bs.length ≤ 128) {i j : Nat} {x y : List Val} (hx : as[i]? = some x) (hy : bs[j]? = some y) :
    accElem (mmaOut o d k n m (partialsOf as bs)).acc d (o.roff + i) j =
      (takeBlock d (mmaThreshold o d k n (i, j)) (if o.init then 0 else accElem m d (o.roff + i) j) (partialOf x y)).1 %
        2 ^ (8 * d.elemBytes) := by
  refine (mmaStep_writes o d k n).visited _ _ ?_ (fun z hz => ?_) (mem_cells_product hx hy)
  · have distinct := cellsOf_nodup (partialsOf as bs)
    rw [List.nodup_iff_pairwise_ne, List.pairwise_map] at distinct ⊢
    exact distinct.imp fun {a b} hab h => hab (Prod.ext (by have := (Prod.mk.inj h).1; omega) (Prod.mk.inj h).2)
  · have := cells_product_lt hz
    dsimp only
    omega

end

/-! ### MMA -/

/-- Whether an MMA's operands and descriptor are those that it may use (03 R98). -/
def State.mmaOk (s : State) (e : EngId) (o : MmaOp) : Bool :=
  inStore o.a (tileBytes o.afmt o.amx) && (o.bkeep || inStore o.b (tileBytes o.bfmt o.bmx)) && ((s.eng e).td o.td).used &&
    decide (o.roff + o.rows ≤ ((s.eng e).td o.td).vrows.toNat)

theorem mmaOk_not (s : State) (e : EngId) (o : MmaOp) :
    (!inStore o.a (tileBytes o.afmt o.amx) || (!o.bkeep && !inStore o.b (tileBytes o.bfmt o.bmx)) || !((s.eng e).td o.td).used ||
      decide (((s.eng e).td o.td).vrows.toNat < o.roff + o.rows)) = !s.mmaOk e o := by
  simp only [State.mmaOk, Bool.not_and, Bool.not_or, ← decide_not, Nat.not_le]

theorem doMma_refused (h : s.mmaOk e o = false) (d : Disturb) : s.doMma e o d = s.engHalt e o.pc (opEngine 2 1) := by
  unfold State.doMma
  dsimp only
  rw [mmaOk_not, h, if_pos (by decide)]

theorem mmaOut_nested (o : MmaOp) (d : TileDesc) (k : Nat × Nat) (n : Nat) (m : Mem) (ps : List (List Partial)) :
    ps.zipIdx.foldl (fun r row => row.1.zipIdx.foldl (fun r c => mmaStep o d k n r ((row.2, c.2), c.1)) r) { acc := m, fl := 0, bw := 0 } =
      mmaOut o d k n m ps := by
  rw [mmaOut, cellsOf, List.foldl_flatMap]
  simp only [List.foldl_map]

theorem residueFault_none (s : State) (e : EngId) (n : Nat) (op : BitVec 16) (f : Nat → Nat → Word) :
    s.residueFault e {} n op f = s := rfl

/-- MMA is a change of the accumulator, of its descriptor, of the B register and of the queue of verdicts, and reports. -/
theorem doMma_runs (ok : s.mmaOk e o = true) {k : Nat × Nat}
    (hk : s.roundKey e (!((s.eng e).td o.td).f32 || ((s.eng e).td o.td).frm == 0) ((s.eng e).td o.td).tensor = some k) :
    let d := (s.eng e).td o.td
    let b := s.bOperand e o
    let r := mmaOut o d k (s.stepNo e.sheet.val) (s.pmem e).acc (partialsOf (s.aRows e o) (b.rows d.vcols.toNat))
    ∃ (f : TileDesc → TileDesc) (poison : Bool) (v : Verdict), v.td = o.td ∧ v.kblk = o.kblk ∧ v.pc = o.pc ∧
      Still ((((((s.modEng e fun g => { g with bReg := some b }).modPmem e fun m => { m with acc := r.acc }).modEng e fun g =>
        g.modTd o.td f).wroteTd e o.td poison).modEng e fun g => { g with verdicts := g.verdicts ++ [v] })) (s.doMma e o {}) := by
  unfold State.doMma
  dsimp only
  rw [mmaOk_not, ok, if_neg (by decide), hk]
  dsimp only
  rw [sramRead_none, upsetPartials_nil, (onlyEngine_modEng s e _).stepNo]
  have nested := mmaOut_nested o ((s.eng e).td o.td) k (s.stepNo e.sheet.val) (s.pmem e).acc
    (partialsOf (s.aRows e o) ((s.bOperand e o).rows ((s.eng e).td o.td).vcols.toNat))
  dsimp only [mmaStep, mmaThreshold] at nested
  rw [nested]
  rw [residueFault_none]
  exact ⟨_, _, { td := o.td, kblk := o.kblk, pc := o.pc, bad := _ }, rfl, rfl, rfl,
    ((parcelEvent_counts _ _ _ _).still.trans (parcelEvent_counts _ _ _ _).still).trans (rangeCheck_still _ _ _ _)⟩

/-- What an MMA leaves: the product in the parcel's accumulator, the B operand kept, one verdict behind the others. -/
theorem doMma_lands (hp : (s.sheet e.sheet.val).phys e.parcel.val = some p) (ok : s.mmaOk e o = true) {k : Nat × Nat}
    (hk : s.roundKey e (!((s.eng e).td o.td).f32 || ((s.eng e).td o.td).frm == 0) ((s.eng e).td o.td).tensor = some k) :
    let d := (s.eng e).td o.td
    let b := s.bOperand e o
    let m := (s.sheet e.sheet.val).parcel p
    Lands e.sheet.val p (m.store, (mmaOut o d k (s.stepNo e.sheet.val) m.acc (partialsOf (s.aRows e o) (b.rows d.vcols.toNat))).acc) s
        (s.doMma e o {}) ∧
      ((s.doMma e o {}).eng e).bReg = some b ∧
      ∃ v : Verdict, ((s.doMma e o {}).eng e).verdicts = (s.eng e).verdicts ++ [v] ∧ v.td = o.td ∧ v.kblk = o.kblk ∧ v.pc = o.pc := by
  intro d b m
  obtain ⟨f, poison, v, td, kblk, pc, still⟩ := doMma_runs ok hk
  have kept : SheetsKeep Sheet.cells s (s.modEng e fun g => { g with bReg := some b }) := cells_modEng _ _ _
  have acc : (s.pmem e).acc = m.acc := by rw [pmem_of_phys hp]
  rw [acc] at still
  refine ⟨modPmem_lands_on hp kept (((cells_modEng _ _ _).trans ((wroteTd_still _ _ _ _).cells.trans (cells_modEng _ _ _))).trans still.cells)
    (g := fun c => (c.1, (mmaOut o d k (s.stepNo e.sheet.val) m.acc (partialsOf (s.aRows e o) (b.rows d.vcols.toNat))).acc)) (fun _ => rfl),
    ?_, v, ?_, td, kblk, pc⟩
  · rw [still.bReg, eng_modEng_same]
    dsimp only
    rw [(wroteTd_still _ _ _ _).bReg, eng_modEng_same, Engine.modTd, eng_modPmem, eng_modEng_same]
  · rw [still.verdicts, eng_modEng_same]
    dsimp only
    rw [(wroteTd_still _ _ _ _).verdicts, eng_modEng_same, Engine.modTd, eng_modPmem, eng_modEng_same]

theorem Popped.mmaOk (k : Popped e s t) (o : MmaOp) : t.mmaOk e o = s.mmaOk e o := by simp only [State.mmaOk, k.still.td]

end Sys2Proof.Machine

open Sys2Proof Sys2Proof.Machine

/-- Settles O17: the product is a walk over distinct elements of the descriptor's rows. -/
theorem mmaAccumulates : Obligations.MmaAccumulates := by
  intro e o s p hs hp
  refine ⟨fun k ok hk => leads_starts hs rfl fun t x => ?_, fun ok => leads_starts hs rfl fun t x => ?_⟩
  · obtain ⟨lands, bReg, v, verdicts, td, kblk, pc⟩ := doMma_lands ((x.only.phys _ _).trans hp) ((x.mmaOk o).trans ok)
      (by rwa [x.still.td, x.only.roundKey])
    simp only [x.only.parcel, x.still.td, x.only.stepNo, x.aRows, x.bOperand] at lands bReg
    have lands := lands.of_cells x.still.cells
    simp only [Bool.and_eq_true, decide_eq_true_eq] at ok
    obtain ⟨⟨-, used⟩, rows⟩ := ok
    have cols : ((s.bOperand e o).rows ((s.eng e).td o.td).vcols.toNat).length ≤ 128 := by
      simpa [BOperand.rows] using used_cols used
    refine ⟨lands.accsBut fun b hb => mmaOut_outside (by simpa [State.aRows] using rows) cols hb, lands.sameStores rfl, lands.sameDram, bReg,
      ⟨v, by rw [verdicts, x.still.verdicts], td, kblk, pc⟩, fun i j a b ha hb => ?_⟩
    rw [lands.acc_here, pmem_of_phys hp]
    exact mmaOut_elem cols ha hb
  · rw [doMma_refused ((x.mmaOk o).trans ok)]
    obtain ⟨stopped, dram, stores, accs⟩ := engHalt_stops x.still.cells e o.pc (opEngine 2 1)
    exact ⟨stopped, accs, stores, dram⟩
end

section
/-! SUPPORT. The one rounding into a row unit's destination (03 R99, R100, R102): what it writes and what it leaves. -/

namespace Sys2Proof.Machine

variable {s t u : State} {e : EngId} {p : Nat} {x : RowDest} {d : TileDesc} {rm : RoundMode} {thr : Nat → Nat → Nat} {satAt : Int × Nat}

/-! ### Into accumulator rows -/

/-- A descriptor's rows as A64 elements. -/
def wide (d : TileDesc) : TileDesc := { d with f32 := false }

theorem emitOne_rows (hx : x.dsel = true) (r : EmitOut) (o : RowOut) :
    (emitOne x d rm thr satAt r o).acc = putAccElem r.acc (wide d) o.1 o.2.1 (a64Code (rowToA64 rm (thr o.1 o.2.1) d.wexp o.2.2).1) ∧
      (emitOne x d rm thr satAt r o).store = r.store := by
  simp only [emitOne, RowDest.a64, hx, Bool.true_or, if_true]
  exact ⟨rfl, rfl⟩

theorem emitOne_writes (hx : x.dsel = true) : WritesElems (wide d) EmitOut.acc (fun o : RowOut => (o.1, o.2.1))
    (fun _ o => a64Code (rowToA64 rm (thr o.1 o.2.1) d.wexp o.2.2).1) (emitOne x d rm thr satAt) :=
  ⟨fun r o => (emitOne_rows hx r o).1⟩

/-- The results inside a descriptor's shape. -/
def insideShape (d : TileDesc) (outs : List RowOut) : List RowOut :=
  outs.filter fun o => decide (o.1 < d.vrows.toNat ∧ o.2.1 < d.vcols.toNat)

theorem mem_insideShape {outs : List RowOut} {o : RowOut} :
    o ∈ insideShape d outs ↔ o ∈ outs ∧ o.1 < d.vrows.toNat ∧ o.2.1 < d.vcols.toNat := by
  rw [insideShape, List.mem_filter, decide_eq_true_eq]

/-- The threshold of a conversion's rounding (02 R51). -/
def convThreshold (rm : RoundMode) (k : Nat × Nat) (n : Nat) (d : TileDesc) (i j : Nat) : Nat :=
  if rm.toNat = 0 then roundThreshold k.1 k.2 n (d.elemIndex i j) mConv else 0

theorem emitAll_plain (hx : x.form.2 = false) (k : Nat × Nat) (n : Nat) (outs : List RowOut) (pm : ParcelMem) :
    emitAll x d rm k n satAt outs pm =
      (insideShape d outs).foldl (emitOne x d rm (convThreshold rm k n d) satAt) { acc := pm.acc, store := pm.store } := by
  unfold emitAll
  dsimp only
  rw [hx, if_neg (by decide)]
  rfl

theorem form_rows (hx : x.dsel = true) : x.form = (10, false) := by simp [RowDest.form, RowDest.a64, hx]

section
variable {k : Nat × Nat} {n : Nat} {outs : List RowOut} {pm : ParcelMem} (hx : x.dsel = true) (hu : d.used = true)
include hx

theorem emitAll_rows_store : (emitAll x d rm k n satAt outs pm).store = pm.store := by
  have keep (l : List RowOut) (thr : Nat → Nat → Nat) : ∀ r : EmitOut, (l.foldl (emitOne x d rm thr satAt) r).store = r.store := by
    induction l with
    | nil => intro r; rfl
    | cons o l ih => intro r; rw [List.foldl_cons, ih, (emitOne_rows hx r o).2]
  rw [emitAll_plain (by rw [form_rows hx]), keep]

include hu

theorem emitAll_rows_outside {b : Nat} (hb : ¬((wide d).accRange.1 ≤ b ∧ b < (wide d).accRange.1 + (wide d).accRange.2)) :
    mget (emitAll x d rm k n satAt outs pm).acc b = mget pm.acc b := by
  have cols := used_cols hu
  rw [emitAll_plain (by rw [form_rows hx])]
  refine (emitOne_writes hx).outside hb _ _ fun o ho => ?_
  obtain ⟨-, hi, hj⟩ := mem_insideShape.1 ho
  exact ⟨hi, by omega⟩

/-- A result inside the destination's shape stands there, converted once. -/
theorem emitAll_rows_elem {i j : Nat} {v : RowVal} (distinct : (outs.map fun o : RowOut => (o.1, o.2.1)).Nodup) (ho : (i, j, v) ∈ outs)
    (hi : i < d.vrows.toNat) (hj : j < d.vcols.toNat) :
    accElem (emitAll x d rm k n satAt outs pm).acc (wide d) i j = a64Code (rowToA64 rm (convThreshold rm k n d i j) d.wexp v).1 % 2 ^ 64 := by
  have cols := used_cols hu
  rw [emitAll_plain (by rw [form_rows hx])]
  refine (emitOne_writes hx).visited (x := (i, j, v)) _ _ ?_ (fun o ho => ?_) (mem_insideShape.2 ⟨ho, hi, hj⟩)
  · exact distinct.sublist (List.filter_sublist.map _)
  · have := (mem_insideShape.1 ho).2.2
    dsimp only
    omega

end

/-! ### Into the store -/

/-- From `r` to `r'` the accumulator stands, and the store outside `n` bytes at `a`. -/
structure EmitsWithin (a n : Nat) (r r' : EmitOut) : Prop where
  acc : r'.acc = r.acc
  store : ∀ b, ¬(a ≤ b ∧ b < a + n) → mget r'.store b = mget r.store b

theorem EmitsWithin.refl {a n : Nat} (r : EmitOut) : EmitsWithin a n r r := ⟨rfl, fun _ _ => rfl⟩
theorem EmitsWithin.trans {a n : Nat} {r r' r'' : EmitOut} (h : EmitsWithin a n r r') (k : EmitsWithin a n r' r'') : EmitsWithin a n r r'' :=
  ⟨k.acc.trans h.acc, fun b hb => (k.store b hb).trans (h.store b hb)⟩

theorem EmitsWithin.foldl {α : Type} {a n : Nat} {f : EmitOut → α → EmitOut} (l : List α)
    (h : ∀ r, ∀ y ∈ l, EmitsWithin a n r (f r y)) : ∀ r, EmitsWithin a n r (l.foldl f r) := by
  induction l with
  | nil => intro r; exact .refl r
  | cons y l ih =>
    intro r
    exact (h r y List.mem_cons_self).trans (ih (fun r z hz => h r z (List.mem_cons_of_mem _ hz)) _)

/-- An element of a store tile lies in the tile's element bytes. -/
theorem putStoreElem_outside (m : Mem) (a : Nat) (f : BitVec 4) {i j : Nat} (c : Nat) (hi : i < 128) (hj : j < 128) {b : Nat}
    (hb : ¬(a ≤ b ∧ b < a + tileElemBytes f)) : mget (putStoreElem m a f i j c) b = mget m b := by
  unfold putStoreElem
  refine mget_mwrite_out _ _ _ _ ?_
  rw [leBytes_length]
  have bits : (j + 1) * fmtBits f ≤ 128 * fmtBits f := Nat.mul_le_mul_right _ hj
  have rows : (i + 1) * rowBytes f ≤ 128 * rowBytes f := Nat.mul_le_mul_right _ hi
  simp only [tileElemBytes, rowBytes, Nat.add_mul, Nat.one_mul] at hb bits rows ⊢
  omega

theorem scale_inside (a : Nat) (f : BitVec 4) {i q : Nat} (hi : i < 128) (hq : q < 4) :
    a ≤ scaleAddr a f i q ∧ scaleAddr a f i q < a + tileBytes f true := by
  simp only [scaleAddr, tileBytes, if_true]
  omega

theorem tileElemBytes_le (f : BitVec 4) (mx : Bool) : tileElemBytes f ≤ tileBytes f mx := Nat.le_add_right _ _

/-- A step that writes one element of a store tile. -/
theorem EmitsWithin.putStoreElem {r r' : EmitOut} {a n : Nat} {f : BitVec 4} {i j c : Nat} (hacc : r'.acc = r.acc)
    (hstore : r'.store = Machine.putStoreElem r.store a f i j c) (hf : tileElemBytes f ≤ n) (hi : i < 128) (hj : j < 128) :
    EmitsWithin a n r r' :=
  ⟨hacc, fun b hb => by rw [hstore, putStoreElem_outside _ _ _ _ hi hj (by omega)]⟩

theorem bytes_form {f : BitVec 4} {mx : Bool} (h : x.form = (f, mx)) : x.bytes = tileBytes f mx := by rw [RowDest.bytes, h]

theorem emitOne_store (hx : x.dsel = false) (r : EmitOut) (o : RowOut) (hi : o.1 < 128) (hj : o.2.1 < 128) :
    EmitsWithin (unitByte x.dadr) x.bytes r (emitOne x d rm thr satAt r o) := by
  unfold emitOne
  dsimp only
  split
  · next h =>
    have form : x.form = (10, false) := by rw [RowDest.form, if_pos h]
    rw [if_neg (by rw [hx]; decide)]
    exact .putStoreElem rfl rfl (by rw [bytes_form form]; exact tileElemBytes_le _ _) hi hj
  · next h =>
    have form : x.form = (x.dfmt, x.dmx) := by rw [RowDest.form, if_neg h]
    exact .putStoreElem rfl rfl (by rw [bytes_form form]; exact tileElemBytes_le _ _) hi hj

theorem emitGroup_store (hf : x.form = (x.dfmt, true)) (vcols : Nat) {i q : Nat} (vs : List RowOut) (r : EmitOut)
    (hi : i < 128) (hq : q < 4) : EmitsWithin (unitByte x.dadr) x.bytes r (emitGroup x rm thr vcols i q vs r) := by
  have size := bytes_form hf
  have elems : tileElemBytes x.dfmt ≤ x.bytes := by rw [size]; exact tileElemBytes_le _ _
  have scale := scale_inside (unitByte x.dadr) x.dfmt hi hq
  rw [← size] at scale
  unfold emitGroup
  dsimp only
  refine EmitsWithin.trans ?_ (.foldl _ (fun r k hk => ?_) _)
  · exact ⟨rfl, fun b hb => (mget_mset _ _ _ _).trans (if_neg (by omega))⟩
  · have hj : 32 * q + k < 128 := by
      have := List.mem_range.1 hk
      omega
    split
    · split
      · exact .refl r
      · exact .putStoreElem rfl rfl elems hi hj
    · exact .putStoreElem rfl rfl elems hi hj

/-- A destination in the store gets bytes of its tile alone. -/
theorem emitAll_store (hx : x.dsel = false) (hu : d.used = true) (k : Nat × Nat) (n : Nat) (outs : List RowOut) (pm : ParcelMem) :
    EmitsWithin (unitByte x.dadr) x.bytes { acc := pm.acc, store := pm.store } (emitAll x d rm k n satAt outs pm) := by
  have cols := used_cols hu
  have rows := used_rows hu
  cases hm : x.form.2 with
  | false =>
    rw [emitAll_plain hm]
    refine .foldl _ (fun r o ho => ?_) _
    obtain ⟨-, hi, hj⟩ := mem_insideShape.1 ho
    exact emitOne_store hx r o (by omega) (by omega)
  | true =>
    have form : x.form = (x.dfmt, true) := by
      unfold RowDest.form at hm ⊢
      split at hm
      · cases hm
      · next h => rw [if_neg h]; exact Prod.ext rfl hm
    unfold emitAll
    dsimp only
    rw [hm, if_pos rfl]
    refine .foldl _ (fun r i hi => .foldl _ (fun r q hq => ?_) _) _
    obtain ⟨o, ho, rfl⟩ := List.mem_map.1 (List.mem_eraseDups.1 hi)
    have inside := (mem_insideShape.1 ho).2.1
    split
    · exact .refl r
    · exact emitGroup_store form _ _ r (by omega) (List.mem_range.1 hq)

/-! ### The destination -/

/-- What finishing a row word makes of its parcel's memories. -/
theorem finishRow_lands (hp : (s.sheet e.sheet.val).phys e.parcel.val = some p) (hs : SheetsKeep Sheet.cells s t) (r : EmitOut)
    (fl : NFlags) (q : Bool) (op : BitVec 16) : Lands e.sheet.val p (r.store, r.acc) s (t.finishRow e x r fl q op) := by
  refine modPmem_lands_on hp hs (f := fun m => { m with acc := r.acc, store := r.store }) ?_ (g := fun _ => (r.store, r.acc)) fun _ => rfl
  unfold State.finishRow
  dsimp only
  refine SheetsKeep.trans ?_ (rangeCheck_still _ _ _ _).cells
  split
  · exact (cells_modEng _ _ _).trans (wroteTd_still _ _ _ _).cells
  · exact (cells_modEng _ _ _).trans ((Still.modPmem e _ (by intro _; rfl)).cells.trans (wroteStore_still _ _ _ _ _).cells)

/-- Results of rows named, column by column. -/
def rowOuts (frow nrows cols : Nat) (v : Nat → Nat → RowVal) : List RowOut :=
  (rowPlaces frow nrows cols).map fun q => (q.1, q.2, v q.1 q.2)

theorem rowPlaces_eq (frow nrows cols : Nat) : rowPlaces frow nrows cols = (places nrows cols).map fun q => (frow + q.1, q.2) := by
  simp [rowPlaces, places, List.map_flatMap, Function.comp_def]

theorem mem_rowOuts {frow nrows cols : Nat} {v : Nat → Nat → RowVal} {i j : Nat} (hi : i < nrows) (hj : j < cols) :
    (frow + i, j, v (frow + i) j) ∈ rowOuts frow nrows cols v := by
  rw [rowOuts, rowPlaces_eq, List.map_map]
  exact List.mem_map.2 ⟨(i, j), mem_places.2 ⟨hi, hj⟩, rfl⟩

theorem rowOuts_distinct (frow nrows cols : Nat) (v : Nat → Nat → RowVal) :
    ((rowOuts frow nrows cols v).map fun o : RowOut => (o.1, o.2.1)).Nodup := by
  rw [rowOuts, rowPlaces_eq, List.map_map, List.map_map]
  refine (places_nodup nrows cols).map fun a b h => ?_
  obtain ⟨rows, cols⟩ := Prod.mk.inj h
  exact Prod.ext (Nat.add_left_cancel rows) cols

/-- What a row word that writes its results of rows named leaves. -/
theorem finishRow_rowOuts (hp : (s.sheet e.sheet.val).phys e.parcel.val = some p) (hs : SheetsKeep Sheet.cells s t) (hu : d.used = true)
    {k : Nat × Nat} {n frow nrows : Nat} {v : Nat → Nat → RowVal} {r : EmitOut}
    (hr : emitAll x d rm k n satAt (rowOuts frow nrows d.vcols.toNat v) (s.pmem e) = r) (fl : NFlags) (q : Bool) (op : BitVec 16) :
    let u := t.finishRow e x r fl q op
    SameDram s u ∧
      (x.dsel = true → SameStores s u ∧ AccsBut e.sheet.val p (wide d).accRange.1 (wide d).accRange.2 s u ∧
        ∀ i j, i < nrows → frow + i < d.vrows.toNat → j < d.vcols.toNat →
          accElem ((u.sheet e.sheet.val).parcel p).acc (wide d) (frow + i) j =
            a64Code (rowToA64 rm (convThreshold rm k n d (frow + i) j) d.wexp (v (frow + i) j)).1 % 2 ^ 64) ∧
      (x.dsel = false → SameAccs s u ∧ StoresBut e.sheet.val p (unitByte x.dadr) x.bytes s u) := by
  have lands := finishRow_lands (x := x) hp hs r fl q op
  rw [pmem_of_phys hp] at hr
  refine ⟨lands.sameDram, fun hx => ⟨lands.sameStores ?_, lands.accsBut fun b hb => ?_, fun i j hi hv hj => ?_⟩,
    fun hx => ⟨lands.sameAccs ?_, lands.storesBut fun b hb => ?_⟩⟩
  · rw [← hr, emitAll_rows_store hx]
  · rw [← hr, emitAll_rows_outside hx hu hb]
  · rw [lands.acc_here, ← hr]
    exact emitAll_rows_elem hx hu (rowOuts_distinct _ _ _ _) (mem_rowOuts hi hj) hv hj
  · rw [← hr, (emitAll_store hx hu _ _ _ _).acc]
  · rw [← hr, (emitAll_store hx hu _ _ _ _).store b hb]

end Sys2Proof.Machine
end

section
/-! O21 and O23: chains and conversions (03 R99, R100, R102). -/

namespace Sys2Proof.Machine

variable {s t u : State} {e : EngId} {p : Nat}

/-! ### ROW_CHAIN -/

/-- The destination of a chain. -/
def chainDest (o : ChainOp) : RowDest := { dst := o.dst.val, dsel := o.dsel, dadr := o.dadr, dfmt := o.dfmt, dmx := o.dmx }

/-- Whether a chain's operands and destination are those that it may use (03 R91). -/
def State.chainOk (s : State) (e : EngId) (o : ChainOp) : Bool :=
  s.destOk e (chainDest o) && (o.scmode.toNat == 0 || inStore o.scadr 512) && (o.bmode.toNat == 0 || inStore o.badr 1024)

theorem chainOk_not (s : State) (e : EngId) (o : ChainOp) :
    (!s.destOk e (chainDest o) || (o.scmode.toNat != 0 && !inStore o.scadr 512) || (o.bmode.toNat != 0 && !inStore o.badr 1024)) =
      !s.chainOk e o := by
  simp only [State.chainOk, Bool.not_and, Bool.not_or, bne]

theorem doRowChain_refused {o : ChainOp} (h : s.chainOk e o = false) (d : Disturb) :
    s.doRowChain e o d = s.engHalt e o.pc (opEngine 3 1) := by
  have bad := chainOk_not s e o
  rw [h] at bad
  unfold State.doRowChain
  exact if_pos bad

/-- The result of a chain at an element. -/
def chainVal (s : State) (e : EngId) (o : ChainOp) (i j : Nat) : RowVal :=
  (chainElem o ((s.eng e).td o.src.val) (s.pmem e) (tget {} (s.pmem e).fnTables (o.fn.toNat - 8)) i j).1

theorem doRowChain_runs {o : ChainOp} (ok : s.chainOk e o = true) {k : Nat × Nat}
    (hk : s.roundKey e (o.rm == 0) ((s.eng e).td o.dst.val).tensor = some k) :
    ∃ (t : State) (fl : NFlags) (q : Bool), Still s t ∧ s.doRowChain e o {} = t.finishRow e (chainDest o)
      (emitAll (chainDest o) ((s.eng e).td o.dst.val) o.rm k (s.stepNo e.sheet.val) (0, 1)
        (rowOuts o.frow o.nrows ((s.eng e).td o.dst.val).vcols.toNat (chainVal s e o)) (s.pmem e)) fl q (opEngine 3 1) := by
  have good := chainOk_not s e o
  rw [ok] at good
  unfold State.doRowChain
  dsimp only
  rw [if_neg fun bad => Bool.noConfusion (bad.symm.trans good), hk]
  dsimp only
  rw [sramRead_none, residueFault_none, List.map_map]
  exact ⟨_, _, _, (parcelEvent_counts _ _ _ _).still, rfl⟩

/-! ### CONVERT and REWINDOW -/

/-- The destination of a conversion: REWINDOW's is A64. -/
def convDest (o : ConvOp) (a64 : Bool) : RowDest :=
  { dst := o.dst.val, dsel := o.dsel, dadr := o.dadr, dfmt := if a64 then 10 else o.dfmt, dmx := !a64 && o.dmx }

/-- Whether an A64 element is negative. -/
def a64Neg : A64 → Bool
  | .int v => decide (v < 0)
  | .nan => false

/-- The result of a conversion at an element: a saturated A64 element stays saturated in an A64 destination (02 R61). -/
def convVal (toA64 : Bool) (src : TileDesc) (m : Mem) (i j : Nat) : RowVal :=
  let sticky := !src.f32 && toA64 && decide (i < src.vrows.toNat ∧ j < src.vcols.toNat)
  let a := if sticky then a64Of (accElem m src i j) else .int 0
  if sticky && a64IsSat a then .sat (a64Neg a) else rowOfVal (srcVal m src i j)

section
variable {src : TileDesc} {m : Mem} {i j : Nat}

theorem convVal_inside (h : src.f32 = false ∧ i < src.vrows.toNat ∧ j < src.vcols.toNat) : convVal true src m i j =
    if a64IsSat (a64Of (accElem m src i j)) then .sat (a64Neg (a64Of (accElem m src i j))) else rowOfVal (srcVal m src i j) := by
  obtain ⟨hf, inside⟩ := h
  simp only [convVal, hf, inside, and_self, decide_true, Bool.not_false, Bool.true_and, if_true]

theorem convVal_outside (h : ¬(src.f32 = false ∧ i < src.vrows.toNat ∧ j < src.vcols.toNat)) :
    convVal true src m i j = rowOfVal (srcVal m src i j) := by
  have plain : (!src.f32 && true && decide (i < src.vrows.toNat ∧ j < src.vcols.toNat)) = false := by
    rw [← Bool.not_eq_true]
    simpa using h
  simp only [convVal, plain, Bool.false_and, Bool.false_eq_true, if_false]

end

theorem pair_ite {α : Type} (c : Prop) [Decidable c] (i j : Nat) (a b : α) :
    (if c then (i, j, a) else (i, j, b)) = (i, j, if c then a else b) := by split <;> rfl

theorem doConvert_runs {o : ConvOp} {a64 : Bool} (ok : s.destOk e (convDest o a64) = true) {k : Nat × Nat}
    (hk : s.roundKey e (o.rm == 0) ((s.eng e).td o.dst.val).tensor = some k) (opc : Nat) :
    ∃ (t : State) (outs : List RowOut) (q : Bool), Still s t ∧ s.doConvert e o {} a64 opc = t.finishRow e (convDest o a64)
        (emitAll (convDest o a64) ((s.eng e).td o.dst.val) o.rm k (s.stepNo e.sheet.val) (0, 1) outs (s.pmem e)) 0 q (opEngine 5 opc) ∧
      outs = rowOuts o.frow o.nrows ((s.eng e).td o.dst.val).vcols.toNat
        (convVal (convDest o a64).a64 ((s.eng e).td o.src.val) (s.pmem e).acc) := by
  unfold convDest at ok
  unfold State.doConvert
  dsimp only
  rw [ok, if_neg (by decide), hk]
  dsimp only
  rw [sramRead_none, residueFault_none]
  refine ⟨_, _, _, (parcelEvent_counts _ _ _ _).still, rfl, List.map_congr_left fun q _ => ?_⟩
  exact pair_ite _ _ _ _ _

end Sys2Proof.Machine

open Sys2Proof Sys2Proof.Machine

/-- Settles O21: a chain's results are those of rows named, each written once. -/
theorem rowChainIntoRows : Obligations.RowChainIntoRows := by
  intro e o s p hs hp
  refine ⟨fun k ok used hk => leads_starts hs rfl fun t x => ?_, fun ok => leads_starts hs rfl fun t x => ?_⟩
  · have good : t.chainOk e o = true := by
      rw [State.chainOk, x.destOk]
      exact ok
    obtain ⟨v, fl, q, still, run⟩ := doRowChain_runs good (k := k) (by rwa [x.still.td, x.only.roundKey])
    have val : chainVal t e o = chainVal s e o := by unfold chainVal; rw [x.still.td, x.only.pmem]
    rw [x.still.td, x.only.stepNo, x.only.pmem, val] at run
    rw [run]
    exact finishRow_rowOuts hp (x.still.trans still).cells used rfl _ _ _
  · have bad : t.chainOk e o = false := by
      rw [State.chainOk, x.destOk]
      exact ok
    rw [doRowChain_refused bad]
    obtain ⟨stopped, dram, stores, accs⟩ := engHalt_stops x.still.cells e o.pc (opEngine 3 1)
    exact ⟨stopped, accs, stores, dram⟩

/-- Settles O23: a conversion's results are those of rows named, each written once. -/
theorem conversionsIntoRows : Obligations.ConversionsIntoRows := by
  intro e o s p k hp h src dst d64 pm dest val did used hk
  have same (i j : Nat) : convVal true src pm.acc i j = val i j := by
    by_cases inside : src.f32 = false ∧ i < src.vrows.toNat ∧ j < src.vcols.toNat
    · rw [show val i j = _ from if_pos inside, convVal_inside inside]
      cases a64Of (accElem pm.acc src i j) <;> rfl
    · rw [show val i j = _ from if_neg inside, convVal_outside inside]
  have finish (a64 : Bool) (t : State) (opc : Nat) (x : Popped e s t) (ok : s.destOk e (dest a64) = true) :
      did a64 (t.doConvert e o {} a64 opc) := by
    obtain ⟨v, outs, q, still, run, places⟩ := doConvert_runs ((x.destOk _).trans ok) (k := k)
      (by rwa [x.still.td, x.only.roundKey]) opc
    rw [places, x.still.td, x.still.td, x.only.stepNo, x.only.pmem] at run
    obtain ⟨dram, rows, store⟩ := finishRow_rowOuts hp (x.still.trans still).cells used rfl 0 q (opEngine 5 opc)
    rw [← run] at dram rows store
    refine ⟨dram, fun hd => ?_, store⟩
    obtain ⟨stores, accs, elems⟩ := rows hd
    refine ⟨stores, accs, fun i j hi hv hj => (elems i j hi hv hj).trans ?_⟩
    have wideDest : (convDest o a64).a64 = true := by simp [convDest, RowDest.a64, hd]
    rw [wideDest, same]
    rfl
  exact ⟨fun hs ok => leads_starts hs rfl fun t x => finish false t 1 x ok,
    fun hs ok => leads_starts hs rfl fun t x => finish true t 2 x ok⟩
end

section
/-! O22: reductions into accumulator rows (03 R101; 02 R63, R64). -/

namespace Sys2Proof.Machine

variable {s t u : State} {e : EngId} {p : Nat} {o : RedOp}

/-! ### The places of a reduction's results -/

theorem redPlace_injective {dir : Bool} {g h n m : Nat} (k : redPlace dir g n = redPlace dir h m) : g = h ∧ n = m := by
  unfold redPlace at k
  split at k
  · exact ⟨(Prod.mk.inj k).2, (Prod.mk.inj k).1⟩
  · exact ⟨(Prod.mk.inj k).1, (Prod.mk.inj k).2⟩

/-- Two results of each of distinct groups stand in distinct places. -/
theorem redPlaces_nodup (dir : Bool) {gs : List Nat} (h : gs.Nodup) : (gs.flatMap fun g => [redPlace dir g 0, redPlace dir g 1]).Nodup := by
  refine List.nodup_flatMap.2 ⟨fun g _ => ?_, h.imp fun {a b} hab => ?_⟩
  · rw [List.nodup_cons, List.mem_singleton]
    exact ⟨fun k => absurd (redPlace_injective k).2 (by decide), List.nodup_singleton _⟩
  · simp only [Function.onFun, List.disjoint_left, List.mem_cons, List.not_mem_nil, or_false]
    rintro _ (rfl | rfl) (k | k) <;> exact hab (redPlace_injective k).1

/-- The groups summed are distinct rows or columns. -/
theorem redSums_nodup (o : RedOp) (d : TileDesc) (m : Mem) (thr : Nat → Nat → Nat) (sq : Bool) :
    ((redSums o d m thr sq).map Prod.fst).Nodup := by
  unfold redSums
  dsimp only
  split
  · rw [List.map_map, show (Prod.fst ∘ _) = id from rfl, List.map_id]
    exact List.nodup_range
  · rw [List.map_map, show (Prod.fst ∘ _) = id from rfl, List.map_id]
    exact (List.nodup_range.map fun a b h => Nat.add_left_cancel h).filter _

/-! ### Sums into rows -/

/-- The sums of each group with their places. -/
def redParts (o : RedOp) (d : TileDesc) (sq : Bool) (sums : List (Nat × Sums)) : List (Nat × Nat × A64 × Int) :=
  sums.flatMap fun g =>
    ((redPlace o.dir g.1 0).1, (redPlace o.dir g.1 0).2, g.2.s1, d.wexp) ::
      (if sq then [((redPlace o.dir g.1 1).1, (redPlace o.dir g.1 1).2, g.2.s2, 2 * d.wexp + o.dsh)] else [])

theorem redParts_distinct (o : RedOp) (d : TileDesc) (sq : Bool) {sums : List (Nat × Sums)} (h : (sums.map Prod.fst).Nodup) :
    ((redParts o d sq sums).map fun y => (y.1, y.2.1)).Nodup := by
  have pairs := redPlaces_nodup o.dir h
  rw [List.flatMap_map] at pairs
  rw [redParts, List.map_flatMap]
  cases sq with
  | true => exact pairs
  | false =>
    have single : (sums.flatMap fun g => [redPlace o.dir g.1 0]).Nodup := by
      have firsts : (sums.flatMap fun g => [redPlace o.dir g.1 0]) = (sums.map Prod.fst).map fun g => redPlace o.dir g 0 := by
        rw [List.map_map, ← List.map_eq_flatMap]
        rfl
      rw [firsts]
      exact h.map fun a b k => (redPlace_injective k).1
    exact single

/-- One sum written, added to what stood there with CONT. -/
def redStep (o : RedOp) (d : TileDesc) (r : EmitOut) (y : Nat × Nat × A64 × Int) : EmitOut :=
  let v := if o.cont then a64Sum (a64Of (accElem r.acc (wide d) y.1 y.2.1)) y.2.2.1
    else (y.2.2.1, flagIf (a64IsSat y.2.2.1) fSAT ||| flagIf (y.2.2.1 == .nan) fNAN)
  { r with acc := putAccElem r.acc (wide d) y.1 y.2.1 (a64Code v.1), fl := r.fl ||| v.2 }

/-- The code that a sum leaves where `old` stood. -/
def redJoin (o : RedOp) (old : Nat) (v : A64) : Nat := a64Code (if o.cont then (a64Sum (a64Of old) v).1 else v)

theorem redStep_writes (o : RedOp) (d : TileDesc) :
    WritesElems (wide d) EmitOut.acc (fun y : Nat × Nat × A64 × Int => (y.1, y.2.1)) (fun old y => redJoin o old y.2.2.1) (redStep o d) := by
  refine ⟨fun r y => ?_⟩
  unfold redStep redJoin
  dsimp only
  rw [apply_ite Prod.fst]

/-- The sums inside the destination's shape, written one after another. -/
def redOut (o : RedOp) (d : TileDesc) (parts : List (Nat × Nat × A64 × Int)) (m : ParcelMem) : EmitOut :=
  (parts.filter fun y => decide (y.1 < d.vrows.toNat ∧ y.2.1 < d.vcols.toNat)).foldl (redStep o d) { acc := m.acc, store := m.store }

theorem redOut_store (o : RedOp) (d : TileDesc) (parts : List (Nat × Nat × A64 × Int)) (m : ParcelMem) :
    (redOut o d parts m).store = m.store := by
  have keep (l : List (Nat × Nat × A64 × Int)) : ∀ r : EmitOut, (l.foldl (redStep o d) r).store = r.store := by
    induction l with
    | nil => intro r; rfl
    | cons y l ih => intro r; rw [List.foldl_cons, ih]; rfl
  exact keep _ _

section
variable {d : TileDesc} {parts : List (Nat × Nat × A64 × Int)} {m : ParcelMem} (hu : d.used = true)
include hu

theorem redOut_outside {b : Nat} (hb : ¬((wide d).accRange.1 ≤ b ∧ b < (wide d).accRange.1 + (wide d).accRange.2)) :
    mget (redOut o d parts m).acc b = mget m.acc b := by
  have cols := used_cols hu
  refine (redStep_writes o d).outside hb _ _ fun y hy => ?_
  obtain ⟨hi, hj⟩ := of_decide_eq_true (List.mem_filter.1 hy).2
  exact ⟨hi, by omega⟩

theorem redOut_elem (distinct : (parts.map fun y => (y.1, y.2.1)).Nodup) {y : Nat × Nat × A64 × Int} (hy : y ∈ parts)
    (hi : y.1 < d.vrows.toNat) (hj : y.2.1 < d.vcols.toNat) :
    accElem (redOut o d parts m).acc (wide d) y.1 y.2.1 = redJoin o (accElem m.acc (wide d) y.1 y.2.1) y.2.2.1 % 2 ^ 64 := by
  have cols := used_cols hu
  refine (redStep_writes o d).visited (x := y) _ _ (distinct.sublist (List.filter_sublist.map _)) (fun z hz => ?_)
    (List.mem_filter.2 ⟨hy, decide_eq_true ⟨hi, hj⟩⟩)
  have := (of_decide_eq_true (List.mem_filter.1 hz).2).2
  dsimp only
  omega

end

/-! ### RED_SUM and RED_MOMENTS -/

/-- The destination of a reduction. -/
def redDest (o : RedOp) : RowDest := { dst := o.dst.val, dsel := o.dsel, dadr := o.dadr, dfmt := o.dfmt, dmx := o.dmx }

/-- The threshold of an input's rounding (02 R63). -/
def redThreshold (o : RedOp) (k : Nat × Nat) (n : Nat) (d : TileDesc) (i j : Nat) : Nat :=
  if o.rm.toNat = 0 then roundThreshold k.1 k.2 n (d.elemIndex i j) mRed else 0

theorem destOk_rows (hd : o.dsel = true) : s.destOk e (redDest o) = true := by simp [State.destOk, redDest, hd]

theorem doReduce_runs (hd : o.dsel = true) (sq : Bool) {k : Nat × Nat}
    (hk : s.roundKey e (o.rm == 0 && (((s.eng e).td o.src.val).f32 || sq)) ((s.eng e).td o.dst.val).tensor = some k) (opc : Nat) :
    ∃ (t : State) (r : EmitOut) (fl : NFlags) (q : Bool), Still s t ∧
      s.doReduce e o {} sq opc = t.finishRow e (redDest o) r fl q (opEngine 4 opc) ∧
      r.store = (s.pmem e).store ∧
      r.acc = (redOut o ((s.eng e).td o.dst.val) (redParts o ((s.eng e).td o.src.val) sq (redSums o ((s.eng e).td o.src.val) (s.pmem e).acc
        (redThreshold o k (s.stepNo e.sheet.val) ((s.eng e).td o.src.val)) sq)) (s.pmem e)).acc := by
  have ok := destOk_rows (s := s) (e := e) hd
  have needs : (o.rm == 0 && (((s.eng e).td o.src.val).f32 || sq || !o.dsel)) = (o.rm == 0 && (((s.eng e).td o.src.val).f32 || sq)) := by
    rw [hd, Bool.not_true, Bool.or_false]
  rw [← redOut_store o ((s.eng e).td o.dst.val) (redParts o ((s.eng e).td o.src.val) sq (redSums o ((s.eng e).td o.src.val) (s.pmem e).acc
        (redThreshold o k (s.stepNo e.sheet.val) ((s.eng e).td o.src.val)) sq))]
  unfold redDest at ok
  unfold State.doReduce
  dsimp only
  rw [ok, if_neg (by decide), needs, hk]
  dsimp only
  rw [sramRead_none, residueFault_none, if_pos hd]
  dsimp only [redOut, redParts, redStep, wide, redThreshold]
  exact ⟨_, _, _, _, (parcelEvent_counts _ _ _ _).still, rfl, rfl, rfl⟩

/-! ### RED_FINISH -/

/-- The sum at a place of the source, 0 outside its shape (log 22). -/
def finishAt (d : TileDesc) (m : Mem) (q : Nat × Nat) : A64 :=
  if q.1 < d.vrows.toNat ∧ q.2 < d.vcols.toNat then a64Of (accElem m (wide d) q.1 q.2) else .int 0

/-- Mean and variance of a group. -/
def finishGroup (o : RedOp) (d : TileDesc) (m : Mem) (g : Nat) : RowVal × RowVal × NFlags :=
  finishSums d.wexp o.dsh o.count (finishAt d m (redPlace o.dir g 0)) (finishAt d m (redPlace o.dir g 1))

/-- The groups that RED_FINISH finishes. -/
def finishGroups (o : RedOp) (d : TileDesc) : List Nat :=
  if o.dir then List.range d.vcols.toNat else (List.range o.nrows).map (o.frow + ·)

/-- The results of RED_FINISH. -/
def finishOuts (o : RedOp) (d : TileDesc) (m : Mem) : List RowOut :=
  (finishGroups o d).flatMap fun g =>
    [((redPlace o.dir g 0).1, (redPlace o.dir g 0).2, (finishGroup o d m g).1),
      ((redPlace o.dir g 1).1, (redPlace o.dir g 1).2, (finishGroup o d m g).2.1)]

theorem mem_finishGroups {d : TileDesc} {g : Nat} :
    g ∈ finishGroups o d ↔ if o.dir then g < d.vcols.toNat else o.frow ≤ g ∧ g < o.frow + o.nrows := by
  unfold finishGroups
  split
  · exact List.mem_range
  · simp only [List.mem_map, List.mem_range]
    exact ⟨fun ⟨i, hi, h⟩ => by omega, fun h => ⟨g - o.frow, by omega, by omega⟩⟩

theorem finishGroups_nodup (o : RedOp) (d : TileDesc) : (finishGroups o d).Nodup := by
  unfold finishGroups
  split
  · exact List.nodup_range
  · exact List.nodup_range.map fun a b h => Nat.add_left_cancel h

theorem finishOuts_distinct (o : RedOp) (d : TileDesc) (m : Mem) : ((finishOuts o d m).map fun y : RowOut => (y.1, y.2.1)).Nodup := by
  rw [finishOuts, List.map_flatMap]
  exact redPlaces_nodup o.dir (finishGroups_nodup o d)

theorem doRedFinish_runs (hd : o.dsel = true) {k : Nat × Nat}
    (hk : s.roundKey e (o.rm == 0) ((s.eng e).td o.dst.val).tensor = some k) :
    ∃ (t : State) (fl : NFlags) (q : Bool), Still s t ∧ s.doRedFinish e o {} = t.finishRow e (redDest o)
      (emitAll (redDest o) ((s.eng e).td o.dst.val) o.rm k (s.stepNo e.sheet.val) (0, 1)
        (finishOuts o ((s.eng e).td o.src.val) (s.pmem e).acc) (s.pmem e)) fl q (opEngine 4 3) := by
  have ok := destOk_rows (s := s) (e := e) hd
  unfold redDest at ok
  unfold State.doRedFinish
  dsimp only
  rw [ok, if_neg (by decide), hk]
  dsimp only
  rw [sramRead_none, residueFault_none, List.flatMap_map]
  exact ⟨_, _, _, (parcelEvent_counts _ _ _ _).still, rfl⟩

/-! ### What a reduction leaves -/

/-- Bytes outside the destination's rows stand. -/
theorem finishRow_frame (hp : (s.sheet e.sheet.val).phys e.parcel.val = some p) (hs : SheetsKeep Sheet.cells s t) {x : RowDest} {d : TileDesc}
    {r : EmitOut} (hstore : r.store = (s.pmem e).store)
    (hacc : ∀ b, ¬((wide d).accRange.1 ≤ b ∧ b < (wide d).accRange.1 + (wide d).accRange.2) → mget r.acc b = mget (s.pmem e).acc b)
    (fl : NFlags) (q : Bool) (op : BitVec 16) :
    let u := t.finishRow e x r fl q op
    (SameDram s u ∧ SameStores s u ∧ AccsBut e.sheet.val p (wide d).accRange.1 (wide d).accRange.2 s u) ∧
      ((u.sheet e.sheet.val).parcel p).acc = r.acc := by
  have lands := finishRow_lands (x := x) hp hs r fl q op
  rw [pmem_of_phys hp] at hstore hacc
  exact ⟨⟨lands.sameDram, lands.sameStores hstore, lands.accsBut hacc⟩, lands.acc_here⟩

/-- Each sum of a group that lies inside the destination's shape is one of the results. -/
theorem mem_redParts {d : TileDesc} {sq : Bool} {sums : List (Nat × Sums)} {g : Nat × Sums} (hg : g ∈ sums) :
    ((redPlace o.dir g.1 0).1, (redPlace o.dir g.1 0).2, g.2.s1, d.wexp) ∈ redParts o d sq sums ∧
      (sq = true → ((redPlace o.dir g.1 1).1, (redPlace o.dir g.1 1).2, g.2.s2, 2 * d.wexp + o.dsh) ∈ redParts o d sq sums) := by
  refine ⟨List.mem_flatMap.2 ⟨g, hg, List.mem_cons_self⟩, fun h => List.mem_flatMap.2 ⟨g, hg, ?_⟩⟩
  rw [if_pos h]
  exact List.mem_cons_of_mem _ (List.mem_singleton.2 rfl)

theorem mem_finishOuts {d : TileDesc} {m : Mem} {g : Nat} (hg : g ∈ finishGroups o d) :
    ((redPlace o.dir g 0).1, (redPlace o.dir g 0).2, (finishGroup o d m g).1) ∈ finishOuts o d m ∧
      ((redPlace o.dir g 1).1, (redPlace o.dir g 1).2, (finishGroup o d m g).2.1) ∈ finishOuts o d m :=
  ⟨List.mem_flatMap.2 ⟨g, hg, List.mem_cons_self⟩,
    List.mem_flatMap.2 ⟨g, hg, List.mem_cons_of_mem _ (List.mem_singleton.2 rfl)⟩⟩

end Sys2Proof.Machine

open Sys2Proof Sys2Proof.Machine

/-- Settles O22: a reduction's results stand in distinct places, each written once. -/
theorem reductionsIntoRows : Obligations.ReductionsIntoRows := by
  intro e o s p k hp hd h src dst d64 pm inside frame elem thr join used
  have reduce (sq : Bool) (opc : Nat) (t : State) (x : Popped e s t)
      (hk : s.roundKey e (o.rm == 0 && (src.f32 || sq)) dst.tensor = some k) :
      frame (t.doReduce e o {} sq opc) ∧ ∀ y ∈ redParts o src sq (redSums o src pm.acc thr sq), inside (y.1, y.2.1) →
        elem (t.doReduce e o {} sq opc) (y.1, y.2.1) = join (y.1, y.2.1) y.2.2.1 := by
    obtain ⟨v, r, fl, q, still, run, store, acc⟩ := doReduce_runs hd sq (k := k) (by rwa [x.still.td, x.still.td, x.only.roundKey]) opc
    rw [x.only.pmem] at store
    rw [x.still.td, x.still.td, x.only.stepNo, x.only.pmem] at acc
    obtain ⟨frame, rows⟩ := finishRow_frame (x := redDest o) hp (x.still.trans still).cells store
      (fun b hb => by rw [acc, redOut_outside used hb]) fl q (opEngine 4 opc)
    rw [run]
    refine ⟨frame, fun y hy hin => ?_⟩
    exact (congrArg (fun m => accElem m d64 y.1 y.2.1) (rows.trans acc)).trans
      (redOut_elem used (redParts_distinct o src sq (redSums_nodup _ _ _ _ _)) hy hin.1 hin.2)
  refine ⟨fun hs hk => leads_starts hs rfl fun t x => ?_, fun hs hk => leads_starts hs rfl fun t x => ?_,
    fun hs hk => leads_starts hs rfl fun t x => ?_⟩
  · obtain ⟨frame, elems⟩ := reduce false 1 t x (by rwa [Bool.or_false])
    exact ⟨frame, fun g hg => elems _ (mem_redParts hg).1⟩
  · obtain ⟨frame, elems⟩ := reduce true 2 t x (by rwa [Bool.or_true, Bool.and_true])
    exact ⟨frame, fun g hg => ⟨elems _ (mem_redParts hg).1, elems _ ((mem_redParts hg).2 rfl)⟩⟩
  · obtain ⟨v, fl, q, still, run⟩ := doRedFinish_runs hd (k := k) (by rwa [x.still.td, x.only.roundKey])
    rw [x.still.td, x.still.td, x.only.stepNo, x.only.pmem] at run
    obtain ⟨frame, rows⟩ := finishRow_frame (x := redDest o) hp (x.still.trans still).cells (emitAll_rows_store hd)
      (fun b hb => emitAll_rows_outside (x := redDest o) hd used hb) fl q (opEngine 4 3)
    rw [← run] at frame rows
    refine ⟨frame, fun g hg => ?_⟩
    obtain ⟨mean, variance⟩ := mem_finishOuts (m := pm.acc) (mem_finishGroups.2 hg)
    exact ⟨fun hin => (congrArg (fun m => accElem m d64 _ _) rows).trans
        (emitAll_rows_elem hd used (finishOuts_distinct _ _ _) mean hin.1 hin.2),
      fun hin => (congrArg (fun m => accElem m d64 _ _) rows).trans
        (emitAll_rows_elem hd used (finishOuts_distinct _ _ _) variance hin.1 hin.2)⟩
end

section
/-! SUPPORT. Weights in order, and the kept set (04 R135): which elements a cut keptAt, how many, and of what weight. -/

namespace Sys2Proof.Machine

/-! ### Sorting -/

theorem insertDesc_eq (x : Nat) (l : List Nat) : insertDesc x l = l.orderedInsert (· ≥ ·) x := by
  induction l with
  | nil => rfl
  | cons y r ih => simp only [insertDesc, List.orderedInsert_cons, ih, ge_iff_le]

theorem sortDesc_eq (l : List Nat) : sortDesc l = l.reverse.insertionSort (· ≥ ·) := by
  simp only [sortDesc, List.insertionSort, List.foldr_reverse, insertDesc_eq]

theorem sortDesc_perm (l : List Nat) : (sortDesc l).Perm l := by
  rw [sortDesc_eq]
  exact (List.perm_insertionSort _ _).trans l.reverse_perm

theorem sortDesc_pairwise (l : List Nat) : (sortDesc l).Pairwise (· ≥ ·) := by
  rw [sortDesc_eq]
  exact List.pairwise_insertionSort _ _

/-! ### Elements by global index -/

/-- Weights with their places in a list as global indices. -/
def indexed (ws : List Nat) : List (Nat × Nat) := ws.zipIdx.map fun x => (x.2, x.1)

theorem indexed_weights (ws : List Nat) : (indexed ws).map Prod.snd = ws := by
  rw [indexed, List.map_map]
  exact List.zipIdx_map_fst 0 ws

theorem indexed_indices (ws : List Nat) : (indexed ws).map Prod.fst = List.range ws.length := by
  rw [indexed, List.map_map, List.range_eq_range']
  exact List.zipIdx_map_snd 0 ws

theorem indexed_split {ws : List Nat} {i : Nat} (h : i < ws.length) :
    indexed ws = (indexed ws).take i ++ (i, ws.getD i 0) :: (indexed ws).drop (i + 1) := by
  have there : i < (indexed ws).length := by simpa [indexed] using h
  have elem : (indexed ws)[i] = (i, ws.getD i 0) := by simp [indexed, h]
  rw [← elem, ← List.drop_eq_getElem_cons there, List.take_append_drop]

/-- What stands before an element in index order is as many elements as its index says. -/
theorem indexed_before {ws : List Nat} {i q : Nat} {a b : List (Nat × Nat)} (h : indexed ws = a ++ (i, q) :: b) :
    a = (indexed ws).take i := by
  have indices := congrArg (fun l => (l.map Prod.fst)[a.length]?) h
  have len := congrArg List.length h
  simp only [indexed, List.length_map, List.length_zipIdx, List.length_append, List.length_cons] at len
  simp only [indexed_indices, List.map_append, List.map_cons] at indices
  rw [List.getElem?_append_right (by simp), List.length_map, Nat.sub_self, List.getElem?_cons_zero,
    List.getElem?_range (by omega), Option.some.injEq] at indices
  rw [← indices, h, List.take_left]

theorem countP_indexed (ws : List Nat) (p : Nat → Bool) : (indexed ws).countP (fun x => p x.2) = ws.countP p := by
  conv_rhs => rw [← indexed_weights ws, List.countP_map]
  rfl

/-! ### The kept set -/

/-- Whether an element of weight `q` is kept that `n` elements of the weight q_k precede (R135 step 5). -/
def keptAt (qk : Nat) (tau : Option Nat) (qp n q : Nat) : Bool :=
  decide (0 < q ∧ qp ≤ q) && (decide (qk < q) || (q == qk && (match tau with | none => true | some t => decide (n < t))))

/-- How many elements hold the weight q_k and pass top-p (R136). -/
def tiesOf (qk qp : Nat) (l : List (Nat × Nat)) : Nat := l.countP fun x => x.2 == qk && decide (qp ≤ x.2)

section
variable {qk qp n i q : Nat} {tau : Option Nat}

theorem keptOf_cons (x : Nat × Nat) (r : List (Nat × Nat)) :
    keptOf qk tau qp n (x :: r) = (if keptAt qk tau qp n x.2 then [x] else []) ++ keptOf qk tau qp (n + tiesOf qk qp [x]) r := by
  have seen : (if x.2 == qk && decide (qp ≤ x.2) then n + 1 else n) = n + tiesOf qk qp [x] := by
    simp only [tiesOf, List.countP_cons, List.countP_nil]
    split <;> rfl
  rw [← seen]
  show (if keptAt qk tau qp n x.2 then x :: keptOf qk tau qp _ r else keptOf qk tau qp _ r) = _
  split <;> rfl

theorem keptOf_append (a : List (Nat × Nat)) : ∀ (n : Nat) (b : List (Nat × Nat)),
    keptOf qk tau qp n (a ++ b) = keptOf qk tau qp n a ++ keptOf qk tau qp (n + tiesOf qk qp a) b := by
  induction a with
  | nil => intro n b; rfl
  | cons x a ih =>
    intro n b
    rw [List.cons_append, keptOf_cons, ih, keptOf_cons, List.append_assoc, Nat.add_assoc]
    simp only [tiesOf, ← List.countP_append, List.singleton_append]

theorem keptOf_sublist (l : List (Nat × Nat)) : ∀ n, (keptOf qk tau qp n l).Sublist l := by
  induction l with
  | nil => intro n; exact List.Sublist.slnil
  | cons x l ih =>
    intro n
    rw [keptOf_cons]
    split
    · exact (ih _).cons_cons x
    · exact (ih _).cons x

/-- A kept element is one that the elements before it let be kept. -/
theorem mem_keptOf {l : List (Nat × Nat)} :
    (i, q) ∈ keptOf qk tau qp n l ↔ ∃ a b, l = a ++ (i, q) :: b ∧ keptAt qk tau qp (n + tiesOf qk qp a) q = true := by
  constructor
  · induction l generalizing n with
    | nil => intro h; cases h
    | cons x l ih =>
      intro h
      rw [keptOf_cons, List.mem_append] at h
      rcases h with h | h
      · split at h
        · next k =>
          obtain rfl := List.mem_singleton.1 h
          exact ⟨[], l, rfl, k⟩
        · cases h
      · obtain ⟨a, b, rfl, k⟩ := ih h
        refine ⟨x :: a, b, rfl, ?_⟩
        rwa [Nat.add_assoc, tiesOf, tiesOf, ← List.countP_append] at k
  · rintro ⟨a, b, rfl, k⟩
    rw [keptOf_append, keptOf_cons, if_pos k]
    exact List.mem_append_right _ List.mem_cons_self

/-- With no quota of ties, or none that top-k can meet, the kept set is a matter of weights alone. -/
theorem keptOf_eq_filter (h : tau = none ∨ qk = 0) (l : List (Nat × Nat)) :
    ∀ n, keptOf qk tau qp n l = l.filter fun x => decide (0 < x.2 ∧ qp ≤ x.2 ∧ qk ≤ x.2) := by
  have weight (n q : Nat) : keptAt qk tau qp n q = decide (0 < q ∧ qp ≤ q ∧ qk ≤ q) := by
    rw [Bool.eq_iff_iff]
    rcases h with rfl | rfl
    · simp only [keptAt, Bool.and_true, Bool.and_eq_true, Bool.or_eq_true, decide_eq_true_eq, beq_iff_eq]
      omega
    · simp only [keptAt, Bool.and_eq_true, Bool.or_eq_true, decide_eq_true_eq, beq_iff_eq]
      omega
  induction l with
  | nil => intro n; rfl
  | cons x l ih =>
    intro n
    rw [keptOf_cons, ih, weight, List.filter_cons]
    split <;> rfl

end

end Sys2Proof.Machine
end

section
/-! O27: top-k keeps the TOPK largest weights (04 R135 step 2). -/

namespace Sys2Proof.Machine

/-- With a quota of `t` ties above 0, kept are all elements of a greater weight and the ties that the quota admits. -/
theorem length_keptOf_quota {qk t : Nat} (h : 0 < qk) (l : List (Nat × Nat)) :
    ∀ n, (keptOf qk (some t) 0 n l).length = l.countP (fun x => decide (qk < x.2)) + min (l.countP fun x => x.2 == qk) (t - n) := by
  induction l with
  | nil => intro n; simp [keptOf]
  | cons x l ih =>
    intro n
    rw [keptOf_cons, List.length_append, ih, List.countP_cons, List.countP_cons]
    have tie : tiesOf qk 0 [x] = if x.2 = qk then 1 else 0 := by simp [tiesOf]
    have kept : keptAt qk (some t) 0 n x.2 = decide (qk < x.2 ∨ x.2 = qk ∧ n < t) := by
      rw [Bool.eq_iff_iff]
      simp only [keptAt, Bool.and_eq_true, Bool.or_eq_true, decide_eq_true_eq, beq_iff_eq]
      omega
    simp only [tie, kept, decide_eq_true_eq, beq_iff_eq]
    split_ifs <;> simp only [List.length_nil, List.length_singleton] <;> omega

/-- The value at place `k` of a falling list: at most `k` values exceed it, and more than `k` reach it. -/
theorem rank_bounds {l : List Nat} (h : l.Pairwise (· ≥ ·)) {k : Nat} (hk : k < l.length) :
    l.countP (fun q => decide (l.getD k 0 < q)) ≤ k ∧ k < l.countP fun q => decide (l.getD k 0 ≤ q) := by
  rw [List.getD_eq_getElem _ _ hk]
  have cut := List.take_append_drop k l
  rw [List.drop_eq_getElem_cons hk] at cut
  rw [← cut, List.pairwise_append, List.pairwise_cons] at h
  obtain ⟨-, ⟨below, -⟩, above⟩ := h
  generalize l[k] = v at *
  rw [← cut]
  simp only [List.countP_append, List.countP_cons, decide_eq_true_eq, Nat.lt_irrefl, if_false, le_refl, if_true]
  have len : (l.take k).length = k := by rw [List.length_take]; omega
  have none : (l.drop (k + 1)).countP (fun q => decide (v < q)) = 0 :=
    List.countP_eq_zero.2 fun q hq => by have := below q hq; simp; omega
  have all : (l.take k).countP (fun q => decide (v ≤ q)) = (l.take k).length :=
    List.countP_eq_length.2 fun q hq => by have := above q hq v List.mem_cons_self; simp; omega
  have most := List.countP_le_length (p := fun q => decide (v < q)) (l := l.take k)
  omega

theorem countP_le_eq (v : Nat) (l : List Nat) :
    l.countP (fun q => decide (v ≤ q)) = l.countP (fun q => decide (v < q)) + l.countP (fun q => q == v) := by
  induction l with
  | nil => rfl
  | cons q l ih =>
    simp only [List.countP_cons, ih, decide_eq_true_eq, beq_iff_eq]
    split <;> split <;> split <;> omega

/-- The cut of top-k (R135 step 2): off, it excludes no weight; else it stands at the TOPK-th largest weight `v`, with no quota where
exactly TOPK elements reach `v`. -/
theorem cutK_cases (ws : List Nat) (k : Nat) :
    (ws.length ≤ k ∧ (cutK (sortDesc ws) k).1 = 0 ∧ (cutK (sortDesc ws) k).2.1 = none ∨ k = 0) ∨
    ∃ v, (cutK (sortDesc ws) k).1 = v ∧ ws.countP (fun q => decide (v < q)) < k ∧ k ≤ ws.countP (fun q => decide (v ≤ q)) ∧
      (ws.countP (fun q => decide (v ≤ q)) = k ∧ (cutK (sortDesc ws) k).2.1 = none ∧ k < ws.length ∨
        (cutK (sortDesc ws) k).2.1 = some (k - ws.countP fun q => decide (v < q))) := by
  have len := (sortDesc_perm ws).length_eq
  by_cases off : k = 0 ∨ ws.length ≤ k
  · left
    rcases off with h | h
    · exact .inr h
    · have run : cutK (sortDesc ws) k = (0, none, 0) := if_pos (.inr (by omega))
      rw [run]
      exact .inl ⟨h, rfl, rfl⟩
  · right
    rw [not_or] at off
    have bounds := rank_bounds (sortDesc_pairwise ws) (k := k - 1) (by omega)
    have count (p : Nat → Bool) := (sortDesc_perm ws).countP_eq p
    generalize hv : (sortDesc ws).getD (k - 1) 0 = v at bounds
    rw [count, count] at bounds
    refine ⟨v, ?_, by omega, by omega, ?_⟩ <;>
      simp only [cutK, if_neg (show ¬(k = 0 ∨ (sortDesc ws).length ≤ k) by omega), hv, ← List.countP_eq_length_filter, count]
    · split <;> rfl
    · split
      · next eq => exact .inl ⟨eq, rfl, by omega⟩
      · exact .inr rfl

/-- The number of elements that top-k keeps (R135). -/
theorem length_topK (ws : List Nat) {k : Nat} (hk : 0 < k) :
    (keptOf (cutK (sortDesc ws) k).1 (cutK (sortDesc ws) k).2.1 0 0 (indexed ws)).length = min k (ws.countP fun q => decide (0 < q)) := by
  have weights (p : Nat → Bool) := countP_indexed ws p
  have filtered (v : Nat) : (indexed ws).countP (fun x => decide (0 < x.2 ∧ 0 ≤ x.2 ∧ v ≤ x.2)) =
      ws.countP fun q => decide (0 < q ∧ v ≤ q) := by simpa using weights fun q => decide (0 < q ∧ v ≤ q)
  have positive := List.countP_le_length (p := fun q => decide (0 < q)) (l := ws)
  have zero : ws.countP (fun q => decide (0 ≤ q)) = ws.length := by simp
  rcases cutK_cases ws k with (⟨few, qk, tau⟩ | rfl) | ⟨v, qk, above, reach, ⟨exact, tau, many⟩ | tau⟩
  · rw [qk, tau, keptOf_eq_filter (.inl rfl), ← List.countP_eq_length_filter, filtered]
    simp only [Nat.zero_le, and_true]
    omega
  · omega
  · have vpos : 0 < v := Nat.pos_of_ne_zero fun e => by subst e; omega
    have same : ws.countP (fun q => decide (0 < q ∧ v ≤ q)) = k := by
      rw [← exact]
      exact List.countP_congr fun q _ => by simp only [decide_eq_true_eq]; omega
    have more : k ≤ ws.countP fun q => decide (0 < q) := by
      rw [← exact]
      exact List.countP_mono_left fun q _ h => by simp only [decide_eq_true_eq] at h ⊢; omega
    rw [qk, tau, keptOf_eq_filter (.inl rfl), ← List.countP_eq_length_filter, filtered, same]
    omega
  · rw [qk, tau]
    rcases Nat.eq_zero_or_pos v with rfl | vpos
    · rw [keptOf_eq_filter (.inr rfl), ← List.countP_eq_length_filter, filtered]
      simp only [Nat.zero_le, and_true]
      omega
    · have more : ws.countP (fun q => decide (v ≤ q)) ≤ ws.countP fun q => decide (0 < q) :=
        List.countP_mono_left fun q _ h => by simp only [decide_eq_true_eq] at h ⊢; omega
      have split := countP_le_eq v ws
      rw [length_keptOf_quota vpos, weights fun q => decide (v < q), weights fun q => q == v]
      omega

/-- An element is kept by what precedes it in index order. -/
theorem mem_keptOf_indexed {qk qp i : Nat} {tau : Option Nat} {ws : List Nat} (hi : i < ws.length) :
    (i, ws.getD i 0) ∈ keptOf qk tau qp 0 (indexed ws) ↔
      keptAt qk tau qp (tiesOf qk qp ((indexed ws).take i)) (ws.getD i 0) = true := by
  simp only [mem_keptOf, Nat.zero_add]
  constructor
  · rintro ⟨a, b, h, k⟩
    rwa [indexed_before h] at k
  · exact fun k => ⟨_, _, indexed_split hi, k⟩

/-- Later elements have at least as many ties before them. -/
theorem tiesOf_take_le {qk qp i j : Nat} (h : i ≤ j) (l : List (Nat × Nat)) : tiesOf qk qp (l.take i) ≤ tiesOf qk qp (l.take j) :=
  (List.take_sublist_take_left h).countP_le

/-- Top-k leaves out no element of a greater weight than one it keeps, nor an earlier one of the same weight. -/
theorem keptAt_order {qk n m q r : Nat} {tau : Option Nat} (kept : keptAt qk tau 0 n q = true) (out : ¬keptAt qk tau 0 m r = true)
    (pos : 0 < r) : r ≤ q ∧ (r = q → n < m) := by
  cases tau <;> simp only [keptAt, Bool.and_eq_true, Bool.or_eq_true, decide_eq_true_eq, beq_iff_eq, and_true] at kept out <;> omega

end Sys2Proof.Machine

open Sys2Proof Sys2Proof.Machine

/-- Settles O27: kept elements are counted by weight, and which ties are kept by how many ties come before them. -/
theorem topKKeepsExactly : Obligations.TopKKeepsExactly := by
  intro ws topk hk
  refine ⟨?_, keptOf_sublist _ _, fun i j hi hj kept out pos => ?_⟩
  · rw [← List.countP_eq_length_filter]
    exact length_topK ws hk
  · obtain ⟨weight, order⟩ := keptAt_order ((mem_keptOf_indexed hi).1 kept) (mt (mem_keptOf_indexed hj).2 out) pos
    refine ⟨weight, fun same => ?_⟩
    by_contra later
    exact absurd (tiesOf_take_le (by omega) (indexed ws)) (not_le.2 (order same))
end

section
/-! O28: top-p keeps at least its share of the weight (04 R135 step 3). -/

namespace Sys2Proof.Machine

theorem firstReach_mem {m : Nat} (l : List Nat) : ∀ run, run < m → m ≤ run + l.sum → firstReach id m run l ∈ l := by
  induction l with
  | nil => intro run h k; rw [List.sum_nil] at k; omega
  | cons q l ih =>
    intro run h k
    rw [List.sum_cons] at k
    simp only [firstReach, id]
    split
    · exact List.mem_cons_self
    · exact List.mem_cons_of_mem _ (ih _ (by omega) (by omega))

/-- In a falling list with a total of at least `m`: the elements that reach the value found hold at least `m`, those that exceed it
less, where the run so far is short of `m`. -/
theorem firstReach_bounds {m : Nat} (l : List Nat) : ∀ run, l.Pairwise (· ≥ ·) → run < m → m ≤ run + l.sum →
    m ≤ run + (l.filter (firstReach id m run l ≤ ·)).sum ∧ run + (l.filter (firstReach id m run l < ·)).sum < m := by
  induction l with
  | nil => intro run _ h k; rw [List.sum_nil] at k; omega
  | cons q l ih =>
    intro run sorted h k
    rw [List.pairwise_cons] at sorted
    obtain ⟨below, sorted⟩ := sorted
    rw [List.sum_cons] at k
    by_cases here : m ≤ run + q
    · have none : l.filter (q < ·) = [] := List.filter_eq_nil_iff.2 fun x hx => by have := below x hx; simp; omega
      have first : firstReach id m run (q :: l) = q := if_pos here
      rw [first, List.filter_cons_of_pos (by simp), List.filter_cons_of_neg (by simp), none, List.sum_cons, List.sum_nil]
      omega
    · have first : firstReach id m run (q :: l) = firstReach id m (run + q) l := if_neg here
      obtain ⟨reach, short⟩ := ih (run + q) sorted (by omega) (by omega)
      have lower := below _ (firstReach_mem (m := m) l (run + q) (by omega) (by omega))
      rw [first, List.filter_cons_of_pos (by simpa using lower), List.filter_cons, List.sum_cons]
      split
      · rw [List.sum_cons]; omega
      · omega

/-- Elements of weight 0 add nothing. -/
theorem sum_filter_pos (l : List Nat) (p : Nat → Bool) : (l.filter fun q => decide (0 < q) && p q).sum = (l.filter p).sum := by
  induction l with
  | nil => rfl
  | cons q l ih =>
    rcases Nat.eq_zero_or_pos q with rfl | h
    · rw [List.filter_cons_of_neg (by simp), ih, List.filter_cons]
      split
      · rw [List.sum_cons, Nat.zero_add]
      · rfl
    · rw [List.filter_cons, List.filter_cons]
      simp only [h, decide_true, Bool.true_and]
      split
      · rw [List.sum_cons, List.sum_cons, ih]
      · exact ih

/-- The weight that top-p alone keeps is that of the elements at its threshold or above. -/
theorem sum_topP (ws : List Nat) (qp : Nat) :
    ((keptOf 0 none qp 0 (indexed ws)).map Prod.snd).sum = (ws.filter (qp ≤ ·)).sum := by
  rw [← sum_filter_pos, keptOf_eq_filter (.inl rfl)]
  conv_rhs => rw [← indexed_weights ws, List.filter_map]
  simp only [Function.comp_def, Nat.zero_le, and_true, Bool.decide_and]

end Sys2Proof.Machine

open Sys2Proof Sys2Proof.Machine

/-- Settles O28: the threshold is the value at which the falling weights first reach the target. -/
theorem topPCoversItsMass : Obligations.TopPCoversItsMass := by
  intro ws topp total off qp kept m
  have perm := sortDesc_perm ws
  have cut : qp = firstReach id m 0 (sortDesc ws) := by
    show (cutP _ _ _).1 = _
    rw [cutP, if_neg (by omega)]
  have target : m ≤ ws.sum := by
    have : ws.sum * topp ≤ ws.sum * 65535 := Nat.mul_le_mul_left _ (by omega)
    show (ws.sum * topp + 65535) / 65536 ≤ _
    omega
  have weigh (p : Nat → Bool) : ((sortDesc ws).filter p).sum = (ws.filter p).sum := (perm.filter p).sum_eq
  rw [show (kept.map Prod.snd).sum = _ from sum_topP ws qp]
  rcases Nat.eq_zero_or_pos m with zero | pos
  · exact ⟨by omega, fun h => by omega⟩
  · have bounds := firstReach_bounds (sortDesc ws) 0 (sortDesc_pairwise ws) pos (by rw [Nat.zero_add, perm.sum_eq]; exact target)
    rw [← cut, weigh, weigh, Nat.zero_add, Nat.zero_add] at bounds
    exact ⟨bounds.1, fun _ => bounds.2⟩
end

section
/-! SUPPORT. The owning lane's scan (04 R136): it finds the least kept index whose running weight exceeds the target. -/

namespace Sys2Proof.Machine

/-- The weight of some elements. -/
def weightSum (l : List (Nat × Nat)) : Nat := (l.map Prod.snd).sum

theorem weightSum_append (a b : List (Nat × Nat)) : weightSum (a ++ b) = weightSum a + weightSum b := by
  rw [weightSum, List.map_append, List.sum_append]
  rfl

/-! ### The index picked -/

/-- The index picked belongs to the element at which the running weight passes the target. -/
theorem pickIndex_splits {t : Nat} (l : List (Nat × Nat)) : ∀ run, run ≤ t → t < run + weightSum l →
    ∃ a b i q, l = a ++ (i, q) :: b ∧ pickIndex t run l = i ∧ run + weightSum a ≤ t ∧ t < run + weightSum a + q := by
  induction l with
  | nil => intro run h k; exact absurd k (not_lt.2 h)
  | cons x l ih =>
    intro run h k
    obtain ⟨i, q⟩ := x
    by_cases here : t < run + q
    · exact ⟨[], l, i, q, rfl, if_pos here, h, here⟩
    · have total : weightSum ((i, q) :: l) = q + weightSum l := List.sum_cons
      obtain ⟨a, b, j, r, rfl, pick, lo, hi⟩ := ih (run + q) (by omega) (by omega)
      have before : weightSum ((i, q) :: a) = q + weightSum a := List.sum_cons
      exact ⟨(i, q) :: a, b, j, r, rfl, (if_neg here).trans pick, by omega, by omega⟩

theorem pickIndex_mem {t run : Nat} {l : List (Nat × Nat)} (h : run ≤ t) (k : t < run + weightSum l) :
    ∃ x ∈ l, x.1 = pickIndex t run l := by
  obtain ⟨a, b, i, q, rfl, pick, -⟩ := pickIndex_splits l run h k
  exact ⟨(i, q), List.mem_append_right _ List.mem_cons_self, pick.symm⟩

/-- A pick passes over a part of the list that does not reach the target. -/
theorem pickIndex_append {t : Nat} (b a : List (Nat × Nat)) : ∀ run, run ≤ t →
    pickIndex t run (a ++ b) = if t < run + weightSum a then pickIndex t run a else pickIndex t (run + weightSum a) b := by
  induction a with
  | nil => intro run h; exact (if_neg (not_lt.2 h)).symm
  | cons x a ih =>
    intro run h
    have total : weightSum (x :: a) = x.2 + weightSum a := List.sum_cons
    simp only [List.cons_append, pickIndex, total]
    split
    · rw [if_pos (by omega)]
    · rw [ih _ (by omega)]
      simp only [Nat.add_assoc]

/-- The part of the target that has been run through can be taken off it. -/
theorem pickIndex_shift {t p : Nat} (h : p ≤ t) (l : List (Nat × Nat)) : ∀ run, pickIndex t (run + p) l = pickIndex (t - p) run l := by
  induction l with
  | nil => intro run; rfl
  | cons x l ih =>
    intro run
    simp only [pickIndex, show t < run + p + x.2 ↔ t - p < run + x.2 by omega, ← ih]
    rw [Nat.add_right_comm]

/-! ### The scan of one lane -/

section
variable {qk qp : Nat} {tau : Option Nat}

/-- No tie is kept once the quota is used up. -/
theorem ties_kept_none {t n : Nat} (h : t ≤ n) (l : List (Nat × Nat)) : (keptOf qk (some t) qp n l).countP (fun x => x.2 == qk) = 0 := by
  refine List.countP_eq_zero.2 fun x hx => ?_
  obtain ⟨a, b, -, k⟩ := mem_keptOf.1 hx
  simp only [keptAt, Bool.and_eq_true, Bool.or_eq_true, decide_eq_true_eq, beq_iff_eq] at k ⊢
  omega

/-- The quota of ties left decides as the number of ties met does. -/
theorem quota_decides (n w i : Nat) (l : List (Nat × Nat)) :
    let quota := (keptOf qk tau qp n ((i, w) :: l)).countP fun x => x.2 == qk
    (decide (0 < w ∧ qp ≤ w) && (decide (qk < w) || (w == qk && decide (0 < quota)))) = keptAt qk tau qp n w ∧
      (if keptAt qk tau qp n w && w == qk then quota - 1 else quota) =
        (keptOf qk tau qp (n + tiesOf qk qp [(i, w)]) l).countP fun x => x.2 == qk := by
  intro quota
  have split : quota = (if keptAt qk tau qp n w && w == qk then 1 else 0) +
      (keptOf qk tau qp (n + tiesOf qk qp [(i, w)]) l).countP fun x => x.2 == qk := by
    show List.countP _ (keptOf qk tau qp n ((i, w) :: l)) = _
    rw [keptOf_cons, List.countP_append]
    cases keptAt qk tau qp n w <;> simp [List.countP_cons]
  by_cases tie : w = qk
  · subst tie
    cases kept : keptAt w tau qp n w
    · rw [kept] at split
      refine ⟨?_, by simpa using split⟩
      by_contra keep
      simp only [Bool.not_eq_false, Bool.and_eq_true, Bool.or_eq_true, decide_eq_true_eq, Nat.lt_irrefl, false_or] at keep
      cases tau with
      | none => simp [keptAt, keep.1] at kept
      | some t =>
        simp [keptAt, keep.1] at kept
        rw [ties_kept_none (by omega)] at split
        simp [split] at keep
    · rw [kept] at split
      simp only [beq_self_eq_true, Bool.and_self, if_true] at split ⊢
      refine ⟨?_, by omega⟩
      simp only [keptAt, Bool.and_eq_true, decide_eq_true_eq] at kept
      simp only [kept.1, Bool.and_eq_true, Bool.or_eq_true, decide_eq_true_eq, true_and]
      omega
  · have other : (w == qk) = false := beq_false_of_ne tie
    rw [other, Bool.and_false, if_neg Bool.false_ne_true] at split ⊢
    exact ⟨by simp only [keptAt, other, Bool.false_and], by omega⟩

/-- A lane's scan with its quota of ties picks among the lane's kept elements, where these reach the target. -/
theorem scanLane_eq {t : Nat} (l : List (Nat × Nat)) : ∀ run n, run ≤ t → t < run + weightSum (keptOf qk tau qp n l) →
    scanLane qk qp t ((keptOf qk tau qp n l).countP fun x => x.2 == qk) run l = some (pickIndex t run (keptOf qk tau qp n l)) := by
  induction l with
  | nil => intro run n h k; exact absurd k (not_lt.2 h)
  | cons x l ih =>
    intro run n h k
    obtain ⟨i, w⟩ := x
    obtain ⟨keep, quota⟩ := quota_decides (tau := tau) (qp := qp) (qk := qk) n w i l
    simp only [scanLane, keep, quota]
    rw [keptOf_cons] at k ⊢
    cases kept : keptAt qk tau qp n w
    · rw [kept] at k
      simp only [Bool.false_and, Bool.false_eq_true, if_false, List.nil_append] at k ⊢
      exact ih run _ h k
    · rw [kept, if_pos rfl, List.singleton_append] at k
      simp only [if_true, Bool.true_and, decide_eq_true_eq, List.singleton_append, pickIndex]
      split
      · rfl
      · have total := List.sum_cons (a := w) (l := (keptOf qk tau qp (n + tiesOf qk qp [(i, w)]) l).map Prod.snd)
        exact ih (run + w) _ (by omega) (by simp only [weightSum, List.map_cons, total] at k ⊢; omega)

end

/-! ### Elements in index order -/

theorem insertIdx_eq (x : Nat × Nat) (l : List (Nat × Nat)) : insertIdx x l = l.orderedInsert (fun a b => a.1 ≤ b.1) x := by
  induction l with
  | nil => rfl
  | cons y r ih => simp only [insertIdx, List.orderedInsert_cons, ih]

theorem sortIdx_eq (l : List (Nat × Nat)) : sortIdx l = l.reverse.insertionSort fun a b => a.1 ≤ b.1 := by
  simp only [sortIdx, List.insertionSort, List.foldr_reverse, insertIdx_eq]

/-- Elements of distinct indices come in one order, whatever order they arrive in (R133). -/
theorem sortIdx_of_perm {l m : List (Nat × Nat)} (h : l.Perm m) (sorted : m.Pairwise fun a b => a.1 < b.1) : sortIdx l = m := by
  have total : Std.Total fun a b : Nat × Nat => a.1 ≤ b.1 := ⟨fun a b => Nat.le_total a.1 b.1⟩
  have trans : IsTrans (Nat × Nat) fun a b => a.1 ≤ b.1 := ⟨fun _ _ _ => Nat.le_trans⟩
  have perm : (sortIdx l).Perm m := by
    rw [sortIdx_eq]
    exact ((List.perm_insertionSort _ _).trans l.reverse_perm).trans h
  refine perm.eq_of_pairwise (le := fun a b => a.1 ≤ b.1) (fun a b ha hb ab ba => ?_) ?_ (sorted.imp Nat.le_of_lt)
  · have distinct : (m.map Prod.fst).Nodup := List.pairwise_map.2 (sorted.imp Nat.ne_of_lt)
    exact List.inj_on_of_nodup_map distinct (perm.mem_iff.1 ha) hb (Nat.le_antisymm ab ba)
  · rw [sortIdx_eq]
    exact List.pairwise_insertionSort _ _

/-- In index order the elements below an index come first. -/
theorem filter_index_split (k : Nat) (l : List (Nat × Nat)) (sorted : l.Pairwise fun a b => a.1 < b.1) :
    (l.filter fun x => decide (x.1 < k)) ++ (l.filter fun x => !decide (x.1 < k)) = l := by
  induction l with
  | nil => rfl
  | cons x l ih =>
    rw [List.pairwise_cons] at sorted
    obtain ⟨above, sorted⟩ := sorted
    by_cases h : x.1 < k
    · rw [List.filter_cons_of_pos (by simpa using h), List.filter_cons_of_neg (by simpa using h), List.cons_append, ih sorted]
    · rw [List.filter_eq_nil_iff.2, List.filter_eq_self.2, List.nil_append] <;>
        intro y hy <;> rcases List.mem_cons.1 hy with rfl | hy
      · simpa using h
      · have := above y hy; simp; omega
      · simpa using h
      · have := above y hy; simp; omega

theorem filter_lane (ln : Nat × Nat) (l : List (Nat × Nat)) :
    (l.filter fun x => !decide (x.1 < ln.1)).filter (fun x => decide (x.1 < ln.1 + ln.2)) = inLane ln l := by
  rw [List.filter_filter, inLane]
  refine List.filter_congr fun x _ => ?_
  rw [Bool.eq_iff_iff]
  simp only [Bool.and_eq_true, Bool.not_eq_true', decide_eq_true_eq, decide_eq_false_iff_not]
  omega

/-- A lane's elements stand together in index order, those below the lane before them and those above it after them. -/
theorem lane_split (ln : Nat × Nat) (l : List (Nat × Nat)) (sorted : l.Pairwise fun a b => a.1 < b.1) :
    ∃ b, l = (l.filter fun x => decide (x.1 < ln.1)) ++ (inLane ln l ++ b) ∧ ∀ x ∈ b, ln.1 + ln.2 ≤ x.1 := by
  have upper := filter_index_split (ln.1 + ln.2) (l.filter fun x => !decide (x.1 < ln.1)) (sorted.filter _)
  rw [filter_lane] at upper
  refine ⟨_, by rw [upper, filter_index_split ln.1 l sorted], fun x hx => ?_⟩
  simpa using (List.mem_filter.1 hx).2

section
variable {qk qp : Nat} {tau : Option Nat}

/-- The kept elements of a list in index order, cut at a lane's bounds: those below the lane, those in it with the ties that come
before it counted, and those above it. -/
theorem kept_split (ln : Nat × Nat) (l : List (Nat × Nat)) (sorted : l.Pairwise fun a b => a.1 < b.1) :
    ∃ n b, keptOf qk tau qp 0 l =
        ((keptOf qk tau qp 0 l).filter fun x => decide (x.1 < ln.1)) ++ (keptOf qk tau qp n (inLane ln l) ++ b) ∧
      inLane ln (keptOf qk tau qp 0 l) = keptOf qk tau qp n (inLane ln l) ∧ ∀ x ∈ b, ln.1 + ln.2 ≤ x.1 := by
  obtain ⟨b, split, above⟩ := lane_split ln l sorted
  have lower : ∀ x ∈ l.filter fun x => decide (x.1 < ln.1), x.1 < ln.1 := fun x hx => by simpa using (List.mem_filter.1 hx).2
  have inside : ∀ x ∈ inLane ln l, ln.1 ≤ x.1 ∧ x.1 < ln.1 + ln.2 := fun x hx => by simpa using (List.mem_filter.1 hx).2
  generalize (l.filter fun x => decide (x.1 < ln.1)) = a at split lower
  generalize inLane ln l = m at split inside
  subst split
  rw [keptOf_append, keptOf_append]
  generalize 0 + tiesOf qk qp a = n
  have lower : ∀ x ∈ keptOf qk tau qp 0 a, x.1 < ln.1 := fun x hx => lower x ((keptOf_sublist a 0).subset hx)
  have inside : ∀ x ∈ keptOf qk tau qp n m, ln.1 ≤ x.1 ∧ x.1 < ln.1 + ln.2 := fun x hx => inside x ((keptOf_sublist m n).subset hx)
  have above : ∀ x ∈ keptOf qk tau qp (n + tiesOf qk qp m) b, ln.1 + ln.2 ≤ x.1 :=
    fun x hx => above x ((keptOf_sublist b _).subset hx)
  refine ⟨n, keptOf qk tau qp (n + tiesOf qk qp m) b, ?_, ?_, above⟩
  · rw [List.filter_append, List.filter_append, List.filter_eq_self.2 fun x hx => by simpa using lower x hx,
      List.filter_eq_nil_iff.2 fun x hx => by have := inside x hx; simp; omega,
      List.filter_eq_nil_iff.2 fun x hx => by have := above x hx; simp; omega, List.append_nil, List.append_nil]
  · rw [inLane, List.filter_append, List.filter_append, List.filter_eq_nil_iff.2 fun x hx => by have := lower x hx; simp; omega,
      List.filter_eq_self.2 fun x hx => by simpa using inside x hx,
      List.filter_eq_nil_iff.2 fun x hx => by have := above x hx; simp; omega, List.append_nil, List.nil_append]

/-- The scan of the lane that owns the target finds the index picked from all kept elements. -/
theorem scanLane_picks {l : List (Nat × Nat)} (sorted : l.Pairwise fun a b => a.1 < b.1) {t : Nat} {ln : Nat × Nat}
    (total : t < weightSum (keptOf qk tau qp 0 l))
    (owns : ln.1 ≤ pickIndex t 0 (keptOf qk tau qp 0 l) ∧ pickIndex t 0 (keptOf qk tau qp 0 l) < ln.1 + ln.2) :
    scanLane qk qp (t - weightSum ((keptOf qk tau qp 0 l).filter fun x => decide (x.1 < ln.1)))
      ((inLane ln (keptOf qk tau qp 0 l)).filter fun x => x.2 == qk).length 0 (inLane ln l) =
        some (pickIndex t 0 (keptOf qk tau qp 0 l)) := by
  obtain ⟨n, b, split, lane, above⟩ := kept_split (qk := qk) (qp := qp) (tau := tau) ln l sorted
  have lower : ∀ x ∈ (keptOf qk tau qp 0 l).filter fun x => decide (x.1 < ln.1), x.1 < ln.1 :=
    fun x hx => by simpa using (List.mem_filter.1 hx).2
  rw [lane, ← List.countP_eq_length_filter]
  generalize (keptOf qk tau qp 0 l).filter (fun x => decide (x.1 < ln.1)) = a at split lower
  rw [split] at total owns
  rw [split]
  generalize hk : keptOf qk tau qp n (inLane ln l) = k at total owns
  rw [weightSum_append, weightSum_append] at total
  rw [pickIndex_append _ _ _ (Nat.zero_le t), Nat.zero_add] at owns ⊢
  have reached : ¬t < weightSum a := fun h => by
    obtain ⟨x, hx, pick⟩ := pickIndex_mem (Nat.zero_le t) (by rwa [Nat.zero_add])
    rw [if_pos h, ← pick] at owns
    exact absurd owns.1 (not_le.2 (lower x hx))
  rw [if_neg reached, pickIndex_append _ _ _ (by omega)] at owns
  have inside : t < weightSum a + weightSum k := by
    by_contra h
    obtain ⟨x, hx, pick⟩ := pickIndex_mem (t := t) (run := weightSum a + weightSum k) (l := b) (by omega) (by omega)
    rw [if_neg h, ← pick] at owns
    exact absurd owns.2 (not_lt.2 (above x hx))
  have shift := pickIndex_shift (t := t) (p := weightSum a) (by omega) k 0
  rw [if_neg reached, pickIndex_append _ _ _ (by omega), if_pos inside, ← Nat.zero_add (weightSum a), shift, Nat.zero_add, ← hk]
  exact scanLane_eq _ 0 n (Nat.zero_le _) (by rw [hk]; omega)

end

/-- The index that pass D finds (R136). -/
theorem scanIndex_eq {c : HubCtx} {t : Nat} (w : Nat) (sorted : c.weights.Pairwise fun a b => a.1 < b.1)
    (kept : c.kept = keptOf c.qk c.tau c.qp 0 c.weights) (scan : c.scan.Perm c.weights) (total : t < weightSum c.kept) :
    c.scanIndex t w = pickIndex t 0 c.kept := by
  rw [HubCtx.scanIndex]
  split
  · rfl
  · next ln found =>
    have owns := List.find?_some found
    rw [decide_eq_true_eq] at owns
    have order : sortIdx (inLane ln c.scan) = inLane ln c.weights := sortIdx_of_perm (scan.filter _) (sorted.filter _)
    rw [order]
    rw [kept] at total owns ⊢
    exact congrArg (·.getD w) (scanLane_picks sorted total owns)

end Sys2Proof.Machine
end

section
/-! SUPPORT. Hub contexts and slots (04 R122, R133): what a change of them leaves, and what a pass finds where it starts. -/

namespace Sys2Proof.Machine

variable {s t u : State} {e : EngId} {o : PassOp}

/-! ### Hub contexts -/

/-- The context found for a slot is that slot's. -/
theorem hubOf_slot {x : Sheet} {n : Nat} {c : HubCtx} (h : x.hubOf n = some c) : c.slot = n := by
  have found := List.find?_some h
  exact beq_iff_eq.1 found

/-- A context put at a hub is the one found there. -/
theorem hubOf_putHub (x : Sheet) (c : HubCtx) : (x.putHub c).hubOf c.slot = some c := by
  unfold Sheet.putHub Sheet.hubOf
  split
  · next h =>
    obtain ⟨y, hy, slot⟩ := List.any_eq_true.1 h
    generalize x.hubs = l at hy
    induction l with
    | nil => cases hy
    | cons z l ih =>
      dsimp only at ih ⊢
      rw [List.map_cons, List.find?_cons]
      by_cases k : (z.slot == c.slot) = true
      · rw [if_pos k, beq_self_eq_true]
      · rw [if_neg k, Bool.eq_false_iff.2 k]
        refine ih ((List.mem_cons.1 hy).resolve_left fun e => k (e ▸ slot))
  · next h =>
    have none : (x.hubs.find? fun y => y.slot == c.slot) = none :=
      List.find?_eq_none.2 fun y hy k => h (List.any_eq_true.2 ⟨y, hy, k⟩)
    dsimp only
    rw [List.find?_append, none, Option.none_or, List.find?_cons, beq_self_eq_true]

/-- A context put at a hub changes the sheet's list of contexts alone. -/
theorem putHub_hubs (x : Sheet) (c : HubCtx) : ∃ l, x.putHub c = { x with hubs := l } := by
  unfold Sheet.putHub
  split
  · exact ⟨_, rfl⟩
  · exact ⟨_, rfl⟩

/-- A projection that does not see hub contexts. -/
def Unhubbed {β : Type} (π : Sheet → β) : Prop := ∀ (x : Sheet) l, π { x with hubs := l } = π x

theorem Unhubbed.putHub {β : Type} {π : Sheet → β} (h : Unhubbed π) (i : Nat) (c : HubCtx) :
    SheetsKeep π s (s.modSheet i fun x => x.putHub c) :=
  .modSheet i _ fun x => by
    obtain ⟨l, hl⟩ := putHub_hubs x c
    rw [hl, h]

theorem cells_unhubbed : Unhubbed Sheet.cells := fun _ _ => rfl
theorem slots_unhubbed : Unhubbed Sheet.slots := fun _ _ => rfl

theorem hubOf_modSheet_putHub (s : State) (i : Nat) (c : HubCtx) :
    ((s.modSheet i fun x => x.putHub c).sheet i).hubOf c.slot = some c := by
  rw [sheet_modSheet_same, hubOf_putHub]

/-! ### What a pass finds -/

section
variable (h : OnlyEngine e s t)
include h

theorem OnlyEngine.hubs (i : Nat) : (t.sheet i).hubs = (s.sheet i).hubs := h.keeps Sheet.hubs (fun _ => rfl) i
theorem OnlyEngine.hubOf (i n : Nat) : (t.sheet i).hubOf n = (s.sheet i).hubOf n := by simp only [Sheet.hubOf, h.hubs]
theorem OnlyEngine.slot (i n : Nat) : (t.sheet i).slot n = (s.sheet i).slot n := by
  simp only [Sheet.slot, h.keeps Sheet.slots (fun _ => rfl) i]
theorem OnlyEngine.homeOf (i n : Nat) : t.homeOf i n = s.homeOf i n := by simp only [State.homeOf, h.slot]
theorem OnlyEngine.participants (i n : Nat) : t.participants i n = s.participants i n := by
  simp only [State.participants, State.slotSheets, h.slot, h.pmap]
theorem OnlyEngine.maskUnit (i : Nat) (m : BitVec 16) : t.maskUnit i m = s.maskUnit i m := by
  simp only [State.maskUnit, State.tensorAt, State.curPlan, h.partOf, ctx_of_ctxs h.ctxs, part_of_parts h.parts]

end

/-- The pending values of the slot that a pass works on, at its home sheet (R122, R126). -/
def State.passRegs (s : State) (e : EngId) (o : PassOp) : SlotRegs := ((s.sheet (s.homeOf e.sheet.val o.slot.val)).slot o.slot.val).pend

/-- The hub context of a pass's slot. -/
def State.passHub (s : State) (e : EngId) (o : PassOp) : Option HubCtx := (s.sheet (s.homeOf e.sheet.val o.slot.val)).hubOf o.slot.val

/-- Where the mask of a pass stands (R128). -/
def State.passMask (s : State) (e : EngId) (o : PassOp) : Option Nat := s.maskUnit e.sheet.val (s.passRegs e o).mask

/-- The elements of a pass's vector with the logits of those allowed, and the slot flags met (R128). -/
def State.passVector (s : State) (e : EngId) (o : PassOp) : List (Nat × Option Int) × BitVec 8 :=
  readVector (s.pmem e) ((s.eng e).td o.src.val) (s.passMask e o) o.vbase o.nelem

/-- The elements alone. -/
def State.passEls (s : State) (e : EngId) (o : PassOp) : List (Nat × Option Int) := (s.passVector e o).1

/-- Their weights (R130). -/
def State.passWeights (s : State) (e : EngId) (o : PassOp) (c : HubCtx) : List (Nat × Nat) :=
  (s.passEls e o).map fun x => (x.1, (weightOf (s.passRegs e o) (c.lmax.getD 0) x.2).1)

/-- The state in which the hub of a pass's slot holds `c`. -/
def State.putPass (s : State) (e : EngId) (o : PassOp) (c : HubCtx) : State :=
  s.modSheet (s.homeOf e.sheet.val o.slot.val) fun x => x.putHub c

section
variable (h : Popped e s t)
include h

theorem Popped.passRegs : t.passRegs e o = s.passRegs e o := by simp only [State.passRegs, h.only.homeOf, h.only.slot]
theorem Popped.passHub : t.passHub e o = s.passHub e o := by simp only [State.passHub, h.only.homeOf, h.only.hubOf]
theorem Popped.passEls : t.passEls e o = s.passEls e o := by
  simp only [State.passEls, State.passVector, State.passMask, h.passRegs, h.only.pmem, h.still.td, h.only.maskUnit]
theorem Popped.passWeights (c : HubCtx) : t.passWeights e o c = s.passWeights e o c := by
  simp only [State.passWeights, h.passEls, h.passRegs]

end

end Sys2Proof.Machine
end

section
/-! O24: the pass words of a draw with weights (04 R128, R130, R133, R140). -/

namespace Sys2Proof.Machine

variable {s t : State} {e : EngId} {o : PassOp} {c : HubCtx}

/-! ### What each word does -/

/-- What SMP_MAX reports (R133, pass A). -/
def State.maxReport (s : State) (e : EngId) (o : PassOp) : PassReport :=
  { eng := e, logits := (s.passEls e o).filterMap fun x => x.2.map fun l => (x.1, l), weights := [], sflags := (s.passVector e o).2
    poison := (s.passRead e o (s.passMask e o) {}).2 }

/-- What SMP_WEIGH and SMP_CUT report (R133, passes B and C). -/
def State.weighReport (s : State) (e : EngId) (o : PassOp) (c : HubCtx) : PassReport :=
  { eng := e, logits := [], weights := s.passWeights e o c, poison := (s.passRead e o (s.passMask e o) {}).2
    sflags := if (s.passEls e o).any fun x => (weightOf (s.passRegs e o) (c.lmax.getD 0) x.2).2 then sCLAMP else 0 }

/-- With no disturbance a pass that reads its vector leaves the state as it is. -/
theorem passRead_state (s : State) (e : EngId) (o : PassOp) (m : Option Nat) : (s.passRead e o m {}).1 = s := by
  simp only [State.passRead, sramRead_none]

/-- Whether SMP_MAX may not open the draw (R140). -/
def State.maxBroken (s : State) (e : EngId) (o : PassOp) : Bool :=
  let c := (s.passHub e o).getD { slot := o.slot.val }
  c.stage != .idle || (c.opened.any fun x => x.1 == e) || !((s.participants (s.homeOf e.sheet.val o.slot.val) o.slot.val).contains e)

theorem doSmpMax_opens (h : s.maxBroken e o = false) :
    let c := (s.passHub e o).getD { slot := o.slot.val }
    s.doSmpMax e o {} = s.putPass e o { c with opened := c.opened ++ [(e, o)], arrived := c.arrived ++ [s.maxReport e o] } := by
  unfold State.doSmpMax
  refine (if_neg (Bool.eq_false_iff.1 h)).trans ?_
  dsimp only
  rw [residueFault_none, passRead_state]
  rfl

theorem doSmpMax_broken (h : s.maxBroken e o = true) (d : Disturb) : s.doSmpMax e o d = s.passBroken e o.slot.val (opEngine 6 1) := by
  unfold State.doSmpMax
  exact if_pos h

/-- Whether a later pass has the fields that opened the draw in its parcel (R140). -/
def HubCtx.openedBy (c : HubCtx) (e : EngId) (o : PassOp) : Bool := c.opened.any fun x => x.1 == e && sameFields x.2 o

/-- A draw with weights reads its vectors (R132, R135). -/
theorem draw_reads (greedy : (s.passRegs e o).greedy = false) (full : c.empty = false) : ¬((s.passRegs e o).greedy || c.empty) = true := by
  rw [greedy, full]
  decide

section
variable (hc : s.passHub e o = some c)
include hc

theorem doLaterPass_broken {need : SlotPhase} (h : c.stage ≠ need) (d : Disturb) (opc : Nat) :
    s.doLaterPass e o d need opc = s.passBroken e o.slot.val (opEngine 6 opc) := by
  unfold State.doLaterPass
  dsimp only
  rw [show (s.sheet _).hubOf _ = some c from hc]
  exact if_pos (Bool.or_eq_true_iff.2 (.inl (bne_iff_ne.2 h)))

theorem doSmpDraw_broken (h : c.stage ≠ .cut ∧ c.stage ≠ .drawn) (d : Disturb) :
    s.doSmpDraw e o d = s.passBroken e o.slot.val (opEngine 6 4) := by
  unfold State.doSmpDraw
  dsimp only
  rw [show (s.sheet _).hubOf _ = some c from hc]
  exact if_pos (Bool.or_eq_true_iff.2 (.inl (Bool.and_eq_true_iff.2 ⟨bne_iff_ne.2 h.1, bne_iff_ne.2 h.2⟩)))

variable (greedy : (s.passRegs e o).greedy = false) (full : c.empty = false) (fields : c.openedBy e o = true)
include greedy full fields

theorem doLaterPass_weighs {need : SlotPhase} (h : c.stage = need) (opc : Nat) :
    s.doLaterPass e o {} need opc = s.putPass e o { c with arrived := c.arrived ++ [s.weighReport e o c] } := by
  unfold State.doLaterPass
  dsimp only
  rw [show (s.sheet _).hubOf _ = some c from hc]
  dsimp only
  rw [show (c.opened.any _) = true from fields, if_neg (by simp [h])]
  refine (if_neg (draw_reads greedy full)).trans ?_
  rw [residueFault_none, passRead_state, List.map_map, List.any_map]
  rfl

theorem doSmpDraw_joins (h : c.stage = .cut ∨ c.stage = .drawn) :
    ∃ b : Bool, s.doSmpDraw e o {} =
      s.putPass e o { c with draws := c.draws ++ [(e, o)], poison := b, scan := c.scan ++ s.passWeights e o c } := by
  refine ⟨c.poison || (s.passRead e o (s.passMask e o) {}).2, ?_⟩
  unfold State.doSmpDraw
  dsimp only
  rw [show (s.sheet _).hubOf _ = some c from hc]
  dsimp only
  rw [show (c.opened.any _) = true from fields, if_neg (by rcases h with h | h <;> simp [h])]
  refine (if_neg (draw_reads greedy full)).trans ?_
  rw [residueFault_none, passRead_state]
  rfl

end

/-! ### What each word leaves -/

/-- A pass that the hub takes leaves every byte, and its hub holds the new context. -/
theorem putPass_shows (h : Popped e s t) (hc : c.slot = o.slot.val) :
    (SameDram s (t.putPass e o c) ∧ SameStores s (t.putPass e o c) ∧ SameAccs s (t.putPass e o c)) ∧
      ((t.putPass e o c).sheet (s.homeOf e.sheet.val o.slot.val)).hubOf o.slot.val = some c := by
  have cells := h.still.cells.trans (cells_unhubbed.putHub (s.homeOf e.sheet.val o.slot.val) c)
  rw [State.putPass, h.only.homeOf]
  exact ⟨⟨cells_sameDram cells, cells_sameStores cells, cells_sameAccs cells⟩, hc ▸ hubOf_modSheet_putHub _ _ _⟩

/-- A pass that breaks the draw's order is reported, and the hubs stand (R140). -/
theorem passBroken_shows (h : Popped e s t) (n : Nat) (op : BitVec 16) (home : Nat) :
    let u := t.passBroken e n op
    (SameDram s u ∧ SameStores s u ∧ SameAccs s u) ∧ (u.sheet home).hubs = (s.sheet home).hubs := by
  have reports := engFault_reports t e 2 5 0x221 op (BitVec.ofNat 64 n) false 0
  have cells := h.still.cells.trans reports.still.cells
  exact ⟨⟨cells_sameDram cells, cells_sameStores cells, cells_sameAccs cells⟩,
    (reports.sheetsKeep (π := Sheet.hubs) (fun _ _ _ _ => rfl) home).trans (h.only.hubs home)⟩

end Sys2Proof.Machine

open Sys2Proof Sys2Proof.Machine

/-- Settles O24: each word puts its report into its slot's hub context, or is reported as broken. -/
theorem passWordsReport : Obligations.PassWordsReport := by
  intro e o s home r mask els same hub _
  refine ⟨fun hs part => ?_, fun c hc greedy full fields => ?_⟩
  · intro c
    have broken {t : State} (x : Popped e s t) : t.maxBroken e o = (c.stage != .idle || c.opened.any fun x => x.1 == e) := by
      rw [State.maxBroken, x.passHub, x.only.homeOf, x.only.participants, part, Bool.not_true, Bool.or_false]
      rfl
    have slot : c.slot = o.slot.val := by
      cases hc : hub s with
      | none => simp only [c, hc, Option.getD_none]
      | some c' => simpa only [c, hc, Option.getD_some] using hubOf_slot hc
    refine ⟨fun idle fresh => leads_starts hs rfl fun t x => ?_, fun busy => leads_starts hs rfl fun t x => ?_⟩
    · have opens := doSmpMax_opens (s := t) (e := e) (o := o) (by
        rw [broken x, idle, bne_self_eq_false, Bool.false_or, List.any_eq_false]
        exact fun y hy => by simpa using fresh y hy)
      rw [x.passHub] at opens
      rw [opens]
      obtain ⟨still, put⟩ := putPass_shows x
        (c := { c with opened := c.opened ++ [(e, o)], arrived := c.arrived ++ [t.maxReport e o] }) slot
      refine ⟨still, t.maxReport e o, rfl, ?_, put⟩
      show List.filterMap _ (t.passEls e o) = _
      rw [x.passEls]
      rfl
    · rw [doSmpMax_broken (by rw [broken x, bne_iff_ne.2 busy, Bool.true_or])]
      exact passBroken_shows x _ _ _
  · intro weighs refused
    have slot := hubOf_slot hc
    have here {t : State} (x : Popped e s t) : t.passHub e o = some c := x.passHub.trans hc
    have soft {t : State} (x : Popped e s t) : (t.passRegs e o).greedy = false := by rw [x.passRegs]; exact greedy
    have later (need : SlotPhase) (opc : Nat) {t : State} (x : Popped e s t) :
        (c.stage = need → weighs (t.doLaterPass e o {} need opc)) ∧ (c.stage ≠ need → refused (t.doLaterPass e o {} need opc)) := by
      refine ⟨fun h => ?_, fun h => ?_⟩
      · rw [doLaterPass_weighs (here x) (soft x) full fields h]
        obtain ⟨still, put⟩ := putPass_shows x (c := { c with arrived := c.arrived ++ [t.weighReport e o c] }) slot
        exact ⟨still, t.weighReport e o c, rfl, x.passWeights c, put⟩
      · rw [doLaterPass_broken (here x) h]
        exact passBroken_shows x _ _ _
    refine ⟨fun hs => ⟨fun h => leads_starts hs rfl fun t x => (later .maxed 2 x).1 h,
        fun h => leads_starts hs rfl fun t x => (later .maxed 2 x).2 h⟩,
      fun hs => ⟨fun h => leads_starts hs rfl fun t x => (later .weighed 3 x).1 h,
        fun h => leads_starts hs rfl fun t x => (later .weighed 3 x).2 h⟩,
      fun hs => ⟨fun h => leads_starts hs rfl fun t x => ?_, fun h => leads_starts hs rfl fun t x => ?_⟩⟩
    · obtain ⟨b, joins⟩ := doSmpDraw_joins (here x) (soft x) full fields h
      rw [joins, x.passWeights c]
      obtain ⟨still, put⟩ := putPass_shows x
        (c := { c with draws := c.draws ++ [(e, o)], poison := b, scan := c.scan ++ s.passWeights e o c }) slot
      exact ⟨still, b, put⟩
    · rw [doSmpDraw_broken (here x) h]
      exact passBroken_shows x _ _ _
end

section
/-! SUPPORT. What a reduction at the hub moves and what it leaves (04 R126, R133, R144). -/

namespace Sys2Proof.Machine

variable {s t u : State} {home n : Nat} {c c' : HubCtx} {ph : SlotPhase}

/-! ### What lasts -/

/-- What is seen of each slot of a sheet. -/
def Sheet.view {γ : Type} (ρ : Slot → γ) (x : Sheet) : Nat → γ := fun k => ρ (x.slot k)

/-- What a reduction leaves of a sheet: the bytes and the committed values of the slots. -/
def Sheet.lasting (x : Sheet) : (List Nat × Mem × List AddReq × (Nat → Mem × Mem)) × (Nat → SlotRegs) := (x.cells, x.view Slot.reg)

theorem lasting_unreported : Unreported Sheet.lasting := fun _ _ _ _ => rfl
theorem lasting_unhubbed : Unhubbed Sheet.lasting := fun _ _ => rfl
theorem hubs_unreported : Unreported Sheet.hubs := fun _ _ _ _ => rfl
theorem slots_unreported : Unreported Sheet.slots := fun _ _ _ _ => rfl

theorem view_of_slots {γ : Type} (ρ : Slot → γ) (h : SheetsKeep Sheet.slots s u) : SheetsKeep (Sheet.view ρ) s u := fun i =>
  congrArg (fun (l : Table Slot) k => ρ (tget {} l k)) (h i)

theorem view_modSlot {γ : Type} {ρ : Slot → γ} {f : Slot → Slot} (h : ∀ y, ρ (f y) = ρ y) (x : Sheet) (k : Nat) :
    (x.modSlot k f).view ρ = x.view ρ := by
  funext j
  dsimp only [Sheet.view]
  rw [slot_modSlot]
  split
  · next e => rw [h, e]
  · rfl

theorem modSlot_lasting (s : State) (i k : Nat) (f : Slot → Slot) (h : ∀ y, (f y).reg = y.reg) :
    SheetsKeep Sheet.lasting s (s.modSheet i fun x => x.modSlot k f) :=
  .modSheet i _ fun x => congrArg (Prod.mk x.cells) (view_modSlot h x k)

theorem raiseSlot_lasting (s : State) (i k : Nat) (f : BitVec 8) : SheetsKeep Sheet.lasting s (s.raiseSlot i k f) :=
  modSlot_lasting s i k _ fun _ => rfl

theorem SheetsKeep.cells_of_lasting (h : SheetsKeep Sheet.lasting s u) : SheetsKeep Sheet.cells s u := fun i => congrArg Prod.fst (h i)

/-- Every byte and the committed values of slot `k` read as before. -/
theorem lasting_frame (h : SheetsKeep Sheet.lasting s u) (i k : Nat) :
    SameDram s u ∧ SameStores s u ∧ SameAccs s u ∧ ((u.sheet i).slot k).reg = ((s.sheet i).slot k).reg :=
  ⟨cells_sameDram h.cells_of_lasting, cells_sameStores h.cells_of_lasting, cells_sameAccs h.cells_of_lasting,
    congrFun (congrArg Prod.snd (h i)) k⟩

/-! ### Messages between hubs -/

section
variable {β : Type} {π : Sheet → β} (hπ : Unreported π)
include hπ

theorem launchPacket_keeps (s : State) (pk : Packet) (p : Nat) : SheetsKeep π s (s.launchPacket pk p) := by
  unfold State.launchPacket State.sendPacket
  split
  · split
    · exact .refl
    · exact .of_sheets rfl
  · exact (sendFault_reports _ _).sheetsKeep hπ

theorem sendHub_keeps (s : State) (i : Nat) (d : DevId × SheetId) (m : HubMsg) : SheetsKeep π s (s.sendHub i d m) := by
  unfold State.sendHub
  split
  · exact .refl
  · exact launchPacket_keeps hπ _ _ _

/-- What a home hub broadcasts moves nothing on its device but the links' queues (R144). -/
theorem sendResults_keeps (s : State) (i k p : Nat) (c : HubCtx) : SheetsKeep π s (s.sendResults i k p c) :=
  .forEach _ _ fun s _ => sendHub_keeps hπ s i _ _

end

/-! ### A hub that moves its slot on -/

/-- From `s` to `u` the hub of a slot has come to hold `c`, and its phase is `ph`. -/
structure Turned (home n : Nat) (ph : SlotPhase) (c : HubCtx) (s u : State) : Prop where
  lasting : SheetsKeep Sheet.lasting s u
  hub : (u.sheet home).hubOf n = some c
  phase : ((u.sheet home).slot n).phase = ph

theorem setPhase_slot (s : State) (home n : Nat) (ph : SlotPhase) :
    ((s.setPhase home n ph).sheet home).slot n = { (s.sheet home).slot n with phase := ph } := by
  rw [State.setPhase, sheet_modSheet_same, slot_modSlot, if_pos rfl]

theorem setPhase_hubOf (s : State) (home n : Nat) (ph : SlotPhase) (k : Nat) :
    ((s.setPhase home n ph).sheet home).hubOf k = (s.sheet home).hubOf k := by
  rw [State.setPhase, sheet_modSheet_same]
  rfl

theorem setPhase_lasting (s : State) (home n : Nat) (ph : SlotPhase) : SheetsKeep Sheet.lasting s (s.setPhase home n ph) :=
  modSlot_lasting s home n _ fun _ => rfl

theorem Turned.of_put (h : SheetsKeep Sheet.lasting s t) (hc : c.slot = n) :
    Turned home n ph c s ((t.modSheet home fun x => x.putHub c).setPhase home n ph) where
  lasting := (h.trans (lasting_unhubbed.putHub home c)).trans (setPhase_lasting _ _ _ _)
  hub := by rw [setPhase_hubOf, ← hc, hubOf_modSheet_putHub]
  phase := by rw [setPhase_slot]

theorem Turned.sent (h : Turned home n ph c s u) (k p : Nat) (c' : HubCtx) : Turned home n ph c s (u.sendResults home k p c') where
  lasting := h.lasting.trans (sendResults_keeps lasting_unreported _ _ _ _ _)
  hub := by
    rw [Sheet.hubOf, sendResults_keeps hubs_unreported]
    exact h.hub
  phase := by
    rw [Sheet.slot, sendResults_keeps slots_unreported]
    exact h.phase

/-! ### Which reduction runs -/

theorem exec_hubReduction (h : SheetId) (n : Fin 128) (s : State) :
    exec (.hubReduction h n {}) s = .next (s.reducePass h.val n.val {}) := rfl

section
variable (hc : (s.sheet home).hubOf n = some c)
include hc

theorem reducePass_away {tgt : DevId × SheetId} (h : ((s.sheet home).slot n).homeDev = some tgt) (d : Disturb) :
    s.reducePass home n d = if s.allHere home n c then s.sendReport home n c tgt else s := by
  rw [State.reducePass, hc]
  dsimp only
  rw [h]

theorem reducePass_home (h : ((s.sheet home).slot n).homeDev = none) (d : Disturb) :
    s.reducePass home n d = if !s.allArrived home n c then s else (s.reduceHome home n c d).sendResults home n c.pass
      ((((s.reduceHome home n c d).sheet home).hubOf n).getD c) := by
  rw [State.reducePass, hc]
  dsimp only
  rw [h]

end

end Sys2Proof.Machine
end

section
/-! O25: passes A to C at the hub of a slot's home, and at the hub of another device (04 R133, R135, R136, R144). -/

namespace Sys2Proof.Machine

variable {s : State} {home n : Nat} {c : HubCtx}

/-! ### The largest logit -/

/-- The larger of what has been met and one more logit. -/
def largest (m : Option Int) (x : Nat × Int) : Option Int := some (m.elim x.2 fun v => max v x.2)

/-- The largest of some logits is one of them, and none exceeds it. -/
theorem foldl_largest (ls : List (Nat × Int)) : ∀ m0 : Option Int,
    (∀ v, m0 = some v → ∃ m, ls.foldl largest m0 = some m ∧ v ≤ m) ∧
    (∀ x ∈ ls, ∃ m, ls.foldl largest m0 = some m ∧ x.2 ≤ m) ∧
    ∀ m, ls.foldl largest m0 = some m → m0 = some m ∨ ∃ x ∈ ls, x.2 = m := by
  induction ls with
  | nil => exact fun m0 => ⟨fun v h => ⟨v, h, le_refl v⟩, fun x hx => absurd hx List.not_mem_nil, fun m h => .inl h⟩
  | cons x ls ih =>
    intro m0
    obtain ⟨start, reach, found⟩ := ih (largest m0 x)
    obtain ⟨m, hm, top⟩ := start _ rfl
    simp only [List.foldl_cons]
    refine ⟨fun v h => ⟨m, hm, ?_⟩, fun y hy => ?_, fun v h => ?_⟩
    · subst h
      exact (le_max_left _ _).trans top
    · rcases List.mem_cons.1 hy with rfl | hy
      · refine ⟨m, hm, le_trans ?_ top⟩
        cases m0 with
        | none => exact le_refl _
        | some v => exact le_max_right _ _
      · exact reach y hy
    · rcases found v h with first | ⟨y, hy, e⟩
      · rw [largest, Option.some.injEq] at first
        cases m0 with
        | none => exact .inr ⟨x, List.mem_cons_self, first⟩
        | some w =>
          rcases max_choice w x.2 with k | k
          · exact .inl (congrArg some (k.symm.trans first))
          · exact .inr ⟨x, List.mem_cons_self, k.symm.trans first⟩
      · exact .inr ⟨y, List.mem_cons_of_mem _ hy, e⟩

/-! ### The three reductions -/

theorem raiseWhen_lasting (s : State) (b : Prop) [Decidable b] (i k : Nat) (f : BitVec 8) :
    SheetsKeep Sheet.lasting s (if b then s.raiseSlot i k f else s) := by
  split
  · exact raiseSlot_lasting _ _ _ _
  · exact .refl

/-- Pass A reduced (R133). -/
theorem reduceA_turns (s : State) (home : Nat) (hc : c.slot = n) (covers : rangesOk 0 c.ranges = true) :
    ∃ c', Turned home n .maxed c' s (s.reduceA home n c) ∧ c'.stage = .maxed ∧ c'.arrived = [] ∧
      c'.lmax = (c.arrived.flatMap fun r => r.logits).foldl largest none := by
  unfold State.reduceA
  dsimp only
  rw [covers, if_neg (by decide)]
  refine ⟨_, .of_put (raiseSlot_lasting _ _ _ _) hc, rfl, rfl, ?_⟩
  exact List.foldl_ext _ _ _ fun m x _ => by cases m <;> rfl

/-- Pass B reduced and the cut decided (R135). -/
theorem reduceB_turns (s : State) (home : Nat) (hc : c.slot = n) (weights : ((s.sheet home).slot n).pend.greedy = false) :
    let r := ((s.sheet home).slot n).pend
    let ws := sortDesc ((c.arrived.flatMap fun p => p.weights).map Prod.snd)
    ∃ c', Turned home n .weighed c' s (s.reduceB home n c) ∧ c'.stage = .weighed ∧ c'.arrived = [] ∧ c'.sAll = ws.sum ∧
      (c'.empty = true ↔ ws.sum = 0) ∧
      (ws.sum ≠ 0 → (c'.qk, c'.tau) = ((cutK ws r.topk.toNat).1, (cutK ws r.topk.toNat).2.1) ∧
        c'.qp = (cutP ws ws.sum r.topp.toNat).1) := by
  intro r ws
  unfold State.reduceB
  simp only [show SlotRegs.greedy _ = false from weights, Bool.false_eq_true, if_false, Bool.false_or]
  refine ⟨_, .of_put ((raiseSlot_lasting s _ _ _).trans (raiseWhen_lasting _ _ _ _ _)) hc, rfl, rfl, rfl, beq_iff_eq, fun total => ?_⟩
  have some : ¬(ws.sum == 0) = true := mt beq_iff_eq.1 total
  exact ⟨congrArg (fun z : Nat × Option Nat × Nat => (z.1, z.2.1)) (if_neg some), congrArg Prod.fst (if_neg some)⟩

/-- Pass C reduced (R136). -/
theorem reduceC_turns (s : State) (home : Nat) (hc : c.slot = n) (full : c.empty = false) :
    ∃ c', Turned home n .cut c' s (s.reduceC home n c) ∧ c'.stage = .cut ∧ c'.arrived = [] ∧
      c'.kept = keptOf c.qk c.tau c.qp 0 (sortIdx (c.arrived.flatMap fun p => p.weights)) ∧ c'.total = (c'.kept.map Prod.snd).sum := by
  unfold State.reduceC
  simp only [full, Bool.false_eq_true, if_false]
  refine ⟨_, .of_put (SheetsKeep.trans ?_
    ((forEach_counts _ _ (fun t x => parcelEvent_counts t _ _ _) _).sheetsKeep lasting_unreported)) hc,
    rfl, rfl, rfl, rfl⟩
  exact (raiseWhen_lasting s _ _ _ _).trans (raiseWhen_lasting _ _ _ _ _)

/-! ### A hub whose slot has its home on another device -/

/-- This device's part of a pass is sent once (R144). -/
theorem sendReport_turns (hc : (s.sheet home).hubOf n = some c) {tgt : DevId × SheetId} (h : c.sentPass ≠ some c.pass) :
    SheetsKeep Sheet.lasting s (s.sendReport home n c tgt) ∧
      ((s.sendReport home n c tgt).sheet home).hubOf n = some { c with sentPass := some c.pass } := by
  unfold State.sendReport
  rw [if_neg (by simpa using h)]
  refine ⟨(sendHub_keeps lasting_unreported _ _ _ _).trans (lasting_unhubbed.putHub home _), ?_⟩
  conv_lhs => rw [← hubOf_slot hc]
  exact hubOf_modSheet_putHub _ home { c with sentPass := some c.pass }

end Sys2Proof.Machine

open Sys2Proof Sys2Proof.Machine

/-- Settles O25: each reduction puts one new context at the hub. -/
theorem hubDecidesPasses : Obligations.HubDecidesPasses := by
  intro h n s c hc r hub frame phase home
  have slot := hubOf_slot hc
  have away {tgt : DevId × SheetId} (k : home = some tgt) := reducePass_away hc k {}
  refine ⟨fun hh early => ?_, fun hh all first => ?_, fun hh early => ?_, fun hh none all => ⟨fun st covers => ?_, fun st weights => ?_,
    fun st full => ?_⟩⟩
  · obtain ⟨tgt, k⟩ := Option.ne_none_iff_exists'.1 hh
    refine (exec_hubReduction h n s).trans (congrArg _ ((away k).trans ?_))
    rcases early with some | sent
    · rw [some, if_neg Bool.false_ne_true]
    · split
      · exact if_pos (beq_iff_eq.2 sent)
      · rfl
  · obtain ⟨tgt, k⟩ := Option.ne_none_iff_exists'.1 hh
    refine leads_of (exec_hubReduction h n s) ?_
    rw [away k, if_pos all]
    obtain ⟨lasting, put⟩ := sendReport_turns (tgt := tgt) hc first
    exact ⟨lasting_frame lasting _ _, put⟩
  · refine (exec_hubReduction h n s).trans (congrArg _ ((reducePass_home hc hh {}).trans ?_))
    rw [early, Bool.not_false, if_pos rfl]
  all_goals
    refine leads_of (exec_hubReduction h n s) ?_
    rw [reducePass_home hc hh, all, Bool.not_true, if_neg Bool.false_ne_true, State.reduceHome, none]
    simp only [List.isEmpty_nil, Bool.not_true, Bool.false_eq_true, if_false, st]
  · obtain ⟨c', turned, stage, arrived, lmax⟩ := reduceA_turns s h.val slot covers
    obtain ⟨-, reach, found⟩ := foldl_largest (c.arrived.flatMap fun p => p.logits) Option.none
    rw [← lmax] at reach found
    exact ⟨lasting_frame (turned.sent _ _ _).lasting _ _, (turned.sent _ _ _).phase, c', (turned.sent _ _ _).hub, stage, arrived, reach,
      fun m hm => (found m hm).resolve_left (by simp)⟩
  · obtain ⟨c', turned, cut⟩ := reduceB_turns s h.val slot weights
    exact ⟨lasting_frame (turned.sent _ _ _).lasting _ _, (turned.sent _ _ _).phase, c', (turned.sent _ _ _).hub, cut⟩
  · obtain ⟨c', turned, kept⟩ := reduceC_turns s h.val slot full
    exact ⟨lasting_frame (turned.sent _ _ _).lasting _ _, (turned.sent _ _ _).phase, c', (turned.sent _ _ _).hub, kept⟩
end

section
/-! O26: the draw at the hub (04 R126, R133, R136, R139, R145). -/

namespace Sys2Proof.Machine

variable {s t u : State} {home n p : Nat} {c : HubCtx} {o : PassOp}

/-! ### Bytes of a number read back -/

theorem leBytes_leNat (l : List Byte) : leBytes l.length (leNat l) = l := by
  induction l with
  | nil => rfl
  | cons b l ih =>
    have rest : (b.toNat + 256 * leNat l) / 256 = leNat l := by have := b.isLt; omega
    have byte : BitVec.ofNat 8 (b.toNat + 256 * leNat l) = b := BitVec.eq_of_toNat_eq (by
      have := b.isLt
      rw [BitVec.toNat_ofNat]
      omega)
    rw [List.length_cons, leBytes, leNat, rest, ih, byte]

/-- A number cut to 32 bits writes as the number does. -/
theorem leBytes_word (v : Nat) : leBytes 4 (leNat (leBytes 4 v)) = leBytes 4 v := leBytes_leNat (leBytes 4 v)

theorem ofNat_word (v : Nat) : BitVec.ofNat 32 (leNat (leBytes 4 v)) = BitVec.ofNat 32 v := by
  rw [leNat_leBytes]
  exact BitVec.eq_of_toNat_eq (by simp only [BitVec.toNat_ofNat]; omega)

/-! ### What follows the index -/

/-- The committed and pending values of a slot. -/
def Slot.values (y : Slot) : SlotRegs × SlotRegs := (y.reg, y.pend)

theorem slotDrew_still (s : State) (home n : Nat) : Still s (s.slotDrew home n) :=
  .forEach _ _ (fun _ _ => .modSheet _ _ (by intro _; rfl) (by intro _; rfl)) s

theorem slotDrew_values (s : State) (home n : Nat) : SheetsKeep (Sheet.view Slot.values) s (s.slotDrew home n) :=
  .forEach _ _ fun _ _ => .modSheet _ _ fun x => view_modSlot (by intro _; rfl) x n

/-- Writing the index into the home parcel's store touches no slot. -/
theorem wroteStore_slots (s : State) (e : EngId) (a k : Nat) (b : Bool) : SheetsKeep Sheet.slots s (s.wroteStore e a k b) := by
  have marks (t : State) (l : List Nat) : SheetsKeep Sheet.slots t (t.markBlocks e l) := .modSheet _ _ fun x => by split <;> rfl
  unfold State.wroteStore
  dsimp only
  split
  · exact (SheetsKeep.modEng e _ fun _ _ => rfl).trans (marks _ _)
  · exact .modEng e _ fun _ _ => rfl

theorem modPmem_slots (s : State) (e : EngId) (f : ParcelMem → ParcelMem) : SheetsKeep Sheet.slots s (s.modPmem e f) :=
  .modSheet _ _ fun x => by split <;> rfl

/-- Pass D over: the slot's phase is DRAWN, its values and every byte stand. -/
theorem drawDone_shows (s : State) (home n : Nat) (c : HubCtx) (last : Bool) :
    let u := s.drawDone home n c last
    SheetsKeep Sheet.cells s u ∧ SheetsKeep (Sheet.view Slot.values) s u ∧ ((u.sheet home).slot n).phase = .drawn := by
  have phase (t : State) : SheetsKeep Sheet.cells t (t.setPhase home n .drawn) ∧
      SheetsKeep (Sheet.view Slot.values) t (t.setPhase home n .drawn) :=
    ⟨.modSheet _ _ fun _ => rfl, .modSheet _ _ fun x => view_modSlot (by intro _; rfl) x n⟩
  unfold State.drawDone
  split
  · exact ⟨(SheetsKeep.modSheet _ _ (by intro _; rfl)).trans (phase _).1, (SheetsKeep.modSheet _ _ (by intro _; rfl)).trans (phase _).2,
      by rw [setPhase_slot]⟩
  · exact ⟨(cells_unhubbed.putHub _ _).trans (phase _).1, ((by intro _ _; rfl : Unhubbed (Sheet.view Slot.values)).putHub _ _).trans
      (phase _).2, by rw [setPhase_slot]⟩

/-! ### Pass D -/

/-- The target of a draw (R136). -/
def drawTarget (k : Nat × Nat) (r : SlotRegs) (o : PassOp) (c : HubCtx) : Nat :=
  (laneAt k.1 k.2 r.step.toNat (2 ^ 48 - 1) o.draw % 2 ^ 64 * c.total) >>> 64

/-- A slot with the outcome of a draw in its pending copy (R126). -/
def Slot.takeDraw (y : Slot) (poison : Bool) (idx total t : Nat) : Slot :=
  { y with
    poison := y.poison || poison
    pend := { y.pend with index := BitVec.ofNat 32 idx, kept := BitVec.ofNat 64 total, target := BitVec.ofNat 64 t } }

/-- The index check with PCHK = 1 reports an index that does not pass (R145). -/
def State.checkIndex (s : State) (home n : Nat) (c : HubCtx) (r : SlotRegs) (o : PassOp) (idx : Nat) : State :=
  if o.pchk && !s.indexOk c r idx then s.hubFault home 0x214 (n + idx * 2 ^ 32) else s

theorem checkIndex_reports (s : State) (home n : Nat) (c : HubCtx) (r : SlotRegs) (o : PassOp) (idx : Nat) :
    Reports s (s.checkIndex home n c r o idx) := by
  unfold State.checkIndex
  split
  · exact sheetFault_reports _ _ _ _ _ _
  · exact .refl _

/-- The state in which the outcome of a draw stands in its slot, and its sheets know that the slot drew (R127). -/
def State.noteDraw (s : State) (home n : Nat) (c : HubCtx) (o : PassOp) (r : SlotRegs) (idx t : Nat) : State :=
  ((({ s with free := s.free + 1 } : State).checkIndex home n c r o idx).modSheet home fun x =>
    x.modSlot n fun y => y.takeDraw c.poison idx c.total t).slotDrew home n

/-- Where a draw's index goes in its home parcel's store (R139). -/
def indexByte (o : PassOp) : Nat := 64 * o.ibuf.toNat + 4 * o.iword

/-- The home parcel takes the index into its store and counts the draw. -/
def State.putIndex (s : State) (e : EngId) (a : Nat) (l : List Byte) (poison : Bool) : State :=
  ((s.modPmem e fun m => { m with store := mwrite m.store a l }).wroteStore e a 4 poison).parcelEvent e { cls := 2, code := 0x02 }

section
variable {hp : EngId} {k : Nat × Nat} {r : SlotRegs}

theorem noteDraw_still (idx t : Nat) : Still s (s.noteDraw home n c o r idx t) := by
  have free : Still s { s with free := s.free + 1 } := .of_sheets rfl
  exact ((free.trans (checkIndex_reports _ _ _ _ _ _ _).still).trans
    (.modSheet home _ (by intro _; rfl) (by intro _; rfl))).trans (slotDrew_still _ _ _)

/-- The slot's committed values stand, its pending copy has the outcome. -/
theorem noteDraw_values (idx t : Nat) : ((s.noteDraw home n c o r idx t).sheet home).view Slot.values n =
    (((s.sheet home).slot n).takeDraw c.poison idx c.total t).values := by
  have free : SheetsKeep Sheet.slots s { s with free := s.free + 1 } := .of_sheets rfl
  have slots := free.trans ((checkIndex_reports _ home n c r o idx).sheetsKeep slots_unreported)
  rw [State.noteDraw, slotDrew_values, sheet_modSheet_same, Sheet.view, slot_modSlot, if_pos rfl, Sheet.slot, slots]
  rfl

/-- Pass D of a draw with weights (R136, R139). -/
theorem reduceD_runs (hr : r = ((s.sheet home).slot n).pend)
    (home_draws : (c.draws.find? fun x => x.1 == s.homeParcel home n) = some (hp, o)) (soft : r.greedy = false)
    (key : s.streamOn home { purpose := 1, slot := r.gslot, tensor := r.tensor } = some k)
    (full : c.empty = false) (lo : 0 ≤ o.ibuf) (hi : indexByte o + 4 ≤ storeBytes)
    (off : missesProg (s.eng (s.homeParcel home n)) (o.ibuf + (4 * o.iword / 64 : Nat)) 4 = true) :
    let t := drawTarget k r o c
    let idx := c.scanIndex t (Config.freeValue s.free % 2 ^ 32)
    let e := s.homeParcel home n
    s.reduceD home n c {} =
      ((s.noteDraw home n c o r (leNat (leBytes 4 idx)) t).putIndex e (indexByte o) (leBytes 4 (leNat (leBytes 4 idx)))
        c.poison).drawDone home n c o.last := by
  intro t idx e
  subst hr
  unfold State.reduceD
  dsimp only
  rw [home_draws]
  dsimp only
  rw [soft, full, Bool.or_self, if_neg Bool.false_ne_true, key]
  dsimp only
  simp only [Bool.false_eq_true, if_false, Bool.and_false]
  have clear : ¬(o.ibuf < 0 ∨ storeBytes < indexByte o + 4 ∨
      (!missesProg ((s.noteDraw home n c o ((s.sheet home).slot n).pend (leNat (leBytes 4 idx)) t).eng e)
        (o.ibuf + (4 * o.iword / 64 : Nat)) 4) = true) := by
    have same := congrArg (·.2.2.2.2) ((noteDraw_still (s := s) (home := home) (n := n) (c := c) (o := o)
      (r := ((s.sheet home).slot n).pend) (leNat (leBytes 4 idx)) t).eng_words e)
    unfold missesProg at off ⊢
    rw [show Engine.progUnit _ = Engine.progUnit _ from same, off]
    simp only [Bool.not_true, Bool.false_eq_true, or_false]
    omega
  exact congrArg (fun x : State => (x.parcelEvent e { cls := 2, code := 0x02 }).drawDone home n c o.last) (if_neg clear)

end

/-- A draw that is over once its index has been written, and whose outcome is broadcast: of the bytes the index alone is new, and the
slot holds what it held. -/
theorem drawWritten_shows {v : State} {e : EngId} (hp : (s.sheet e.sheet.val).phys e.parcel.val = some p) (hs : SheetsKeep Sheet.cells s v)
    (home n : Nat) (c : HubCtx) (a : Nat) (l : List Byte) (b last : Bool) (m : Nat) (d : HubCtx) :
    let u := (((v.putIndex e a l b).drawDone home n c last).sendResults home n m d)
    Lands e.sheet.val p (mwrite ((s.sheet e.sheet.val).parcel p).store a l, ((s.sheet e.sheet.val).parcel p).acc) s u ∧
      ((u.sheet home).slot n).values = ((v.sheet home).slot n).values ∧ ((u.sheet home).slot n).phase = .drawn := by
  intro u
  obtain ⟨cells, values, phase⟩ := drawDone_shows (v.putIndex e a l b) home n c last
  have counted := parcelEvent_counts ((v.modPmem e fun m => { m with store := mwrite m.store a l }).wroteStore e a 4 b) e
    { cls := 2, code := 0x02 } none
  have sent : SheetsKeep Sheet.slots _ u := sendResults_keeps slots_unreported _ home n m d
  refine ⟨modPmem_lands_on hp hs (f := fun m => { m with store := mwrite m.store a l }) (g := fun x => (mwrite x.1 a l, x.2)) ?_
    fun _ => rfl, ?_, ?_⟩
  · exact (((wroteStore_still _ _ _ _ _).cells.trans counted.still.cells).trans cells).trans
      (sendResults_keeps (by intro _ _ _ _; rfl) _ _ _ _ _)
  · have slots : SheetsKeep Sheet.slots v (v.putIndex e a l b) :=
      ((modPmem_slots v e _).trans (wroteStore_slots _ e a 4 b)).trans (counted.sheetsKeep slots_unreported)
    exact congrFun ((((view_of_slots Slot.values slots).trans values).trans (view_of_slots _ sent)) home) n
  · rw [Sheet.slot, sent]
    exact phase

/-- HUB_REDUCTION of pass D at the slot's home (R136, R139). -/
theorem reducePass_draws {k : Nat × Nat} (hc : (s.sheet home).hubOf n = some c) (here : ((s.sheet home).slot n).homeDev = none)
    (draws : c.draws ≠ []) (all : s.allArrived home n c = true) (full : c.empty = false) :
    let e := s.homeParcel home n
    let r := ((s.sheet home).slot n).pend
    let t := drawTarget k r o c
    let idx := c.scanIndex t (Config.freeValue s.free % 2 ^ 32)
    let m := (s.sheet e.sheet.val).parcel p
    (c.draws.find? fun x => x.1 == e) = some (e, o) → r.greedy = false →
    s.streamOn home { purpose := 1, slot := r.gslot, tensor := r.tensor } = some k → 0 ≤ o.ibuf → indexByte o + 4 ≤ storeBytes →
    missesProg (s.eng e) (o.ibuf + (4 * o.iword / 64 : Nat)) 4 = true → (s.sheet e.sheet.val).phys e.parcel.val = some p →
    let u := s.reducePass home n {}
    Lands e.sheet.val p (mwrite m.store (indexByte o) (leBytes 4 idx), m.acc) s u ∧
      ((u.sheet home).slot n).values = (((s.sheet home).slot n).takeDraw c.poison (leNat (leBytes 4 idx)) c.total t).values ∧
      ((u.sheet home).slot n).phase = .drawn := by
  intro e r t idx m found soft key lo hi off phys
  have pass : s.reduceHome home n c {} = s.reduceD home n c {} :=
    if_pos (by rw [List.isEmpty_eq_false_iff.2 draws, Bool.not_false])
  rw [reducePass_home hc here, all, Bool.not_true, if_neg Bool.false_ne_true, pass, reduceD_runs rfl found soft key full lo hi off,
    leBytes_word]
  obtain ⟨lands, values, drawn⟩ := drawWritten_shows phys
    (noteDraw_still (home := home) (n := n) (c := c) (o := o) (r := r) (leNat (leBytes 4 idx)) t).cells home n c (indexByte o)
    (leBytes 4 idx) c.poison o.last c.pass _
  exact ⟨lands, values.trans (noteDraw_values _ _), drawn⟩

end Sys2Proof.Machine

open Sys2Proof Sys2Proof.Machine

/-- Settles O26: the draw writes its slot, then its index, and the owning lane's scan picks as a scan of all kept elements does. -/
theorem hubDrawsIndex : Obligations.HubDrawsIndex := by
  refine ⟨fun h n s c o k0 k1 p hc here draws all full => ?_,
    fun c t w _ sorted _ kept scan total => scanIndex_eq w sorted kept scan total, fun kept t total => ?_⟩
  · intro hp r found soft key a lo hi off phys
    obtain ⟨lands, values, phase⟩ := reducePass_draws (k := (k0, k1)) hc here draws all full found soft key lo hi off phys
    have reg := congrArg Prod.fst values
    have pend := congrArg Prod.snd values
    dsimp only [Slot.values] at reg pend
    refine leads_of (exec_hubReduction h n s) ?_
    intro t idx x
    exact ⟨(congrArg SlotRegs.index pend).trans (ofNat_word _), congrArg SlotRegs.kept pend, congrArg SlotRegs.target pend, reg, phase,
      lands.storeTakes rfl, lands.sameAccs rfl, lands.sameDram⟩
  · obtain ⟨a, b, i, q, split, pick, lo, hi⟩ := pickIndex_splits kept 0 (Nat.zero_le t) (by rwa [Nat.zero_add])
    rw [Nat.zero_add] at lo hi
    exact ⟨a, b, i, q, split, pick, lo, hi⟩
end

section
/-! O29: binary decisions in accumulator rows (04 R127, R147). -/

namespace Sys2Proof.Machine

variable {s t : State} {e : EngId} {o : BinOp} {kd : BinKind} {k : Nat × Nat} {r : SlotRegs}

theorem OnlyEngine.streamOn (h : OnlyEngine e s t) (i : Nat) (d : StreamId) : t.streamOn i d = s.streamOn i d := by
  simp only [State.streamOn, Sheet.findKey, h.key]

/-! ### One decision -/

/-- The purpose of the stream that a kind of decision draws from (R147). -/
def BinKind.purpose (kd : BinKind) : BitVec 4 := if kd == .metropolis then 6 else 1

/-- Whether a word of that kind draws: a heat bath and a Metropolis decision do not with GREEDY = 1. -/
def BinKind.draws (kd : BinKind) (r : SlotRegs) : Bool := kd == .bernoulli || !r.greedy

/-- A word that does not draw decides whatever the uniform. -/
theorem decide1_drawless (h : kd.draws r = false) (b2 : Bool) (y : Int) (u v : Nat) : decide1 kd b2 r y u = decide1 kd b2 r y v := by
  simp only [BinKind.draws, Bool.or_eq_false_iff, Bool.not_eq_false'] at h
  obtain ⟨kind, greedy⟩ := h
  cases kd with
  | bernoulli => cases kind
  | heatbath => simp only [decide1, greedy, if_true]
  | metropolis => simp only [decide1, greedy, if_true]

/-- The pending values of a word's slot (R126). -/
def State.binRegs (s : State) (e : EngId) (o : BinOp) : SlotRegs := ((s.sheet e.sheet.val).slot o.slot.val).pend

/-- The decision of a word at an element: 0 for NaN. -/
def State.binBit (s : State) (e : EngId) (o : BinOp) (kd : BinKind) (k : Nat × Nat) (q : Nat × Nat) : Bool :=
  (q24Val (accVal (s.pmem e).acc ((s.eng e).td o.src.val) q.1 q.2)).elim false fun y =>
    (decide1 kd o.b2 (s.binRegs e o) y.1
      (uniform32 k (s.binRegs e o).step.toNat (((s.eng e).td o.dst.val).elemIndex q.1 q.2) o.draw)).1

/-- A word that does not draw decides alike with any key. -/
theorem binBit_drawless (h : kd.draws (s.binRegs e o) = false) (k k' : Nat × Nat) (q : Nat × Nat) :
    s.binBit e o kd k q = s.binBit e o kd k' q := by
  unfold State.binBit
  exact congrArg _ (funext fun y => congrArg Prod.fst (decide1_drawless h _ _ _ _))

/-! ### The elements decided -/

/-- The elements of the rows named inside both valid shapes. -/
def binPlaces (o : BinOp) (src dst : TileDesc) : List (Nat × Nat) :=
  (rowPlaces o.frow o.nrows src.vcols.toNat).filter fun q =>
    decide (q.1 < dst.vrows.toNat ∧ q.2 < dst.vcols.toNat ∧ q.1 < src.vrows.toNat)

theorem rowPlaces_nodup (frow nrows cols : Nat) : (rowPlaces frow nrows cols).Nodup := by
  rw [rowPlaces_eq]
  refine (places_nodup nrows cols).map fun a b h => ?_
  obtain ⟨rows, cols⟩ := Prod.mk.inj h
  exact Prod.ext (Nat.add_left_cancel rows) cols

theorem mem_binPlaces {src dst : TileDesc} {i j : Nat} (hi : i < o.nrows) (hs : o.frow + i < src.vrows.toNat)
    (hd : o.frow + i < dst.vrows.toNat) (js : j < src.vcols.toNat) (jd : j < dst.vcols.toNat) :
    (o.frow + i, j) ∈ binPlaces o src dst := by
  refine List.mem_filter.2 ⟨?_, by simpa using ⟨hd, jd, hs⟩⟩
  rw [rowPlaces_eq]
  exact List.mem_map.2 ⟨(i, j), mem_places.2 ⟨hi, js⟩, rfl⟩

/-- A descriptor's rows after the decisions. -/
def binWrite (d : TileDesc) (bit : Nat × Nat → Bool) (l : List (Nat × Nat)) (m : Mem) : Mem :=
  l.foldl (fun m q => putAccElem m d q.1 q.2 (b2n (bit q))) m

theorem binWrite_writes (d : TileDesc) (bit : Nat × Nat → Bool) :
    WritesElems d id id (fun _ q => b2n (bit q)) (fun m q => putAccElem m d q.1 q.2 (b2n (bit q))) := ⟨fun _ _ => rfl⟩

section
variable {src dst : TileDesc} (used : dst.used = true) {bit : Nat × Nat → Bool} {m : Mem}
include used

theorem binPlaces_inside {q : Nat × Nat} (h : q ∈ binPlaces o src dst) : q.1 < dst.vrows.toNat ∧ q.2 < 128 := by
  have cols := used_cols used
  have inside := (List.mem_filter.1 h).2
  rw [decide_eq_true_eq] at inside
  omega

theorem binWrite_outside {b : Nat} (hb : ¬((wide dst).accRange.1 ≤ b ∧ b < (wide dst).accRange.1 + (wide dst).accRange.2)) :
    mget (binWrite (wide dst) bit (binPlaces o src dst) m) b = mget m b :=
  (binWrite_writes (wide dst) bit).outside hb _ _ fun _ h => binPlaces_inside used h

theorem binWrite_elem {q : Nat × Nat} (h : q ∈ binPlaces o src dst) :
    accElem (binWrite (wide dst) bit (binPlaces o src dst) m) (wide dst) q.1 q.2 = b2n (bit q) := by
  have one := (binWrite_writes (wide dst) bit).visited (x := q) (binPlaces o src dst) m
    (by rw [List.map_id]; exact (rowPlaces_nodup _ _ _).filter _) (fun y hy => (binPlaces_inside used hy).2) h
  refine one.trans (Nat.mod_eq_of_lt ?_)
  have size : (wide dst).elemBytes = 8 := rfl
  rw [size]
  cases bit q <;> decide

end

/-! ### The word -/

theorem rangeCheck_slots (s : State) (e : EngId) (i : Nat) (op : BitVec 16) : SheetsKeep Sheet.slots s (s.rangeCheck e i op) := by
  unfold State.rangeCheck
  dsimp only
  split
  · exact .refl
  · refine .forEach _ _ fun t k => ?_
    split
    · exact .refl
    · exact ((engFault_reports _ _ _ _ _ _ _ _ _).sheetsKeep slots_unreported).trans (.modEng e _ (by intro _ _; rfl))

/-- The result of a word at an element, with the flags that it meets. -/
def State.binRes (s : State) (e : EngId) (o : BinOp) (kd : BinKind) (k : Nat × Nat) (q : Nat × Nat) : (Nat × Nat) × Bool × NFlags :=
  match q24Val (accVal (s.pmem e).acc ((s.eng e).td o.src.val) q.1 q.2) with
  | none => (q, false, fNAN)
  | some (y, c1) =>
    let (b, c2) := decide1 kd o.b2 (s.binRegs e o) y
      (uniform32 k (s.binRegs e o).step.toNat (((s.eng e).td o.dst.val).elemIndex q.1 q.2) o.draw)
    (q, b, flagIf (c1 || c2) fCLAMP)

theorem binRes_eq (s : State) (e : EngId) (o : BinOp) (kd : BinKind) (k : Nat × Nat) (q : Nat × Nat) :
    (s.binRes e o kd k q).1 = q ∧ (s.binRes e o kd k q).2.1 = s.binBit e o kd k q := by
  unfold State.binRes State.binBit
  cases q24Val (accVal (s.pmem e).acc ((s.eng e).td o.src.val) q.1 q.2) with
  | none => exact ⟨rfl, rfl⟩
  | some y => exact ⟨rfl, rfl⟩

/-- The results of a word written one after another. -/
theorem foldl_binRes (d : TileDesc) (l : List (Nat × Nat)) (m : Mem) :
    (l.map (s.binRes e o kd k)).foldl (fun a x => putAccElem a d x.1.1 x.1.2 (b2n x.2.1)) m = binWrite d (s.binBit e o kd k) l m := by
  rw [List.foldl_map, binWrite]
  refine List.foldl_ext _ _ _ fun a q _ => ?_
  obtain ⟨place, bit⟩ := binRes_eq s e o kd k q
  rw [place, bit]

/-- What a word does once its elements are decided: descriptor flags, marks, its slot, a count and the range checks. -/
def State.finishBinary (s : State) (e : EngId) (o : BinOp) (opc : Nat) (fl : NFlags) (poison : Bool) (n : Nat) : State :=
  (((((s.modEng e fun g => g.modTd o.dst.val fun t => t.collect fl 0).wroteTd e o.dst.val poison).modSheet e.sheet.val fun h =>
    h.modSlot o.slot.val fun x => { x with drew := true, poison := x.poison || poison }).parcelEvent e
      { cls := 2, code := 0x06, inc := n }).rangeCheck e o.dst.val (opEngine 6 opc))

theorem finishBinary_shows (s : State) (e : EngId) (o : BinOp) (opc : Nat) (fl : NFlags) (poison : Bool) (n : Nat) :
    SheetsKeep Sheet.cells s (s.finishBinary e o opc fl poison n) ∧
      (((s.finishBinary e o opc fl poison n).sheet e.sheet.val).slot o.slot.val).drew = true := by
  unfold State.finishBinary
  generalize hv : (s.modEng e fun g => g.modTd o.dst.val fun t => t.collect fl 0).wroteTd e o.dst.val poison = v
  have marked : SheetsKeep Sheet.cells s v := hv ▸ (cells_modEng _ _ _).trans (wroteTd_still _ _ _ _).cells
  have counted := parcelEvent_counts (v.modSheet e.sheet.val fun h => h.modSlot o.slot.val fun x =>
    { x with drew := true, poison := x.poison || poison }) e { cls := 2, code := 0x06, inc := n } none
  constructor
  · exact ((marked.trans (.modSheet _ _ (by intro _; rfl))).trans counted.still.cells).trans (rangeCheck_still _ _ _ _).cells
  · rw [Sheet.slot, (counted.sheetsKeep slots_unreported).trans (rangeCheck_slots _ e o.dst.val (opEngine 6 opc)), sheet_modSheet_same]
    exact congrArg Slot.drew ((slot_modSlot _ _ _ _).trans (if_pos rfl))

/-- The key that a word decides with: its stream's where it draws (R147). -/
def State.binKey (s : State) (e : EngId) (o : BinOp) (kd : BinKind) : Option (Nat × Nat) :=
  if kd.draws (s.binRegs e o) then
    s.streamOn e.sheet.val { purpose := kd.purpose, slot := (s.binRegs e o).gslot, tensor := (s.binRegs e o).tensor }
  else some (0, 0)

/-- A word whose stream is bound where it draws has a key, and decides as with that stream's. -/
theorem binKey_of (key : kd.draws (s.binRegs e o) = true →
      s.streamOn e.sheet.val { purpose := kd.purpose, slot := (s.binRegs e o).gslot, tensor := (s.binRegs e o).tensor } = some k) :
    ∃ k', s.binKey e o kd = some k' ∧ s.binBit e o kd k' = s.binBit e o kd k := by
  unfold State.binKey
  cases h : kd.draws (s.binRegs e o)
  · exact ⟨(0, 0), rfl, funext fun q => binBit_drawless h _ _ q⟩
  · exact ⟨k, key h, rfl⟩

/-- The decisions of a word put into the rows of its destination. -/
def State.putDecisions (s : State) (e : EngId) (o : BinOp) (kd : BinKind) (k : Nat × Nat) : State :=
  s.modPmem e fun m => { m with
    acc := binWrite (wide ((s.eng e).td o.dst.val)) (s.binBit e o kd k)
      (binPlaces o ((s.eng e).td o.src.val) ((s.eng e).td o.dst.val)) m.acc }

/-- A binary decision word decides the elements of the rows named inside both shapes (R147). -/
theorem doBinary_runs (opc : Nat) (key : s.binKey e o kd = some k) :
    ∃ fl poison n, s.doBinary e o {} kd opc = (s.putDecisions e o kd k).finishBinary e o opc fl poison n := by
  simp only [State.putDecisions, ← foldl_binRes]
  unfold State.doBinary
  dsimp only
  split
  · next none => cases key.symm.trans none
  · next k' some =>
    obtain rfl := Option.some.inj (key.symm.trans some)
    rw [sramRead_none, residueFault_none]
    exact ⟨_, _, _, rfl⟩

end Sys2Proof.Machine

open Sys2Proof Sys2Proof.Machine

/-- Settles O29: each decision is written once into its element. -/
theorem binaryDecisions : Obligations.BinaryDecisions := by
  intro e o s p k hp h r src dst d64 bound did used
  have decides (kd : BinKind) (opc : Nat) (t : State) (x : Popped e s t) (key : kd.draws r = true → bound kd.purpose) :
      did kd (t.doBinary e o {} kd opc) := by
    have regs : t.binRegs e o = r := congrArg Slot.pend (x.only.slot _ _)
    obtain ⟨k', hk, draws⟩ := binKey_of (s := t) (o := o) (kd := kd) (k := k) fun d => by
      rw [regs] at d ⊢
      exact (x.only.streamOn _ _).trans (key d)
    obtain ⟨fl, poison, n, run⟩ := doBinary_runs opc hk
    obtain ⟨cells, drew⟩ := finishBinary_shows (t.putDecisions e o kd k') e o opc fl poison n
    rw [← run] at cells drew
    have lands := modPmem_lands_on hp x.still.cells (g := fun c => (c.1, binWrite (wide ((t.eng e).td o.dst.val)) (t.binBit e o kd k')
      (binPlaces o ((t.eng e).td o.src.val) ((t.eng e).td o.dst.val)) c.2)) cells fun _ => rfl
    rw [x.still.td, x.still.td] at lands
    refine ⟨lands.sameDram, lands.sameStores rfl, lands.accsBut fun b hb => binWrite_outside used hb, drew,
      fun i j hi hs hd js jd => ?_⟩
    rw [lands.acc_here]
    refine (binWrite_elem used (mem_binPlaces hi hs hd js jd)).trans ?_
    rw [draws, State.binBit, x.only.pmem, x.still.td, x.still.td, regs]
    cases q24Val (accVal (s.pmem e).acc ((s.eng e).td o.src.val) (o.frow + i) j) <;> rfl
  exact ⟨fun hs b => leads_starts hs rfl fun t x => decides .bernoulli 5 t x fun _ => b,
    fun hs b => leads_starts hs rfl fun t x => decides .heatbath 6 t x fun d => b (by simpa [BinKind.draws] using d),
    fun hs b => leads_starts hs rfl fun t x => decides .metropolis 7 t x fun d => b (by simpa [BinKind.draws] using d)⟩
end

section
/-! SUPPORT. The rules of decision rise with their operands (02 R66 to R71; 04 R129; 06 R187, R189). -/

namespace Sys2Proof.Machine

/-! ### Scaling and saturation -/

theorem fdiv_mono {a b : Int} (h : a ≤ b) {k : Int} (hk : 0 < k) : a.fdiv k ≤ b.fdiv k := by
  rw [Int.fdiv_eq_ediv_of_nonneg a hk.le, Int.fdiv_eq_ediv_of_nonneg b hk.le]
  exact Int.ediv_le_ediv hk h

theorem shl_mono {a b : Int} (h : a ≤ b) (k : Int) : shl a k ≤ shl b k := by
  unfold shl
  split
  · exact Int.mul_le_mul_of_nonneg_right h (by positivity)
  · exact fdiv_mono h (by positivity)

/-- Saturation is clipping to the Q24 range. -/
theorem q24Sat_val (z : Int) : (q24Sat z).1 = max (-(2 ^ 39)) (min z (2 ^ 39 - 1)) := by
  unfold q24Sat
  split
  · dsimp only
    omega
  · split
    · dsimp only
      omega
    · dsimp only
      omega

theorem q24Sat_mono {a b : Int} (h : a ≤ b) : (q24Sat a).1 ≤ (q24Sat b).1 := by
  rw [q24Sat_val, q24Sat_val]
  exact max_le_max le_rfl (min_le_min h le_rfl)

theorem chainQ24_mono (r : ChainRegs) {a b : Int} (h : a ≤ b) : (chainQ24 r a).1 ≤ (chainQ24 r b).1 := q24Sat_mono (shl_mono h _)

theorem chainScale_mono (r : ChainRegs) (b2 : Bool) {a b : Int} (h : a ≤ b) : chainScale r b2 a ≤ chainScale r b2 b := by
  have invt : (0 : Int) ≤ r.invt.toNat := Int.natCast_nonneg _
  unfold chainScale tempScale
  refine q24Sat_mono ?_
  dsimp only
  split
  · exact fdiv_mono (Int.mul_le_mul_of_nonneg_right h invt) (by decide)
  · exact fdiv_mono (Int.mul_le_mul_of_nonneg_right (Int.mul_le_mul_of_nonneg_right h (by decide)) invt) (by decide)

/-! ### The exponential -/

/-- The polynomial factor of exp2_unit, by the low 18 bits of the fraction (02 R67). -/
def exp2Poly (r : Nat) : Nat := 2 ^ 40 + ((r * (exp2C1 + ((r * (exp2C2 + ((r * exp2C3) >>> 24))) >>> 24))) >>> 24)

/-- The mantissa of exp2_unit, by the 24 bits of the fraction (02 R67). -/
def exp2Mant (f : Nat) : Nat := (exp2Table.getD (f >>> 18) 0 * exp2Poly (f % 2 ^ 18)) >>> 40

theorem shiftRight_mono {a b : Nat} (h : a ≤ b) (k : Nat) : a >>> k ≤ b >>> k := by
  rw [Nat.shiftRight_eq_div_pow, Nat.shiftRight_eq_div_pow]
  exact Nat.div_le_div_right h

theorem exp2Poly_mono {a b : Nat} (h : a ≤ b) : exp2Poly a ≤ exp2Poly b :=
  Nat.add_le_add_left (shiftRight_mono (Nat.mul_le_mul h (Nat.add_le_add_left (shiftRight_mono (Nat.mul_le_mul h
    (Nat.add_le_add_left (shiftRight_mono (Nat.mul_le_mul_right _ h) _) _)) _) _)) _) _

theorem exp2Poly_zero : exp2Poly 0 = 2 ^ 40 := by decide

/-- The table's entries, and twice the first one after the last. -/
def exp2Knot (j : Nat) : Nat := exp2Table.getD j (2 ^ 63)

/-- The polynomial spans no more than the step from one entry of the table to the next. -/
theorem exp2Knot_step : ∀ j < 64, (exp2Knot j * exp2Poly (2 ^ 18 - 1)) >>> 40 ≤ exp2Knot (j + 1) := by decide

theorem exp2Mant_knot {f : Nat} (hf : f < 2 ^ 24) : exp2Mant f = (exp2Knot (f / 2 ^ 18) * exp2Poly (f % 2 ^ 18)) >>> 40 := by
  have size : exp2Table.length = 64 := by decide
  have inside : f / 2 ^ 18 < exp2Table.length := by omega
  rw [exp2Mant, Nat.shiftRight_eq_div_pow f, exp2Knot, List.getD_eq_getElem _ _ inside, List.getD_eq_getElem _ _ inside]

theorem exp2Mant_bounds {f : Nat} (hf : f < 2 ^ 24) : exp2Knot (f / 2 ^ 18) ≤ exp2Mant f ∧ exp2Mant f ≤ exp2Knot (f / 2 ^ 18 + 1) := by
  rw [exp2Mant_knot hf]
  constructor
  · have low : exp2Knot (f / 2 ^ 18) * exp2Poly 0 ≤ exp2Knot (f / 2 ^ 18) * exp2Poly (f % 2 ^ 18) :=
      Nat.mul_le_mul_left _ (exp2Poly_mono (Nat.zero_le _))
    rw [exp2Poly_zero] at low
    rw [Nat.shiftRight_eq_div_pow, Nat.le_div_iff_mul_le (by positivity)]
    exact low
  · exact (shiftRight_mono (Nat.mul_le_mul_left _ (exp2Poly_mono (by omega))) _).trans (exp2Knot_step _ (by omega))

theorem exp2Knot_mono {i j : Nat} (h : i ≤ j) (hj : j ≤ 64) : exp2Knot i ≤ exp2Knot j := by
  induction j, h using Nat.le_induction with
  | base => exact le_rfl
  | succ j hij ih =>
    have low := (exp2Mant_bounds (f := j * 2 ^ 18) (by omega)).1.trans (exp2Mant_bounds (f := j * 2 ^ 18) (by omega)).2
    rw [Nat.mul_div_cancel _ (by positivity)] at low
    exact (ih (by omega)).trans low

theorem exp2Mant_mono {f g : Nat} (h : f ≤ g) (hg : g < 2 ^ 24) : exp2Mant f ≤ exp2Mant g := by
  have hf : f < 2 ^ 24 := by omega
  by_cases e : f / 2 ^ 18 = g / 2 ^ 18
  · rw [exp2Mant_knot hf, exp2Mant_knot hg, e]
    exact shiftRight_mono (Nat.mul_le_mul_left _ (exp2Poly_mono (by omega))) _
  · calc exp2Mant f ≤ exp2Knot (f / 2 ^ 18 + 1) := (exp2Mant_bounds hf).2
      _ ≤ exp2Knot (g / 2 ^ 18) := exp2Knot_mono (by omega) (by omega)
      _ ≤ exp2Mant g := (exp2Mant_bounds hg).1

theorem exp2Mant_range {f : Nat} (hf : f < 2 ^ 24) : 2 ^ 62 ≤ exp2Mant f ∧ exp2Mant f ≤ 2 ^ 63 := by
  obtain ⟨low, high⟩ := exp2Mant_bounds hf
  have first : exp2Knot 0 = 2 ^ 62 := by decide
  have last : exp2Knot 64 = 2 ^ 63 := by decide
  exact ⟨first ▸ (exp2Knot_mono (Nat.zero_le _) (by omega)).trans low, last ▸ high.trans (exp2Knot_mono (by omega) (by omega))⟩

/-- exp2_unit of an operand that is not positive: the mantissa of its fraction shifted by its integer part. -/
theorem exp2Unit_eq {z : Int} (hz : z ≤ 0) : exp2Unit z = exp2Mant (z % 2 ^ 24).toNat / 2 ^ (30 - z / 2 ^ 24).toNat := by
  have top := (exp2Mant_range (f := (z % 2 ^ 24).toNat) (by omega)).2
  unfold exp2Unit
  dsimp only
  rw [if_neg hz.not_gt, Int.fdiv_eq_ediv_of_nonneg z (by decide), Int.fmod_eq_emod_of_nonneg z (by decide)]
  split
  · refine (Nat.div_eq_of_lt (top.trans_lt ?_)).symm
    exact Nat.pow_lt_pow_right (by decide) (by omega)
  · rw [Nat.shiftRight_eq_div_pow]
    rfl

theorem exp2Unit_pos {z : Int} (hz : 0 ≤ z) : exp2Unit z = 2 ^ 32 := by
  have clip : exp2Unit z = exp2Unit 0 := by
    rcases hz.eq_or_lt with rfl | h
    · rfl
    · unfold exp2Unit
      rw [if_pos h, if_neg (lt_irrefl _)]
  rw [clip]
  decide

/-- One more place of shift outweighs a mantissa of at most twice the size. -/
theorem div_pow_le_half {m m' k k' : Nat} (hm : m ≤ 2 * m') (hk : k' + 1 ≤ k) : m / 2 ^ k ≤ m' / 2 ^ k' :=
  calc m / 2 ^ k ≤ 2 * m' / 2 ^ (k' + 1) := Nat.div_le_div hm (Nat.pow_le_pow_right (by decide) hk) (by positivity)
    _ = m' / 2 ^ k' := by rw [Nat.pow_succ', Nat.mul_div_mul_left _ _ (by decide)]

theorem exp2Unit_mono {a b : Int} (h : a ≤ b) : exp2Unit a ≤ exp2Unit b := by
  have below {a b : Int} (h : a ≤ b) (hb : b ≤ 0) : exp2Unit a ≤ exp2Unit b := by
    rw [exp2Unit_eq (h.trans hb), exp2Unit_eq hb]
    by_cases e : a / 2 ^ 24 = b / 2 ^ 24
    · rw [e]
      exact Nat.div_le_div_right (exp2Mant_mono (by omega) (by omega))
    · have high := (exp2Mant_range (f := (a % 2 ^ 24).toNat) (by omega)).2
      have low := (exp2Mant_range (f := (b % 2 ^ 24).toNat) (by omega)).1
      exact div_pow_le_half (high.trans (Nat.mul_le_mul_left 2 low)) (by omega)
  rcases le_total b 0 with hb | hb
  · exact below h hb
  · rw [exp2Unit_pos hb]
    rcases le_total a 0 with ha | ha
    · exact (below ha le_rfl).trans (exp2Unit_pos le_rfl).le
    · exact (exp2Unit_pos ha).le

/-! ### The sigmoid -/

/-- The upper half of the sigmoid, by an operand that is not negative (02 R71). -/
def sigmoidUpper (w : Int) : Nat := 2 ^ 64 / (2 ^ 32 + exp2Unit (-w))

theorem sigmoidUpper_mono {a b : Int} (h : a ≤ b) : sigmoidUpper a ≤ sigmoidUpper b :=
  Nat.div_le_div_left (Nat.add_le_add_left (exp2Unit_mono (by omega)) _) (by positivity)

theorem sigmoidUpper_zero : sigmoidUpper 0 = 2 ^ 31 := by decide

theorem sigmoid2_upper {w : Int} (h : 0 ≤ w) : sigmoid2 w = sigmoidUpper w := by rw [sigmoid2, if_pos h, sigmoidUpper]

/-- The magnitude of a negative operand; the least one is taken at the largest. -/
def sigmoidArg (w : Int) : Int := if w = -(2 ^ 39) then 2 ^ 39 - 1 else -w

theorem sigmoid2_lower {w : Int} (h : w < 0) : sigmoid2 w = 2 ^ 32 - sigmoidUpper (sigmoidArg w) := by
  rw [sigmoid2, if_neg (by omega), sigmoidUpper, sigmoidArg]

theorem sigmoidArg_anti {a b : Int} (h : a ≤ b) : sigmoidArg b ≤ sigmoidArg a := by
  unfold sigmoidArg
  split <;> split <;> omega

theorem sigmoid2_mono {a b : Int} (h : a ≤ b) : sigmoid2 a ≤ sigmoid2 b := by
  rcases le_or_gt 0 a with pos | neg
  · rw [sigmoid2_upper pos, sigmoid2_upper (pos.trans h)]
    exact sigmoidUpper_mono h
  · rw [sigmoid2_lower neg]
    rcases le_or_gt 0 b with pos | neg'
    · have half {w : Int} (hw : 0 ≤ w) : 2 ^ 31 ≤ sigmoidUpper w := sigmoidUpper_zero ▸ sigmoidUpper_mono hw
      have mag : 0 ≤ sigmoidArg a := by
        unfold sigmoidArg
        split <;> omega
      rw [sigmoid2_upper pos]
      have lower := half mag
      have upper := half pos
      omega
    · rw [sigmoid2_lower neg']
      exact Nat.sub_le_sub_left (sigmoidUpper_mono (sigmoidArg_anti h)) _

/-! ### The rules of decision -/

/-- What a rule accepts it accepts of every smaller operand (R190). -/
theorem chainAccepts_anti (r : ChainRegs) (b2 heat : Bool) (u : Nat) {a b : Int} (h : a ≤ b)
    (hb : chainAccepts r b2 heat u b = true) : chainAccepts r b2 heat u a = true := by
  have z := chainQ24_mono r h
  have scaled := chainScale_mono r b2 (Int.neg_le_neg z)
  unfold chainAccepts at hb ⊢
  dsimp only at hb ⊢
  split at hb
  · next cold =>
    rw [if_pos cold]
    cases heat <;> simp only [if_true, Bool.false_eq_true, if_false, decide_eq_true_eq] at hb ⊢ <;> omega
  · next warm =>
    rw [if_neg warm]
    cases heat with
    | true =>
      rw [if_pos rfl, decide_eq_true_eq] at hb ⊢
      exact hb.trans_le (sigmoid2_mono scaled)
    | false =>
      rw [if_neg Bool.false_ne_true, Bool.or_eq_true, decide_eq_true_eq, decide_eq_true_eq] at hb ⊢
      exact hb.imp z.trans fun lt => lt.trans_le (exp2Unit_mono scaled)

end Sys2Proof.Machine
end

section
/-! O30: the acceptance bound (06 R190). -/

namespace Sys2Proof.Machine

/-- Bisection keeps an accepted operand below and a refused one above, until they are neighbours. -/
theorem boundSearch_spec (acc : Int → Bool) (n : Nat) : ∀ {lo hi : Int}, acc lo = true → acc hi = false → lo < hi → hi - lo ≤ 2 ^ n →
    lo ≤ boundSearch acc n lo hi ∧ boundSearch acc n lo hi < hi ∧ acc (boundSearch acc n lo hi) = true ∧
      acc (boundSearch acc n lo hi + 1) = false := by
  induction n with
  | zero =>
    intro lo hi hlo hhi lt le
    have next : lo + 1 = hi := by omega
    exact ⟨le_rfl, lt, hlo, next ▸ hhi⟩
  | succ n ih =>
    intro lo hi hlo hhi lt le
    have mid : (lo + hi).fdiv 2 = (lo + hi) / 2 := Int.fdiv_eq_ediv_of_nonneg _ (by decide)
    rw [pow_succ] at le
    unfold boundSearch
    rw [mid]
    dsimp only
    split
    · next yes =>
      have := ih yes hhi (by omega) (by omega)
      exact ⟨by omega, this.2⟩
    · next no =>
      have apart : lo < (lo + hi) / 2 := by
        refine lt_of_le_of_ne (by omega) fun e => no (e ▸ hlo)
      obtain ⟨low, high, yes, next⟩ := ih hlo (Bool.eq_false_iff.2 no) apart (by omega)
      exact ⟨low, by omega, yes, next⟩

/-- A rule that accepts what is below what it accepts is comparison with its bound, over the finite operands. -/
theorem acceptBound_spec {acc : Int → Bool} (down : ∀ {a b : Int}, a ≤ b → acc b = true → acc a = true) :
    (∀ x : Int, -a64Max ≤ x → x ≤ a64Max → (acc x = true ↔ x ≤ acceptBound acc)) ∧
      (acceptBound acc = -(2 ^ 63) ∨ (-a64Max ≤ acceptBound acc ∧ acceptBound acc ≤ a64Max ∧ acc (acceptBound acc) = true)) := by
  have max : a64Max = 2 ^ 63 - 1 := rfl
  unfold acceptBound
  split
  · next all => exact ⟨fun x _ h => ⟨fun _ => h, fun _ => down h all⟩, .inr ⟨by omega, le_rfl, all⟩⟩
  · next top =>
    split
    · next least =>
      rw [Bool.not_eq_true'] at least
      refine ⟨fun x h _ => ⟨fun yes => ?_, fun le => by omega⟩, .inl rfl⟩
      exact absurd (down h yes) (by rw [least]; decide)
    · next least =>
      rw [Bool.not_eq_true', Bool.not_eq_false] at least
      obtain ⟨low, high, yes, next⟩ := boundSearch_spec acc 64 least (Bool.eq_false_iff.2 top) (by omega) (by omega)
      refine ⟨fun x _ _ => ⟨fun hx => ?_, fun le => down le yes⟩, .inr ⟨low, high.le, yes⟩⟩
      by_contra gt
      exact absurd (down (by omega) hx) (Bool.eq_false_iff.1 next)

/-- The rule reads the chain's inverse temperature, its energy exponent and whether it is greedy. -/
theorem chainAccepts_congr {r r' : ChainRegs} (hi : r'.invt = r.invt) (he : r'.eexp = r.eexp) (ht : r'.teff = 0 ↔ r.teff = 0)
    (b2 heat : Bool) (u : Nat) : chainAccepts r' b2 heat u = chainAccepts r b2 heat u := by
  funext x
  simp only [chainAccepts, chainQ24, chainScale, hi, he]
  split
  · next cold => exact (if_pos (ht.1 cold)).symm
  · next warm => exact (if_neg (mt ht.2 warm)).symm

end Sys2Proof.Machine

open Sys2Proof Sys2Proof.Machine

/-- Settles O30: the rule falls with its operand, so bisection ends at the largest accepted one. -/
theorem acceptanceBoundDecides : Obligations.AcceptanceBoundDecides := by
  intro r b2 heat u _
  obtain ⟨decides, ends⟩ := acceptBound_spec fun {_ _} h => chainAccepts_anti r b2 heat u h
  exact ⟨decides, ends, fun r' hi he ht => by rw [chainAccepts_congr hi he ht]⟩
end

section
/-! SUPPORT. Settlement of one chain's variables (06 R194): what each of them gets, and the changes it passes on. -/

namespace Sys2Proof.Machine

/-! ### Changes that add up -/

/-- What the changes decided so far add to the field of variable i. -/
def drift (q : Nat → Nat → Int) (chg : List (Nat × Int)) (i : Nat) : Int := (chg.map fun c => q i c.1 * c.2).sum

/-- The changed variables once variable j has changed by d. -/
def growChg (chg : List (Nat × Int)) (j : Nat) (d : Int) : List (Nat × Int) := if d = 0 then chg else chg ++ [(j, d)]

theorem drift_nil (q : Nat → Nat → Int) (i : Nat) : drift q [] i = 0 := rfl

theorem drift_growChg (q : Nat → Nat → Int) (chg : List (Nat × Int)) (j : Nat) (d : Int) (i : Nat) :
    drift q (growChg chg j d) i = drift q chg i + q i j * d := by
  unfold growChg drift
  split
  · next h => rw [h, mul_zero, add_zero]
  · simp

/-- A change of a variable is -1, 0 or 1. -/
theorem bitDelta_natAbs (z x : Bool) : ((b2n z : Int) - b2n x).natAbs ≤ 1 := by cases z <;> cases x <;> decide

/-- A field stays within what it has room for when a variable changes. -/
theorem room_after {f w d : Int} {rest : Nat} (h : f.natAbs + (w.natAbs + rest) ≤ 2 ^ 63 - 1) (hd : d.natAbs ≤ 1) :
    (f + w * d).natAbs + rest ≤ 2 ^ 63 - 1 := by
  have moved : (w * d).natAbs ≤ w.natAbs := by
    rw [Int.natAbs_mul]
    exact (Nat.mul_le_mul_left _ hd).trans (mul_one _).le
  have sum := Int.natAbs_add_le f (w * d)
  omega

theorem a64Sat_of_room {f : Int} {rest : Nat} (h : f.natAbs + rest ≤ 2 ^ 63 - 1) : a64Sat f = f := by
  have max : a64Max = 2 ^ 63 - 1 := rfl
  unfold a64Sat
  omega

theorem finite_of_room {f : Int} {rest : Nat} (h : f.natAbs + rest ≤ 2 ^ 63 - 1) : -a64Max ≤ f ∧ f ≤ a64Max := by
  have max : a64Max = 2 ^ 63 - 1 := rfl
  omega

/-! ### One variable -/

/-- The field of a variable as settlement takes it. -/
def settledField (q : Nat → Nat → Int) (chg : List (Nat × Int)) (v : SettleVar) (f : Int) : Int := a64Sat (f + drift q chg v.j)

/-- The state that settlement decides on a settled field. -/
def settledState (heat sync : Bool) (v : SettleVar) (fp : Int) : Bool :=
  if sync then v.prop
  else if heat then decide (fp ≤ v.bound)
  else if decide ((if v.x then -fp else fp) ≤ v.bound) then !v.x else v.x

/-- The states with that of variable k replaced. -/
def flipTo (x : Nat → Bool) (k : Nat) (z : Bool) : Nat → Bool := fun i => if i = k then z else x i

/-- How a variable changed. -/
def SettleVar.delta (v : SettleVar) : Int := (b2n v.final : Int) - b2n v.x

/-- A variable with its field settled. -/
def settledVar (q : Nat → Nat → Int) (heat sync : Bool) (chg : List (Nat × Int)) (v : SettleVar) (f : Int) : SettleVar :=
  { v with final := settledState heat sync v (settledField q chg v f), fprime := settledField q chg v f }

section
variable {q : Nat → Nat → Int} {heat sync : Bool} {chg : List (Nat × Int)} {v : SettleVar} {r : List SettleVar}

theorem settleVars_some {f : Int} (h : v.field = some f) :
    settleVars q heat sync chg (v :: r) =
      settledVar q heat sync chg v f ::
        settleVars q heat sync (growChg chg v.j (settledVar q heat sync chg v f).delta) r := by
  obtain ⟨c, j, x, field, bound, prop, final, fprime⟩ := v
  obtain rfl : field = some f := h
  rfl

theorem settleVars_none (h : v.field = none) :
    settleVars q heat sync chg (v :: r) = { v with final := v.x } :: settleVars q heat sync chg r := by rw [settleVars, h]

/-- Settlement keeps the variables and their order. -/
theorem settleVars_places (vs : List SettleVar) : ∀ chg, (settleVars q heat sync chg vs).map (fun v => v.j) = vs.map fun v => v.j := by
  induction vs with
  | nil => intro chg; rfl
  | cons v r ih =>
    intro chg
    cases h : v.field with
    | none => rw [settleVars_none h, List.map_cons, List.map_cons, ih]
    | some f => rw [settleVars_some h, List.map_cons, List.map_cons, ih]; rfl

end

end Sys2Proof.Machine
end

section
/-! O31: a settled block is a sequential sweep (06 R193, R194, R195). -/

namespace Sys2Proof.Machine

variable {r : ChainRegs} {b2 heat : Bool} {u : Nat → Nat} {q : Nat → Nat → Int} {c : Nat}

/-- The decision of a sequential sweep on a field (R193). -/
def sweepState (acc : Int → Bool) (heat x : Bool) (f : Int) : Bool :=
  let y := acc (if heat then f else if x then -f else f)
  if heat then y else x != y

theorem seqSweep_cons (acc : Nat → Int → Bool) (j : Nat) (js : List Nat) (x : Nat → Bool) (f : Nat → Int) :
    seqSweep q acc heat (j :: js) x f =
      seqSweep q acc heat js (flipTo x j (sweepState (acc j) heat (x j) (f j)))
        (fun i => f i + q i j * ((b2n (sweepState (acc j) heat (x j) (f j)) : Int) - b2n (x j))) := rfl

/-- A variable that a sweep does not visit keeps its state. -/
theorem seqSweep_unvisited (acc : Nat → Int → Bool) {i : Nat} (js : List Nat) :
    ∀ (x : Nat → Bool) (f : Nat → Int), i ∉ js → seqSweep q acc heat js x f i = x i := by
  induction js with
  | nil => intro x f _; rfl
  | cons j js ih =>
    intro x f h
    rw [List.mem_cons, not_or] at h
    rw [seqSweep_cons, ih _ _ h.2, flipTo, if_neg h.1]

/-- Comparison with the acceptance bound decides as the rule does on the field. -/
theorem settledState_proposed (u : Nat) (c j : Nat) (x : Bool) (f : Int) {fp : Int} (h : -a64Max ≤ fp ∧ fp ≤ a64Max) :
    settledState heat false (proposeVar r b2 heat u c j x (some f)) fp = sweepState (chainAccepts r b2 heat u) heat x fp := by
  have decides {y : Int} (hy : -a64Max ≤ y ∧ y ≤ a64Max) :
      decide (y ≤ acceptBound (chainAccepts r b2 heat u)) = chainAccepts r b2 heat u y := by
    have spec := (acceptBound_spec fun {_ _} h => chainAccepts_anti r b2 heat u h).1 y hy.1 hy.2
    exact Bool.eq_iff_iff.2 (decide_eq_true_iff.trans spec.symm)
  have neg : -a64Max ≤ -fp ∧ -fp ≤ a64Max := ⟨Int.neg_le_neg h.2, Int.neg_le_of_neg_le h.1⟩
  simp only [settledState, sweepState, proposeVar, Bool.false_eq_true, if_false]
  cases heat with
  | true => exact decides h
  | false =>
    cases x with
    | true =>
      simp only [Bool.false_eq_true, if_false, if_true, decides neg]
      cases chainAccepts r b2 false u (-fp) <;> rfl
    | false =>
      simp only [Bool.false_eq_true, if_false, decides h]
      cases chainAccepts r b2 false u fp <;> rfl

/-- A proposed variable is settled as the sweep decides it on the field that results from the changes before it. -/
theorem settledVar_proposed {chg : List (Nat × Int)} {u c j rest : Nat} (x : Bool) {f : Int}
    (room : (f + drift q chg j).natAbs + rest ≤ 2 ^ 63 - 1) :
    settledVar q heat false chg (proposeVar r b2 heat u c j x (some f)) f =
      { proposeVar r b2 heat u c j x (some f) with
        final := sweepState (chainAccepts r b2 heat u) heat x (f + drift q chg j), fprime := f + drift q chg j } := by
  have field : settledField q chg (proposeVar r b2 heat u c j x (some f)) f = f + drift q chg j := a64Sat_of_room room
  rw [settledVar, field, settledState_proposed _ _ _ _ _ (finite_of_room room)]

/-- Settlement of proposed variables, with the changes decided before them, leaves the states of the sequential sweep. -/
theorem settleVars_sequential (js : List Nat) (f : Nat → Int) : ∀ (x : Nat → Bool) (chg : List (Nat × Int)), js.Nodup →
    (∀ j ∈ js, (f j + drift q chg j).natAbs + (js.map fun i => (q j i).natAbs).sum ≤ 2 ^ 63 - 1) →
    ∀ v ∈ settleVars q heat false chg (js.map fun j => proposeVar r b2 heat (u j) c j (x j) (some (f j))),
      v.final = seqSweep q (fun j => chainAccepts r b2 heat (u j)) heat js x (fun j => f j + drift q chg j) v.j := by
  induction js with
  | nil => intro x chg _ _ v hv; cases hv
  | cons j js ih =>
    intro x chg distinct room v hv
    obtain ⟨fresh, distinct⟩ := List.nodup_cons.1 distinct
    rw [List.map_cons, settleVars_some rfl, settledVar_proposed (x j) (room j List.mem_cons_self), List.mem_cons] at hv
    rw [seqSweep_cons]
    generalize sweepState (chainAccepts r b2 heat (u j)) heat (x j) (f j + drift q chg j) = z at hv ⊢
    rcases hv with rfl | hv
    · refine Eq.trans ?_ (seqSweep_unvisited _ js _ _ fresh).symm
      exact (if_pos rfl).symm
    · have moved (i : Nat) : f i + drift q (growChg chg j ((b2n z : Int) - b2n (x j))) i =
          f i + drift q chg i + q i j * ((b2n z : Int) - b2n (x j)) := by rw [drift_growChg, add_assoc]
      have unmoved : (js.map fun i => proposeVar r b2 heat (u i) c i (x i) (some (f i))) =
          js.map fun i => proposeVar r b2 heat (u i) c i (flipTo x j z i) (some (f i)) :=
        List.map_congr_left fun i hi => by
          have apart : i ≠ j := fun e => fresh (e ▸ hi)
          rw [flipTo, if_neg apart]
      rw [unmoved] at hv
      have rest := ih (flipTo x j z) _ distinct (fun i hi => ?_) v hv
      · exact rest.trans (congrArg (fun g => seqSweep q _ heat js _ g v.j) (funext moved))
      · have before := room i (List.mem_cons_of_mem _ hi)
        rw [List.map_cons, List.sum_cons] at before
        exact (congrArg (fun f : Int => f.natAbs + (js.map fun k => (q i k).natAbs).sum) (moved i)).trans_le
          (room_after before (bitDelta_natAbs _ _))

end Sys2Proof.Machine

open Sys2Proof Sys2Proof.Machine

/-- Settles O31: the changes that settlement passes on are those of the sweep, and no field leaves the A64 range. -/
theorem settledBlockIsSequential : Obligations.SettledBlockIsSequential := by
  intro r b2 heat u q js x f c distinct _ room
  refine ⟨?_, fun v hv => ?_⟩
  · rw [settleVars_places, List.map_map]
    exact List.map_id' js
  · have sequential := settleVars_sequential js f x [] distinct (fun j hj => by rw [drift_nil, add_zero]; exact room j hj) v hv
    simpa only [drift_nil, add_zero] using sequential
end

section
/-! O32: the energy that settlement adds (06 R176, R184, R194, R196). -/

namespace Sys2Proof.Machine

variable {h : Nat → Int} {q : Nat → Nat → Int} {n k : Nat} {x : Nat → Bool}

/-! ### One variable changes -/

theorem modelField_succ (i : Nat) : modelField h q (n + 1) x i = modelField h q n x i + if n = i then 0 else q i n * b2n (x n) := by
  rw [modelField, List.sum_range_succ, ← add_assoc, modelField]

/-- The energy of one more variable: its own field over those before it. -/
theorem modelEnergy_succ (sym : ∀ i j, q i j = q j i) :
    modelEnergy h q (n + 1) x = modelEnergy h q n x + b2n (x n) * modelField h q n x n := by
  have pairs : ((List.range n).map fun i => q i n * ((b2n (x i) : Int) * b2n (x n))).sum =
      b2n (x n) * ((List.range n).map fun j => if j = n then 0 else q n j * (b2n (x j) : Int)).sum := by
    rw [← List.sum_map_mul_left]
    refine congrArg List.sum (List.map_congr_left fun i hi => ?_)
    rw [if_neg (List.mem_range.1 hi).ne, sym i n]
    ring
  rw [modelEnergy, List.sum_range_succ, List.range_succ, List.flatMap_append, List.sum_append, List.flatMap_singleton, pairs, modelEnergy,
    modelField]
  ring

theorem modelField_beyond {i : Nat} (z : Bool) (hk : n ≤ k) : modelField h q n (flipTo x k z) i = modelField h q n x i := by
  unfold modelField
  refine congrArg (h i + ·) (congrArg List.sum (List.map_congr_left fun j hj => ?_))
  rw [flipTo, if_neg (hk.trans_lt' (List.mem_range.1 hj)).ne]

/-- The field of another variable moves by its coupling; a variable's own field does not see it. -/
theorem modelField_flipTo (i : Nat) (z : Bool) (hk : k < n) :
    modelField h q n (flipTo x k z) i = modelField h q n x i + if k = i then 0 else q i k * ((b2n z : Int) - b2n (x k)) := by
  induction n with
  | zero => omega
  | succ n ih =>
    rw [modelField_succ, modelField_succ]
    rcases Nat.lt_succ_iff_lt_or_eq.1 hk with lt | rfl
    · rw [ih lt, flipTo, if_neg lt.ne']
      ring
    · rw [modelField_beyond z le_rfl, flipTo, if_pos rfl]
      split <;> ring

theorem modelEnergy_beyond (sym : ∀ i j, q i j = q j i) (z : Bool) (hk : n ≤ k) :
    modelEnergy h q n (flipTo x k z) = modelEnergy h q n x := by
  induction n with
  | zero => rfl
  | succ n ih =>
    rw [modelEnergy_succ sym, modelEnergy_succ sym, ih (by omega), modelField_beyond z (by omega), flipTo, if_neg (by omega)]

/-- A change of one variable changes the energy by the change times the variable's field (R184). -/
theorem modelEnergy_flipTo (sym : ∀ i j, q i j = q j i) (z : Bool) (hk : k < n) :
    modelEnergy h q n (flipTo x k z) = modelEnergy h q n x + ((b2n z : Int) - b2n (x k)) * modelField h q n x k := by
  induction n with
  | zero => omega
  | succ n ih =>
    rw [modelEnergy_succ sym, modelEnergy_succ sym, modelField_succ]
    rcases Nat.lt_succ_iff_lt_or_eq.1 hk with lt | rfl
    · rw [ih lt, modelField_flipTo n z lt, flipTo, if_neg lt.ne', if_neg lt.ne, if_neg lt.ne', sym k n]
      ring
    · rw [modelEnergy_beyond sym z le_rfl, modelField_beyond z le_rfl, flipTo, if_pos rfl, if_pos rfl]
      ring

/-! ### A block changes -/

/-- The states after settled variables. -/
def settledStates (out : List SettleVar) (x : Nat → Bool) : Nat → Bool := fun i =>
  match out.find? fun v => v.j == i with
  | some v => v.final
  | none => x i

theorem settledStates_cons {v : SettleVar} {out : List SettleVar} (fresh : v.j ∉ out.map fun w => w.j) (x : Nat → Bool) :
    settledStates (v :: out) x = settledStates out (flipTo x v.j v.final) := by
  funext i
  unfold settledStates
  rw [List.find?_cons]
  by_cases e : v.j = i
  · subst e
    have none : (out.find? fun w => w.j == v.j) = none :=
      List.find?_eq_none.2 fun w hw same => fresh (List.mem_map.2 ⟨w, hw, beq_iff_eq.1 same⟩)
    rw [beq_self_eq_true, none]
    exact (if_pos rfl).symm
  · rw [Bool.eq_false_iff.2 (mt beq_iff_eq.1 e)]
    cases out.find? fun w => w.j == i with
    | none => exact (if_neg fun c => e c.symm).symm
    | some w => rfl

/-- The changes of a block's variables, each times its settled field, sum to the change of the energy. -/
theorem settleVars_energy (sym : ∀ i j, q i j = q j i) (heat sync : Bool) (vars : List SettleVar) :
    ∀ (x : Nat → Bool) (chg : List (Nat × Int)), (vars.map fun v => v.j).Nodup →
    (∀ v ∈ vars, v.j < n ∧ v.x = x v.j ∧ ∃ f, v.field = some f ∧ f + drift q chg v.j = modelField h q n x v.j) →
    (∀ v ∈ vars, (modelField h q n x v.j).natAbs + (vars.map fun w => (q v.j w.j).natAbs).sum ≤ 2 ^ 63 - 1) →
    ((settleVars q heat sync chg vars).map fun v => v.delta * v.fprime).sum =
      modelEnergy h q n (settledStates (settleVars q heat sync chg vars) x) - modelEnergy h q n x := by
  induction vars with
  | nil =>
    intro x chg _ _ _
    exact (sub_self _).symm
  | cons v r ih =>
    intro x chg distinct reads room
    obtain ⟨fresh, distinct⟩ := List.nodup_cons.1 distinct
    obtain ⟨inside, state, f, field, current⟩ := reads v List.mem_cons_self
    have settled : (settledVar q heat sync chg v f).fprime = modelField h q n x v.j := by
      rw [settledVar, settledField, current]
      exact a64Sat_of_room (room v List.mem_cons_self)
    have change : (settledVar q heat sync chg v f).delta = (b2n (settledVar q heat sync chg v f).final : Int) - b2n (x v.j) := by
      rw [← state]
      rfl
    have others : ∀ w ∈ r, modelField h q n (flipTo x v.j (settledVar q heat sync chg v f).final) w.j =
        modelField h q n x w.j + q w.j v.j * (settledVar q heat sync chg v f).delta := fun w hw => by
      rw [modelField_flipTo _ _ inside, change, if_neg fun e => fresh (List.mem_map.2 ⟨w, hw, e.symm⟩)]
    rw [settleVars_some field, List.map_cons, List.sum_cons, settledStates_cons (by rw [settleVars_places]; exact fresh)]
    rw [ih (flipTo x v.j (settledVar q heat sync chg v f).final) _ distinct (fun w hw => ?_) (fun w hw => ?_)]
    · rw [show (settledVar q heat sync chg v f).j = v.j from rfl, settled, modelEnergy_flipTo sym _ inside, ← change]
      ring
    · obtain ⟨inside', state', g, field', current'⟩ := reads w (List.mem_cons_of_mem _ hw)
      refine ⟨inside', ?_, g, field', ?_⟩
      · rw [flipTo, if_neg fun e => fresh (List.mem_map.2 ⟨w, hw, e⟩)]
        exact state'
      · rw [others w hw, drift_growChg, ← add_assoc, current']
    · have before := room w (List.mem_cons_of_mem _ hw)
      rw [List.map_cons, List.sum_cons] at before
      rw [others w hw]
      exact room_after before (bitDelta_natAbs _ _)

end Sys2Proof.Machine

open Sys2Proof Sys2Proof.Machine

/-- Settles O32: variable by variable, a change times the field it meets is the change of the energy. -/
theorem appliedEnergyIsTheChange : Obligations.AppliedEnergyIsTheChange := by
  intro h q n x heat sync vars sym _ distinct reads room
  exact settleVars_energy sym heat sync vars x [] distinct
    (fun v hv => ⟨(reads v hv).1, (reads v hv).2.1, _, (reads v hv).2.2, by rw [drift_nil, add_zero]⟩) room
end

section
/-! SUPPORT. What a coupled-model word finds where it starts, and the kinds that it raises (06 R182, R187, R211; 13 R365). -/

namespace Sys2Proof.Machine

variable {s t : State} {e : EngId}

section
variable (h : OnlyEngine e s t)
include h

theorem OnlyEngine.slotsOk (n m : Nat) : t.slotsOk e n m = s.slotsOk e n m := by simp only [State.slotsOk, h.slot]
theorem OnlyEngine.wire (i : Nat) : (t.sheet i).wire = (s.sheet i).wire := h.keeps Sheet.wire (fun _ => rfl) i
theorem OnlyEngine.chains (i : Nat) : (t.sheet i).chains = (s.sheet i).chains := h.keeps Sheet.chains (fun _ => rfl) i
theorem OnlyEngine.groups (i : Nat) : (t.sheet i).groups = (s.sheet i).groups := h.keeps Sheet.groups (fun _ => rfl) i
theorem OnlyEngine.chainAt (i n : Nat) : t.chainAt i n = s.chainAt i n := by simp only [State.chainAt, Sheet.chain, h.chains]
theorem OnlyEngine.slotKey (p : BitVec 4) (n : Nat) : t.slotKey e p n = s.slotKey e p n := by
  simp only [State.slotKey, h.slot, h.streamOn]
theorem OnlyEngine.curPlan (i : Nat) : t.curPlan i = s.curPlan i := by
  simp only [State.curPlan, h.partOf, ctx_of_ctxs h.ctxs, part_of_parts h.parts]
theorem OnlyEngine.tensorAt (i : Nat) (n : BitVec 16) : t.tensorAt i n = s.tensorAt i n := by simp only [State.tensorAt, h.curPlan]
theorem OnlyEngine.curDiv (i : Nat) : t.curDiv i = s.curDiv i := by
  simp only [State.curDiv, h.curPlan, h.partOf, part_of_parts h.parts, h.pmap]

end

/-- A fault of a word, seen from the state in which the word left its queue. -/
theorem Popped.raises (x : Popped e s t) {p : Nat} (hp : (s.sheet e.sheet.val).phys e.parcel.val = some p) (hl : p < 18) {l n : Nat}
    (k : BitVec 12) (op : BitVec 16) (a : Word) (level : l ≤ 4) (unit : n < 16) (hk : k.toNat / 0x100 ≠ 6) :
    SameMemories s (t.engFault e l n k op a) ∧ Raises e.sheet.val k a s (t.engFault e l n k op a) := by
  refine ⟨cells_sameMemories (x.still.cells.trans (engFault_reports _ _ _ _ _ _ _ _ _).still.cells), ?_⟩
  obtain ⟨m, wire, kind, address⟩ := engFault_raises t e k op a level unit hk fun q hq => by
    rw [x.only.phys, hp] at hq
    exact Option.some.inj hq ▸ hl
  exact ⟨m, by rw [wire, x.only.wire], kind, address⟩

/-- A descriptor fit to be a field tile holds the rows of its chains in 64-bit elements (R211). -/
theorem fieldTileOk_spec {d : TileDesc} {n : Nat} (h : fieldTileOk d n = true) :
    d.used = true ∧ d.f32 = false ∧ d.xstride = 0 ∧ n ≤ d.vrows.toNat := by
  simp only [fieldTileOk, TileDesc.inAcc, Bool.and_eq_true, Bool.not_eq_true', beq_iff_eq, decide_eq_true_eq] at h
  obtain ⟨⟨⟨⟨used, -⟩, narrow⟩, stride⟩, rows⟩ := h
  exact ⟨used, narrow, stride, rows⟩

end Sys2Proof.Machine
end

section
/-! O33: CPL_FIELDS (06 R185, R186). -/

namespace Sys2Proof.Machine

variable {s t : State} {e : EngId} {o : FieldsOp}

/-- The rows of a field tile after H was written into them. -/
def fieldsWrite (d : TileDesc) (v : Nat → A64) (l : List (Nat × Nat)) (m : Mem) : Mem :=
  l.foldl (fun m q => putAccElem m d q.1 q.2 (a64Code (v q.2))) m

theorem fieldsWrite_writes (d : TileDesc) (v : Nat → A64) :
    WritesElems d id id (fun _ q => a64Code (v q.2)) (fun m q => putAccElem m d q.1 q.2 (a64Code (v q.2))) := ⟨fun _ _ => rfl⟩

section
variable {d : TileDesc} {n : Nat} (fit : fieldTileOk d n = true) (v : Nat → A64) (m : Mem)
include fit

theorem fieldPlaces_inside {q : Nat × Nat} (h : q ∈ places n d.vcols.toNat) : q.1 < d.vrows.toNat ∧ q.2 < 128 := by
  obtain ⟨used, -, -, rows⟩ := fieldTileOk_spec fit
  have cols := used_cols used
  have inside := mem_places.1 h
  omega

theorem fieldsWrite_outside {b : Nat} (hb : ¬(d.accRange.1 ≤ b ∧ b < d.accRange.1 + d.accRange.2)) :
    mget (fieldsWrite d v (places n d.vcols.toNat) m) b = mget m b :=
  (fieldsWrite_writes d v).outside hb _ _ fun _ h => fieldPlaces_inside fit h

theorem fieldsWrite_elem {i j : Nat} (hi : i < n) (hj : j < d.vcols.toNat) :
    accElem (fieldsWrite d v (places n d.vcols.toNat) m) d i j = a64Code (v j) % 2 ^ 64 := by
  have one := (fieldsWrite_writes d v).visited (x := (i, j)) (places n d.vcols.toNat) m
    (by rw [List.map_id]; exact places_nodup _ _) (fun y hy => (fieldPlaces_inside fit hy).2) (mem_places.2 ⟨hi, hj⟩)
  rwa [show d.elemBytes = 8 by rw [TileDesc.elemBytes, (fieldTileOk_spec fit).2.1, if_neg Bool.false_ne_true]] at one

end

section
variable (bound : s.slotsOk e o.slot.val o.nch = true) (hs : fieldTileOk ((s.eng e).td o.src.val) o.nch = true)
  (hd : fieldTileOk ((s.eng e).td o.dst.val) o.nch = true)
include bound hs hd

/-- With MODE = 0 the word is a change of the destination's rows; marks and range checks follow (R185). -/
theorem doFields_sets (mode : o.mode = false) (inside : inStore o.hadr 1024 = true) :
    SheetsKeep Sheet.cells (s.modPmem e fun m => { m with
      acc := fieldsWrite ((s.eng e).td o.dst.val) (hElem (s.pmem e).store o.hadr) (places o.nch ((s.eng e).td o.dst.val).vcols.toNat) m.acc })
      (s.doFields e o {}) := by
  simp only [State.doFields, bound, hs, hd, mode, inside, sramRead_none, residueFault_none, Bool.not_true, Bool.not_false, Bool.or_self,
    Bool.false_eq_true, if_false, if_true]
  exact ((wroteTd_still _ _ _ _).cells.trans (retally_cells _ _ _)).trans (rangeCheck_still _ _ _ _).cells

/-- Whether the two tiles of a comparison differ in a chain's valid column (R186). -/
def State.fieldsDiffer (s : State) (e : EngId) (o : FieldsOp) : Prop :=
  ∃ c j, (c < o.nch ∧ j < ((s.eng e).td o.src.val).vcols.toNat ∧ j < ((s.eng e).td o.dst.val).vcols.toNat) ∧
    accElem (s.pmem e).acc ((s.eng e).td o.src.val) c j ≠ accElem (s.pmem e).acc ((s.eng e).td o.dst.val) c j

/-- With MODE = 1 the word reports a difference, and does nothing else (R186). -/
theorem doFields_compares (mode : o.mode = true) :
    (s.fieldsDiffer e o → s.doFields e o {} = s.engFault e 2 4 0x230 (opEngine 7 1) (BitVec.ofNat 64 o.dst.val)) ∧
      (¬s.fieldsDiffer e o → s.doFields e o {} = s) := by
  have differs : ((List.range o.nch).any fun c => (List.range (min ((s.eng e).td o.src.val).vcols.toNat
      ((s.eng e).td o.dst.val).vcols.toNat)).any fun j =>
      accElem (s.pmem e).acc ((s.eng e).td o.src.val) c j != accElem (s.pmem e).acc ((s.eng e).td o.dst.val) c j) = true ↔
      s.fieldsDiffer e o := by
    simp only [List.any_eq_true, List.mem_range, lt_min_iff, bne_iff_ne, State.fieldsDiffer]
    constructor
    · rintro ⟨c, hc, j, hj, ne⟩
      exact ⟨c, j, ⟨hc, hj.1, hj.2⟩, ne⟩
    · rintro ⟨c, j, ⟨hc, hj⟩, ne⟩
      exact ⟨c, hc, j, hj, ne⟩
  simp only [State.doFields, bound, hs, hd, mode, sramRead_none, residueFault_none, Bool.not_true, Bool.or_self, Bool.false_eq_true, if_false]
  exact ⟨fun h => if_pos (differs.2 h), fun h => if_neg (mt differs.1 h)⟩

end

theorem Popped.fieldsDiffer (x : Popped e s t) : t.fieldsDiffer e o ↔ s.fieldsDiffer e o := by
  simp only [State.fieldsDiffer, x.still.td, x.only.pmem]

end Sys2Proof.Machine

open Sys2Proof Sys2Proof.Machine

/-- Settles O33: H is written once into each place of the destination, and a comparison is one message or nothing. -/
theorem fieldsSetAndCompared : Obligations.FieldsSetAndCompared := by
  intro e o s p hp hl h src dst hs bound hsrc hdst
  have ready {t : State} (x : Popped e s t) : t.slotsOk e o.slot.val o.nch = true ∧ fieldTileOk ((t.eng e).td o.src.val) o.nch = true ∧
      fieldTileOk ((t.eng e).td o.dst.val) o.nch = true := by
    rw [x.only.slotsOk, x.still.td, x.still.td]
    exact ⟨bound, hsrc, hdst⟩
  refine ⟨fun mode inside => leads_starts hs rfl fun t x => ?_, fun mode => ?_⟩
  · obtain ⟨bound', hsrc', hdst'⟩ := ready x
    have lands := modPmem_lands_on hp x.still.cells (g := fun c => (c.1, fieldsWrite ((t.eng e).td o.dst.val)
      (hElem (t.pmem e).store o.hadr) (places o.nch ((t.eng e).td o.dst.val).vcols.toNat) c.2))
      (doFields_sets bound' hsrc' hdst' mode inside) fun _ => rfl
    rw [x.still.td, x.only.pmem] at lands
    refine ⟨lands.sameDram, lands.sameStores rfl, lands.accsBut fun b hb => fieldsWrite_outside hdst _ _ hb, fun c j hc hj => ?_⟩
    rw [lands.acc_here]
    exact fieldsWrite_elem hdst _ _ hc hj
  · intro same inside
    refine ⟨fun all => leads_starts hs rfl fun t x => ?_, fun some => leads_starts hs rfl fun t x => ?_⟩
    · obtain ⟨bound', hsrc', hdst'⟩ := ready x
      have alike : ¬t.fieldsDiffer e o := by
        rw [x.fieldsDiffer]
        rintro ⟨c, j, at_, ne⟩
        exact ne (all c j at_)
      rw [(doFields_compares bound' hsrc' hdst' mode).2 alike]
      exact ⟨cells_sameMemories x.still.cells, x.only.wire _⟩
    · obtain ⟨bound', hsrc', hdst'⟩ := ready x
      rw [(doFields_compares bound' hsrc' hdst' mode).1 (x.fieldsDiffer.2 some)]
      exact x.raises hp hl _ _ _ (by decide) (by decide) (by decide)
end

section
/-! SUPPORT. Four-bit elements of the parcel store (03 R82; 06 R181): a tile of format 0 is a row of nibbles. -/

namespace Sys2Proof.Machine

/-! ### Nibbles -/

/-- Nibble N of a memory: the lower half of a byte comes first. -/
def nib (m : Mem) (N : Nat) : Nat := (mget m (N / 2)).toNat / 16 ^ (N % 2) % 16

/-- The nibble at which element (i, j) of a format 0 tile at byte `a` stands. -/
def nibPlace (a i j : Nat) : Nat := 2 * a + 128 * i + j

theorem nibPlace_byte (a i j : Nat) : nibPlace a i j / 2 = a + i * rowBytes 0 + j * fmtBits 0 / 8 ∧ nibPlace a i j % 2 = j % 2 := by
  have bits : fmtBits 0 = 4 := rfl
  have row : rowBytes 0 = 64 := rfl
  rw [bits, row, nibPlace]
  omega

theorem storeElem_nib (m : Mem) (a i j : Nat) : storeElem m a 0 i j = nib m (nibPlace a i j) := by
  obtain ⟨byte, half⟩ := nibPlace_byte a i j
  have bits : fmtBits 0 = 4 := rfl
  rw [nib, byte, half]
  unfold storeElem
  dsimp only
  rw [bits]
  have one : (j * 4 % 8 + 4 + 7) / 8 = 1 := by omega
  rw [one, mread, mread, leNat, leNat, Nat.shiftRight_eq_div_pow]
  rcases Nat.mod_two_eq_zero_or_one j with h | h
  · rw [h, show j * 4 % 8 = 0 by omega, mul_zero, add_zero]
    rfl
  · rw [h, show j * 4 % 8 = 4 by omega, mul_zero, add_zero]
    rfl

theorem putStoreElem_mset (m : Mem) (a i j c : Nat) :
    putStoreElem m a 0 i j c = mset m (nibPlace a i j / 2) (BitVec.ofNat 8
      ((mget m (nibPlace a i j / 2)).toNat - nib m (nibPlace a i j) * 16 ^ (nibPlace a i j % 2) + c % 16 * 16 ^ (nibPlace a i j % 2))) := by
  obtain ⟨byte, half⟩ := nibPlace_byte a i j
  have bits : fmtBits 0 = 4 := rfl
  rw [nib, byte, half]
  unfold putStoreElem
  dsimp only
  rw [bits]
  have one : (j * 4 % 8 + 4 + 7) / 8 = 1 := by omega
  rw [one, mread, mread, leNat, leNat, Nat.shiftRight_eq_div_pow, leBytes, leBytes, mwrite, mwrite]
  rcases Nat.mod_two_eq_zero_or_one j with h | h
  · rw [h, show j * 4 % 8 = 0 by omega, mul_zero, add_zero]
    rfl
  · rw [h, show j * 4 % 8 = 4 by omega, mul_zero, add_zero]
    rfl

/-- One write of a nibble. -/
theorem nib_putStoreElem (m : Mem) (a i j c N : Nat) :
    nib (putStoreElem m a 0 i j c) N = if N = nibPlace a i j then c % 16 else nib m N := by
  rw [putStoreElem_mset, nib, mget_mset]
  have old := (mget m (nibPlace a i j / 2)).isLt
  by_cases byte : N / 2 = nibPlace a i j / 2
  · rw [if_pos byte, BitVec.toNat_ofNat, nib, nib, byte]
    rcases Nat.mod_two_eq_zero_or_one (nibPlace a i j) with h | h <;> rcases Nat.mod_two_eq_zero_or_one N with k | k <;>
      simp only [h, k, pow_zero, pow_one, Nat.div_one, mul_one]
    · rw [if_pos (by omega)]; omega
    · rw [if_neg (by omega)]; omega
    · rw [if_neg (by omega)]; omega
    · rw [if_pos (by omega)]; omega
  · rw [if_neg byte, if_neg (mt (congrArg (· / 2)) byte), nib]

theorem nib_mzero (m : Mem) (a n N : Nat) : nib (mzero m a n) N = if a ≤ N / 2 ∧ N / 2 < a + n then 0 else nib m N := by
  rw [nib, mget_mzero]
  split
  · simp
  · rfl

/-- A byte is its two nibbles. -/
theorem mget_of_nibs {m m' : Mem} {b : Nat} (low : nib m' (2 * b) = nib m (2 * b)) (high : nib m' (2 * b + 1) = nib m (2 * b + 1)) :
    mget m' b = mget m b := by
  have isLt := (mget m b).isLt
  have isLt' := (mget m' b).isLt
  rw [nib, nib, show 2 * b / 2 = b by omega, show 2 * b % 2 = 0 by omega, pow_zero, Nat.div_one, Nat.div_one] at low
  rw [nib, nib, show (2 * b + 1) / 2 = b by omega, show (2 * b + 1) % 2 = 1 by omega, pow_one] at high
  exact BitVec.eq_of_toNat_eq (by omega)

/-! ### Walks that write nibbles -/

/-- Each step of a walk writes at the nibbles that `w` names, and no other. -/
structure WritesNibs {X : Type} (w : X → Nat → Option Nat) (f : Mem → X → Mem) : Prop where
  step : ∀ m x N, nib (f m x) N = (w x N).getD (nib m N)

section
variable {X : Type} {w : X → Nat → Option Nat} {f : Mem → X → Mem} (h : WritesNibs w f)
include h

theorem WritesNibs.unvisited {N : Nat} (l : List X) : ∀ m, (∀ x ∈ l, w x N = none) → nib (l.foldl f m) N = nib m N := by
  induction l with
  | nil => intro m _; rfl
  | cons x l ih =>
    intro m hl
    rw [List.foldl_cons, ih _ fun y hy => hl y (List.mem_cons_of_mem _ hy), h.step, hl x List.mem_cons_self]
    rfl

/-- A nibble that holds c, in a walk that writes nothing else there. -/
theorem WritesNibs.stays {N c : Nat} (l : List X) :
    ∀ m, nib m N = c → (∀ x ∈ l, w x N = none ∨ w x N = some c) → nib (l.foldl f m) N = c := by
  induction l with
  | nil => intro m hm _; exact hm
  | cons x l ih =>
    intro m hm hl
    rw [List.foldl_cons]
    refine ih _ ?_ fun y hy => hl y (List.mem_cons_of_mem _ hy)
    rw [h.step]
    rcases hl x List.mem_cons_self with e | e
    · rw [e]; exact hm
    · rw [e]; rfl

/-- A nibble that a walk writes, always alike. -/
theorem WritesNibs.visited {N c : Nat} {x : X} (l : List X) :
    ∀ m, x ∈ l → w x N = some c → (∀ y ∈ l, w y N = none ∨ w y N = some c) → nib (l.foldl f m) N = c := by
  induction l with
  | nil => intro m hx; cases hx
  | cons y l ih =>
    intro m hx hw alone
    have rest : ∀ z ∈ l, w z N = none ∨ w z N = some c := fun z hz => alone z (List.mem_cons_of_mem _ hz)
    rw [List.foldl_cons]
    rcases List.mem_cons.1 hx with rfl | hx
    · refine h.stays l _ ?_ rest
      rw [h.step, hw]
      rfl
    · exact ih _ hx hw rest

end

end Sys2Proof.Machine
end

section
/-! SUPPORT. Chains at their hub (06 R182, R207, R208): what a change of chains moves, and what it leaves. -/

namespace Sys2Proof.Machine

variable {s t u : State} {e : EngId}

/-! ### What a change of chains leaves -/

/-- A projection that does not see chains. -/
def Unchained {β : Type} (π : Sheet → β) : Prop := ∀ x l, π { x with chains := l } = π x

theorem cells_unchained : Unchained Sheet.cells := fun _ _ => rfl
theorem engines_unchained : Unchained Sheet.engines := fun _ _ => rfl
theorem groups_unchained : Unchained Sheet.groups := fun _ _ => rfl

section
variable {β : Type} {π : Sheet → β} (hπ : Unchained π)
include hπ

theorem Unchained.modPend (s : State) (home n : Nat) (f : ChainRegs → ChainRegs) : SheetsKeep π s (s.modPend home n f) :=
  .modSheet _ _ fun x => hπ x _

theorem Unchained.raiseChain (s : State) (home n : Nat) (f : BitVec 8) : SheetsKeep π s (s.raiseChain home n f) := by
  unfold State.raiseChain
  dsimp only
  split
  · exact hπ.modPend s home n _
  · split
    · exact hπ.modPend s home n _
    · refine (hπ.modPend s home n fun r => { r with cflags := r.cflags ||| f }).trans (.of_sheets rfl)

theorem Unchained.poisonChains (s : State) (home slot nch : Nat) (p : Bool) : SheetsKeep π s (s.poisonChains home slot nch p) := by
  unfold State.poisonChains
  split
  · exact .modSheet _ _ fun x => foldl_modChain_keeps π hπ (slot + ·) _ _ x
  · exact .refl

end

/-- Marking slots as having drawn leaves what does not see slots. -/
theorem drewSlots_keeps {β : Type} {π : Sheet → β} (hπ : ∀ x l, π { x with slots := l } = π x) (s : State) (e : EngId) (slot nch : Nat) :
    SheetsKeep π s (s.drewSlots e slot nch) := .modSheet _ _ fun x => foldl_modSlot_keeps π hπ (slot + ·) _ _ x

theorem eng_of_engines (h : SheetsKeep Sheet.engines s t) (e : EngId) : t.eng e = s.eng e := by
  simp only [State.eng, Sheet.engine, h e.sheet.val]

/-! ### The registers of chains -/

/-- Committed and pending registers of every chain of a sheet; poison marks and the start of the step apart. -/
def Sheet.chainRegs (x : Sheet) : Nat → ChainRegs × ChainRegs := fun n => ((x.chain n).reg, (x.chain n).pend)

theorem chain_modChain (x : Sheet) (n k : Nat) (f : Chain → Chain) :
    (x.modChain k f).chain n = if n = k then f (x.chain k) else x.chain n := tget_tmod _ _ _ _ _

theorem chainRegs_of_chains (h : SheetsKeep Sheet.chains s t) : SheetsKeep Sheet.chainRegs s t := fun i =>
  congrArg (fun (l : Table Chain) n => ((tget ({} : Chain) l n).reg, (tget ({} : Chain) l n).pend)) (h i)

theorem chains_of_reports (h : Reports s t) : SheetsKeep Sheet.chainRegs s t := h.sheetsKeep fun _ _ _ _ => rfl

theorem poisonChains_chainRegs (s : State) (home slot nch : Nat) (p : Bool) :
    SheetsKeep Sheet.chainRegs s (s.poisonChains home slot nch p) := by
  unfold State.poisonChains
  split
  · refine .modSheet _ _ fun x => foldl_keeps Sheet.chainRegs _ (fun x c => ?_) _ x
    funext n
    simp only [Sheet.chainRegs, chain_modChain]
    split
    · next h => rw [h]
    · rfl
  · exact .refl

section
variable (h : SheetsKeep Sheet.chainRegs s t) (i n : Nat)
include h

theorem reg_of_chainRegs : (t.chainAt i n).reg = (s.chainAt i n).reg := congrArg Prod.fst (congrFun (h i) n)
theorem pend_of_chainRegs : (t.chainAt i n).pend = (s.chainAt i n).pend := congrArg Prod.snd (congrFun (h i) n)

end

theorem chainRegs_modPend (s : State) (home n : Nat) (f : ChainRegs → ChainRegs) (i k : Nat) :
    ((s.modPend home n f).sheet i).chainRegs k =
      if i = home ∧ k = n then ((s.sheet i).chainRegs k).map id f else (s.sheet i).chainRegs k := by
  rw [State.modPend, sheet_modSheet]
  by_cases hi : i = home
  · subst hi
    rw [if_pos rfl, Sheet.chainRegs, chain_modChain]
    by_cases hk : k = n
    · subst hk
      rw [if_pos rfl, if_pos ⟨rfl, rfl⟩]
      rfl
    · rw [if_neg hk, if_neg fun x => hk x.2]
      rfl
  · rw [if_neg hi, if_neg fun x => hi x.1]

theorem pend_modPend (s : State) (home n : Nat) (f : ChainRegs → ChainRegs) (i k : Nat) :
    ((s.modPend home n f).chainAt i k).pend = if i = home ∧ k = n then f (s.chainAt i k).pend else (s.chainAt i k).pend := by
  have both := congrArg Prod.snd (chainRegs_modPend s home n f i k)
  split
  · next h => rw [if_pos h] at both; exact both
  · next h => rw [if_neg h] at both; exact both

/-- Raising flags changes a chain's flags alone. -/
theorem raiseChain_chainRegs (s : State) (home n : Nat) (f : BitVec 8) :
    SheetsKeep Sheet.chainRegs (s.modPend home n fun r => { r with cflags := r.cflags ||| f }) (s.raiseChain home n f) := by
  unfold State.raiseChain
  dsimp only
  split
  · exact .refl
  · split
    · exact .refl
    · exact .of_sheets rfl

/-- A walk over a word's chains, one step of which changes what is seen of its own chain alone: each chain changes once. -/
theorem forEach_chains {γ : Type} (view : State → Nat → γ) (f : State → Nat → State) (g : Nat → γ → γ) (slot : Nat)
    (there : ∀ t c k, k ≠ c → view (f t c) (slot + k) = view t (slot + k)) (here : ∀ t c, view (f t c) (slot + c) = g c (view t (slot + c)))
    (s : State) {nch c : Nat} (hc : c < nch) : view (s.forEach (List.range nch) f) (slot + c) = g c (view s (slot + c)) :=
  forEach_visited (fun t => view t (slot + c)) f (fun _ => True) c (fun x y => y = g c x) (fun _ _ _ => trivial)
    (fun t k _ h => there t k c h) (fun t _ => here t c) _ s List.nodup_range trivial (List.mem_range.2 hc)

end Sys2Proof.Machine
end

section
/-! SUPPORT. Block records (06 R181): the state tile and the tile of changes behind it. -/

namespace Sys2Proof.Machine

variable {radr : Int} {nch : Nat}

theorem stateBit_nib (m : Mem) (radr : Int) (c j : Nat) : stateBit m radr c j = (nib m (nibPlace (unitByte radr) c j) != 0) := by
  rw [stateBit, storeElem_nib]

theorem nibPlace_inj {a c j c' j' : Nat} (hj : j < 128) (hj' : j' < 128) : nibPlace a c j = nibPlace a c' j' ↔ (c, j) = (c', j') := by
  rw [nibPlace, nibPlace, Prod.mk.injEq]
  omega

/-- The changes stand in the rows after the states. -/
theorem nibPlace_delta (h : 0 ≤ radr) (nch c j : Nat) :
    nibPlace (unitByte (radr + nch)) c j = nibPlace (unitByte radr) (nch + c) j := by
  rw [nibPlace, nibPlace, unitByte, unitByte]
  omega

/-- Where a variable's state and change are written, and with what. -/
def cellWrites (radr : Int) (nch c j : Nat) (x : Bool) (d : Int) (N : Nat) : Option Nat :=
  if N = nibPlace (unitByte (radr + nch)) c j then some (twos 4 d)
  else if N = nibPlace (unitByte radr) c j then some (b2n x)
  else none

theorem twos_lt (n : Nat) (v : Int) : twos n v < 2 ^ n := by
  have pos : (0 : Int) < 2 ^ n := by positivity
  have low := Int.emod_nonneg v pos.ne'
  have high := Int.emod_lt_of_pos v pos
  rw [twos]
  zify
  rw [Int.toNat_of_nonneg low]
  exact high

theorem nib_putCell (m : Mem) (radr : Int) (nch c j : Nat) (x : Bool) (d : Int) (N : Nat) :
    nib (putDelta (putStateBit m radr c j x) radr nch c j d) N = (cellWrites radr nch c j x d N).getD (nib m N) := by
  have small : b2n x % 16 = b2n x := by cases x <;> rfl
  have narrow : twos 4 d % 16 = twos 4 d := Nat.mod_eq_of_lt (twos_lt 4 d)
  rw [putDelta, putStateBit, nib_putStoreElem, nib_putStoreElem, narrow, small, cellWrites]
  split
  · rfl
  · split
    · rfl
    · rfl

theorem cellWrites_delta (c j : Nat) (x : Bool) (d : Int) :
    cellWrites radr nch c j x d (nibPlace (unitByte (radr + nch)) c j) = some (twos 4 d) := if_pos rfl

section
variable (h : 0 ≤ radr)
include h

/-- What is written at a variable's state is its state. -/
theorem cellWrites_state {c j : Nat} (hc : c < nch) (hj : j < 128) (x : Bool) (d : Int) :
    cellWrites radr nch c j x d (nibPlace (unitByte radr) c j) = some (b2n x) := by
  rw [cellWrites, if_neg, if_pos rfl]
  rw [nibPlace_delta h, nibPlace_inj hj hj, Prod.mk.injEq]
  omega

/-- The writes of a variable miss another's state and change. -/
theorem cellWrites_other {c j c' j' : Nat} (hc : c < nch) (hj : j < 128) (hc' : c' < nch) (hj' : j' < 128) (ne : (c, j) ≠ (c', j'))
    (x : Bool) (d : Int) : cellWrites radr nch c j x d (nibPlace (unitByte radr) c' j') = none ∧
      cellWrites radr nch c j x d (nibPlace (unitByte (radr + nch)) c' j') = none := by
  simp only [ne_eq, Prod.mk.injEq] at ne
  simp only [cellWrites, nibPlace_delta h, nibPlace_inj hj' hj, Prod.mk.injEq]
  constructor
  · rw [if_neg (by omega), if_neg (by omega)]
  · rw [if_neg (by omega), if_neg (by omega)]

/-- The writes of a variable lie in its record. -/
theorem cellWrites_inside {c j : Nat} (hc : c < nch) (hj : j < 128) (x : Bool) (d : Int) {N : Nat}
    (hN : ¬(unitByte radr ≤ N / 2 ∧ N / 2 < unitByte radr + recordBytes nch)) : cellWrites radr nch c j x d N = none := by
  rw [cellWrites, nibPlace_delta h, nibPlace, nibPlace]
  unfold recordBytes at hN
  rw [if_neg (by omega), if_neg (by omega)]

end

/-- Bytes whose nibbles a write of a store leaves are left. -/
theorem mget_outside {m m' : Mem} {a n : Nat} (h : ∀ N, ¬(a ≤ N / 2 ∧ N / 2 < a + n) → nib m' N = nib m N) {b : Nat}
    (hb : ¬(a ≤ b ∧ b < a + n)) : mget m' b = mget m b :=
  mget_of_nibs (h _ (by omega)) (h _ (by omega))

end Sys2Proof.Machine
end

section
/-! SUPPORT. CPL_PROPOSE (06 R193, R194, R211). -/

namespace Sys2Proof.Machine

variable {s t : State} {e : EngId} {o : ProposeOp}

/-- A word that breaks the order of its block, or whose operands are not fit, is reported and moves nothing else (R211). -/
theorem Popped.breaks (x : Popped e s t) {p : Nat} (hp : (s.sheet e.sheet.val).phys e.parcel.val = some p) (hl : p < 18) (pc : Nat)
    (op : BitVec 16) : SameMemories s (t.wordBroken e pc op) ∧ Raises e.sheet.val 0x233 (BitVec.ofNat 64 (pc % 8192)) s (t.wordBroken e pc op) ∧
      ((t.wordBroken e pc op).eng e).settle = (t.eng e).settle := by
  obtain ⟨same, raises⟩ := x.raises hp hl (l := 2) (n := 5) 0x233 op (BitVec.ofNat 64 (pc % 8192)) (by decide) (by decide) (by decide)
  exact ⟨same, raises, congrArg Engine.settle ((engFault_reports _ _ _ _ _ _ _ _ _).engine e)⟩

/-- A projection of an engine that does not see its queues. -/
def Unqueued {β : Type} (π : Engine → β) : Prop := ∀ g n q, π (g.setQueueOf n q) = π g

theorem settle_unqueued : Unqueued Engine.settle := fun g n q => by
  unfold Engine.setQueueOf
  split
  · rfl
  · split <;> rfl

theorem sums_unqueued : Unqueued Engine.sums := fun g n q => by
  unfold Engine.setQueueOf
  split
  · rfl
  · split <;> rfl

/-- A word of an engine that starts does what it does where it has left its queue and the rest of its engine stands. -/
theorem leads_starts_own {β : Type} {π : Engine → β} (hπ : Unqueued π) {c : Instr} {w : Uop} {f : State → State} {P : State → Prop}
    (hs : s.starts e w = true) (run : exec c s = .next (s.runUop e w f)) (hp : ∀ t, Popped e s t → π (t.eng e) = π (s.eng e) → P (f t)) :
    Leads c s P :=
  leads_of (run.trans (congrArg _ (runUop_runs s e w f hs))) (hp _ (popUop_popped s e w) (by rw [State.popUop, eng_modEng_same, hπ]))

/-- A word that starts finds the settlement buffer as it stood. -/
theorem leads_starts_settle {c : Instr} {w : Uop} {f : State → State} {P : State → Prop} (hs : s.starts e w = true)
    (run : exec c s = .next (s.runUop e w f)) (hp : ∀ t, Popped e s t → (t.eng e).settle = (s.eng e).settle → P (f t)) : Leads c s P :=
  leads_starts_own settle_unqueued hs run hp

/-- A list of values by index, with their indices. -/
theorem zipIdx_range_map {α : Type} (n : Nat) (f : Nat → α) : ((List.range n).map f).zipIdx = (List.range n).map fun c => (f c, c) := by
  refine List.ext_getElem (by simp) fun i _ _ => ?_
  simp

/-- The variables that a word proposes of each chain: their decision on the fields as read (R193, R194). -/
def State.proposals (s : State) (e : EngId) (o : ProposeOp) (key : Nat → (Nat × Nat) × Nat) : List SettleVar :=
  let src := (s.eng e).td o.src.val
  let js := (List.range src.vcols.toNat).filter (proposedBit (s.pmem e).store (s.maskBytes e o))
  (List.range o.nch).flatMap fun c => js.map fun j =>
    proposeVar (s.chainAt (s.homeOf e.sheet.val o.slot.val) (o.slot.val + c)).pend
      ((s.sheet e.sheet.val).slot (o.slot.val + c)).pend.base2 o.heat (uniform32 (key c).1 (key c).2 (src.elemIndex c j) o.draw) c j
      (stateBit (s.pmem e).store o.radr c j) (fieldAt (s.pmem e).acc src c j)

/-- Flags raised in each chain of a word (R208). -/
def State.raiseBlock (s : State) (home slot nch : Nat) (flags : State → Nat → BitVec 8) : State :=
  s.forEach (List.range nch) fun s c => s.raiseChain home (slot + c) (flags s c)

/-- The state in which a word's buffer is open: chain flags raised, the buffer in its engine, the slots marked as having drawn. -/
def State.openBuffer (s : State) (e : EngId) (o : ProposeOp) (flags : State → Nat → BitVec 8) (b : SettleBuf) : State :=
  let s := s.raiseBlock (s.homeOf e.sheet.val o.slot.val) o.slot.val o.nch flags
  let s := s.modEng e fun g => { g with settle := some b }
  (if o.sync then s.modRun e.sheet.val fun r => { r with notseq := true } else s).drewSlots e o.slot.val o.nch

theorem openBuffer_shows (s : State) (e : EngId) (o : ProposeOp) (flags : State → Nat → BitVec 8) (b : SettleBuf) :
    SheetsKeep Sheet.cells s (s.openBuffer e o flags b) ∧ ((s.openBuffer e o flags b).eng e).settle = some b := by
  unfold State.openBuffer
  have raised : SheetsKeep Sheet.cells s (s.raiseBlock (s.homeOf e.sheet.val o.slot.val) o.slot.val o.nch flags) :=
    .forEach _ _ fun s c => cells_unchained.raiseChain s _ _ _
  have noted {β : Type} (π : Sheet → β) (s : State) : SheetsKeep π s
      (if o.sync then s.modRun e.sheet.val fun r => { r with notseq := true } else s) := by
    split
    · exact .of_sheets (modRun_sheets _ _ _)
    · exact .refl
  refine ⟨((raised.trans (cells_modEng _ _ _)).trans (noted _ _)).trans (drewSlots_keeps (fun _ _ => rfl) _ _ _ _), ?_⟩
  rw [eng_of_engines ((noted _ _).trans (drewSlots_keeps (fun _ _ => rfl) _ _ _ _)), eng_modEng_same]

/-- Whether a CPL_PROPOSE is refused (R211). -/
def State.proposeBroken (s : State) (e : EngId) (o : ProposeOp) : Bool :=
  (s.eng e).settle.isSome || !s.slotsOk e o.slot.val o.nch || !fieldTileOk ((s.eng e).td o.src.val) o.nch ||
    (o.cchk && !s.proposalListed e o)

theorem doPropose_broken (h : s.proposeBroken e o = true) (d : Disturb) : s.doPropose e o d = s.wordBroken e o.pc (opEngine 7 2) := by
  unfold State.doPropose
  exact if_pos h

theorem doPropose_opens (sound : s.proposeBroken e o = false) (inside : inStore o.radr (recordBytes o.nch) = true)
    (masked : o.aux = 0 ∨ s.maskBytes e o ≠ none) {key : Nat → (Nat × Nat) × Nat}
    (keyed : ∀ c, c < o.nch → s.slotKey e 6 (o.slot.val + c) = some (key c)) :
    ∃ flags poison, s.doPropose e o {} = s.openBuffer e o flags
      { slot := o.slot.val, nch := o.nch, src := o.src.val, heat := o.heat, sync := o.sync, done := false
        vars := s.proposals e o key, poison := poison } := by
  have keys : ((List.range o.nch).map fun c => s.slotKey e 6 (o.slot.val + c)) = (List.range o.nch).map fun c => some (key c) :=
    List.map_congr_left fun c hc => keyed c (List.mem_range.1 hc)
  have reads : ((List.range o.nch).map fun c => some (key c)).any Option.isNone = false := by simp
  have found : (!inStore o.radr (recordBytes o.nch) || (o.aux != 0 && (s.maskBytes e o).isNone)) = false := by
    rw [inside]
    rcases masked with h | h
    · simp [h]
    · cases hm : s.maskBytes e o with
      | none => exact absurd hm h
      | some a => simp
  unfold State.doPropose
  dsimp only
  rw [show ((s.eng e).settle.isSome || !s.slotsOk e o.slot.val o.nch || !fieldTileOk ((s.eng e).td o.src.val) o.nch ||
    (o.cchk && !s.proposalListed e o)) = false from sound, found, keys, reads, sramRead_none, zipIdx_range_map, List.flatMap_map]
  exact ⟨_, _, rfl⟩

end Sys2Proof.Machine
end

section
/-! SUPPORT. CPL_SETTLE (06 R194, R196, R211). -/

namespace Sys2Proof.Machine

variable {s t : State} {e : EngId} {o : SettleOp} {b : SettleBuf}

/-! ### Coefficients -/

/-- A coefficient, 0 where its element meets a range kind (R179). -/
def tileCoef (m : Mem) (qadr : Int) (f : BitVec 4) (eexp : Int) (i j : Nat) : Int :=
  match coefAt m qadr f eexp i j with
  | .ok v => v
  | .error _ => 0

theorem tileCoef_ok {m : Mem} {qadr : Int} {f : BitVec 4} {eexp : Int} {i j : Nat} {v : Int} (h : coefAt m qadr f eexp i j = .ok v) :
    tileCoef m qadr f eexp i j = v := by rw [tileCoef, h]

/-- Coefficients that are integers meet no range kind. -/
theorem coefKinds_nil {m : Mem} {qadr : Int} {f : BitVec 4} {eexp : Int} {ps : List (Nat × Nat)}
    (h : ∀ x ∈ ps, ∃ v, coefAt m qadr f eexp x.1 x.2 = .ok v) : coefKinds m qadr f eexp ps = [] := by
  have none : (ps.filterMap fun x => match coefAt m qadr f eexp x.1 x.2 with
      | .error k => some k
      | .ok _ => none) = [] := List.filterMap_eq_nil_iff.2 fun x hx => by
    obtain ⟨v, hv⟩ := h x hx
    rw [hv]
  exact congrArg List.eraseDups none

theorem mem_columnPairs {js : List Nat} {x : Nat × Nat} : x ∈ columnPairs js ↔ x.1 ∈ js ∧ x.2 ∈ js ∧ x.2 < x.1 := by
  obtain ⟨i, j⟩ := x
  simp [columnPairs]

theorem mem_conflictPairs {js : List Nat} {x : Nat × Nat} : x ∈ conflictPairs js ↔ x.1 ∈ js ∧ x.2 ∈ js ∧ x.1 < x.2 := by
  obtain ⟨i, j⟩ := x
  simp [conflictPairs]

/-- The columns of a buffer's variables. -/
def SettleBuf.columns (b : SettleBuf) : List Nat := (b.vars.map fun v => v.j).eraseDups

theorem mem_columns {j : Nat} : j ∈ b.columns ↔ ∃ v ∈ b.vars, v.j = j := by rw [SettleBuf.columns, List.mem_eraseDups, List.mem_map]

/-- The pairs of a synchronous block whose conflicts are counted (R196). -/
def SettleBuf.clash (b : SettleBuf) : List (Nat × Nat) := if b.sync then conflictPairs b.columns else []

theorem mem_growChg {chg : List (Nat × Int)} {j : Nat} {d : Int} {x : Nat × Int} (h : x ∈ growChg chg j d) : x ∈ chg ∨ x.1 = j := by
  unfold growChg at h
  split at h
  · exact .inl h
  · rw [List.mem_append, List.mem_singleton] at h
    exact h.imp_right fun e => congrArg Prod.fst e

/-- Settlement takes the coefficients from a variable to those before it alone. -/
theorem settleVars_congr {q q' : Nat → Nat → Int} (heat sync : Bool) (vs : List SettleVar) : ∀ chg : List (Nat × Int),
    (∀ v ∈ vs, ∀ x ∈ chg, q v.j x.1 = q' v.j x.1) → vs.Pairwise (fun w v => q v.j w.j = q' v.j w.j) →
    settleVars q heat sync chg vs = settleVars q' heat sync chg vs := by
  induction vs with
  | nil => intro chg _ _; rfl
  | cons v r ih =>
    intro chg before among
    obtain ⟨after, among⟩ := List.pairwise_cons.1 among
    have rest : ∀ w ∈ r, ∀ x ∈ chg, q w.j x.1 = q' w.j x.1 := fun w hw => before w (List.mem_cons_of_mem _ hw)
    cases field : v.field with
    | none => rw [settleVars_none field, settleVars_none field, ih chg rest among]
    | some f =>
      have same : settledVar q heat sync chg v f = settledVar q' heat sync chg v f := by
        have drifts : drift q chg v.j = drift q' chg v.j :=
          congrArg List.sum (List.map_congr_left fun x hx => by rw [before v List.mem_cons_self x hx])
        rw [settledVar, settledVar, settledField, settledField, drifts]
      rw [settleVars_some field, settleVars_some field, same]
      refine congrArg _ (ih _ (fun w hw x hx => ?_) among)
      rcases mem_growChg hx with hx | hx
      · exact rest w hw x hx
      · rw [hx, after w hw]

/-! ### The word -/

/-- The settled variables of a buffer, chain by chain (R194 step 2). -/
def SettleBuf.settled (b : SettleBuf) (q : Nat → Nat → Int) (nch : Nat) : List SettleVar :=
  (List.range nch).flatMap fun c => settleVars q b.heat b.sync [] (b.vars.filter fun v => v.chain == c)

/-- Conflicts counted in each chain of a block (R196). -/
def State.countConflicts (s : State) (home slot nch conf : Nat) : State :=
  s.forEach (if conf = 0 then [] else List.range nch) fun s c =>
    let old := (s.chainAt home (slot + c)).pend.conflict
    let s := if old.toNat + conf < 2 ^ 32 - 1 then s else s.satGroup 7
    s.modPend home (slot + c) fun r => { r with conflict := satInc r.conflict conf }

/-- One chain's conflicts counted. -/
theorem countConflict_pend (s : State) (home n conf i k : Nat) :
    (((if (s.chainAt home n).pend.conflict.toNat + conf < 2 ^ 32 - 1 then s else s.satGroup 7).modPend home n
        fun r => { r with conflict := satInc r.conflict conf }).chainAt i k).pend =
      if i = home ∧ k = n then { (s.chainAt i k).pend with conflict := satInc (s.chainAt i k).pend.conflict conf }
      else (s.chainAt i k).pend := by
  rw [pend_modPend]
  split <;> split <;> rfl

theorem countConflicts_cells (s : State) (home slot nch conf : Nat) : SheetsKeep Sheet.cells s (s.countConflicts home slot nch conf) := by
  refine .forEach _ _ fun t c => ?_
  dsimp only
  split
  · exact cells_unchained.modPend _ _ _ _
  · refine SheetsKeep.trans (.of_sheets rfl) (cells_unchained.modPend (t.satGroup 7) _ _ _)

theorem satInc_zero (v : BitVec 32) : satInc v 0 = v := by
  rw [satInc, if_pos (by have := v.isLt; omega), add_zero, BitVec.ofNat_toNat, BitVec.setWidth_eq]

theorem countConflicts_pend (s : State) (home slot : Nat) {nch : Nat} (conf : Nat) {c : Nat} (hc : c < nch) :
    ((s.countConflicts home slot nch conf).chainAt home (slot + c)).pend.conflict =
      satInc (s.chainAt home (slot + c)).pend.conflict conf := by
  unfold State.countConflicts
  by_cases h : conf = 0
  · rw [if_pos h, h, satInc_zero]
    rfl
  · rw [if_neg h]
    refine forEach_chains (fun t k => (t.chainAt home k).pend.conflict) _ (fun _ v => satInc v conf) slot (fun t c k ne => ?_)
      (fun t c => ?_) s hc
    · dsimp only
      rw [countConflict_pend, if_neg fun x => ne (Nat.add_left_cancel x.2)]
    · dsimp only
      rw [countConflict_pend, if_pos ⟨rfl, rfl⟩]

/-- A buffer that was settled: conflicts counted, the buffer put back into its engine. -/
def State.putSettled (s : State) (e : EngId) (o : SettleOp) (conf red : Nat) (b : SettleBuf) : State :=
  (s.countConflicts (s.homeOf e.sheet.val o.slot.val) o.slot.val o.nch conf).modEng e fun g =>
    { g with settle := some b, rescan := g.rescan + red }

/-- Whether a CPL_SETTLE with an open buffer is refused (R211). -/
def State.settleBroken (s : State) (e : EngId) (o : SettleOp) (b : SettleBuf) : Bool :=
  b.done || b.slot != o.slot.val || b.nch != o.nch || b.src != o.src.val || !s.slotsOk e o.slot.val o.nch ||
    !fieldTileOk ((s.eng e).td o.src.val) o.nch

theorem doSettle_closed (h : (s.eng e).settle = none) (d : Disturb) : s.doSettle e o d = s.wordBroken e o.pc (opEngine 7 3) := by
  unfold State.doSettle
  dsimp only
  rw [h]

/-- The coefficients as a CPL_SETTLE reads them. -/
def State.settleCoef (s : State) (e : EngId) (o : SettleOp) : Nat → Nat → Int :=
  tileCoef (s.pmem e).store o.qadr o.qfmt ((s.eng e).td o.src.val).wexp

/-- A settlement whose coefficients are integers raises no range kind; it settles the buffer and counts its conflicts. -/
theorem doSettle_settles (hb : (s.eng e).settle = some b) (sound : s.settleBroken e o b = false)
    (inside : inStore o.qadr (tileBytes o.qfmt false) = true)
    (integral : ∀ x ∈ columnPairs b.columns ++ b.clash,
      ∃ v, coefAt (s.pmem e).store o.qadr o.qfmt ((s.eng e).td o.src.val).wexp x.1 x.2 = .ok v) :
    ∃ red poison, s.doSettle e o {} = s.putSettled e o (b.clash.filter fun x => s.settleCoef e o x.1 x.2 != 0).length red
      { b with done := true, vars := b.settled (s.settleCoef e o) o.nch, poison := poison } := by
  have clean := coefKinds_nil integral
  unfold SettleBuf.clash SettleBuf.columns at clean
  unfold State.doSettle
  dsimp only
  rw [hb]
  dsimp only
  rw [show (b.done || b.slot != o.slot.val || b.nch != o.nch || b.src != o.src.val || !s.slotsOk e o.slot.val o.nch ||
    !fieldTileOk ((s.eng e).td o.src.val) o.nch) = false from sound, inside, sramRead_none, clean]
  exact ⟨_, _, rfl⟩

theorem putSettled_shows (s : State) (e : EngId) (o : SettleOp) (conf red : Nat) (b : SettleBuf) :
    SheetsKeep Sheet.cells s (s.putSettled e o conf red b) ∧ ((s.putSettled e o conf red b).eng e).settle = some b ∧
      ∀ c, c < o.nch → ((s.putSettled e o conf red b).chainAt (s.homeOf e.sheet.val o.slot.val) (o.slot.val + c)).pend.conflict =
        satInc (s.chainAt (s.homeOf e.sheet.val o.slot.val) (o.slot.val + c)).pend.conflict conf := by
  refine ⟨(countConflicts_cells _ _ _ _ _).trans (cells_modEng _ _ _), ?_, fun c hc => ?_⟩
  · rw [State.putSettled, eng_modEng_same]
  · refine Eq.trans ?_ (countConflicts_pend s _ _ conf hc)
    exact congrArg ChainRegs.conflict (pend_of_chainRegs (chainRegs_of_chains (.modEng e _ fun _ _ => rfl)) _ _)

end Sys2Proof.Machine
end

section
/-! SUPPORT. CPL_APPLY (06 R181, R194, R211). -/

namespace Sys2Proof.Machine

variable {s t : State} {e : EngId} {o : ApplyOp} {b : SettleBuf}

/-! ### The block record -/

/-- A record after settled variables were written into it: the tile of changes cleared, then each variable's state and change (R194 step 3). -/
def appliedStore (radr : Int) (nch : Nat) (vars : List SettleVar) (m : Mem) : Mem :=
  vars.foldl (fun m v => putDelta (putStateBit m radr v.chain v.j v.final) radr nch v.chain v.j v.delta)
    (mzero m (unitByte (radr + nch)) (64 * nch))

theorem appliedStore_writes (radr : Int) (nch : Nat) :
    WritesNibs (fun v N => cellWrites radr nch v.chain v.j v.final v.delta N)
      (fun m (v : SettleVar) => putDelta (putStateBit m radr v.chain v.j v.final) radr nch v.chain v.j v.delta) :=
  ⟨fun m v N => nib_putCell m radr nch v.chain v.j v.final v.delta N⟩

section
variable {radr : Int} {nch : Nat} {vars : List SettleVar} (h : 0 ≤ radr) (within : ∀ v ∈ vars, v.chain < nch ∧ v.j < 128) (m : Mem)
include h within

theorem appliedStore_outside {N : Nat} (hN : ¬(unitByte radr ≤ N / 2 ∧ N / 2 < unitByte radr + recordBytes nch)) :
    nib (appliedStore radr nch vars m) N = nib m N := by
  refine ((appliedStore_writes radr nch).unvisited vars _ fun v hv => cellWrites_inside h (within v hv).1 (within v hv).2 _ _ hN).trans ?_
  rw [nib_mzero, if_neg]
  unfold unitByte recordBytes at *
  omega

/-- A place that no variable takes keeps its state, and shows no change. -/
theorem appliedStore_other {c j : Nat} (hc : c < nch) (hj : j < 128) (ne : ∀ v ∈ vars, (v.chain, v.j) ≠ (c, j)) :
    nib (appliedStore radr nch vars m) (nibPlace (unitByte radr) c j) = nib m (nibPlace (unitByte radr) c j) ∧
      nib (appliedStore radr nch vars m) (nibPlace (unitByte (radr + nch)) c j) = 0 := by
  have misses (v : SettleVar) (hv : v ∈ vars) := cellWrites_other h (within v hv).1 (within v hv).2 hc hj (ne v hv) v.final v.delta
  constructor
  · refine ((appliedStore_writes radr nch).unvisited vars _ fun v hv => (misses v hv).1).trans ?_
    rw [nib_mzero, if_neg]
    unfold unitByte nibPlace
    omega
  · refine ((appliedStore_writes radr nch).unvisited vars _ fun v hv => (misses v hv).2).trans ?_
    rw [nib_mzero, if_pos]
    unfold nibPlace
    omega

/-- Distinct variables leave their state and their change. -/
theorem appliedStore_var (distinct : (vars.map fun v => (v.chain, v.j)).Nodup) {v : SettleVar} (hv : v ∈ vars) :
    nib (appliedStore radr nch vars m) (nibPlace (unitByte radr) v.chain v.j) = b2n v.final ∧
      nib (appliedStore radr nch vars m) (nibPlace (unitByte (radr + nch)) v.chain v.j) = twos 4 v.delta := by
  have alone (w : SettleVar) (hw : w ∈ vars) : w = v ∨ (w.chain, w.j) ≠ (v.chain, v.j) :=
    or_iff_not_imp_right.2 fun same => List.inj_on_of_nodup_map distinct hw hv (not_not.1 same)
  have state := cellWrites_state h (within v hv).1 (within v hv).2 v.final v.delta
  have change := cellWrites_delta (radr := radr) (nch := nch) v.chain v.j v.final v.delta
  constructor
  · refine (appliedStore_writes radr nch).visited vars _ hv state fun w hw => ?_
    rcases alone w hw with rfl | ne
    · exact .inr state
    · exact .inl (cellWrites_other h (within w hw).1 (within w hw).2 (within v hv).1 (within v hv).2 ne _ _).1
  · refine (appliedStore_writes radr nch).visited vars _ hv change fun w hw => ?_
    rcases alone w hw with rfl | ne
    · exact .inr change
    · exact .inl (cellWrites_other h (within w hw).1 (within w hw).2 (within v hv).1 (within v hv).2 ne _ _).2

end

/-! ### The word -/

/-- A chain's registers after its settled variables: the energy added, acceptances and re-decisions counted (R194 step 3). -/
def ChainRegs.applied (r : ChainRegs) (vs : List SettleVar) : ChainRegs :=
  { addEnergy r ((vs.map fun v => v.delta * v.fprime).sum) with
    runAccept := r.runAccept + BitVec.ofNat 24 (vs.filter fun v => v.final != v.x).length
    runRedec := r.runRedec + BitVec.ofNat 24 (vs.filter fun v => v.final != v.prop).length }

/-- The chains of a block after their settled variables. -/
def State.applyChains (s : State) (home slot nch : Nat) (vars : List SettleVar) : State :=
  s.forEach (List.range nch) fun s c => s.modPend home (slot + c) fun r => r.applied (vars.filter fun v => v.chain == c)

theorem applyChains_pend (s : State) (home slot : Nat) {nch : Nat} (vars : List SettleVar) {c : Nat} (hc : c < nch) :
    ((s.applyChains home slot nch vars).chainAt home (slot + c)).pend =
      (s.chainAt home (slot + c)).pend.applied (vars.filter fun v => v.chain == c) := by
  refine forEach_chains (fun t k => (t.chainAt home k).pend) _ (fun c r => r.applied (vars.filter fun v => v.chain == c)) slot
    (fun t c k ne => ?_) (fun t c => ?_) s hc
  · rw [pend_modPend, if_neg fun x => ne (Nat.add_left_cancel x.2)]
  · rw [pend_modPend, if_pos ⟨rfl, rfl⟩]

theorem applyChains_cells (s : State) (home slot nch : Nat) (vars : List SettleVar) :
    SheetsKeep Sheet.cells s (s.applyChains home slot nch vars) := .forEach _ _ fun t _ => cells_unchained.modPend t _ _ _

/-- A block applied: what follows the change of its record. -/
def State.finishApply (s : State) (e : EngId) (o : ApplyOp) (home : Nat) (vars : List SettleVar) (red : Nat) (poison : Bool) : State :=
  (((((s.applyChains home o.slot.val o.nch vars).parcelEvent e { cls := 2, code := 0x05, inc := red }).wroteStore e (unitByte o.radr)
    (Machine.recordBytes o.nch) poison).poisonChains home o.slot.val o.nch poison).modEng e fun g => { g with settle := none })

theorem wroteStore_chainRegs (s : State) (e : EngId) (a n : Nat) (p : Bool) : SheetsKeep Sheet.chainRegs s (s.wroteStore e a n p) := by
  have marks (t : State) (l : List Nat) : SheetsKeep Sheet.chains t (t.markBlocks e l) := .modSheet _ _ fun x => by split <;> rfl
  have noted : SheetsKeep Sheet.chains s
      (s.modEng e fun g => { g with blkWritten := (storeBlocks a n).foldl sinsert g.blkWritten }) := .modEng e _ fun _ _ => rfl
  refine chainRegs_of_chains ?_
  unfold State.wroteStore
  dsimp only
  split
  · exact noted.trans (marks _ _)
  · exact noted

theorem finishApply_shows (s : State) (e : EngId) (o : ApplyOp) (home : Nat) (vars : List SettleVar) (red : Nat) (poison : Bool) :
    let u := s.finishApply e o home vars red poison
    SheetsKeep Sheet.cells s u ∧ (u.eng e).settle = none ∧ ∀ c, c < o.nch → (u.chainAt home (o.slot.val + c)).pend =
      (s.chainAt home (o.slot.val + c)).pend.applied (vars.filter fun v => v.chain == c) := by
  have counted := parcelEvent_counts (s.applyChains home o.slot.val o.nch vars) e { cls := 2, code := 0x05, inc := red } none
  refine ⟨((((applyChains_cells _ _ _ _ _).trans counted.still.cells).trans (wroteStore_still _ _ _ _ _).cells).trans
    (cells_unchained.poisonChains _ _ _ _ _)).trans (cells_modEng _ _ _), ?_, fun c hc => ?_⟩
  · rw [State.finishApply, eng_modEng_same]
  · refine Eq.trans (pend_of_chainRegs ?_ _ _) (applyChains_pend s _ _ vars hc)
    exact (((chains_of_reports counted.reports).trans (wroteStore_chainRegs _ _ _ _ _)).trans (poisonChains_chainRegs _ _ _ _ _)).trans
      (chainRegs_of_chains (.modEng e _ fun _ _ => rfl))

/-- Whether a CPL_APPLY with an open buffer is refused (R211). -/
def State.applyBroken (s : State) (e : EngId) (o : ApplyOp) (b : SettleBuf) : Bool :=
  !b.done || b.slot != o.slot.val || b.nch != o.nch || b.src != o.src.val || !s.slotsOk e o.slot.val o.nch ||
    !fieldTileOk ((s.eng e).td o.src.val) o.nch

theorem doApply_closed (h : (s.eng e).settle = none) (d : Disturb) : s.doApply e o d = s.wordBroken e o.pc (opEngine 7 4) := by
  unfold State.doApply
  dsimp only
  rw [h]

theorem doApply_applies (hb : (s.eng e).settle = some b) (sound : s.applyBroken e o b = false)
    (inside : inStore o.radr (recordBytes o.nch) = true) (misses : missesProg (s.eng e) o.radr (recordBytes o.nch) = true) :
    ∃ red poison, s.doApply e o {} = (s.modPmem e fun m => { m with store := appliedStore o.radr o.nch b.vars m.store }).finishApply e o
      (s.homeOf e.sheet.val o.slot.val) b.vars red poison := by
  unfold State.doApply
  dsimp only
  rw [hb]
  dsimp only
  rw [show (!b.done || b.slot != o.slot.val || b.nch != o.nch || b.src != o.src.val || !s.slotsOk e o.slot.val o.nch ||
    !fieldTileOk ((s.eng e).td o.src.val) o.nch) = false from sound, inside, misses, sramRead_none]
  exact ⟨_, _, rfl⟩

end Sys2Proof.Machine
end

section
/-! O34: the three words of a block (06 R193, R194, R196, R211). -/

namespace Sys2Proof.Machine

variable {s t : State} {e : EngId} {p : Nat}

/-! ### What the words find where they start -/

section
variable (x : Popped e s t)
include x

theorem Popped.maskBytes (o : ProposeOp) : t.maskBytes e o = s.maskBytes e o := by simp only [State.maskBytes, x.only.tensorAt]

theorem Popped.proposals (o : ProposeOp) (key : Nat → (Nat × Nat) × Nat) : t.proposals e o key = s.proposals e o key := by
  simp only [State.proposals, x.still.td, x.only.pmem, x.maskBytes, x.only.homeOf, x.only.chainAt, x.only.slot]

theorem Popped.proposalListed (o : ProposeOp) : t.proposalListed e o = s.proposalListed e o := by
  simp only [State.proposalListed, x.only.curDiv, x.still.td]

theorem Popped.proposeBroken (same : (t.eng e).settle = (s.eng e).settle) (o : ProposeOp) : t.proposeBroken e o = s.proposeBroken e o := by
  simp only [State.proposeBroken, same, x.only.slotsOk, x.still.td, x.proposalListed]

theorem Popped.settleBroken (o : SettleOp) (b : SettleBuf) : t.settleBroken e o b = s.settleBroken e o b := by
  simp only [State.settleBroken, x.only.slotsOk, x.still.td]

theorem Popped.settleCoef (o : SettleOp) : t.settleCoef e o = s.settleCoef e o := by
  simp only [State.settleCoef, x.only.pmem, x.still.td]

theorem Popped.applyBroken (o : ApplyOp) (b : SettleBuf) : t.applyBroken e o b = s.applyBroken e o b := by
  simp only [State.applyBroken, x.only.slotsOk, x.still.td]

end

/-! ### The words on sound operands -/

/-- CPL_PROPOSE opens the buffer with its proposals. -/
theorem propose_leads {o : ProposeOp} (hs : s.starts e (.propose o) = true) (sound : s.proposeBroken e o = false)
    (inside : inStore o.radr (recordBytes o.nch) = true) (masked : o.aux = 0 ∨ s.maskBytes e o ≠ none) {key : Nat → (Nat × Nat) × Nat}
    (keyed : ∀ c, c < o.nch → s.slotKey e 6 (o.slot.val + c) = some (key c)) :
    Leads (.cplPropose e o {}) s fun u => SameMemories s u ∧ ∃ poison, (u.eng e).settle = some
      { slot := o.slot.val, nch := o.nch, src := o.src.val, heat := o.heat, sync := o.sync, done := false
        vars := s.proposals e o key, poison := poison } := by
  refine leads_starts_settle hs rfl fun t x same => ?_
  obtain ⟨flags, poison, run⟩ := doPropose_opens (s := t) (e := e) (o := o) (key := key) ((x.proposeBroken same o).trans sound) inside
    (by rw [x.maskBytes]; exact masked) (fun c hc => (x.only.slotKey _ _).trans (keyed c hc))
  rw [run, x.proposals]
  obtain ⟨cells, settle⟩ := openBuffer_shows t e o flags
    { slot := o.slot.val, nch := o.nch, src := o.src.val, heat := o.heat, sync := o.sync, done := false
      vars := s.proposals e o key, poison := poison }
  exact ⟨cells_sameMemories (x.still.cells.trans cells), poison, settle⟩

/-- The coefficients that a settlement reads are those given, where its buffer's variables stand in rising order in each chain. -/
theorem settled_given {o : SettleOp} {b : SettleBuf} {q : Nat → Nat → Int}
    (rising : ∀ c, ((b.vars.filter fun v => v.chain == c).map fun v => v.j).Pairwise (· < ·))
    (given : ∀ v ∈ b.vars, ∀ w ∈ b.vars, w.j < v.j →
      coefAt (s.pmem e).store o.qadr o.qfmt ((s.eng e).td o.src.val).wexp v.j w.j = .ok (q v.j w.j)) (nch : Nat) :
    b.settled (s.settleCoef e o) nch = b.settled q nch := by
  refine List.flatMap_congr fun c _ => settleVars_congr _ _ _ _ (fun v _ x hx => by cases hx) ?_
  refine List.Pairwise.imp_of_mem (fun {w v} hw hv lt => ?_) (List.pairwise_map.1 (rising c))
  exact tileCoef_ok (given v (List.mem_filter.1 hv).1 w (List.mem_filter.1 hw).1 lt)

/-- CPL_SETTLE settles the buffer and counts the conflicts of a synchronous block. -/
theorem settle_leads {o : SettleOp} {b : SettleBuf} {q : Nat → Nat → Int} (hs : s.starts e (.settle o) = true)
    (hb : (s.eng e).settle = some b) (sound : s.settleBroken e o b = false) (inside : inStore o.qadr (tileBytes o.qfmt false) = true)
    (rising : ∀ c, ((b.vars.filter fun v => v.chain == c).map fun v => v.j).Pairwise (· < ·))
    (given : ∀ v ∈ b.vars, ∀ w ∈ b.vars, w.j < v.j →
      coefAt (s.pmem e).store o.qadr o.qfmt ((s.eng e).td o.src.val).wexp v.j w.j = .ok (q v.j w.j))
    (clashing : b.sync = true → ∀ v ∈ b.vars, ∀ w ∈ b.vars, v.j < w.j →
      coefAt (s.pmem e).store o.qadr o.qfmt ((s.eng e).td o.src.val).wexp v.j w.j = .ok (q v.j w.j)) :
    let home := s.homeOf e.sheet.val o.slot.val
    Leads (.cplSettle e o {}) s fun u => SameMemories s u ∧
      (∃ poison, (u.eng e).settle = some { b with done := true, vars := b.settled q o.nch, poison := poison }) ∧
      ∀ c, c < o.nch → (u.chainAt home (o.slot.val + c)).pend.conflict =
        satInc (s.chainAt home (o.slot.val + c)).pend.conflict (b.clash.filter fun x => q x.1 x.2 != 0).length := by
  intro home
  have pairs : ∀ x ∈ columnPairs b.columns ++ b.clash,
      coefAt (s.pmem e).store o.qadr o.qfmt ((s.eng e).td o.src.val).wexp x.1 x.2 = .ok (q x.1 x.2) := by
    intro x hx
    rcases List.mem_append.1 hx with hx | hx
    · obtain ⟨hi, hj, lt⟩ := mem_columnPairs.1 hx
      obtain ⟨v, hv, ev⟩ := mem_columns.1 hi
      obtain ⟨w, hw, ew⟩ := mem_columns.1 hj
      rw [← ev, ← ew] at lt ⊢
      exact given v hv w hw lt
    · unfold SettleBuf.clash at hx
      split at hx
      · next sync =>
        obtain ⟨hi, hj, lt⟩ := mem_conflictPairs.1 hx
        obtain ⟨v, hv, ev⟩ := mem_columns.1 hi
        obtain ⟨w, hw, ew⟩ := mem_columns.1 hj
        rw [← ev, ← ew] at lt ⊢
        exact clashing sync v hv w hw lt
      · cases hx
  have counted : (b.clash.filter fun x => s.settleCoef e o x.1 x.2 != 0) = b.clash.filter fun x => q x.1 x.2 != 0 :=
    List.filter_congr fun x hx => by rw [State.settleCoef, tileCoef_ok (pairs x (List.mem_append_right _ hx))]
  refine leads_starts_settle hs rfl fun t x same => ?_
  obtain ⟨red, poison, run⟩ := doSettle_settles (s := t) (e := e) (o := o) (same.trans hb) ((x.settleBroken o b).trans sound) inside
    (fun y hy => ⟨q y.1 y.2, by rw [x.only.pmem, x.still.td]; exact pairs y hy⟩)
  rw [x.settleCoef, counted, settled_given rising given] at run
  rw [run]
  obtain ⟨cells, settle, conflicts⟩ := putSettled_shows t e o (b.clash.filter fun x => q x.1 x.2 != 0).length red
    { b with done := true, vars := b.settled q o.nch, poison := poison }
  rw [x.only.homeOf] at conflicts
  exact ⟨cells_sameMemories (x.still.cells.trans cells), ⟨poison, settle⟩, fun c hc => (conflicts c hc).trans (by rw [x.only.chainAt])⟩

/-- CPL_APPLY writes its block's record and changes its chains. -/
theorem apply_leads {o : ApplyOp} {b : SettleBuf} (hp : (s.sheet e.sheet.val).phys e.parcel.val = some p)
    (hs : s.starts e (.apply o) = true) (hb : (s.eng e).settle = some b) (sound : s.applyBroken e o b = false)
    (inside : inStore o.radr (recordBytes o.nch) = true) (misses : missesProg (s.eng e) o.radr (recordBytes o.nch) = true) :
    let home := s.homeOf e.sheet.val o.slot.val
    let m := (s.sheet e.sheet.val).parcel p
    Leads (.cplApply e o {}) s fun u => Lands e.sheet.val p (appliedStore o.radr o.nch b.vars m.store, m.acc) s u ∧ (u.eng e).settle = none ∧
      ∀ c, c < o.nch → (u.chainAt home (o.slot.val + c)).pend =
        (s.chainAt home (o.slot.val + c)).pend.applied (b.vars.filter fun v => v.chain == c) := by
  intro home m
  refine leads_starts_settle hs rfl fun t x same => ?_
  obtain ⟨red, poison, run⟩ := doApply_applies (s := t) (e := e) (o := o) (same.trans hb) ((x.applyBroken o b).trans sound) inside
    (by rw [x.missesProg]; exact misses)
  rw [x.only.homeOf] at run
  rw [run]
  obtain ⟨cells, settle, chains⟩ := finishApply_shows
    (t.modPmem e fun m => { m with store := appliedStore o.radr o.nch b.vars m.store }) e o home b.vars red poison
  refine ⟨modPmem_lands_on hp x.still.cells (g := fun c => (appliedStore o.radr o.nch b.vars c.1, c.2)) cells fun _ => rfl, settle,
    fun c hc => ?_⟩
  have before : SheetsKeep Sheet.chains t (t.modPmem e fun m => { m with store := appliedStore o.radr o.nch b.vars m.store }) :=
    .modSheet _ _ fun y => by split <;> rfl
  have chain := chains c hc
  rwa [pend_of_chainRegs (chainRegs_of_chains before), x.only.chainAt] at chain

end Sys2Proof.Machine

open Sys2Proof Sys2Proof.Machine

/-- Settles O34: a proposal opens the buffer, a settlement settles it, an application writes its record and its chains. -/
theorem blockIsProposedSettledApplied : Obligations.BlockIsProposedSettledApplied := by
  intro e s p hp hl h store broken
  have pmem : s.pmem e = (s.sheet h).parcel p := pmem_of_phys hp
  have kept : store s = (s.pmem e).store := congrArg ParcelMem.store pmem.symm
  refine ⟨fun o hs => ?_, fun o hs => ?_, fun o hs => ?_⟩
  · intro src home mask js
    refine ⟨fun opened => leads_starts_settle hs rfl fun t x same => ?_, fun key closed bound fit listed inside masked keyed => ?_⟩
    · have refused : t.proposeBroken e o = true := by
        rw [x.proposeBroken same, State.proposeBroken, Option.isSome_iff_ne_none.2 opened]
        rfl
      rw [doPropose_broken refused]
      obtain ⟨mem, raises, settle⟩ := x.breaks hp hl o.pc (opEngine 7 2)
      exact ⟨mem, raises, settle.trans same⟩
    · have sound : s.proposeBroken e o = false := by
        have checked : (o.cchk && !s.proposalListed e o) = false := by
          cases hc : o.cchk
          · rfl
          · rw [listed hc]; rfl
        rw [State.proposeBroken, closed, bound, show fieldTileOk ((s.eng e).td o.src.val) o.nch = true from fit, checked]
        rfl
      obtain ⟨u, run, mem, poison, settle⟩ := propose_leads hs sound inside masked keyed
      refine ⟨u, run, mem, _, settle, rfl, rfl, rfl, rfl, rfl, rfl, ?_⟩
      simp only [js, mask, kept]
      rfl
  · intro src home
    refine ⟨fun closed => leads_starts_settle hs rfl fun t x same => ?_,
      fun b q hb fresh slot nch from_ bound fit inside rising given clashing => ?_⟩
    · rw [doSettle_closed (same.trans closed)]
      obtain ⟨mem, raises, settle⟩ := x.breaks hp hl o.pc (opEngine 7 3)
      exact ⟨mem, raises, settle.trans same⟩
    · have sound : s.settleBroken e o b = false := by
        simp [State.settleBroken, fresh, slot, nch, from_, bound, show fieldTileOk ((s.eng e).td o.src.val) o.nch = true from fit]
      rw [kept] at given clashing
      obtain ⟨u, run, mem, ⟨poison, settle⟩, conflicts⟩ := settle_leads hs hb sound inside rising given clashing
      refine ⟨u, run, mem, ⟨{ b with vars := b.settled q o.nch, poison := poison }, settle, rfl⟩, fun c hc => (conflicts c hc).trans ?_⟩
      unfold SettleBuf.clash
      split <;> rfl
  · intro src home
    refine ⟨fun closed => leads_starts_settle hs rfl fun t x same => ?_,
      fun b hb settled slot nch from_ bound fit inside misses distinct within => ?_⟩
    · rw [doApply_closed (same.trans closed)]
      obtain ⟨mem, raises, settle⟩ := x.breaks hp hl o.pc (opEngine 7 4)
      exact ⟨mem, raises, settle.trans same⟩
    · intro delta deltaAt
      have sound : s.applyBroken e o b = false := by
        simp [State.applyBroken, settled, slot, nch, from_, bound, show fieldTileOk ((s.eng e).td o.src.val) o.nch = true from fit]
      have radr : 0 ≤ o.radr := by
        simp only [inStore, Bool.and_eq_true, decide_eq_true_eq] at inside
        exact inside.1
      obtain ⟨u, run, lands, settle, chains⟩ := apply_leads hp hs hb sound inside misses
      have here : store u = appliedStore o.radr o.nch b.vars (store s) := congrArg Prod.fst lands.here
      refine ⟨u, run, lands.sameDram, lands.sameAccs rfl, lands.storesBut fun b hb => mget_outside (fun N hN => ?_) hb, settle,
        fun v hv => ?_, fun c j hc hj others => ?_, chains⟩
      · exact appliedStore_outside radr within _ hN
      · obtain ⟨state, change⟩ := appliedStore_var radr within (store s) distinct hv
        simp only [deltaAt, here, stateBit_nib, storeElem_nib, state, change]
        exact ⟨by cases v.final <;> rfl, rfl⟩
      · obtain ⟨state, change⟩ := appliedStore_other radr within (store s) hc hj others
        simp only [deltaAt, here, stateBit_nib, storeElem_nib, state, change]
        exact ⟨trivial, trivial⟩
end

section
/-! SUPPORT. The members of groups and what a batch decides of them (06 R198, R200). -/

namespace Sys2Proof.Machine

variable {s t : State} {e : EngId} {o : GroupOp}

/-! ### Members -/

theorem memberAt_spec {base v b j : Nat} (h : memberAt base v = some (b, j)) : v = base + 128 * b + j ∧ j < 128 := by
  unfold memberAt at h
  split at h
  · cases h
  · obtain ⟨rfl, rfl⟩ := Prod.mk.inj (Option.some.inj h)
    omega

/-- Two variables at one place are one. -/
theorem memberAt_inj {base v v' : Nat} {q : Nat × Nat} (h : memberAt base v = some q) (h' : memberAt base v' = some q) : v = v' := by
  obtain ⟨b, j⟩ := q
  rw [(memberAt_spec h).1, (memberAt_spec h').1]

/-- The member of a variable that lies at a place. -/
def State.memberOf (s : State) (e : EngId) (o : GroupOp) (c v : Nat) (q : Nat × Nat) : Member :=
  { v := v, blk := q.1, col := q.2, x := stateBit (s.pmem e).store (recordOf o q.1) c q.2
    field := fieldAt (s.pmem e).acc ((s.eng e).td (o.src.val + q.1)) c q.2 }

theorem membersOf_eq (s : State) (e : EngId) (o : GroupOp) (c : Nat) (x : Nat × Nat) :
    s.membersOf e o c x = (List.range x.2).filterMap fun i => (memberAt (s.groupBase e o) (x.1 + i)).map (s.memberOf e o c (x.1 + i)) := rfl

/-- A member of a group lies at the place of its variable. -/
theorem mem_membersOf {c : Nat} {x : Nat × Nat} {y : Member} (h : y ∈ s.membersOf e o c x) :
    ∃ i, i < x.2 ∧ memberAt (s.groupBase e o) (x.1 + i) = some (y.blk, y.col) := by
  rw [membersOf_eq, List.mem_filterMap] at h
  obtain ⟨i, hi, hy⟩ := h
  obtain ⟨q, hq, rfl⟩ := Option.map_eq_some_iff.1 hy
  exact ⟨i, List.mem_range.1 hi, hq⟩

theorem groupVars_mem {x : Nat × Nat} (hx : x ∈ s.groupsOf e o) {i : Nat} (hi : i < x.2) : x.1 + i ∈ s.groupVars e o :=
  List.mem_flatMap.2 ⟨x, hx, List.mem_map.2 ⟨i, List.mem_range.2 hi, rfl⟩⟩

section
variable (spans : s.groupSpans e o = true)
include spans

theorem groupSpans_member {v : Nat} (hv : v ∈ s.groupVars e o) : ∃ q, memberAt (s.groupBase e o) v = some q := by
  simp only [State.groupSpans, Bool.and_eq_true, List.all_eq_true] at spans
  exact Option.isSome_iff_exists.1 (spans.1 v hv)

/-- The members of a group that lies in the spanned blocks, by their number. -/
theorem membersOf_getElem (c : Nat) {x : Nat × Nat} (hx : x ∈ s.groupsOf e o) :
    (s.membersOf e o c x).length = x.2 ∧ ∀ i q, i < x.2 → memberAt (s.groupBase e o) (x.1 + i) = some q →
      (s.membersOf e o c x)[i]? = some (s.memberOf e o c (x.1 + i) q) := by
  have all : ∀ i ∈ List.range x.2, (memberAt (s.groupBase e o) (x.1 + i)).map (s.memberOf e o c (x.1 + i)) =
      some (s.memberOf e o c (x.1 + i) ((memberAt (s.groupBase e o) (x.1 + i)).getD (0, 0))) := fun i hi => by
    obtain ⟨q, hq⟩ := groupSpans_member spans (groupVars_mem hx (List.mem_range.1 hi))
    rw [hq]
    rfl
  have members : s.membersOf e o c x = (List.range x.2).map fun i =>
      s.memberOf e o c (x.1 + i) ((memberAt (s.groupBase e o) (x.1 + i)).getD (0, 0)) := by
    rw [membersOf_eq, List.filterMap_congr all, List.filterMap_eq_map']
  rw [members]
  refine ⟨by rw [List.length_map, List.length_range], fun i q hi hq => ?_⟩
  rw [List.getElem?_map, List.getElem?_range hi, Option.map_some, hq]
  rfl

end

/-- A list with one element of a kind: its first one, and no other. -/
theorem findIdx?_of_one {α : Type} {f : α → Bool} {l : List α} (one : (l.filter f).length = 1) :
    ∃ k, l.findIdx? f = some k ∧ k < l.length ∧ ∀ i y, l[i]? = some y → (f y = true ↔ i = k) := by
  induction l with
  | nil => cases one
  | cons a l ih =>
    by_cases h : f a = true
    · rw [List.filter_cons_of_pos h, List.length_cons, Nat.add_eq_right, List.length_eq_zero_iff, List.filter_eq_nil_iff] at one
      refine ⟨0, by rw [List.findIdx?_cons, h]; rfl, Nat.succ_pos _, fun i y hy => ?_⟩
      cases i with
      | zero => exact ⟨fun _ => rfl, fun _ => (Option.some.inj hy) ▸ h⟩
      | succ i => exact ⟨fun hf => absurd hf (one y (List.mem_of_getElem? hy)), fun e => by cases e⟩
    · rw [List.filter_cons_of_neg h] at one
      obtain ⟨k, found, inside, only⟩ := ih one
      refine ⟨k + 1, by rw [List.findIdx?_cons, Bool.eq_false_iff.2 h, found]; rfl, Nat.succ_lt_succ inside, fun i y hy => ?_⟩
      cases i with
      | zero => exact ⟨fun hf => absurd ((Option.some.inj hy) ▸ hf) h, fun e => by cases e⟩
      | succ i => exact (only i y hy).trans Nat.succ_inj.symm

/-! ### The move of one group -/

theorem findIdx?_getD_lt {α : Type} {f : α → Bool} {l : List α} {n : Nat} (h : n < l.length) : (l.findIdx? f).getD n < l.length := by
  cases found : l.findIdx? f with
  | none => exact h
  | some k => exact (List.findIdx?_eq_some_iff_findIdx_eq.1 found).1

theorem ite_lt_of_lt {n k d : Nat} (h : d < n) : (if k < n then k else d) < n := by
  split
  · assumption
  · exact h

/-- A group that moves names one of its members. -/
theorem groupMove_lt (r : ChainRegs) (b2 metro : Bool) (fs : List Int) {hot : Nat} (u5 u6 : Nat) (h : hot < fs.length) :
    (groupMove r b2 metro fs hot u5 u6).1 < fs.length := by
  unfold groupMove
  dsimp only
  cases metro with
  | false =>
    rw [if_pos (show (!false) = true from rfl)]
    by_cases cold : (r.teff == 0) = true
    · rw [if_pos cold]
      exact findIdx?_getD_lt h
    · rw [if_neg cold]
      exact ite_lt_of_lt h
  | true =>
    have cand : ((List.range fs.length).filter (· != hot)).getD ((u5 * (fs.length - 1)) >>> 64) hot < fs.length := by
      rw [List.getD_eq_getElem?_getD]
      cases got : ((List.range fs.length).filter (· != hot))[(u5 * (fs.length - 1)) >>> 64]? with
      | none => exact h
      | some k => exact List.mem_range.1 (List.mem_filter.1 (List.mem_of_getElem? got)).1
    rw [if_neg (show ¬(!true) = true from Bool.false_ne_true)]
    split
    · exact cand
    · exact h

/-- A group's hot member is its first set one, and its new one is one of its members. -/
theorem groupOut_spec (s : State) (e : EngId) (o : GroupOp) (c v : Nat) {ms : List Member} {k : Nat}
    (found : ms.findIdx? (fun m => m.x) = some k) (inside : k < ms.length) :
    (s.groupOut e o c v ms).hot = k ∧ (s.groupOut e o c v ms).new < ms.length := by
  unfold State.groupOut
  dsimp only
  rw [found, Option.getD_some]
  split
  · next full => exact ⟨rfl, full ▸ groupMove_lt _ _ _ _ _ _ (full.symm ▸ inside)⟩
  · exact ⟨rfl, inside⟩

/-- A group that stays changes no energy. -/
theorem groupOut_stays (s : State) (e : EngId) (o : GroupOp) (c v : Nat) (ms : List Member) :
    (s.groupOut e o c v ms).hot = (s.groupOut e o c v ms).new → (s.groupOut e o c v ms).dE = 0 := by
  unfold State.groupOut
  dsimp only
  split
  · intro same
    dsimp only at same ⊢
    rw [← same, sub_self]
  · exact fun _ => rfl

end Sys2Proof.Machine
end

section
/-! SUPPORT. The records that a batch of groups rewrites (06 R181, R200). -/

namespace Sys2Proof.Machine

variable {s t : State} {e : EngId} {o : GroupOp}

/-! ### Records of spanned blocks -/

theorem record_inj {n k k' c c' : Nat} (hc : c < 2 * n) (hc' : c' < 2 * n) : 2 * n * k + c = 2 * n * k' + c' ↔ k = k' ∧ c = c' := by
  refine ⟨fun h => ?_, fun ⟨hk, hc⟩ => by rw [hk, hc]⟩
  have pos : 0 < 2 * n := Nat.zero_lt_of_lt hc
  have block := congrArg (· / (2 * n)) h
  have row := congrArg (· % (2 * n)) h
  simp only [Nat.mul_add_div pos, Nat.mul_add_mod, Nat.div_eq_of_lt hc, Nat.div_eq_of_lt hc', Nat.mod_eq_of_lt hc, Nat.mod_eq_of_lt hc'] at block row
  exact ⟨block, row⟩

theorem recordOf_nat (o : GroupOp) (k : Nat) : recordOf o k = o.radr + (2 * o.nch * k : Nat) := by
  rw [recordOf]
  push_cast
  rfl

/-- Records stand one after another: their rows count on from the first one. -/
theorem nibPlace_record (h : 0 ≤ o.radr) (k c j : Nat) :
    nibPlace (unitByte (recordOf o k)) c j = nibPlace (unitByte o.radr) (2 * o.nch * k + c) j := by
  rw [recordOf_nat, nibPlace, nibPlace, unitByte, unitByte]
  omega

theorem recordOf_nonneg (h : 0 ≤ o.radr) (k : Nat) : 0 ≤ recordOf o k := by
  rw [recordOf_nat]
  omega

/-- A write of a variable meets the state of one variable, its own. -/
theorem cellWrites_record (h : 0 ≤ o.radr) {k c j k' c' j' : Nat} (hc : c < o.nch) (hj : j < 128) (hc' : c' < o.nch) (hj' : j' < 128)
    (x : Bool) (d : Int) : cellWrites (recordOf o k) o.nch c j x d (nibPlace (unitByte (recordOf o k')) c' j') =
      if (k, c, j) = (k', c', j') then some (b2n x) else none := by
  have change : nibPlace (unitByte (recordOf o k')) c' j' ≠ nibPlace (unitByte (recordOf o k + o.nch)) c j := by
    rw [nibPlace_delta (recordOf_nonneg h k), nibPlace_record h, nibPlace_record h, ne_eq, nibPlace_inj hj' hj, Prod.mk.injEq,
      record_inj (by omega) (by omega)]
    omega
  have state : nibPlace (unitByte (recordOf o k')) c' j' = nibPlace (unitByte (recordOf o k)) c j ↔ (k, c, j) = (k', c', j') := by
    rw [nibPlace_record h, nibPlace_record h, nibPlace_inj hj' hj, Prod.mk.injEq, record_inj (by omega) (by omega), Prod.mk.injEq, Prod.mk.injEq]
    omega
  rw [cellWrites, if_neg change]
  exact if_congr state rfl rfl

/-- The records up to one block lie in one range of bytes. -/
theorem record_within (h : 0 ≤ o.radr) {k last b : Nat} (hk : k ≤ last)
    (hb : ¬(unitByte o.radr ≤ b ∧ b < unitByte o.radr + recordBytes o.nch * (last + 1))) :
    ¬(unitByte (recordOf o k) ≤ b ∧ b < unitByte (recordOf o k) + recordBytes o.nch) := by
  have mono : 2 * o.nch * (k + 1) ≤ 2 * o.nch * (last + 1) := Nat.mul_le_mul_left _ (Nat.succ_le_succ hk)
  rw [recordOf_nat]
  unfold unitByte recordBytes at *
  rw [Nat.mul_succ] at mono
  have whole : 128 * o.nch * (last + 1) = 64 * (2 * o.nch * (last + 1)) := by ring
  rw [whole] at hb
  omega

/-! ### The writes of one move -/

/-- Where a move writes, and what: at its new hot member after its old one; nothing where it stays. -/
def moveWrites (o : GroupOp) (c : Nat) (ms : List Member) (g : GroupOut) (N : Nat) : Option Nat :=
  if g.hot = g.new then none
  else match ms[g.hot]?, ms[g.new]? with
    | some a, some b => (cellWrites (recordOf o b.blk) o.nch c b.col true 1 N).or (cellWrites (recordOf o a.blk) o.nch c a.col false (-1) N)
    | _, _ => none

theorem nib_moveHot (m : Mem) (c : Nat) (ms : List Member) (g : GroupOut) (N : Nat) :
    nib (moveHot o c ms g m) N = (moveWrites o c ms g N).getD (nib m N) := by
  unfold moveHot moveWrites
  split
  · rfl
  · cases ms[g.hot]? with
    | none => rfl
    | some a =>
      cases ms[g.new]? with
      | none => rfl
      | some b =>
        dsimp only
        rw [nib_putCell, nib_putCell]
        cases cellWrites (recordOf o b.blk) o.nch c b.col true 1 N <;> rfl

/-- A nibble that a move writes belongs to one of its members. -/
theorem moveWrites_member {c : Nat} {ms : List Member} {g : GroupOut} {N : Nat} (h : moveWrites o c ms g N ≠ none) :
    ∃ m ∈ ms, ∃ x d, cellWrites (recordOf o m.blk) o.nch c m.col x d N ≠ none := by
  unfold moveWrites at h
  split at h
  · exact absurd rfl h
  · cases ha : ms[g.hot]? with
    | none => rw [ha] at h; exact absurd rfl h
    | some a =>
      cases hb : ms[g.new]? with
      | none => rw [ha, hb] at h; exact absurd rfl h
      | some b =>
        rw [ha, hb] at h
        by_cases first : cellWrites (recordOf o b.blk) o.nch c b.col true 1 N = none
        · exact ⟨a, List.mem_of_getElem? ha, false, -1, fun none => h (by dsimp only; rw [first, none]; rfl)⟩
        · exact ⟨b, List.mem_of_getElem? hb, true, 1, first⟩

/-! ### All moves of a batch -/

/-- The moves of a batch: chain, members and outcome of each group. -/
def State.groupMoves (s : State) (e : EngId) (o : GroupOp) : List (Nat × List Member × GroupOut) :=
  (List.range o.nch).flatMap fun c => (s.groupsOf e o).map fun x =>
    (c, s.membersOf e o c x, s.groupOut e o c x.1 (s.membersOf e o c x))

theorem mem_groupMoves {y : Nat × List Member × GroupOut} : y ∈ s.groupMoves e o ↔
    ∃ c, c < o.nch ∧ ∃ x ∈ s.groupsOf e o, (c, s.membersOf e o c x, s.groupOut e o c x.1 (s.membersOf e o c x)) = y := by
  simp only [State.groupMoves, List.mem_flatMap, List.mem_range, List.mem_map]

/-- The last block that a batch spans. -/
def State.groupLast (s : State) (e : EngId) (o : GroupOp) : Nat := (s.groupBlocks e o).foldl max 0

/-- The parcel store after a batch: the tiles of changes cleared, then each group's move. -/
def State.groupStore (s : State) (e : EngId) (o : GroupOp) (m : Mem) : Mem :=
  (s.groupMoves e o).foldl (fun m y => moveHot o y.1 y.2.1 y.2.2 m)
    ((List.range (s.groupLast e o + 1)).foldl (fun m k => mzero m (unitByte (recordOf o k + o.nch)) (64 * o.nch)) m)

theorem groupStore_writes (o : GroupOp) :
    WritesNibs (fun (y : Nat × List Member × GroupOut) N => moveWrites o y.1 y.2.1 y.2.2 N) (fun m y => moveHot o y.1 y.2.1 y.2.2 m) :=
  ⟨fun m y N => nib_moveHot m y.1 y.2.1 y.2.2 N⟩

theorem nib_clears {N n : Nat} {a : Nat → Nat} (l : List Nat) (h : ∀ k ∈ l, ¬(a k ≤ N / 2 ∧ N / 2 < a k + n)) :
    ∀ m, nib (l.foldl (fun m k => mzero m (a k) n) m) N = nib m N := by
  induction l with
  | nil => exact fun m => rfl
  | cons k l ih =>
    intro m
    rw [List.foldl_cons, ih fun j hj => h j (List.mem_cons_of_mem _ hj), nib_mzero, if_neg (h k List.mem_cons_self)]

theorem le_foldl_max {l : List Nat} : ∀ {d k : Nat}, k ∈ l ∨ k ≤ d → k ≤ l.foldl max d := by
  induction l with
  | nil => exact fun h => h.resolve_left List.not_mem_nil
  | cons a l ih =>
    intro d k h
    rw [List.foldl_cons]
    refine ih ?_
    rcases h with h | h
    · rcases List.mem_cons.1 h with rfl | h
      · exact .inr (le_max_right _ _)
      · exact .inl h
    · exact .inr (h.trans (le_max_left _ _))

/-- A member lies in a block up to the last one. -/
theorem member_block_le {x : Nat × Nat} (hx : x ∈ s.groupsOf e o) {i b j : Nat} (hi : i < x.2)
    (place : memberAt (s.groupBase e o) (x.1 + i) = some (b, j)) : b ≤ s.groupLast e o :=
  le_foldl_max (.inl (List.mem_eraseDups.2 (List.mem_map.2 ⟨(b, j), List.mem_filterMap.2 ⟨_, groupVars_mem hx hi, place⟩, rfl⟩)))

theorem groupStore_outside (h : 0 ≤ o.radr) (m : Mem) {N : Nat}
    (hN : ¬(unitByte o.radr ≤ N / 2 ∧ N / 2 < unitByte o.radr + s.groupBytes e o)) : nib (s.groupStore e o m) N = nib m N := by
  refine ((groupStore_writes o).unvisited _ _ fun y hy => ?_).trans (nib_clears _ (fun k hk => ?_) m)
  · obtain ⟨c, hc, x, hx, rfl⟩ := mem_groupMoves.1 hy
    by_contra writes
    obtain ⟨m, hm, z, d, cell⟩ := moveWrites_member writes
    obtain ⟨i, hi, place⟩ := mem_membersOf hm
    exact cell (cellWrites_inside (recordOf_nonneg h _) hc (memberAt_spec place).2 z d (record_within h (member_block_le hx hi place) hN))
  · have outside := record_within h (Nat.lt_succ_iff.1 (List.mem_range.1 hk)) hN
    have pos := recordOf_nonneg h k
    unfold unitByte recordBytes at *
    omega

/-- Clearing the changes leaves the states. -/
theorem clears_state (h : 0 ≤ o.radr) {k c j : Nat} (hc : c < o.nch) (hj : j < 128) (l : List Nat) (m : Mem) :
    nib (l.foldl (fun m k => mzero m (unitByte (recordOf o k + o.nch)) (64 * o.nch)) m) (nibPlace (unitByte (recordOf o k)) c j) =
      nib m (nibPlace (unitByte (recordOf o k)) c j) := by
  refine nib_clears l (fun k' _ inside => ?_) m
  rw [nibPlace_record h, recordOf_nat] at inside
  unfold unitByte nibPlace at inside
  have same := (record_inj (n := o.nch) (k := k) (c := c) (k' := k') (c' := 2 * o.nch * k + c - 2 * o.nch * k') (by omega) (by omega)).1 (by omega)
  omega

section
variable (h : 0 ≤ o.radr) (spans : s.groupSpans e o = true) (distinct : (s.groupVars e o).Nodup)
include h

/-- A move that meets the state of a variable has it as a member. -/
theorem moveWrites_state {c c' b j : Nat} (hc : c < o.nch) (hj : j < 128) (hc' : c' < o.nch) {x : Nat × Nat} {g : GroupOut}
    (writes : moveWrites o c' (s.membersOf e o c' x) g (nibPlace (unitByte (recordOf o b)) c j) ≠ none) :
    c' = c ∧ ∃ i, i < x.2 ∧ memberAt (s.groupBase e o) (x.1 + i) = some (b, j) := by
  obtain ⟨m, hm, z, d, cell⟩ := moveWrites_member writes
  obtain ⟨i, hi, place⟩ := mem_membersOf hm
  rw [cellWrites_record h hc' (memberAt_spec place).2 hc hj] at cell
  obtain ⟨blk, chain, col⟩ : m.blk = b ∧ c' = c ∧ m.col = j := by
    by_contra ne
    exact cell (if_neg fun same => ne (by simpa only [Prod.mk.injEq] using same))
  exact ⟨chain, i, hi, by rw [place, blk, col]⟩

include distinct in
/-- One move of a batch meets the state of a variable: that of its group in its chain. -/
theorem groupMoves_one {c i b j : Nat} (hc : c < o.nch) {x : Nat × Nat} (hx : x ∈ s.groupsOf e o) (hi : i < x.2)
    (place : memberAt (s.groupBase e o) (x.1 + i) = some (b, j)) {y : Nat × List Member × GroupOut} (hy : y ∈ s.groupMoves e o) :
    moveWrites o y.1 y.2.1 y.2.2 (nibPlace (unitByte (recordOf o b)) c j) = none ∨
      y = (c, s.membersOf e o c x, s.groupOut e o c x.1 (s.membersOf e o c x)) := by
  refine or_iff_not_imp_left.2 fun writes => ?_
  obtain ⟨c', hc', x', hx', rfl⟩ := mem_groupMoves.1 hy
  obtain ⟨rfl, i', hi', place'⟩ := moveWrites_state h hc (memberAt_spec place).2 hc' writes
  have same : x' = x := by
    by_contra ne
    have symm : Std.Symm (Function.onFun List.Disjoint fun x : Nat × Nat => (List.range x.2).map (x.1 + ·)) :=
      ⟨fun _ _ d => List.Disjoint.symm d⟩
    have apart := (List.nodup_flatMap.1 distinct).2.forall hx' hx ne
    exact apart (List.mem_map.2 ⟨i', List.mem_range.2 hi', memberAt_inj place' place⟩) (List.mem_map.2 ⟨i, List.mem_range.2 hi, rfl⟩)
  rw [same]

include spans in
/-- What a group's own move writes at the state of a member. -/
theorem moveWrites_own {c i b j : Nat} (hc : c < o.nch) {x : Nat × Nat} (hx : x ∈ s.groupsOf e o)
    (place : memberAt (s.groupBase e o) (x.1 + i) = some (b, j)) {g : GroupOut} (hot : g.hot < x.2) (new : g.new < x.2) :
    moveWrites o c (s.membersOf e o c x) g (nibPlace (unitByte (recordOf o b)) c j) =
      if g.hot = g.new then none else if i = g.new then some 1 else if i = g.hot then some 0 else none := by
  have hj := (memberAt_spec place).2
  have met {k : Nat} (hk : k < x.2) (z : Bool) (d : Int) : ∃ m, (s.membersOf e o c x)[k]? = some m ∧
      cellWrites (recordOf o m.blk) o.nch c m.col z d (nibPlace (unitByte (recordOf o b)) c j) = if i = k then some (b2n z) else none := by
    obtain ⟨⟨bk, jk⟩, placek⟩ := groupSpans_member spans (groupVars_mem hx hk)
    refine ⟨_, (membersOf_getElem spans c hx).2 k _ hk placek, (cellWrites_record h hc (memberAt_spec placek).2 hc hj z d).trans ?_⟩
    refine if_congr ⟨fun same => ?_, fun same => ?_⟩ rfl rfl
    · obtain ⟨blk : bk = b, rest⟩ := Prod.mk.inj same
      obtain ⟨-, col : jk = j⟩ := Prod.mk.inj rest
      rw [blk, col] at placek
      exact Nat.add_left_cancel (memberAt_inj place placek)
    · subst same
      rw [place] at placek
      obtain ⟨rfl, rfl⟩ := Prod.mk.inj (Option.some.inj placek)
      rfl
  obtain ⟨a, ha, writesA⟩ := met hot false (-1)
  obtain ⟨b', hb, writesB⟩ := met new true 1
  unfold moveWrites
  rw [ha, hb]
  dsimp only
  rw [writesA, writesB]
  split
  · rfl
  · by_cases isNew : i = g.new
    · rw [if_pos isNew, if_pos isNew]; rfl
    · rw [if_neg isNew, if_neg isNew]; rfl

include spans distinct in
/-- After a batch, the new hot member of each group is set and the others are clear. -/
theorem groupStore_state {c i b j : Nat} (hc : c < o.nch) {x : Nat × Nat} (hx : x ∈ s.groupsOf e o) (hi : i < x.2)
    (place : memberAt (s.groupBase e o) (x.1 + i) = some (b, j)) (one : ((s.membersOf e o c x).filter fun m => m.x).length = 1) :
    stateBit (s.groupStore e o (s.pmem e).store) (recordOf o b) c j =
      decide (i = (s.groupOut e o c x.1 (s.membersOf e o c x)).new) := by
  obtain ⟨length, members⟩ := membersOf_getElem spans c hx
  obtain ⟨k, found, inside, only⟩ := findIdx?_of_one one
  obtain ⟨hot, new⟩ := groupOut_spec s e o c x.1 found inside
  have before : stateBit (s.pmem e).store (recordOf o b) c j = decide (i = k) := by
    rw [Bool.eq_iff_iff, decide_eq_true_eq]
    exact only i _ (members i (b, j) hi place)
  rw [length] at inside new
  rw [← hot] at inside before
  have own := moveWrites_own h spans hc hx place inside new
  have alone (y) (hy : y ∈ s.groupMoves e o) := groupMoves_one h distinct hc hx hi place hy
  have mine : _ ∈ s.groupMoves e o := mem_groupMoves.2 ⟨c, hc, x, hx, rfl⟩
  have kept (unwritten : moveWrites o c (s.membersOf e o c x) (s.groupOut e o c x.1 (s.membersOf e o c x))
      (nibPlace (unitByte (recordOf o b)) c j) = none) : stateBit (s.groupStore e o (s.pmem e).store) (recordOf o b) c j =
      decide (i = (s.groupOut e o c x.1 (s.membersOf e o c x)).hot) := by
    rw [← before, stateBit_nib, stateBit_nib, State.groupStore, (groupStore_writes o).unvisited, clears_state h hc (memberAt_spec place).2]
    intro y hy
    rcases alone y hy with none | rfl
    · exact none
    · exact unwritten
  have put {v : Nat} (written : moveWrites o c (s.membersOf e o c x) (s.groupOut e o c x.1 (s.membersOf e o c x))
      (nibPlace (unitByte (recordOf o b)) c j) = some v) : stateBit (s.groupStore e o (s.pmem e).store) (recordOf o b) c j = (v != 0) := by
    rw [stateBit_nib, State.groupStore, (groupStore_writes o).visited _ _ mine written]
    intro y hy
    rcases alone y hy with none | rfl
    · exact .inl none
    · exact .inr written
  by_cases stays : (s.groupOut e o c x.1 (s.membersOf e o c x)).hot = (s.groupOut e o c x.1 (s.membersOf e o c x)).new
  · rw [kept (own.trans (if_pos stays)), stays]
  · rw [if_neg stays] at own
    by_cases isNew : i = (s.groupOut e o c x.1 (s.membersOf e o c x)).new
    · rw [put (own.trans (if_pos isNew)), decide_eq_true isNew]
      rfl
    · rw [if_neg isNew] at own
      rw [decide_eq_false isNew]
      by_cases wasHot : i = (s.groupOut e o c x.1 (s.membersOf e o c x)).hot
      · rw [put (own.trans (if_pos wasHot))]
        rfl
      · rw [kept (own.trans (if_neg wasHot)), decide_eq_false wasHot]

end

end Sys2Proof.Machine
end

section
/-! O35: CPL_GROUP (06 R198 to R200, R211). -/

namespace Sys2Proof.Machine

variable {s t : State} {e : EngId} {o : GroupOp}

/-! ### The chains of a batch -/

theorem addEnergy_energy (r : ChainRegs) (v : Int) : (addEnergy r v).energy = r.energy + BitVec.ofInt 64 v := by
  rw [addEnergy, BitVec.ofInt_add, BitVec.ofInt_toInt]

/-- One move at its chain: flags, and for a group that moves its energy and its acceptance (R200, R208). -/
def State.chainMove (home slot : Nat) (s : State) (y : Nat × List Member × GroupOut) : State :=
  let s := s.raiseChain home (slot + y.1) ((if y.2.2.nan then cNAN else 0) ||| (if y.2.2.clamp then cCLAMP else 0))
  if y.2.2.hot = y.2.2.new then s
  else s.modPend home (slot + y.1) fun r => { addEnergy r y.2.2.dE with runAccept := r.runAccept + 1 }

theorem raiseChain_energy (s : State) (home n : Nat) (f : BitVec 8) (k : Nat) :
    ((s.raiseChain home n f).chainAt home k).pend.energy = (s.chainAt home k).pend.energy := by
  rw [pend_of_chainRegs (raiseChain_chainRegs s home n f), pend_modPend]
  split <;> rfl

theorem chainMove_energy (home slot : Nat) (s : State) {y : Nat × List Member × GroupOut} (stays : y.2.2.hot = y.2.2.new → y.2.2.dE = 0)
    (k : Nat) : ((s.chainMove home slot y).chainAt home k).pend.energy =
      (s.chainAt home k).pend.energy + if k = slot + y.1 then BitVec.ofInt 64 y.2.2.dE else 0 := by
  unfold State.chainMove
  dsimp only
  split
  · next same =>
    rw [raiseChain_energy, stays same]
    split
    · exact (add_zero _).symm
    · exact (add_zero _).symm
  · rw [pend_modPend]
    split
    · next own => rw [if_pos own.2, addEnergy_energy, raiseChain_energy]
    · next own => rw [if_neg fun k => own ⟨rfl, k⟩, raiseChain_energy, add_zero]

theorem chainMove_cells (home slot : Nat) (s : State) (y : Nat × List Member × GroupOut) :
    SheetsKeep Sheet.cells s (s.chainMove home slot y) := by
  unfold State.chainMove
  dsimp only
  split
  · exact cells_unchained.raiseChain _ _ _ _
  · exact (cells_unchained.raiseChain _ _ _ _).trans (cells_unchained.modPend _ _ _ _)

/-- The groups of one chain, one after another: its energy takes their sum, and no other chain's changes. -/
theorem chainMoves_energy {X : Type} (home slot c : Nat) {y : X → List Member × GroupOut}
    (stays : ∀ x, (y x).2.hot = (y x).2.new → (y x).2.dE = 0) (l : List X) : ∀ (s : State) (k : Nat),
    ((s.forEach l fun s x => s.chainMove home slot (c, y x)).chainAt home k).pend.energy =
      (s.chainAt home k).pend.energy + if k = slot + c then BitVec.ofInt 64 (l.map fun x => (y x).2.dE).sum else 0 := by
  induction l with
  | nil =>
    intro s k
    rw [List.map_nil, List.sum_nil]
    split
    · exact (add_zero _).symm
    · exact (add_zero _).symm
  | cons x l ih =>
    intro s k
    rw [List.map_cons, List.sum_cons]
    refine (ih (s.chainMove home slot (c, y x)) k).trans ?_
    rw [chainMove_energy home slot s (stays x)]
    split
    · rw [BitVec.ofInt_add, BitVec.add_assoc]
    · rw [add_zero, add_zero]

/-- The chains of a batch after its moves. -/
def State.moveChains (s : State) (home slot : Nat) (moves : List (Nat × List Member × GroupOut)) : State :=
  s.forEach moves fun s y => s.chainMove home slot y

/-- Each chain's energy rises by the differences of its groups. -/
theorem moveChains_energy (s t : State) (e : EngId) (o : GroupOp) (home slot : Nat) {c : Nat} (hc : c < o.nch) :
    ((t.moveChains home slot (s.groupMoves e o)).chainAt home (slot + c)).pend.energy = (t.chainAt home (slot + c)).pend.energy +
      BitVec.ofInt 64 ((s.groupsOf e o).map fun x => (s.groupOut e o c x.1 (s.membersOf e o c x)).dE).sum := by
  have nested : t.moveChains home slot (s.groupMoves e o) = t.forEach (List.range o.nch) fun t c =>
      t.forEach (s.groupsOf e o) fun t x => t.chainMove home slot (c, s.membersOf e o c x, s.groupOut e o c x.1 (s.membersOf e o c x)) := by
    simp only [State.moveChains, State.groupMoves, State.forEach, List.foldl_flatMap, List.foldl_map]
  have one (t : State) (c k : Nat) := chainMoves_energy home slot c
    (y := fun x : Nat × Nat => (s.membersOf e o c x, s.groupOut e o c x.1 (s.membersOf e o c x)))
    (fun x => groupOut_stays s e o c x.1 _) (s.groupsOf e o) t k
  rw [nested]
  refine forEach_chains (fun t k => (t.chainAt home k).pend.energy) _ (fun c r => r +
    BitVec.ofInt 64 ((s.groupsOf e o).map fun x => (s.groupOut e o c x.1 (s.membersOf e o c x)).dE).sum) slot
    (fun t c k ne => ?_) (fun t c => ?_) t hc
  · rw [one, if_neg fun same => ne (Nat.add_left_cancel same), add_zero]
  · rw [one, if_pos rfl]

/-! ### The word -/

/-- A batch applied: what follows the change of its records. -/
def State.finishGroup (s : State) (e : EngId) (o : GroupOp) (home : Nat) (moves : List (Nat × List Member × GroupOut)) (n : Nat)
    (poison : Bool) : State :=
  (((s.moveChains home o.slot.val moves).wroteStore e (unitByte o.radr) n poison).poisonChains home o.slot.val o.nch poison).drewSlots
    e o.slot.val o.nch

theorem finishGroup_cells (s : State) (e : EngId) (o : GroupOp) (home : Nat) (moves : List (Nat × List Member × GroupOut)) (n : Nat)
    (poison : Bool) : SheetsKeep Sheet.cells s (s.finishGroup e o home moves n poison) := by
  have moved : SheetsKeep Sheet.cells s (s.moveChains home o.slot.val moves) := .forEach _ _ fun t y => chainMove_cells _ _ t y
  exact ((moved.trans (wroteStore_still _ _ _ _ _).cells).trans (cells_unchained.poisonChains _ _ _ _ _)).trans
    (drewSlots_keeps (fun _ _ => rfl) _ _ _ _)

theorem finishGroup_chainRegs (s : State) (e : EngId) (o : GroupOp) (home : Nat) (moves : List (Nat × List Member × GroupOut)) (n : Nat)
    (poison : Bool) : SheetsKeep Sheet.chainRegs (s.moveChains home o.slot.val moves) (s.finishGroup e o home moves n poison) :=
  ((wroteStore_chainRegs _ _ _ _ _).trans (poisonChains_chainRegs _ _ _ _ _)).trans (drewSlots_keeps (fun _ _ => rfl) _ _ _ _)

section
variable (fits : s.groupFits e o = true) (table : inStore o.gadr (4 * (o.gidx + o.ng)) = true) (spans : s.groupSpans e o = true)
  (inside : inStore o.radr (s.groupBytes e o) = true) (misses : missesProg (s.eng e) o.radr (s.groupBytes e o) = true)
include fits table spans inside misses

theorem doGroup_moves (one : ∀ c x, c < o.nch → x ∈ s.groupsOf e o → ((s.membersOf e o c x).filter fun m => m.x).length = 1)
    (bound : s.groupBound e o = true) : ∃ poison, s.doGroup e o {} =
      (s.modPmem e fun m => { m with store := s.groupStore e o m.store }).finishGroup e o (s.homeOf e.sheet.val o.slot.val)
        (s.groupMoves e o) (s.groupBytes e o) poison := by
  have sound : ((List.range o.nch).flatMap fun c => (s.groupsOf e o).map fun x => (c, x.1, s.membersOf e o c x)).find?
      (fun m => (m.2.2.filter fun v => v.x).length != 1) = none := by
    refine List.find?_eq_none.2 fun m hm => ?_
    obtain ⟨c, hc, hm⟩ := List.mem_flatMap.1 hm
    obtain ⟨x, hx, rfl⟩ := List.mem_map.1 hm
    rw [one c x (List.mem_range.1 hc) hx]
    decide
  have moves : (((List.range o.nch).flatMap fun c => (s.groupsOf e o).map fun x => (c, x.1, s.membersOf e o c x)).map
      fun m => (m.1, m.2.2, s.groupOut e o m.1 m.2.1 m.2.2)) = s.groupMoves e o := by
    simp only [State.groupMoves, List.map_flatMap, List.map_map]
    rfl
  unfold State.doGroup
  dsimp only
  rw [fits, table, spans, inside, misses, sramRead_none, sound]
  dsimp only
  rw [bound, moves]
  exact ⟨_, rfl⟩

theorem doGroup_faults (some : ∃ c x, c < o.nch ∧ x ∈ s.groupsOf e o ∧ ((s.membersOf e o c x).filter fun m => m.x).length ≠ 1) :
    ∃ a, s.doGroup e o {} = s.engFault e 2 5 0x232 (opEngine 7 5) a := by
  obtain ⟨c, x, hc, hx, ne⟩ := some
  unfold State.doGroup
  dsimp only
  rw [fits, table, spans, inside, misses, sramRead_none]
  cases found : ((List.range o.nch).flatMap fun c => (s.groupsOf e o).map fun x => (c, x.1, s.membersOf e o c x)).find?
      (fun m => (m.2.2.filter fun v => v.x).length != 1) with
  | none =>
    have none := List.find?_eq_none.1 found (c, x.1, s.membersOf e o c x)
      (List.mem_flatMap.2 ⟨c, List.mem_range.2 hc, List.mem_map.2 ⟨x, hx, rfl⟩⟩)
    exact absurd (bne_iff_ne.2 ne) none
  | some m => exact ⟨_, rfl⟩

end

/-! ### What the word finds where it starts -/

section
variable (x : Popped e s t)
include x

theorem Popped.groupsOf (o : GroupOp) : t.groupsOf e o = s.groupsOf e o := by simp only [State.groupsOf, x.only.pmem]
theorem Popped.groupVars (o : GroupOp) : t.groupVars e o = s.groupVars e o := by simp only [State.groupVars, x.groupsOf]
theorem Popped.groupBase (o : GroupOp) : t.groupBase e o = s.groupBase e o := by simp only [State.groupBase, x.still.td]
theorem Popped.groupBlocks (o : GroupOp) : t.groupBlocks e o = s.groupBlocks e o := by
  simp only [State.groupBlocks, x.groupVars, x.groupBase]
theorem Popped.groupBytes (o : GroupOp) : t.groupBytes e o = s.groupBytes e o := by simp only [State.groupBytes, x.groupBlocks]
theorem Popped.groupLast (o : GroupOp) : t.groupLast e o = s.groupLast e o := by simp only [State.groupLast, x.groupBlocks]
theorem Popped.membersOf (o : GroupOp) (c : Nat) (y : Nat × Nat) : t.membersOf e o c y = s.membersOf e o c y := by
  simp only [State.membersOf, x.only.pmem, x.groupBase, x.still.td]
theorem Popped.groupOut (o : GroupOp) (c v : Nat) (ms : List Member) : t.groupOut e o c v ms = s.groupOut e o c v ms := by
  simp only [State.groupOut, x.only.homeOf, x.only.chainAt, x.only.slot, x.only.slotKey]
theorem Popped.groupMoves (o : GroupOp) : t.groupMoves e o = s.groupMoves e o := by
  simp only [State.groupMoves, x.groupsOf, x.membersOf, x.groupOut]
theorem Popped.groupStore (o : GroupOp) : t.groupStore e o = s.groupStore e o := by
  funext m
  simp only [State.groupStore, x.groupMoves, x.groupLast]
theorem Popped.groupBound (o : GroupOp) : t.groupBound e o = s.groupBound e o := by
  simp only [State.groupBound, x.only.homeOf, x.only.chainAt, x.only.slotKey]
theorem Popped.groupFits (o : GroupOp) : t.groupFits e o = s.groupFits e o := by
  simp only [State.groupFits, State.batchListed, x.only.slotsOk, x.still.td, x.only.curDiv]
theorem Popped.groupSpans (o : GroupOp) : t.groupSpans e o = s.groupSpans e o := by
  simp only [State.groupSpans, x.groupVars, x.groupBase, x.groupBlocks, x.still.td]

end

end Sys2Proof.Machine

open Sys2Proof Sys2Proof.Machine

/-- Settles O35: each group's hot member moves within its own places and its chain takes the difference; a group without one hot
member is one message. -/
theorem groupsMoveTheirHotMember : Obligations.GroupsMoveTheirHotMember := by
  intro e o s p hp hl h home hot out hs fits table spans inside misses distinct
  have radr : 0 ≤ o.radr := by
    simp only [inStore, Bool.and_eq_true, decide_eq_true_eq] at inside
    exact inside.1
  refine ⟨fun one bound => leads_starts hs rfl fun t x => ?_, fun some => leads_starts hs rfl fun t x => ?_⟩
  · obtain ⟨poison, run⟩ := doGroup_moves (s := t) (e := e) (o := o) (by rw [x.groupFits]; exact fits) table
      (by rw [x.groupSpans]; exact spans) (by rw [x.groupBytes]; exact inside) (by rw [x.groupBytes, x.missesProg]; exact misses)
      (fun c y hc hy => by rw [x.groupsOf] at hy; rw [x.membersOf]; exact one c y hc hy) (by rw [x.groupBound]; exact bound)
    rw [x.only.homeOf, x.groupMoves, x.groupBytes, x.groupStore] at run
    rw [run]
    have lands := modPmem_lands_on hp x.still.cells (f := fun m => { m with store := s.groupStore e o m.store })
      (g := fun c => (s.groupStore e o c.1, c.2)) (finishGroup_cells _ e o home (s.groupMoves e o) (s.groupBytes e o) poison) fun _ => rfl
    have before : SheetsKeep Sheet.chains t (t.modPmem e fun m => { m with store := s.groupStore e o m.store }) :=
      .modSheet _ _ fun y => by split <;> rfl
    refine ⟨lands.sameDram, lands.sameAccs rfl,
      lands.storesBut fun b hb => mget_outside (fun N hN => groupStore_outside radr _ hN) hb, fun c hc => ⟨?_, fun y hy i b j hi place => ?_⟩⟩
    · rw [pend_of_chainRegs (finishGroup_chainRegs _ _ _ _ _ _ _), moveChains_energy s _ e o _ _ hc,
        pend_of_chainRegs (chainRegs_of_chains before), x.only.chainAt, BitVec.ofInt_add, BitVec.ofInt_toInt]
    · have here := congrArg Prod.fst lands.here
      rw [show (((_ : State).sheet h).parcel p).store = _ from here]
      rw [show ((s.sheet e.sheet.val).parcel p).cells.1 = (s.pmem e).store from congrArg ParcelMem.store (pmem_of_phys hp).symm]
      exact groupStore_state radr spans distinct hc hy hi place (one c y hc hy)
  · obtain ⟨a, run⟩ := doGroup_faults (s := t) (e := e) (o := o) (by rw [x.groupFits]; exact fits) table
      (by rw [x.groupSpans]; exact spans) (by rw [x.groupBytes]; exact inside) (by rw [x.groupBytes, x.missesProg]; exact misses)
      (by simp only [x.groupsOf, x.membersOf]; exact some)
    rw [run]
    obtain ⟨same, raises⟩ := x.raises hp hl (l := 2) (n := 5) 0x232 (opEngine 7 5) a (by decide) (by decide) (by decide)
    exact ⟨same, a, raises⟩
end

section
/-! SUPPORT. What a hub's reads leave (06 R201, R203): the plan in force, the chains, the groups, and every byte of the memories. -/

namespace Sys2Proof.Machine

variable {s t u : State}

/-! ### The plan in force -/

/-- What names the plan in force on the sheets of a partition. -/
def Part.course (x : Part) : PartState × BitVec 16 × Option CtxId × (CtxId → Option (BitVec 32)) :=
  (x.st, x.sheets, x.cur, fun c => (x.runOf c).map RunState.plan)

/-- Partitions run the plans they ran, and contexts hold them. -/
structure SameCourse (s t : State) : Prop where
  course : ∀ p, (t.part p).course = (s.part p).course
  ctxs : t.ctxs = s.ctxs

theorem SameCourse.refl : SameCourse s s := ⟨fun _ => rfl, rfl⟩
theorem SameCourse.trans (h : SameCourse s t) (k : SameCourse t u) : SameCourse s u :=
  ⟨fun p => (k.course p).trans (h.course p), k.ctxs.trans h.ctxs⟩
theorem SameCourse.of_parts (hp : t.parts = s.parts) (hc : t.ctxs = s.ctxs) : SameCourse s t :=
  ⟨fun p => congrArg Part.course (part_of_parts hp p), hc⟩

theorem SameCourse.modPart (p : Nat) (f : Part → Part) (h : ∀ x, (f x).course = x.course) : SameCourse s (s.modPart p f) := by
  refine ⟨fun q => ?_, rfl⟩
  rw [part_modPart]
  split
  · next e => rw [e, h]
  · rfl

theorem SameCourse.forEach {α : Type} (l : List α) (f : State → α → State) (h : ∀ s a, SameCourse s (f s a)) (s : State) :
    SameCourse s (s.forEach l f) := List.foldlRecOn l f .refl fun _ ht a _ => ht.trans (h _ a)

/-- A change of RUN records that keeps their contexts and plans. -/
theorem course_runs (x : Part) (g : RunState → RunState) (hc : ∀ r, (g r).ctx = r.ctx) (hp : ∀ r, (g r).plan = r.plan) :
    ({ x with runs := x.runs.map g } : Part).course = x.course := by
  have runs (c : CtxId) : (({ x with runs := x.runs.map g } : Part).runOf c).map RunState.plan = (x.runOf c).map RunState.plan := by
    have ctx : ((fun r : RunState => r.ctx == c) ∘ g) = fun r => r.ctx == c := funext fun r => by rw [Function.comp_apply, hc]
    have plan : RunState.plan ∘ g = RunState.plan := funext hp
    simp only [Part.runOf, List.find?_map, Option.map_map, ctx, plan]
  exact congrArg (fun y => (x.st, x.sheets, x.cur, y)) (funext runs)

theorem SameCourse.modRun (s : State) (i : Nat) (f : RunState → RunState) (hc : ∀ r, (f r).ctx = r.ctx) (hp : ∀ r, (f r).plan = r.plan) :
    SameCourse s (s.modRun i f) := by
  unfold State.modRun
  split
  · exact .refl
  · split
    · exact .refl
    · refine .modPart _ _ fun x => course_runs x _ (fun r => ?_) fun r => ?_
      · split
        · exact hc r
        · rfl
      · split
        · exact hp r
        · rfl

theorem SameCourse.noteRead (s : State) (i : Nat) (x : Tensor) : SameCourse s (s.noteRead i x) := by
  refine .modRun s i _ (fun r => ?_) fun r => ?_
  all_goals split <;> rfl

theorem SameCourse.noteGranule (s : State) (i g : Nat) : SameCourse s (s.noteGranule i g) := by
  unfold State.noteGranule
  split
  · exact .refl
  · split
    · refine .modPart _ _ fun x => ?_
      split <;> rfl
    · exact .refl

theorem Reports.sameCourse (h : Reports s t) : SameCourse s t := by
  refine ⟨fun p => ?_, h.ctxs⟩
  obtain ⟨fs, e⟩ := h.part p
  rw [e]
  rfl

theorem SameCourse.modMem (s : State) (i : Nat) (f : MemPath → MemPath) : SameCourse s (s.modMem i f) := .of_parts rfl rfl
theorem SameCourse.modPend (s : State) (home n : Nat) (f : ChainRegs → ChainRegs) : SameCourse s (s.modPend home n f) := .of_parts rfl rfl

theorem SameCourse.poisonMem (s : State) (i : Nat) (f : MemPath → MemPath) : SameCourse s (s.poisonMem i f) := by
  unfold State.poisonMem
  dsimp only
  split
  · exact .of_parts rfl rfl
  · exact .of_parts rfl rfl

theorem SameCourse.poisonChains (s : State) (home slot nch : Nat) (p : Bool) : SameCourse s (s.poisonChains home slot nch p) := by
  unfold State.poisonChains
  split
  · exact .of_parts rfl rfl
  · exact .refl

theorem SameCourse.lookPages (s : State) (i : Nat) (l : List Nat) (op : BitVec 16) : SameCourse s (s.lookPages i l op) :=
  .forEach _ _ (fun t _ => (sheetFault_reports t i 3 0x106 op _).sameCourse.trans (.modMem _ _ _)) s

theorem SameCourse.upset (s : State) (i : Nat) (d : Disturb) : SameCourse s (s.upset i d) :=
  (SameCourse.modMem s i _).trans (upset_counts s i d).reports.sameCourse

section
variable (h : SameCourse s t)
include h

theorem SameCourse.partOf (i : Nat) : t.partOf i = s.partOf i := by
  have st (p : Nat) : (t.part p).st = (s.part p).st := congrArg Prod.fst (h.course p)
  have sheets (p : Nat) : (t.part p).sheets = (s.part p).sheets := congrArg (fun c => c.2.1) (h.course p)
  simp only [State.partOf, st, sheets]

theorem SameCourse.curPlan (i : Nat) : t.curPlan i = s.curPlan i := by
  have cur (p : Nat) : (t.part p).cur = (s.part p).cur := congrArg (fun c => c.2.2.1) (h.course p)
  have plan (p : Nat) (c : CtxId) : ((t.part p).runOf c).map RunState.plan = ((s.part p).runOf c).map RunState.plan :=
    congrFun (congrArg (fun c => c.2.2.2) (h.course p)) c
  simp only [State.curPlan, h.partOf, cur, ctx_of_ctxs h.ctxs]
  cases s.partOf i with
  | none => rfl
  | some p =>
    dsimp only
    cases (s.part p).cur with
    | none => rfl
    | some c =>
      dsimp only
      have plan := plan p c
      cases ht : (t.part p).runOf c with
      | none =>
        rw [ht] at plan
        rw [Option.map_eq_none_iff.1 plan.symm]
      | some r =>
        rw [ht] at plan
        obtain ⟨r', hr, same⟩ := Option.map_eq_some_iff.1 plan.symm
        rw [hr]
        exact congrArg (s.ctx c.val).planOf same.symm

theorem SameCourse.tensorAt (i : Nat) (n : BitVec 16) : t.tensorAt i n = s.tensorAt i n := by simp only [State.tensorAt, h.curPlan]

end

/-! ### A hub at rest -/

/-- Chain registers, groups and the plan in force read as before. -/
structure ChainsStill (s t : State) : Prop where
  chains : SheetsKeep Sheet.chainRegs s t
  groups : SheetsKeep Sheet.groups s t
  course : SameCourse s t

/-- Bytes, chain registers, groups and the plan in force read as before. -/
structure HubStill (s t : State) : Prop extends ChainsStill s t where
  cells : SheetsKeep Sheet.cells s t

theorem ChainsStill.refl : ChainsStill s s := ⟨.refl, .refl, .refl⟩
theorem ChainsStill.trans (h : ChainsStill s t) (k : ChainsStill t u) : ChainsStill s u :=
  ⟨h.chains.trans k.chains, h.groups.trans k.groups, h.course.trans k.course⟩
theorem ChainsStill.forEach {α : Type} (l : List α) (f : State → α → State) (h : ∀ s a, ChainsStill s (f s a)) (s : State) :
    ChainsStill s (s.forEach l f) := List.foldlRecOn l f .refl fun _ ht a _ => ht.trans (h _ a)

theorem ChainsStill.modMem (s : State) (i : Nat) (f : MemPath → MemPath) : ChainsStill s (s.modMem i f) :=
  ⟨.modSheet i _ fun _ => rfl, .modSheet i _ fun _ => rfl, .modMem _ _ _⟩

theorem ChainsStill.poisonMem (s : State) (i : Nat) (f : MemPath → MemPath) : ChainsStill s (s.poisonMem i f) :=
  ⟨(ChainsStill.modMem s i f).chains.trans (.of_sheets (poisonMem_sheets s i f)),
    (ChainsStill.modMem s i f).groups.trans (.of_sheets (poisonMem_sheets s i f)), .poisonMem _ _ _⟩

theorem ChainsStill.noteGranule (s : State) (i g : Nat) : ChainsStill s (s.noteGranule i g) :=
  ⟨.of_sheets (noteGranule_sheets _ _ _), .of_sheets (noteGranule_sheets _ _ _), .noteGranule _ _ _⟩

theorem HubStill.refl : HubStill s s := ⟨.refl, .refl⟩
theorem HubStill.trans (h : HubStill s t) (k : HubStill t u) : HubStill s u :=
  ⟨h.toChainsStill.trans k.toChainsStill, h.cells.trans k.cells⟩

theorem HubStill.forEach {α : Type} (l : List α) (f : State → α → State) (h : ∀ s a, HubStill s (f s a)) (s : State) :
    HubStill s (s.forEach l f) := List.foldlRecOn l f .refl fun _ ht a _ => ht.trans (h _ a)

theorem Reports.hubStill (h : Reports s t) : HubStill s t :=
  ⟨⟨chains_of_reports h, h.sheetsKeep fun _ _ _ _ => rfl, h.sameCourse⟩, h.still.cells⟩

/-- A change of a memory path beside its bytes. -/
theorem HubStill.modMem (s : State) (i : Nat) (f : MemPath → MemPath) (hd : ∀ m, (f m).dram = m.dram) (ha : ∀ m, (f m).adds = m.adds) :
    HubStill s (s.modMem i f) := ⟨.modMem _ _ _, (Still.modMem i f hd ha).cells⟩

theorem HubStill.lookPages (s : State) (i : Nat) (l : List Nat) (op : BitVec 16) : HubStill s (s.lookPages i l op) :=
  .forEach _ _ (fun t _ => (sheetFault_reports t i 3 0x106 op _).hubStill.trans (.modMem _ i _ (by intro _; rfl) (by intro _; rfl))) s

theorem HubStill.noteRead (s : State) (i : Nat) (x : Tensor) : HubStill s (s.noteRead i x) :=
  ⟨⟨.of_sheets (noteRead_sheets _ _ _), .of_sheets (noteRead_sheets _ _ _), .noteRead _ _ _⟩, .of_sheets (noteRead_sheets _ _ _)⟩

theorem HubStill.upset_none (s : State) (i : Nat) : HubStill s (s.upset i {}) :=
  ⟨⟨upset_keeps (fun _ _ _ _ => rfl) (fun _ _ => rfl) s i {}, upset_keeps (fun _ _ _ _ => rfl) (fun _ _ => rfl) s i {}, .upset s i {}⟩,
    (upset_none_still s i).cells⟩

theorem HubStill.poisonChains (s : State) (home slot nch : Nat) (p : Bool) : HubStill s (s.poisonChains home slot nch p) :=
  ⟨⟨poisonChains_chainRegs _ _ _ _ _, groups_unchained.poisonChains _ _ _ _ _, .poisonChains _ _ _ _ _⟩,
    cells_unchained.poisonChains _ _ _ _ _⟩

theorem ChainsStill.pend (h : ChainsStill s t) (i n : Nat) : (t.chainAt i n).pend = (s.chainAt i n).pend := pend_of_chainRegs h.chains i n
theorem ChainsStill.reg (h : ChainsStill s t) (i n : Nat) : (t.chainAt i n).reg = (s.chainAt i n).reg := reg_of_chainRegs h.chains i n

/-! ### Reading a raw schedule -/

theorem rawBytes_of_dram (h : SameDram s t) (x : Tensor) (i off n : Nat) : t.rawBytes x i off n = s.rawBytes x i off n := by
  unfold State.rawBytes
  refine List.map_congr_left fun k _ => ?_
  cases x.rawAt i (off + k) with
  | none => rfl
  | some y => exact h _ _

/-- A read of a raw schedule at its hub: its bytes, and a hub that stands as before (R201). -/
theorem schedRead_raw (s : State) (home : Nat) {x : Tensor} (raw : x.isSealed = false) (off n : Nat) :
    ∃ u bad, HubStill s u ∧ s.schedRead home x off n {} = (u, s.rawBytes x home off n, bad) := by
  unfold State.schedRead
  dsimp only
  rw [raw, if_neg Bool.false_ne_true]
  have upset : HubStill s (match ((List.range n).map fun k => x.rawAt home (off + k)).head?.join with
      | some y => (s.noteRead home x).upset y.1 {}
      | none => s.noteRead home x) := by
    split
    · exact (HubStill.noteRead s home x).trans (.upset_none _ _)
    · exact .noteRead s home x
  refine ⟨_, _, upset.trans (.forEach _ _ (fun t g => .lookPages t _ _ _) _), Prod.ext rfl (Prod.ext ?_ rfl)⟩
  dsimp only
  rw [← rawBytes_of_dram (t := _) (cells_sameMemories upset.cells).1, State.rawBytes, List.map_map]
  refine List.map_congr_left fun k _ => ?_
  rw [Function.comp_apply]
  cases x.rawAt home (off + k) <;> rfl

/-- TEFF and INVT of a chain from a raw schedule (R203). -/
def State.tempAt (s : State) (home : Nat) (x : Tensor) (hd : SchedHeader) (r : ChainRegs) : BitVec 32 × BitVec 32 :=
  tempOf (leNat (s.rawBytes x home (32 + 4 * (min r.sweep.toNat (hd.nsched - 1) * hd.nrung + min r.rung.toNat (hd.nrung - 1))) 4)) r.gust.toNat

/-- A chain with the temperature of a schedule. -/
def ChainRegs.heated (r : ChainRegs) (te : BitVec 32 × BitVec 32) : ChainRegs := { r with teff := te.1, invt := te.2 }

theorem tempAt_of_dram (h : SameDram s t) (home : Nat) (x : Tensor) (hd : SchedHeader) (r : ChainRegs) :
    t.tempAt home x hd r = s.tempAt home x hd r := by simp only [State.tempAt, rawBytes_of_dram h]

/-! ### A change of one chain's pending registers -/

/-- In `u` the pending registers of one chain of a hub are changed; every other chain, the groups and the plan in force are as in `s`. -/
structure PendChange (home n : Nat) (f : ChainRegs → ChainRegs) (s u : State) : Prop where
  groups : SheetsKeep Sheet.groups s u
  course : SameCourse s u
  reg : ∀ i k, (u.chainAt i k).reg = (s.chainAt i k).reg
  pend : ∀ i k, (u.chainAt i k).pend = if i = home ∧ k = n then f (s.chainAt i k).pend else (s.chainAt i k).pend

theorem reg_modPend (s : State) (home n : Nat) (f : ChainRegs → ChainRegs) (i k : Nat) :
    ((s.modPend home n f).chainAt i k).reg = (s.chainAt i k).reg := by
  have both := congrArg Prod.fst (chainRegs_modPend s home n f i k)
  split at both <;> exact both

theorem modPend_change (s : State) (home n : Nat) (f : ChainRegs → ChainRegs) : PendChange home n f s (s.modPend home n f) :=
  ⟨groups_unchained.modPend _ _ _ _, .modPend _ _ _ _, reg_modPend s home n f, pend_modPend s home n f⟩

section
variable {home n : Nat} {f g : ChainRegs → ChainRegs}

theorem PendChange.comp (h : PendChange home n f s t) (k : PendChange home n g t u) : PendChange home n (g ∘ f) s u := by
  refine ⟨h.groups.trans k.groups, h.course.trans k.course, fun i j => (k.reg i j).trans (h.reg i j), fun i j => ?_⟩
  rw [k.pend, h.pend]
  split <;> rfl

theorem PendChange.before (k : ChainsStill s t) (h : PendChange home n f t u) : PendChange home n f s u :=
  ⟨k.groups.trans h.groups, k.course.trans h.course, fun i j => (h.reg i j).trans (k.reg i j), fun i j => by rw [h.pend, k.pend]⟩

theorem PendChange.after (h : PendChange home n f s t) (k : ChainsStill t u) : PendChange home n f s u :=
  ⟨h.groups.trans k.groups, h.course.trans k.course, fun i j => (k.reg i j).trans (h.reg i j), fun i j => by rw [k.pend, h.pend]⟩

/-- The change matters at the chain's own registers alone. -/
theorem PendChange.as (h : PendChange home n f s u) (same : f (s.chainAt home n).pend = g (s.chainAt home n).pend) :
    PendChange home n g s u := by
  refine ⟨h.groups, h.course, h.reg, fun i k => (h.pend i k).trans ?_⟩
  split
  · next own => rw [own.1, own.2, same]
  · rfl

theorem PendChange.here (h : PendChange home n f s u) : (u.chainAt home n).pend = f (s.chainAt home n).pend := by
  rw [h.pend, if_pos ⟨rfl, rfl⟩]

theorem PendChange.there (h : PendChange home n f s u) {k : Nat} (ne : k ≠ n) : (u.chainAt home k).pend = (s.chainAt home k).pend := by
  rw [h.pend, if_neg fun x => ne x.2]

end

/-- A chain takes its temperature from a raw schedule, and no byte moves. -/
theorem setTemp_change (s : State) (home n : Nat) {x : Tensor} (raw : x.isSealed = false) (hd : SchedHeader) :
    PendChange home n (fun r => r.heated (s.tempAt home x hd (s.chainAt home n).pend)) s (s.setTemp home n x hd {}).1 ∧
      SheetsKeep Sheet.cells s (s.setTemp home n x hd {}).1 := by
  obtain ⟨u, bad, still, read⟩ := schedRead_raw s home raw
    (32 + 4 * (min (s.chainAt home n).pend.sweep.toNat (hd.nsched - 1) * hd.nrung + min (s.chainAt home n).pend.rung.toNat (hd.nrung - 1))) 4
  unfold State.setTemp
  dsimp only
  rw [read]
  exact ⟨.before still.toChainsStill (modPend_change u home n _), still.cells.trans (cells_unchained.modPend _ _ _ _)⟩

/-! ### Waiting for a schedule -/

/-- A schedule none of whose slices is in a refresh stall is waited for no longer, unless a profile is asked for. -/
theorem auxStalls_plain {home : Nat} {aux : BitVec 16} {x : Tensor} (h : s.tensorAt home aux = some x) (free : s.tensorStalls x = false) :
    s.auxStalls home aux false = false := by
  unfold State.auxStalls
  rw [h]
  dsimp only
  rw [free, Bool.false_and]
  rfl

/-! ### Faults of a hub -/

/-- A fault of a hub is one message on its sheet's path to its collector. -/
theorem hubFault_raises (s : State) (h : SheetId) (k : BitVec 12) (a : Nat) (hk : k.toNat / 0x100 ≠ 6) :
    Raises h.val k (BitVec.ofNat 64 a) s (s.hubFault h.val k a) := by
  obtain ⟨level, sheet⟩ : srcLevel (sheetSource h.val 2) = 4 ∧ srcSheet (sheetSource h.val 2) = h.val :=
    sourceId_level (by decide) h.isLt (by decide) (by decide)
  obtain ⟨m, t, counts, sheets, kind, address⟩ := sendFault_wire s
    { source := sheetSource h.val 2, kind := k, ctx := s.curCtx h.val, op := 0x0E, address := BitVec.ofNat 64 a } level.le hk
  refine ⟨m, ?_, kind, address⟩
  have sent := counts.sheetWire h.val
  have same : t.sheet h.val = s.sheet h.val := by simp only [State.sheet, sheets]
  rw [sheet, sheet_modSheet_same, same] at sent
  unfold State.hubFault State.sheetFault
  dsimp only
  split
  · rw [State.sheet, noteStepFault_sheets]
    exact sent
  · exact sent

theorem hubResidue_none (s : State) (home slot : Nat) (draws : Bool) : s.hubResidue home slot draws {} = s := rfl

/-- A walk over indices below a bound, seen from one index: the steps of the others do not show, its own shows once. -/
theorem forEach_range_of {γ : Type} (view : State → γ) (f : State → Nat → State) (Inv : State → Prop) (R : γ → γ → Prop) {n c : Nat} (hc : c < n)
    (inv : ∀ t k, k < n → Inv t → Inv (f t k)) (there : ∀ t k, k < n → Inv t → k ≠ c → view (f t k) = view t)
    (here : ∀ t, Inv t → R (view t) (view (f t c))) {s : State} (start : Inv s) : R (view s) (view (s.forEach (List.range n) f)) := by
  have same : s.forEach (List.range n) f = s.forEach (List.range n) fun t k => if k < n then f t k else t :=
    List.foldl_ext _ _ _ fun t k hk => (if_pos (List.mem_range.1 hk)).symm
  rw [same]
  refine forEach_visited view _ Inv c R (fun t k ht => ?_) (fun t k ht ne => ?_) (fun t ht => ?_) _ s List.nodup_range start (List.mem_range.2 hc)
  · split
    · next hk => exact inv t k hk ht
    · exact ht
  · split
    · next hk => exact there t k hk ht ne.symm
    · rfl
  · rw [if_pos hc]
    exact here t ht

/-- What every step of such a walk keeps holds at its end. -/
theorem forEach_range_inv (f : State → Nat → State) (Inv : State → Prop) {n : Nat} (inv : ∀ t k, k < n → Inv t → Inv (f t k)) {s : State}
    (start : Inv s) : Inv (s.forEach (List.range n) f) :=
  List.foldlRecOn _ f start fun _ ht _ hk => inv _ _ (List.mem_range.1 hk) ht

end Sys2Proof.Machine
end

section
/-! SUPPORT. Running sums and hub groups (06 R202, R211), and CPL_ENERGY. -/

namespace Sys2Proof.Machine

variable {s t : State} {e : EngId} {o : EnergyOp}

/-! ### A table over the chains of a word -/

section
variable {α : Type} (d : α) (slot : Nat)

theorem tget_mods [DecidableEq α] (f : Nat → α → α) (T : Table α) (k n : Nat) : tget d ((List.range n).foldl (fun t c => tmod d t (slot + c) (f c)) T) k =
    if slot ≤ k ∧ k < slot + n then f (k - slot) (tget d T k) else tget d T k := by
  induction n with
  | zero => rw [if_neg (by omega)]; rfl
  | succ n ih =>
    rw [List.range_succ, List.foldl_append, List.foldl_cons, List.foldl_nil, tget_tmod]
    by_cases h : k = slot + n
    · subst h
      rw [if_pos rfl, if_pos (by omega), ih, if_neg (by omega), Nat.add_sub_cancel_left]
    · rw [if_neg h, ih]
      exact if_congr (by omega) rfl rfl

theorem tget_mods_at [DecidableEq α] (f : Nat → α → α) (T : Table α) {c n : Nat} (hc : c < n) :
    tget d ((List.range n).foldl (fun t c => tmod d t (slot + c) (f c)) T) (slot + c) = f c (tget d T (slot + c)) := by
  rw [tget_mods, if_pos (by omega), Nat.add_sub_cancel_left]

theorem tget_dels_at (T : Table α) {c n : Nat} (hc : c < n) :
    tget d ((List.range n).foldl (fun t c => tdel t (slot + c)) T) (slot + c) = d := by
  induction n with
  | zero => cases hc
  | succ n ih =>
    rw [List.range_succ, List.foldl_append, List.foldl_cons, List.foldl_nil, tget_tdel]
    split
    · rfl
    · next h => exact ih (by omega)

end

/-! ### Groups of a hub -/

theorem energyGroup_spec {x : Sheet} {slot : Nat} {g : HubGroup} (h : x.energyGroup slot = some g) : g.slot = slot ∧ g.exch = [] := by
  have both := List.find?_some h
  simp only [Bool.and_eq_true, beq_iff_eq, List.isEmpty_iff] at both
  exact both

theorem find?_filter_not {α : Type} (p : α → Bool) (l : List α) : (l.filter fun x => !p x).find? p = none :=
  List.find?_eq_none.2 fun _ hx => Bool.eq_false_iff.1 (Bool.not_eq_true' _ ▸ (List.mem_filter.1 hx).2)

/-- One element of a kind in place of all others of it is the one that is found. -/
theorem find?_replaced {α : Type} {p : α → Bool} (l : List α) {a : α} (h : p a = true) :
    ((l.filter fun x => !p x) ++ [a]).find? p = some a := by
  rw [List.find?_append, find?_filter_not, Option.none_or, List.find?_cons_of_pos h]

theorem energyGroup_drop (x : Sheet) (slot : Nat) : (x.dropEnergy slot).energyGroup slot = none := find?_filter_not _ _
theorem exchGroup_drop (x : Sheet) (slot : Nat) : (x.dropExch slot).exchGroup slot = none := find?_filter_not _ _

/-- Put a slot's energy group in place of the one it had. -/
def State.putEnergy (s : State) (home slot : Nat) (g : HubGroup) : State :=
  s.modSheet home fun h => { h.dropEnergy slot with groups := (h.dropEnergy slot).groups ++ [g] }

theorem putEnergy_group (s : State) (home : Nat) {slot : Nat} {g : HubGroup} (hs : g.slot = slot) (hx : g.exch = []) :
    ((s.putEnergy home slot g).sheet home).energyGroup slot = some g := by
  rw [State.putEnergy, sheet_modSheet_same]
  exact find?_replaced _ (by rw [hs, hx, beq_self_eq_true]; rfl)

theorem putEnergy_cells (s : State) (home slot : Nat) (g : HubGroup) : SheetsKeep Sheet.cells s (s.putEnergy home slot g) :=
  .modSheet _ _ fun _ => rfl
theorem putEnergy_engines (s : State) (home slot : Nat) (g : HubGroup) : SheetsKeep Sheet.engines s (s.putEnergy home slot g) :=
  .modSheet _ _ fun _ => rfl

/-! ### The word's contribution -/

def RunSums.plus (r m : RunSums) : RunSums := { xh := r.xh + m.xh, xf := r.xf + m.xf }

/-- Whether the word sends its running sums. -/
def energyFlagged (o : EnergyOp) : Bool := o.init || o.echk || o.fin
/-- Whether the word computes its parcel's contribution (R202). -/
def State.countsEnergy (s : State) (e : EngId) (o : EnergyOp) : Bool :=
  ((s.eng e).td o.src.val).vrows != 0 && (o.echk || !energyFlagged o)
/-- A parcel's contribution to a chain (R202). -/
def State.ownSums (s : State) (e : EngId) (o : EnergyOp) (c : Nat) : RunSums × Bool :=
  if s.countsEnergy e o then chainSums (s.pmem e) ((s.eng e).td o.src.val) o.radr o.hadr c else ({}, false)

/-- The running sums of a word's chains after its contribution. -/
def State.addSums (s : State) (e : EngId) (o : EnergyOp) (home : Nat) (own : Nat → RunSums × Bool) (poison : Bool) : State :=
  ((s.forEach (List.range o.nch) fun s c => if (own c).2 then s.raiseChain home (o.slot.val + c) cNAN else s).modEng e fun g =>
    { g with sums := (List.range o.nch).foldl (fun t c => tmod {} t (o.slot.val + c) fun r =>
        { xh := r.xh + (own c).1.xh, xf := r.xf + (own c).1.xf }) g.sums }).poisonChains home o.slot.val o.nch poison

theorem addSums_shows (s : State) (e : EngId) (o : EnergyOp) (home : Nat) (own : Nat → RunSums × Bool) (poison : Bool) :
    let u := s.addSums e o home own poison
    SheetsKeep Sheet.cells s u ∧ SheetsKeep Sheet.groups s u ∧ ∀ c, c < o.nch → tget {} (u.eng e).sums (o.slot.val + c) =
      (tget {} (s.eng e).sums (o.slot.val + c)).plus (own c).1 := by
  have raised {β : Type} {π : Sheet → β} (hπ : Unchained π) : SheetsKeep π s
      (s.forEach (List.range o.nch) fun s c => if (own c).2 then s.raiseChain home (o.slot.val + c) cNAN else s) :=
    .forEach _ _ fun t c => by
      split
      · exact hπ.raiseChain _ _ _ _
      · exact .refl
  refine ⟨((raised cells_unchained).trans (cells_modEng _ _ _)).trans (cells_unchained.poisonChains _ _ _ _ _),
    ((raised groups_unchained).trans (.modEng e _ fun _ _ => rfl)).trans (groups_unchained.poisonChains _ _ _ _ _), fun c hc => ?_⟩
  rw [State.addSums, eng_of_engines (engines_unchained.poisonChains _ _ _ _ _), eng_modEng_same, eng_of_engines (raised engines_unchained)]
  exact tget_mods_at ({} : RunSums) o.slot.val (fun c r => { xh := r.xh + (own c).1.xh, xf := r.xf + (own c).1.xf }) _ hc

/-- The group that a flagged word joins: the slot's open one, or a new one. -/
def State.joinedGroup (s : State) (o : EnergyOp) (home : Nat) : HubGroup :=
  ((s.sheet home).energyGroup o.slot.val).getD
    { slot := o.slot.val, nch := o.nch, aux := o.aux, init := o.init, echk := o.echk, fin := o.fin, prof := o.prof, arrived := []
      sums := [], combined := false, exch := [], par := false, draw := 0, poison := false }

theorem joinedGroup_place (s : State) (o : EnergyOp) (home : Nat) : (s.joinedGroup o home).slot = o.slot.val ∧ (s.joinedGroup o home).exch = [] := by
  unfold State.joinedGroup
  cases h : (s.sheet home).energyGroup o.slot.val with
  | none => exact ⟨rfl, rfl⟩
  | some g => exact energyGroup_spec h

/-- The group with a parcel's running sums added and its word noted. -/
def HubGroup.joined (g : HubGroup) (e : EngId) (o : EnergyOp) (mine : Table RunSums) (poison : Bool) : HubGroup :=
  { g with
    arrived := g.arrived ++ [e]
    sums := (List.range o.nch).foldl (fun t c =>
      tmod {} t (o.slot.val + c) fun r => { xh := r.xh + (tget ({} : RunSums) mine (o.slot.val + c)).xh,
                                            xf := r.xf + (tget ({} : RunSums) mine (o.slot.val + c)).xf }) g.sums
    poison := g.poison || poison }

/-- A word's running sums sent to its slot's group, and cleared (R202). -/
def State.sendSums (s : State) (e : EngId) (o : EnergyOp) (home : Nat) (g : HubGroup) (poison : Bool) : State :=
  (s.modEng e fun x => { x with sums := (List.range o.nch).foldl (fun t c => tdel t (o.slot.val + c)) x.sums }).putEnergy home o.slot.val
    (g.joined e o (s.eng e).sums poison)

/-- Whether a group was opened with other fields than a word has, or has the word already. -/
def HubGroup.refuses (g : HubGroup) (e : EngId) (o : EnergyOp) : Bool :=
  g.nch != o.nch || g.aux != o.aux || g.init != o.init || g.echk != o.echk || g.fin != o.fin || g.prof != o.prof || g.arrived.contains e

section
variable (bound : s.slotsOk e o.slot.val o.nch = true)
  (fit : ((s.eng e).td o.src.val).vrows ≠ 0 → fieldTileOk ((s.eng e).td o.src.val) o.nch = true)
  (inside : s.countsEnergy e o = true → inStore o.radr (64 * o.nch) = true ∧ inStore o.hadr 1024 = true)
  (checked : o.init = true → o.echk = true)
include bound fit inside checked

theorem doEnergy_adds : ∃ poison, s.doEnergy e o {} =
    let u := s.addSums e o (s.homeOf e.sheet.val o.slot.val) (s.ownSums e o) poison
    let g := u.joinedGroup o (s.homeOf e.sheet.val o.slot.val)
    if !energyFlagged o then u
    else if g.refuses e o then u.wordBroken e o.pc (opEngine 7 6)
    else u.sendSums e o (s.homeOf e.sheet.val o.slot.val) g poison := by
  have sound : (!s.slotsOk e o.slot.val o.nch || (((s.eng e).td o.src.val).vrows != 0 && !fieldTileOk ((s.eng e).td o.src.val) o.nch) ||
      (o.init && !o.echk)) = false := by
    have tile : (((s.eng e).td o.src.val).vrows != 0 && !fieldTileOk ((s.eng e).td o.src.val) o.nch) = false := by
      by_cases h : ((s.eng e).td o.src.val).vrows = 0
      · rw [h]; rfl
      · rw [fit h, Bool.not_true, Bool.and_false]
    have flags : (o.init && !o.echk) = false := by
      cases h : o.init
      · rfl
      · rw [checked h]; rfl
    rw [bound, tile, flags]
    rfl
  have within : (s.countsEnergy e o && (!inStore o.radr (64 * o.nch) || !inStore o.hadr 1024)) = false := by
    cases h : s.countsEnergy e o
    · rfl
    · rw [(inside h).1, (inside h).2]; rfl
  unfold State.countsEnergy energyFlagged at within
  unfold State.doEnergy
  dsimp only
  rw [sound, if_neg Bool.false_ne_true, within, if_neg Bool.false_ne_true, sramRead_none]
  exact ⟨_, rfl⟩

end

end Sys2Proof.Machine
end

section
/-! O36: CPL_ENERGY and HUB_ENERGY_COMBINE (06 R202, R203, R211). -/

namespace Sys2Proof.Machine

variable {s t : State}

/-! ### What CPL_ENERGY finds where it starts -/

section
variable {e : EngId} (x : Popped e s t) (o : EnergyOp)
include x

theorem Popped.countsEnergy : t.countsEnergy e o = s.countsEnergy e o := by simp only [State.countsEnergy, x.still.td]
theorem Popped.ownSums : t.ownSums e o = s.ownSums e o := by
  funext c
  simp only [State.ownSums, x.countsEnergy, x.only.pmem, x.still.td]

end

theorem tget_joined (g : HubGroup) (e : EngId) (o : EnergyOp) (mine : Table RunSums) (poison : Bool) {c : Nat} (hc : c < o.nch) :
    tget {} (g.joined e o mine poison).sums (o.slot.val + c) =
      (tget {} g.sums (o.slot.val + c)).plus (tget {} mine (o.slot.val + c)) :=
  tget_mods_at ({} : RunSums) o.slot.val (fun c r => r.plus (tget ({} : RunSums) mine (o.slot.val + c))) _ hc

theorem sendSums_shows (s : State) (e : EngId) (o : EnergyOp) (home : Nat) {g : HubGroup} (hs : g.slot = o.slot.val) (hx : g.exch = [])
    (poison : Bool) : let u := s.sendSums e o home g poison
    SheetsKeep Sheet.cells s u ∧ (∀ c, c < o.nch → tget ({} : RunSums) (u.eng e).sums (o.slot.val + c) = {}) ∧
      (u.sheet home).energyGroup o.slot.val = some (g.joined e o (s.eng e).sums poison) := by
  refine ⟨(cells_modEng _ _ _).trans (putEnergy_cells _ _ _ _), fun c hc => ?_, putEnergy_group _ _ hs hx⟩
  rw [State.sendSums, eng_of_engines (putEnergy_engines _ _ _ _), eng_modEng_same]
  exact tget_dels_at _ _ _ hc

/-! ### HUB_ENERGY_COMBINE -/

/-- A combined group is kept for the end of the sweep, or leaves the hub. -/
def State.keepGroup (s : State) (home slot : Nat) (g : HubGroup) : State :=
  s.modSheet home fun h =>
    if g.fin then { h with groups := h.groups.map fun x => if x.slot == slot && x.exch.isEmpty then { x with combined := true } else x }
    else h.dropEnergy slot

theorem keepGroup_keeps {β : Type} {π : Sheet → β} (hπ : ∀ x l, π { x with groups := l } = π x) (s : State) (home slot : Nat) (g : HubGroup) :
    SheetsKeep π s (s.keepGroup home slot g) := .modSheet _ _ fun x => by split <;> exact hπ _ _

/-- A chain as INIT starts it (R203). -/
def ChainRegs.started (r : ChainRegs) (hd : SchedHeader) (c : Nat) (en : Int) : ChainRegs :=
  { r with
    eexp := hd.eexp, sweep := 0, rung := BitVec.ofNat 8 c, energy := BitVec.ofInt 64 en, best := BitVec.ofInt 64 en
    gust := 0, stall := 0, phead := 0, cflags := 0, conflict := 0, runAccept := 0, runRedec := 0 }

/-- INIT at one chain. -/
def State.startChain (s : State) (home slot : Nat) (x : Tensor) (hd : SchedHeader) (en : Nat → Int) (bad : Bool) (c : Nat) : State :=
  let y := (s.modPend home (slot + c) fun r => r.started hd c (en c)).setTemp home (slot + c) x hd {}
  y.1.poisonChains home (slot + c) 1 (bad || y.2)

theorem startChain_change (s : State) (home slot : Nat) {x : Tensor} (raw : x.isSealed = false) (hd : SchedHeader) (en : Nat → Int)
    (bad : Bool) (c : Nat) :
    PendChange home (slot + c) (fun r => (r.started hd c (en c)).heated (s.tempAt home x hd (r.started hd c (en c)))) s
        (s.startChain home slot x hd en bad c) ∧ SheetsKeep Sheet.cells s (s.startChain home slot x hd en bad c) := by
  have started := modPend_change s home (slot + c) fun r => r.started hd c (en c)
  have bytes : SheetsKeep Sheet.cells s (s.modPend home (slot + c) fun r => r.started hd c (en c)) := cells_unchained.modPend _ _ _ _
  obtain ⟨heats, cells⟩ := setTemp_change (s.modPend home (slot + c) fun r => r.started hd c (en c)) home (slot + c) raw hd
  rw [started.here, tempAt_of_dram (cells_sameMemories bytes).1] at heats
  have marked : HubStill _ (s.startChain home slot x hd en bad c) := .poisonChains _ home (slot + c) 1
    (bad || ((s.modPend home (slot + c) fun r => r.started hd c (en c)).setTemp home (slot + c) x hd {}).2)
  exact ⟨((started.comp heats).after marked.toChainsStill).as rfl, (bytes.trans cells).trans marked.cells⟩

section
variable {home slot : Nat} {g : HubGroup} (hg : (s.sheet home).energyGroup slot = some g) (fresh : g.combined = false)
include hg fresh

theorem doCombine_waits (waits : s.groupFull home slot g.arrived = false) : s.doCombine home slot {} = s := by
  unfold State.doCombine
  rw [hg]
  dsimp only
  rw [fresh, waits]
  rfl

section
variable (full : s.groupFull home slot g.arrived = true)
include full

theorem doCombine_checks (init : g.init = false) (echk : g.echk = true) :
    let s' := s.poisonChains home slot g.nch g.poison
    s.doCombine home slot {} = (match (List.range g.nch).find? fun c =>
        recomputed (tget {} g.sums (slot + c)) != (s'.chainAt home (slot + c)).pend.energy.toInt with
      | some c => s'.hubFault home 0x231 (slot + c)
      | none => s').keepGroup home slot g := by
  unfold State.doCombine
  rw [hg]
  dsimp only
  rw [fresh, full, init, echk]
  rfl

theorem doCombine_starts (init : g.init = true) {x : Tensor} {hd : SchedHeader} (hx : s.tensorAt home g.aux = some x)
    (raw : x.isSealed = false) (free : s.tensorStalls x = false) (parsed : parseSched (s.rawBytes x home 0 32) = some hd) :
    ∃ u bad, HubStill s u ∧ s.doCombine home slot {} = (u.forEach (List.range g.nch) fun s c =>
      s.startChain home slot x hd (fun c => recomputed (tget {} g.sums (slot + c))) bad c).keepGroup home slot g := by
  have poisoned : HubStill s (s.poisonChains home slot g.nch g.poison) := .poisonChains _ _ _ _ _
  obtain ⟨u, bad, still, read⟩ := schedRead_raw (s.poisonChains home slot g.nch g.poison) home raw 0 32
  rw [rawBytes_of_dram (cells_sameMemories poisoned.cells).1] at read
  refine ⟨u, bad, poisoned.trans still, ?_⟩
  unfold State.doCombine
  rw [hg]
  dsimp only
  rw [fresh, full, init, auxStalls_plain hx free, hubResidue_none, poisoned.course.tensorAt, hx]
  dsimp only
  rw [read]
  dsimp only
  rw [parsed]
  rfl

end

end

/-- INIT starts every chain of a group from its recomputed energy, at its own rung (R203). -/
theorem startChains_shows (s : State) (home slot nch : Nat) {x : Tensor} (raw : x.isSealed = false) (hd : SchedHeader) (en : Nat → Int)
    (bad : Bool) : let u := s.forEach (List.range nch) fun s c => s.startChain home slot x hd en bad c
    SheetsKeep Sheet.cells s u ∧ ∀ c, c < nch → let q := (s.chainAt home (slot + c)).pend.started hd c (en c)
      (u.chainAt home (slot + c)).pend = q.heated (s.tempAt home x hd q) := by
  have each (t : State) (c : Nat) := startChain_change t home slot raw hd en bad c
  refine ⟨.forEach _ _ fun t c => (each t c).2, fun c hc => ?_⟩
  refine forEach_range_of (fun t => (t.chainAt home (slot + c)).pend) (fun s c => s.startChain home slot x hd en bad c) (SheetsKeep Sheet.cells s)
    (fun a b => b = (a.started hd c (en c)).heated (s.tempAt home x hd (a.started hd c (en c)))) hc (fun t k _ ht => ht.trans (each t k).2)
    (fun t k _ _ ne => (each t k).1.there fun same => ne (Nat.add_left_cancel same).symm) (fun t ht => ?_) .refl
  rw [(each t c).1.here, tempAt_of_dram (cells_sameMemories ht).1]

/-- The temperature at which INIT starts a chain: the first entry of its rung. -/
theorem tempAt_started (s : State) (home : Nat) (x : Tensor) (hd : SchedHeader) (r : ChainRegs) {c : Nat} (small : c < 128) (en : Int) :
    s.tempAt home x hd (r.started hd c en) = tempOf (leNat (s.rawBytes x home (32 + 4 * min c (hd.nrung - 1)) 4)) 0 := by
  have rung : (BitVec.ofNat 8 c).toNat = c := by rw [BitVec.toNat_ofNat, Nat.mod_eq_of_lt (by omega)]
  have place : min (0 : Word).toNat (hd.nsched - 1) * hd.nrung + min (BitVec.ofNat 8 c).toNat (hd.nrung - 1) = min c (hd.nrung - 1) := by
    rw [rung, show (0 : Word).toNat = 0 from rfl, Nat.zero_min, zero_mul, zero_add]
  exact congrArg (fun i => tempOf (leNat (s.rawBytes x home (32 + 4 * i) 4)) 0) place

/-! ### CPL_ENERGY where it starts -/

/-- A chain's running sums with its parcel's contribution (R202). -/
def State.grownSums (s : State) (e : EngId) (o : EnergyOp) (c : Nat) : RunSums :=
  (tget {} (s.eng e).sums (o.slot.val + c)).plus (s.ownSums e o c).1

section
variable {e : EngId} {o : EnergyOp} (hs : s.starts e (.energy o) = true) (bound : s.slotsOk e o.slot.val o.nch = true)
  (fit : ((s.eng e).td o.src.val).vrows ≠ 0 → fieldTileOk ((s.eng e).td o.src.val) o.nch = true)
  (inside : s.countsEnergy e o = true → inStore o.radr (64 * o.nch) = true ∧ inStore o.hadr 1024 = true)
  (checked : o.init = true → o.echk = true)
include bound fit inside checked

theorem Popped.addsEnergy (x : Popped e s t) : ∃ poison, t.doEnergy e o {} =
    let u := t.addSums e o (s.homeOf e.sheet.val o.slot.val) (s.ownSums e o) poison
    let g := u.joinedGroup o (s.homeOf e.sheet.val o.slot.val)
    if !energyFlagged o then u
    else if g.refuses e o then u.wordBroken e o.pc (opEngine 7 6)
    else u.sendSums e o (s.homeOf e.sheet.val o.slot.val) g poison := by
  have run := doEnergy_adds (s := t) (e := e) (o := o) (by rw [x.only.slotsOk]; exact bound) (by rw [x.still.td]; exact fit)
    (by rw [x.countsEnergy]; exact inside) checked
  rwa [x.only.homeOf, x.ownSums] at run

include hs

/-- An unflagged word adds to its parcel's running sums. -/
theorem energy_grows (plain : energyFlagged o = false) : Leads (.cplEnergy e o {}) s fun u => SameMemories s u ∧
    ∀ c, c < o.nch → tget {} (u.eng e).sums (o.slot.val + c) = s.grownSums e o c := by
  refine leads_starts_own sums_unqueued hs rfl fun t x same => ?_
  obtain ⟨poison, run⟩ := x.addsEnergy bound fit inside checked
  dsimp only at run
  rw [plain] at run
  rw [run]
  obtain ⟨cells, -, sums⟩ := addSums_shows t e o (s.homeOf e.sheet.val o.slot.val) (s.ownSums e o) poison
  refine ⟨cells_sameMemories (x.still.cells.trans cells), fun c hc => (sums c hc).trans ?_⟩
  rw [same]
  rfl

/-- A flagged word moves its parcel's running sums into the group that it joins. -/
theorem energy_joins (flagged : energyFlagged o = true) (accepted : (s.joinedGroup o (s.homeOf e.sheet.val o.slot.val)).refuses e o = false) :
    let home := s.homeOf e.sheet.val o.slot.val
    Leads (.cplEnergy e o {}) s fun u => SameMemories s u ∧
      (∀ c, c < o.nch → tget ({} : RunSums) (u.eng e).sums (o.slot.val + c) = {}) ∧
      ∃ mine poison, (u.sheet home).energyGroup o.slot.val = some ((s.joinedGroup o home).joined e o mine poison) ∧
        ∀ c, c < o.nch → tget {} mine (o.slot.val + c) = s.grownSums e o c := by
  intro home
  refine leads_starts_own sums_unqueued hs rfl fun t x same => ?_
  obtain ⟨poison, run⟩ := x.addsEnergy bound fit inside checked
  dsimp only at run
  obtain ⟨cells, groups, sums⟩ := addSums_shows t e o home (s.ownSums e o) poison
  have joined : (t.addSums e o home (s.ownSums e o) poison).joinedGroup o home = s.joinedGroup o home := by
    simp only [State.joinedGroup, Sheet.energyGroup, groups home, x.only.groups]
  rw [flagged, joined, accepted] at run
  rw [run]
  obtain ⟨place, plain⟩ := joinedGroup_place s o home
  obtain ⟨cells', cleared, group⟩ := sendSums_shows (t.addSums e o home (s.ownSums e o) poison) e o home place plain poison
  refine ⟨cells_sameMemories ((x.still.cells.trans cells).trans cells'), cleared, _, poison, group, fun c hc => (sums c hc).trans ?_⟩
  rw [same]
  rfl

end

end Sys2Proof.Machine

open Sys2Proof Sys2Proof.Machine

/-- Settles O36: sums grow chain by chain and travel whole to the hub, whose combine compares them, or starts its chains from them. -/
theorem energiesReachTheHub : Obligations.EnergiesReachTheHub := by
  refine ⟨?_, ?_⟩
  · intro e o s hs _ src home flagged counts own old grown bound fit inside checked
    have grows (c : Nat) : s.grownSums e o c = grown c := by
      have same : s.countsEnergy e o = counts := rfl
      simp only [grown, old, own, State.grownSums, State.ownSums, same]
      split <;> rfl
    refine ⟨fun plain => ?_, fun flag => ?_⟩
    · obtain ⟨u, run, mem, sums⟩ := energy_grows hs bound fit inside checked plain
      exact ⟨u, run, mem, fun c hc => (sums c hc).trans (grows c)⟩
    · intro sent
      refine ⟨fun none => ?_, fun g hg nch aux init echk fin prof new => ?_⟩
      · have opened : s.joinedGroup o home = _ := congrArg (fun x : Option HubGroup => x.getD _) none
        obtain ⟨u, run, mem, cleared, mine, poison, group, sums⟩ := energy_joins hs bound fit inside checked flag
          (by rw [opened]; simp [HubGroup.refuses])
        refine ⟨u, run, mem, cleared, _, group, ?_⟩
        rw [opened]
        refine ⟨rfl, rfl, rfl, rfl, rfl, rfl, rfl, fun c hc => (tget_joined _ _ _ _ _ hc).trans ?_⟩
        rw [sums c hc, grows]
        rfl
      · have opened : s.joinedGroup o home = g := congrArg (fun x : Option HubGroup => x.getD _) hg
        obtain ⟨u, run, mem, cleared, mine, poison, group, sums⟩ := energy_joins hs bound fit inside checked flag
          (by rw [opened]; simp [HubGroup.refuses, nch, aux, init, echk, fin, prof, new])
        refine ⟨u, run, mem, cleared, _, group, ?_⟩
        rw [opened]
        refine ⟨rfl, nch, aux, init, echk, fin, prof, fun c hc => (tget_joined _ _ _ _ _ hc).trans ?_⟩
        rw [sums c hc, grows]
        rfl
  · intro h n s g hg fresh en full
    have kept {β : Type} {π : Sheet → β} (hπ : ∀ x l, π { x with groups := l } = π x) (t : State) := keepGroup_keeps hπ t h.val n.val g
    refine ⟨fun waits => congrArg Host.Outcome.next (doCombine_waits hg fresh waits), fun full init echk => ?_,
      fun x hd full init hx raw free parsed => ?_⟩
    · intro r
      have poisoned : HubStill s (s.poisonChains h.val n.val g.nch g.poison) := .poisonChains _ _ _ _ _
      have wire : SheetsKeep Sheet.wire s (s.poisonChains h.val n.val g.nch g.poison) :=
        Unchained.poisonChains (π := Sheet.wire) (fun _ _ => rfl) s h.val n.val g.nch g.poison
      have run := doCombine_checks hg fresh full init echk
      simp only [poisoned.pend] at run
      refine ⟨fun same => leads_of (congrArg Host.Outcome.next run) ?_, fun c hc ne below => leads_of (congrArg Host.Outcome.next run) ?_⟩
      · have none : ((List.range g.nch).find? fun c => en c != r c) = none :=
          List.find?_eq_none.2 fun c hc => by simpa using same c (List.mem_range.1 hc)
        rw [none]
        exact ⟨cells_sameMemories (poisoned.cells.trans (kept (fun _ _ => rfl) _)),
          (kept (π := Sheet.wire) (fun _ _ => rfl) _ h.val).trans (wire h.val)⟩
      · have lowest : ((List.range g.nch).find? fun c => en c != r c) = some c :=
          List.find?_range_eq_some.2 ⟨bne_iff_ne.2 ne, List.mem_range.2 hc, fun d hd => by simpa using below d hd⟩
        rw [lowest]
        obtain ⟨m, sent, kind, address⟩ := hubFault_raises (s.poisonChains h.val n.val g.nch g.poison) h 0x231 (n.val + c) (by decide)
        refine ⟨cells_sameMemories ((poisoned.cells.trans (sheetFault_reports _ _ _ _ _ _).still.cells).trans (kept (fun _ _ => rfl) _)),
          m, ?_, kind, address⟩
        rw [← wire h.val, ← sent]
        exact kept (π := Sheet.wire) (fun _ _ => rfl) _ h.val
    · obtain ⟨u, bad, still, run⟩ := doCombine_starts hg fresh full init hx raw free parsed
      obtain ⟨cells, chains⟩ := startChains_shows u h.val n.val g.nch raw hd en bad
      refine leads_of (congrArg Host.Outcome.next run)
        ⟨cells_sameMemories ((still.cells.trans cells).trans (kept (fun _ _ => rfl) _)), fun c hc small => ?_⟩
      intro r
      have final : r = _ := (pend_of_chainRegs (kept (fun _ _ => rfl) _) _ _).trans (chains c hc)
      have rung : (BitVec.ofNat 8 c).toNat = c := by rw [BitVec.toNat_ofNat, Nat.mod_eq_of_lt (by omega)]
      rw [final, tempAt_started _ _ _ _ _ small, rawBytes_of_dram (cells_sameMemories still.cells).1]
      exact ⟨rfl, rfl, rung, rfl, rfl, rfl, rfl, rfl, rfl, rfl, rfl⟩
end

section
/-! SUPPORT. The end of a chain's sweep (06 R203, R209). -/

namespace Sys2Proof.Machine

variable {s t u : State}

/-! ### Registers -/

/-- Whether a chain's sweep found a new best energy. -/
def ChainRegs.improved (r : ChainRegs) : Bool := decide (r.energy.toInt < r.best.toInt)

/-- A chain's registers at the end of a sweep, its temperature apart (R203). -/
def ChainRegs.swept (r : ChainRegs) (hd : SchedHeader) (better : Bool) : ChainRegs :=
  let r := { r with accept := r.runAccept, redec := r.runRedec, runAccept := 0, runRedec := 0 }
  let r :=
    if better then { r with best := r.energy, gust := 0, stall := 0, cflags := r.cflags ||| cNEWBEST }
    else
      let r := { r with cflags := r.cflags &&& ~~~cNEWBEST }
      if hd.stallmax = 0 then { r with stall := satInc r.stall }
      else if hd.stallmax ≤ r.stall.toNat + 1 then
        { r with gust := BitVec.ofNat 32 (min (r.gust.toNat + hd.gstep) hd.gcap), stall := 0 }
      else { r with stall := r.stall + 1 }
  { r with sweep := r.sweep + 1 }

/-- Whether a chain's gust rises. -/
def ChainRegs.rises (r : ChainRegs) (hd : SchedHeader) (better : Bool) : Bool :=
  !better && hd.stallmax != 0 && decide (hd.stallmax ≤ r.stall.toNat + 1)

theorem satInc_one (v : BitVec 16) : satInc v = BitVec.ofNat 16 (min (v.toNat + 1) 65535) := by
  have isLt := v.isLt
  unfold satInc
  split
  · rw [Nat.min_eq_left (by omega)]
  · rw [Nat.min_eq_right (by omega)]
    rfl

/-- The same registers, one after another. -/
theorem swept_eq (r : ChainRegs) (hd : SchedHeader) (better : Bool) : r.swept hd better =
    { r with
      sweep := r.sweep + 1, best := if better then r.energy else r.best
      gust := if better then 0 else if r.rises hd better then BitVec.ofNat 32 (min (r.gust.toNat + hd.gstep) hd.gcap) else r.gust
      stall := BitVec.ofNat 16 (if better || r.rises hd better then 0
        else if hd.stallmax = 0 then min (r.stall.toNat + 1) 65535 else r.stall.toNat + 1)
      accept := r.runAccept, redec := r.runRedec, runAccept := 0, runRedec := 0
      cflags := if better then r.cflags ||| cNEWBEST else r.cflags &&& ~~~cNEWBEST } := by
  unfold ChainRegs.swept ChainRegs.rises
  dsimp only
  cases better with
  | true => rfl
  | false =>
    rw [if_neg Bool.false_ne_true]
    by_cases never : hd.stallmax = 0
    · rw [if_pos never, satInc_one]
      simp only [never, bne_self_eq_false, Bool.and_false, Bool.false_and, Bool.or_self, Bool.false_eq_true, if_false, if_true]
    · rw [if_neg never]
      have stalls : (hd.stallmax != 0) = true := bne_iff_ne.2 never
      by_cases full : hd.stallmax ≤ r.stall.toNat + 1
      · rw [if_pos full, stalls, decide_eq_true full]
        rfl
      · rw [if_neg full, stalls, decide_eq_false full, if_neg never]
        simp only [Bool.not_false, Bool.and_false, Bool.or_self, Bool.false_eq_true, if_false, BitVec.ofNat_add, BitVec.ofNat_toNat,
          BitVec.setWidth_eq]
        rfl

/-- The schedule entry of a step and a rung. -/
def State.schedEntry (s : State) (home : Nat) (x : Tensor) (hd : SchedHeader) (i k : Nat) : Nat :=
  leNat (s.rawBytes x home (32 + 4 * (i * hd.nrung + k)) 4)

/-- The registers of a chain after sweep_end, wherever its ring stands (R203). -/
theorem swept_sweepEnd (s : State) (home : Nat) (x : Tensor) (hd : SchedHeader) (r : ChainRegs) (h : BitVec 21) :
    let q := ({ r with phead := h } : ChainRegs).swept hd r.improved
    { q.heated (s.tempAt home x hd q) with phead := 0 } = { sweepEnd hd (s.schedEntry home x hd) r with phead := 0 } := by
  intro q
  have fields : q = _ := swept_eq _ _ _
  rw [fields]
  rfl

/-! ### The schedule and the ring -/

theorem parseSched_spec {b : List Byte} {hd : SchedHeader} (h : parseSched b = some hd) :
    0 < hd.nsched ∧ 0 < hd.nrung ∧ 0 < hd.plen ∧ hd.plen ≤ 2 ^ 21 := by
  unfold parseSched at h
  dsimp only at h
  split at h
  · cases h
  · next ok =>
    obtain rfl := Option.some.inj h
    dsimp only
    omega

/-- A temperature needs the header's entries alone. -/
theorem tempAt_of_entries {home : Nat} {x : Tensor} {hd : SchedHeader} (steps : 0 < hd.nsched) (rungs : 0 < hd.nrung)
    (same : ∀ m y, m < 32 + 4 * hd.nsched * hd.nrung → x.rawAt home m = some y → t.dramAt y.1 y.2 = s.dramAt y.1 y.2) (r : ChainRegs) :
    t.tempAt home x hd r = s.tempAt home x hd r := by
  have row : min r.sweep.toNat (hd.nsched - 1) * hd.nrung + min r.rung.toNat (hd.nrung - 1) < hd.nsched * hd.nrung := by
    have inside : min r.sweep.toNat (hd.nsched - 1) + 1 ≤ hd.nsched := by omega
    have whole := Nat.mul_le_mul_right hd.nrung inside
    rw [Nat.succ_mul] at whole
    omega
  have bytes : t.rawBytes x home (32 + 4 * (min r.sweep.toNat (hd.nsched - 1) * hd.nrung + min r.rung.toNat (hd.nrung - 1))) 4 =
      s.rawBytes x home (32 + 4 * (min r.sweep.toNat (hd.nsched - 1) * hd.nrung + min r.rung.toNat (hd.nrung - 1))) 4 := by
    unfold State.rawBytes
    refine List.map_congr_left fun k hk => ?_
    have small := List.mem_range.1 hk
    have below : 32 + 4 * (min r.sweep.toNat (hd.nsched - 1) * hd.nrung + min r.rung.toNat (hd.nrung - 1)) + k <
        32 + 4 * hd.nsched * hd.nrung := by rw [mul_assoc]; omega
    cases at_ : x.rawAt home (32 + 4 * (min r.sweep.toNat (hd.nsched - 1) * hd.nrung + min r.rung.toNat (hd.nrung - 1)) + k) with
    | none => rfl
    | some y => exact same _ y below at_
  simp only [State.tempAt, bytes]

theorem profBytes_length (r : ChainRegs) (best : Word) : (profBytes r best).length = 32 := by
  simp only [profBytes, List.length_append, leBytes_length]

theorem ChainsStill.writeRaw (s : State) (i a : Nat) (bytes : List Byte) (p one : Bool) (lo hi : Nat) (op : BitVec 16) :
    ChainsStill s (s.writeRaw i a bytes p one lo hi op) := by
  have noted : ChainsStill s (s.forEach (pagesOf a bytes.length) fun s p => s.noteGranule i (2 * p + 1)) :=
    .forEach _ _ (fun t _ => .noteGranule t _ _) s
  unfold State.writeRaw State.storeRaw
  dsimp only
  refine ((noted.trans (HubStill.lookPages _ _ _ _).toChainsStill).trans (.modMem _ _ _)).trans (.forEach _ _ (fun t g => ?_) _)
  split
  · exact .refl
  · split
    · exact .poisonMem _ _ _
    · split
      · exact .modMem _ _ _
      · exact .refl

/-- An entry written into a raw ring (R209). -/
theorem writeProfile_raw (s : State) (home : Nat) {ring : Tensor} (raw : ring.isSealed = false) {off : Nat} {y : Nat × Nat}
    (at_ : ring.rawAt home off = some y) (v : List Byte) (p : Bool) :
    ChainsStill s (s.writeProfile home ring off v p {}) ∧ PutsDram y.1 y.2 v s (s.writeProfile home ring off v p {}) := by
  unfold State.writeProfile
  rw [raw, if_neg Bool.false_ne_true, at_]
  have upset := HubStill.upset_none s y.1
  exact ⟨upset.toChainsStill.trans (.writeRaw _ _ _ _ _ _ _ _ _), (writeRaw_puts _ _ _ _ _ _ _ _ _).before upset.cells⟩

/-! ### One chain -/

/-- sweep_end of one chain, its profile entry apart. -/
def State.endChain (s : State) (home n : Nat) (x : Tensor) (hd : SchedHeader) (better : Bool) : State :=
  let y := (s.modPend home n fun r => r.swept hd better).setTemp home n x hd {}
  y.1.poisonChains home n 1 y.2

theorem endChain_change (s : State) (home n : Nat) {x : Tensor} (raw : x.isSealed = false) (hd : SchedHeader) (better : Bool) :
    PendChange home n (fun _ => ((s.chainAt home n).pend.swept hd better).heated (s.tempAt home x hd ((s.chainAt home n).pend.swept hd better)))
        s (s.endChain home n x hd better) ∧ SheetsKeep Sheet.cells s (s.endChain home n x hd better) := by
  have swept := modPend_change s home n fun r => r.swept hd better
  have bytes : SheetsKeep Sheet.cells s (s.modPend home n fun r => r.swept hd better) := cells_unchained.modPend _ _ _ _
  obtain ⟨heats, cells⟩ := setTemp_change (s.modPend home n fun r => r.swept hd better) home n raw hd
  rw [swept.here, tempAt_of_dram (cells_sameMemories bytes).1] at heats
  have marked : HubStill _ (s.endChain home n x hd better) := .poisonChains _ home n 1
    ((s.modPend home n fun r => r.swept hd better).setTemp home n x hd {}).2
  exact ⟨((swept.comp heats).after marked.toChainsStill).as rfl, (bytes.trans cells).trans marked.cells⟩

theorem sweepChain_plain (s : State) (home slot c : Nat) (x : Tensor) (hd : SchedHeader) {prof : Bool}
    (none : (prof && hd.profh != 0) = false) : s.sweepChain home slot c x hd prof {} =
      s.endChain home (slot + c) x hd (s.chainAt home (slot + c)).pend.improved := by
  unfold State.sweepChain
  dsimp only
  rw [none]
  rfl

/-- A chain whose profile entry is written, its ring moved on. -/
def State.profileChain (s : State) (home slot c : Nat) (ring : Tensor) (hd : SchedHeader) : State :=
  let r := (s.chainAt home (slot + c)).pend
  (s.writeProfile home ring (32 * (c * hd.plen + r.phead.toNat)) (profBytes r (if r.improved then r.energy else r.best))
    (s.chainAt home (slot + c)).poison {}).modPend home (slot + c)
    fun r => { r with phead := BitVec.ofNat 21 ((r.phead.toNat + 1) % hd.plen) }

theorem sweepChain_profiled (s : State) (home slot c : Nat) (x : Tensor) {ring : Tensor} (hd : SchedHeader) (named : hd.profh ≠ 0)
    (hr : s.tensorAt home hd.profh = some ring) : s.sweepChain home slot c x hd true {} =
      (s.profileChain home slot c ring hd).endChain home (slot + c) x hd (s.chainAt home (slot + c)).pend.improved := by
  unfold State.sweepChain
  dsimp only
  rw [bne_iff_ne.2 named, Bool.and_self, if_pos rfl, hr]
  rfl

/-- A chain's sweep that leaves a profile entry: the entry's bytes and nothing else of DRAM, and the chain's registers. -/
theorem sweepChain_puts (s : State) (home slot c : Nat) {x ring : Tensor} (raw : x.isSealed = false) (plain : ring.isSealed = false)
    (hd : SchedHeader) (named : hd.profh ≠ 0) (hr : s.tensorAt home hd.profh = some ring) {y : Nat × Nat}
    (at_ : ring.rawAt home (32 * (c * hd.plen + (s.chainAt home (slot + c)).pend.phead.toNat)) = some y) :
    let r := (s.chainAt home (slot + c)).pend
    let u := s.sweepChain home slot c x hd true {}
    let q := ({ r with phead := BitVec.ofNat 21 ((r.phead.toNat + 1) % hd.plen) } : ChainRegs).swept hd r.improved
    PendChange home (slot + c) (fun _ => q.heated (u.tempAt home x hd q)) s u ∧
      PutsDram y.1 y.2 (profBytes r (if r.improved then r.energy else r.best)) s u := by
  intro r u q
  obtain ⟨still, puts⟩ := writeProfile_raw s home plain at_ (profBytes r (if r.improved then r.energy else r.best))
    (s.chainAt home (slot + c)).poison
  have moved : PendChange home (slot + c) (fun r => { r with phead := BitVec.ofNat 21 ((r.phead.toNat + 1) % hd.plen) }) s
      (s.profileChain home slot c ring hd) := .before still (modPend_change _ _ _ _)
  have put : PutsDram y.1 y.2 (profBytes r (if r.improved then r.energy else r.best)) s (s.profileChain home slot c ring hd) :=
    puts.after (cells_unchained.modPend _ _ _ _)
  obtain ⟨ends, cells⟩ := endChain_change (s.profileChain home slot c ring hd) home (slot + c) raw hd r.improved
  rw [moved.here, ← tempAt_of_dram (cells_sameMemories cells).1] at ends
  have run : u = (s.profileChain home slot c ring hd).endChain home (slot + c) x hd r.improved := sweepChain_profiled s home slot c x hd named hr
  rw [← run] at ends cells
  exact ⟨moved.comp ends, put.after cells⟩

end Sys2Proof.Machine
end

section
/-! O37: SWEEP_END (06 R203, R209, R211). -/

namespace Sys2Proof.Machine

variable {s t : State}

/-! ### The word -/

section
variable {home slot : Nat} {g : HubGroup} (hg : (s.sheet home).energyGroup slot = some g)
include hg

theorem doSweepEnd_waits (waits : g.fin = false ∨ g.combined = false) : s.doSweepEnd home slot {} = s := by
  unfold State.doSweepEnd
  rw [hg]
  dsimp only
  rcases waits with h | h
  · rw [h]; rfl
  · rw [h, Bool.not_false, Bool.or_true]; rfl

/-- A hub that ends a sweep: its group closed, its schedule read, then every chain. -/
theorem doSweepEnd_ends (fin : g.fin = true) (combined : g.combined = true) {x : Tensor} {hd : SchedHeader}
    (hx : s.tensorAt home g.aux = some x) (raw : x.isSealed = false) (free : s.auxStalls home g.aux g.prof = false)
    (parsed : parseSched (s.rawBytes x home 0 32) = some hd) :
    ∃ u, HubStill (s.modSheet home fun h => h.dropEnergy slot) u ∧
      s.doSweepEnd home slot {} = u.forEach (List.range g.nch) fun s c => s.sweepChain home slot c x hd g.prof {} := by
  have course : SameCourse s (s.modSheet home fun h => h.dropEnergy slot) := .of_parts rfl rfl
  have cells : SheetsKeep Sheet.cells s (s.modSheet home fun h => h.dropEnergy slot) := .modSheet _ _ fun _ => rfl
  obtain ⟨u, bad, still, read⟩ := schedRead_raw (s.modSheet home fun h => h.dropEnergy slot) home raw 0 32
  rw [rawBytes_of_dram (cells_sameMemories cells).1] at read
  refine ⟨u.poisonChains home slot g.nch bad, still.trans (.poisonChains _ _ _ _ _), ?_⟩
  unfold State.doSweepEnd
  rw [hg]
  dsimp only
  rw [fin, combined, free, hubResidue_none, course.tensorAt, hx]
  dsimp only
  rw [read]
  dsimp only
  rw [parsed]
  rfl

end

/-! ### Every chain, without a profile -/

/-- Sweeps that end without a profile: no byte moves, and each chain has the registers of its sweep_end. -/
theorem sweepChains_plain (s : State) (home slot nch : Nat) {x : Tensor} (raw : x.isSealed = false) (hd : SchedHeader) {prof : Bool}
    (none : (prof && hd.profh != 0) = false) :
    let u := s.forEach (List.range nch) fun s c => s.sweepChain home slot c x hd prof {}
    SheetsKeep Sheet.cells s u ∧ SheetsKeep Sheet.groups s u ∧ (∀ k, (u.chainAt home k).reg = (s.chainAt home k).reg) ∧
      ∀ c, c < nch → let r := (s.chainAt home (slot + c)).pend
        (u.chainAt home (slot + c)).pend = (r.swept hd r.improved).heated (s.tempAt home x hd (r.swept hd r.improved)) := by
  have each (t : State) (c : Nat) := endChain_change t home (slot + c) raw hd (t.chainAt home (slot + c)).pend.improved
  simp only [sweepChain_plain _ home slot _ x hd none]
  refine ⟨.forEach _ _ fun t c => (each t c).2, .forEach _ _ fun t c => (each t c).1.groups,
    fun k => forEach_keeps (fun t => (t.chainAt home k).reg) _ (fun t c => (each t c).1.reg home k) _ s, fun c hc => ?_⟩
  refine forEach_range_of (fun t => (t.chainAt home (slot + c)).pend) _ (SheetsKeep Sheet.cells s)
    (fun a b => b = (a.swept hd a.improved).heated (s.tempAt home x hd (a.swept hd a.improved))) hc
    (fun t k _ ht => ht.trans (each t k).2) (fun t k _ _ ne => (each t k).1.there fun same => ne (Nat.add_left_cancel same).symm)
    (fun t ht => ?_) .refl
  rw [(each t c).1.here, tempAt_of_dram (cells_sameMemories ht).1]

/-! ### Every chain, with a profile -/

/-- What a walk over chains that leave profile entries keeps: nothing moves but ring entries and pending registers, and each chain's head
stays in its ring. -/
structure Sweeping (home slot nch plen : Nat) (at_ : Nat → Nat × Nat) (s t : State) : Prop where
  groups : SheetsKeep Sheet.groups s t
  course : SameCourse s t
  reg : ∀ k, (t.chainAt home k).reg = (s.chainAt home k).reg
  stores : SameStores s t
  accs : SameAccs s t
  outside : ∀ i b, (∀ k j, k < nch * plen → j < 32 → (i, b) ≠ ((at_ k).1, (at_ k).2 + j)) → t.dramAt i b = s.dramAt i b
  heads : ∀ c, c < nch → (t.chainAt home (slot + c)).pend.phead.toNat < plen

theorem ring_index {c nch p plen : Nat} (hc : c < nch) (hp : p < plen) : c * plen + p < nch * plen := by
  have whole := Nat.mul_le_mul_right plen (Nat.succ_le_of_lt hc)
  rw [Nat.succ_mul] at whole
  omega

theorem ring_index_inj {c d p q plen : Nat} (hp : p < plen) (hq : q < plen) (h : c * plen + p = d * plen + q) : c = d := by
  have pos : 0 < plen := Nat.zero_lt_of_lt hp
  have block := congrArg (· / plen) h
  simpa only [Nat.mul_comm _ plen, Nat.mul_add_div pos, Nat.div_eq_of_lt hp, Nat.div_eq_of_lt hq, Nat.add_zero] using block

theorem head_toNat {p plen : Nat} (pos : 0 < plen) (le : plen ≤ 2 ^ 21) : (BitVec.ofNat 21 ((p + 1) % plen)).toNat = (p + 1) % plen := by
  have small := Nat.mod_lt (p + 1) pos
  rw [BitVec.toNat_ofNat, Nat.mod_eq_of_lt (by omega)]

/-- The registers of a chain after a sweep whose entry stands in its ring. -/
def State.profiled (s : State) (home : Nat) (x : Tensor) (hd : SchedHeader) (r : ChainRegs) : ChainRegs :=
  let q := ({ r with phead := BitVec.ofNat 21 ((r.phead.toNat + 1) % hd.plen) } : ChainRegs).swept hd r.improved
  q.heated (s.tempAt home x hd q)

theorem profiled_phead (s : State) (home : Nat) (x : Tensor) (hd : SchedHeader) (r : ChainRegs) :
    (s.profiled home x hd r).phead = BitVec.ofNat 21 ((r.phead.toNat + 1) % hd.plen) := by
  rw [State.profiled, swept_eq]
  rfl

/-- The entry that a chain's sweep leaves. -/
def ChainRegs.entry (r : ChainRegs) : List Byte := profBytes r (if r.improved then r.energy else r.best)

section
variable {home slot nch : Nat} {x ring : Tensor} {hd : SchedHeader} {at_ : Nat → Nat × Nat} (raw : x.isSealed = false)
  (plain : ring.isSealed = false) (steps : 0 < hd.nsched) (rungs : 0 < hd.nrung) (pos : 0 < hd.plen) (le : hd.plen ≤ 2 ^ 21)
  (named : hd.profh ≠ 0) (hr : s.tensorAt home hd.profh = some ring)
  (places : ∀ k i, k < nch * hd.plen → i < 32 → ring.rawAt home (32 * k + i) = some ((at_ k).1, (at_ k).2 + i))
  (apart : ∀ k m i, k < nch * hd.plen → m < 32 + 4 * hd.nsched * hd.nrung → i < 32 →
    x.rawAt home m ≠ some ((at_ k).1, (at_ k).2 + i))

include steps rungs apart in
theorem Sweeping.tempAt (h : Sweeping home slot nch hd.plen at_ s t) (r : ChainRegs) : t.tempAt home x hd r = s.tempAt home x hd r :=
  tempAt_of_entries steps rungs (fun m y hm hy => h.outside y.1 y.2 fun k j hk hj e => apart k m j hk hm hj (e ▸ hy)) r

include raw plain named hr places in
theorem Sweeping.puts (h : Sweeping home slot nch hd.plen at_ s t) {c : Nat} (hc : c < nch) :
    let r := (t.chainAt home (slot + c)).pend
    let u := t.sweepChain home slot c x hd true {}
    let y := at_ (c * hd.plen + r.phead.toNat)
    PendChange home (slot + c) (fun _ => u.profiled home x hd r) t u ∧ PutsDram y.1 y.2 r.entry t u :=
  sweepChain_puts t home slot c raw plain hd named ((h.course.tensorAt _ _).trans hr) (places _ 0 (ring_index hc (h.heads c hc)) (by decide))

include raw plain pos le named hr places in
theorem Sweeping.step (h : Sweeping home slot nch hd.plen at_ s t) {c : Nat} (hc : c < nch) :
    Sweeping home slot nch hd.plen at_ s (t.sweepChain home slot c x hd true {}) := by
  obtain ⟨change, puts⟩ := h.puts raw plain named hr places hc
  have index := ring_index hc (h.heads c hc)
  refine ⟨h.groups.trans change.groups, h.course.trans change.course, fun k => (change.reg _ _).trans (h.reg k),
    fun i q b => (puts.stores i q b).trans (h.stores i q b), fun i q b => (puts.accs i q b).trans (h.accs i q b), fun i b out => ?_,
    fun d hd' => ?_⟩
  · rw [puts.takes i b, if_neg, h.outside i b out]
    rintro ⟨rfl, low, high⟩
    rw [ChainRegs.entry, profBytes_length] at high
    refine out _ (b - (at_ (c * hd.plen + (t.chainAt home (slot + c)).pend.phead.toNat)).2) index (by omega) (Prod.ext rfl ?_)
    dsimp only
    omega
  · by_cases own : slot + d = slot + c
    · rw [own, change.here, profiled_phead, head_toNat pos le]
      exact Nat.mod_lt _ pos
    · rw [change.there own]
      exact h.heads d hd'

include raw plain steps rungs pos le named hr places apart

/-- Sweeps that end with a profile: nothing but ring entries moves, and each chain leaves its entry at its head. -/
theorem sweepChains_profiled (heads : ∀ c, c < nch → (s.chainAt home (slot + c)).pend.phead.toNat < hd.plen)
    (disjoint : ∀ k l i j, k < nch * hd.plen → l < nch * hd.plen → i < 32 → j < 32 → (at_ k).1 = (at_ l).1 →
      (at_ k).2 + i = (at_ l).2 + j → k = l) :
    let u := s.forEach (List.range nch) fun s c => s.sweepChain home slot c x hd true {}
    Sweeping home slot nch hd.plen at_ s u ∧ ∀ c, c < nch → let r := (s.chainAt home (slot + c)).pend
      let y := at_ (c * hd.plen + r.phead.toNat)
      (u.chainAt home (slot + c)).pend = s.profiled home x hd r ∧ ∀ i, i < 32 → u.dramAt y.1 (y.2 + i) = r.entry.getD i 0 := by
  have start : Sweeping home slot nch hd.plen at_ s s :=
    ⟨.refl, .refl, fun _ => rfl, fun _ _ _ => rfl, fun _ _ _ => rfl, fun _ _ _ => rfl, heads⟩
  have step (t : State) (k : Nat) (hk : k < nch) (ht : Sweeping home slot nch hd.plen at_ s t) := ht.step raw plain pos le named hr places hk
  refine ⟨forEach_range_inv _ _ step start, fun c hc => ?_⟩
  intro r y
  have walked := forEach_range_of (fun t => ((t.chainAt home (slot + c)).pend, fun i : Fin 32 => t.dramAt y.1 (y.2 + i.val)))
    (fun s c => s.sweepChain home slot c x hd true {}) (Sweeping home slot nch hd.plen at_ s)
    (fun a b => a.1.phead = r.phead → b = (s.profiled home x hd a.1, fun i => a.1.entry.getD i.val 0)) hc step
    (fun t k hk ht ne => ?_) (fun t ht head => ?_) start rfl
  · obtain ⟨pend, bytes⟩ := Prod.mk.inj walked
    exact ⟨pend, fun i hi => congrFun bytes ⟨i, hi⟩⟩
  · obtain ⟨change, puts⟩ := ht.puts raw plain named hr places hk
    refine Prod.ext (change.there fun same => ne (Nat.add_left_cancel same).symm) (funext fun i => ?_)
    have at_k := ring_index hk (ht.heads k hk)
    dsimp only
    rw [puts.takes, if_neg]
    rintro ⟨sheet, low, high⟩
    rw [ChainRegs.entry, profBytes_length] at high
    have start_c : (at_ (c * hd.plen + (s.chainAt home (slot + c)).pend.phead.toNat)).2 = y.2 := rfl
    have same := disjoint _ _ i.val (y.2 + i.val - (at_ (k * hd.plen + (t.chainAt home (slot + k)).pend.phead.toNat)).2)
      (ring_index hc (heads c hc)) at_k i.isLt (by omega) sheet (by omega)
    exact ne (ring_index_inj (ht.heads k hk) (heads c hc) same.symm)
  · obtain ⟨change, puts⟩ := ht.puts raw plain named hr places hc
    refine Prod.ext ?_ (funext fun i => ?_)
    · dsimp only
      rw [change.here, State.profiled, (step t c hc ht).tempAt steps rungs apart]
      rfl
    · have place : at_ (c * hd.plen + (t.chainAt home (slot + c)).pend.phead.toNat) = y := by
        rw [show (t.chainAt home (slot + c)).pend.phead = r.phead from head]
      rw [place] at puts
      have isLt := i.isLt
      dsimp only
      rw [puts.takes, if_pos ⟨rfl, by omega, by rw [ChainRegs.entry, profBytes_length]; omega⟩, Nat.add_sub_cancel_left]

end

end Sys2Proof.Machine

open Sys2Proof Sys2Proof.Machine

/-- Settles O37: each chain's sweep ends on registers that no other chain's touches, and its entry stands in a place of its own. -/
theorem sweepsEnd : Obligations.SweepsEnd := by
  intro h n s g hg r
  refine ⟨fun waits => congrArg Host.Outcome.next (doSweepEnd_waits hg waits), fun x hd fin combined hx raw free parsed => ?_⟩
  intro entry done
  obtain ⟨steps, rungs, pos, le⟩ := parseSched_spec parsed
  obtain ⟨u, still, run⟩ := doSweepEnd_ends hg fin combined hx raw free parsed
  have dropped {β : Type} {π : Sheet → β} (hπ : ∀ y l, π { y with groups := l } = π y) :
      SheetsKeep π s (s.modSheet h.val fun y => y.dropEnergy n.val) := .modSheet _ _ fun y => hπ y _
  have parts : SameCourse s (s.modSheet h.val fun y => y.dropEnergy n.val) := .of_parts rfl rfl
  have course : SameCourse s u := parts.trans still.course
  have cells : SheetsKeep Sheet.cells s u := (dropped fun _ _ => rfl).trans still.cells
  have chains : SheetsKeep Sheet.chainRegs s u := (dropped fun _ _ => rfl).trans still.chains
  obtain ⟨dram, stores, accs⟩ := cells_sameMemories cells
  have closed {v : State} (k : SheetsKeep Sheet.groups u v) : (v.sheet h.val).energyGroup n.val = none := by
    refine Eq.trans (congrArg (List.find? _) ((still.groups.trans k) h.val)) ?_
    rw [sheet_modSheet_same]
    exact energyGroup_drop _ _
  have pend (c : Nat) : (u.chainAt h.val (n.val + c)).pend = r c := pend_of_chainRegs chains _ _
  refine ⟨fun none => ?_, ?_⟩
  · have unprofiled : (g.prof && hd.profh != 0) = false := by
      rcases none with no | no
      · rw [no]; rfl
      · rw [no, bne_self_eq_false, Bool.and_false]
    obtain ⟨kept, groups, regs, swept⟩ := sweepChains_plain u h.val n.val g.nch raw hd unprofiled
    obtain ⟨dram', stores', accs'⟩ := cells_sameMemories (cells.trans kept)
    have final (c : Nat) (hc : c < g.nch) := swept c hc
    simp only [pend, tempAt_of_dram dram] at final
    refine leads_of (congrArg Host.Outcome.next run) ⟨⟨stores', accs', closed groups, fun c hc => ⟨?_, ?_⟩⟩, dram', fun c hc => ?_⟩
    · rw [regs, reg_of_chainRegs chains]
    · rw [final c hc]
      exact swept_sweepEnd s h.val x hd (r c) (r c).phead
    · rw [final c hc, swept_eq]
      rfl
  · intro ring at_ prof named hr plain heads size places disjoint apart
    rw [prof] at run
    obtain ⟨sweeping, each⟩ := sweepChains_profiled (s := u) (home := h.val) (slot := n.val) (nch := g.nch) raw plain steps rungs pos le named
      ((course.tensorAt _ _).trans hr) places apart (fun c hc => by rw [pend]; exact heads c hc) disjoint
    simp only [pend] at each
    refine leads_of (congrArg Host.Outcome.next run) ⟨⟨fun i q b => (sweeping.stores i q b).trans (stores i q b),
      fun i q b => (sweeping.accs i q b).trans (accs i q b), closed sweeping.groups, fun c hc => ⟨?_, ?_⟩⟩,
      fun i b out => (sweeping.outside i b out).trans (dram i b), fun c hc => ⟨?_, (each c hc).2⟩⟩
    · rw [sweeping.reg, reg_of_chainRegs chains]
    · rw [(each c hc).1, State.profiled, tempAt_of_dram dram]
      exact swept_sweepEnd s h.val x hd (r c) _
    · rw [(each c hc).1, profiled_phead, head_toNat pos le]
end

section
/-! O38: CPL_EXCHANGE and HUB_EXCHANGE_DECIDE (06 R205, R208, R211). -/

namespace Sys2Proof.Machine

variable {s t : State}

/-! ### CPL_EXCHANGE -/

/-- The group that a first exchange word opens at its hub. -/
def askedGroup (e : EngId) (o : ExchangeOp) : HubGroup :=
  { slot := o.slot.val, nch := o.nch, aux := o.aux, init := false, echk := false, fin := false, prof := false, arrived := []
    sums := [], combined := false, exch := [e], par := o.par, draw := o.draw, poison := false }

/-- Put a slot's exchange group in place of the one it had. -/
def State.putExch (s : State) (home slot : Nat) (g : HubGroup) : State :=
  s.modSheet home fun h => { h.dropExch slot with groups := (h.dropExch slot).groups ++ [g] }

theorem putExch_cells (s : State) (home slot : Nat) (g : HubGroup) : SheetsKeep Sheet.cells s (s.putExch home slot g) :=
  .modSheet _ _ fun _ => rfl

theorem putExch_group (s : State) (home : Nat) {slot : Nat} {g : HubGroup} (hs : g.slot = slot) (hx : g.exch.isEmpty = false) :
    ((s.putExch home slot g).sheet home).exchGroup slot = some g := by
  rw [State.putExch, sheet_modSheet_same]
  exact find?_replaced _ (by rw [hs, hx, beq_self_eq_true]; rfl)

theorem doExchange_opens {e : EngId} {o : ExchangeOp} (bound : s.slotsOk e o.slot.val o.nch = true)
    (none : (s.sheet (s.homeOf e.sheet.val o.slot.val)).exchGroup o.slot.val = none) :
    s.doExchange e o {} = (s.putExch (s.homeOf e.sheet.val o.slot.val) o.slot.val (askedGroup e o)).drewSlots e o.slot.val o.nch := by
  unfold State.doExchange
  dsimp only
  rw [bound, none]
  simp only [Option.getD_none, bne_self_eq_false, List.contains_nil, Bool.or_self, Bool.not_true, Bool.false_eq_true, if_false]
  rfl

/-! ### One pair of chains -/

/-- A chain's registers with EXCHANGED clear. -/
def ChainRegs.unswapped (r : ChainRegs) : ChainRegs := { r with cflags := r.cflags &&& ~~~cEXCHANGED }
/-- A chain's registers on another rung, with EXCHANGED set. -/
def ChainRegs.movedTo (r : ChainRegs) (rung : BitVec 8) : ChainRegs := { r with rung := rung, cflags := r.cflags ||| cEXCHANGED }
/-- A chain's registers on another rung, at the temperature that a schedule gives it there. -/
def State.reheated (s : State) (home : Nat) (x : Tensor) (hd : SchedHeader) (r : ChainRegs) (rung : BitVec 8) : ChainRegs :=
  (r.movedTo rung).heated (s.tempAt home x hd (r.movedTo rung))

theorem getLsbD_movedTo (r : ChainRegs) (rung : BitVec 8) : (r.movedTo rung).cflags.getLsbD 0 = true := by
  rw [ChainRegs.movedTo, BitVec.getLsbD_or, show cEXCHANGED.getLsbD 0 = true from rfl, Bool.or_true]

theorem getLsbD_unswapped (r : ChainRegs) : r.unswapped.cflags.getLsbD 0 = false := by
  rw [ChainRegs.unswapped, BitVec.getLsbD_and, show (~~~cEXCHANGED).getLsbD 0 = false from rfl, Bool.and_false]

/-- The two chains of a pair swap rungs. -/
def State.swapPair (s : State) (home slot nch : Nat) (x : Tensor) (hd : SchedHeader) (ca cb : Nat) : State :=
  let ra := (s.chainAt home (slot + ca)).pend
  let rb := (s.chainAt home (slot + cb)).pend
  let s := s.modPend home (slot + ca) fun r => r.movedTo rb.rung
  let s := s.modPend home (slot + cb) fun r => r.movedTo ra.rung
  let a := s.setTemp home (slot + ca) x hd {}
  let b := a.1.setTemp home (slot + cb) x hd {}
  b.1.poisonChains home slot nch (a.2 || b.2)

section
variable {home slot nch : Nat} {x : Tensor} (raw : x.isSealed = false) (hd : SchedHeader)
include raw

/-- What a swap leaves: every byte, the groups, and the chains outside the pair; the pair's chains have changed places. -/
theorem swapPair_shows (s : State) {ca cb : Nat} (ne : ca ≠ cb) :
    let u := s.swapPair home slot nch x hd ca cb
    let r (c : Nat) := (s.chainAt home (slot + c)).pend
    SheetsKeep Sheet.cells s u ∧ SheetsKeep Sheet.groups s u ∧
      (∀ c, c ≠ ca → c ≠ cb → (u.chainAt home (slot + c)).pend = r c) ∧
      (u.chainAt home (slot + ca)).pend = s.reheated home x hd (r ca) (r cb).rung ∧
      (u.chainAt home (slot + cb)).pend = s.reheated home x hd (r cb) (r ca).rung := by
  intro u r
  have apart {c d : Nat} (h : c ≠ d) : slot + c ≠ slot + d := fun e => h (Nat.add_left_cancel e)
  have first := modPend_change s home (slot + ca) fun q => q.movedTo (r cb).rung
  have cells1 : SheetsKeep Sheet.cells s (s.modPend home (slot + ca) fun q => q.movedTo (r cb).rung) := cells_unchained.modPend _ _ _ _
  let v := s.modPend home (slot + ca) fun q => q.movedTo (r cb).rung
  have second := modPend_change v home (slot + cb) fun q => q.movedTo (r ca).rung
  have cells2 : SheetsKeep Sheet.cells s (v.modPend home (slot + cb) fun q => q.movedTo (r ca).rung) :=
    cells1.trans (cells_unchained.modPend _ _ _ _)
  let w := v.modPend home (slot + cb) fun q => q.movedTo (r ca).rung
  obtain ⟨third, more⟩ := setTemp_change w home (slot + ca) raw hd
  have cells3 := cells2.trans more
  obtain ⟨fourth, more⟩ := setTemp_change (w.setTemp home (slot + ca) x hd {}).1 home (slot + cb) raw hd
  have cells4 := cells3.trans more
  have marked : HubStill ((w.setTemp home (slot + ca) x hd {}).1.setTemp home (slot + cb) x hd {}).1 u := .poisonChains _ _ _ _ _
  have ofA : (w.chainAt home (slot + ca)).pend = (r ca).movedTo (r cb).rung := by rw [second.there (apart ne), first.here]
  have ofB : (w.chainAt home (slot + cb)).pend = (r cb).movedTo (r ca).rung := by rw [second.here, first.there (apart ne.symm)]
  refine ⟨cells4.trans marked.cells, (((first.groups.trans second.groups).trans third.groups).trans fourth.groups).trans marked.groups,
    fun c hca hcb => ?_, ?_, ?_⟩
  · rw [marked.pend, fourth.there (apart hcb), third.there (apart hca), second.there (apart hcb), first.there (apart hca)]
  · rw [marked.pend, fourth.there (apart ne), third.here, ofA, tempAt_of_dram (cells_sameMemories cells2).1]
    rfl
  · rw [marked.pend, fourth.here, third.there (apart ne.symm), ofB, tempAt_of_dram (cells_sameMemories cells3).1]
    rfl

end

/-! ### All pairs of one parity -/

/-- The chain on a rung. -/
def State.rungChain (s : State) (home slot nch r : Nat) : Option Nat :=
  (((List.range nch).map fun c => ((s.chainAt home (slot + c)).pend.rung.toNat, c)).find? fun x => x.1 == r).map Prod.snd

theorem rungChain_some {home slot nch r c : Nat} (h : s.rungChain home slot nch r = some c) :
    c < nch ∧ (s.chainAt home (slot + c)).pend.rung.toNat = r := by
  obtain ⟨⟨k, d⟩, found, rfl⟩ := Option.map_eq_some_iff.1 h
  have same := List.find?_some found
  obtain ⟨i, hi, e⟩ := List.mem_map.1 (List.mem_of_find?_eq_some found)
  obtain ⟨rfl, rfl⟩ := Prod.mk.inj e
  exact ⟨List.mem_range.1 hi, beq_iff_eq.1 same⟩

/-- Where the chains of a slot are on different rungs, a chain is the one on its rung. -/
theorem rungChain_of {home slot nch c : Nat} (hc : c < nch)
    (distinct : ∀ c d, c < nch → d < nch → (s.chainAt home (slot + c)).pend.rung = (s.chainAt home (slot + d)).pend.rung → c = d) :
    s.rungChain home slot nch (s.chainAt home (slot + c)).pend.rung.toNat = some c := by
  cases found : s.rungChain home slot nch (s.chainAt home (slot + c)).pend.rung.toNat with
  | none =>
    have none := List.find?_eq_none.1 (Option.map_eq_none_iff.1 found) ((s.chainAt home (slot + c)).pend.rung.toNat, c)
      (List.mem_map.2 ⟨c, List.mem_range.2 hc, rfl⟩)
    exact absurd (beq_self_eq_true _) none
  | some d =>
    obtain ⟨hd, same⟩ := rungChain_some found
    rw [distinct d c hd hc (BitVec.eq_of_toNat_eq same)]

/-- The decision of one pair of rungs. -/
def State.decidePair (s : State) (home slot nch : Nat) (x : Tensor) (hd : SchedHeader) (b2 : Bool) (u : Nat → Nat) (off : Nat)
    (on : Nat → Option Nat) (j : Nat) : State :=
  match on (2 * j + off), on (2 * j + off + 1) with
  | some ca, some cb =>
    if exchSwaps (s.chainAt home (slot + ca)).pend (s.chainAt home (slot + cb)).pend b2 (u (2 * j + off)) then
      s.swapPair home slot nch x hd ca cb
    else s
  | _, _ => s

/-- A hub ready to decide: EXCHANGED clear in every chain, the group closed. -/
def State.readyToSwap (s : State) (home slot nch : Nat) : State :=
  s.forEach (List.range nch) fun s c => s.modPend home (slot + c) fun r => r.unswapped

theorem readyToSwap_keeps {β : Type} {π : Sheet → β} (hπ : Unchained π) (s : State) (home slot nch : Nat) :
    SheetsKeep π s (s.readyToSwap home slot nch) := .forEach _ _ fun t _ => hπ.modPend t _ _ _

theorem readyToSwap_pend (s : State) (home slot : Nat) {nch c : Nat} (hc : c < nch) :
    ((s.readyToSwap home slot nch).chainAt home (slot + c)).pend = (s.chainAt home (slot + c)).pend.unswapped := by
  refine forEach_chains (fun t k => (t.chainAt home k).pend) _ (fun _ r => r.unswapped) slot (fun t c k ne => ?_) (fun t c => ?_) s hc
  · rw [pend_modPend, if_neg fun x => ne (Nat.add_left_cancel x.2)]
  · rw [pend_modPend, if_pos ⟨rfl, rfl⟩]

section
variable {home slot nch : Nat} {x : Tensor} (raw : x.isSealed = false) (hd : SchedHeader) (b2 : Bool) (u : Nat → Nat) (off : Nat)
  {on : Nat → Option Nat} (apart : ∀ r r' c, on r = some c → on r' = some c → r = r')
include raw apart

theorem decidePair_shows (s : State) (j : Nat) :
    SheetsKeep Sheet.cells s (s.decidePair home slot nch x hd b2 u off on j) ∧
      SheetsKeep Sheet.groups s (s.decidePair home slot nch x hd b2 u off on j) ∧
      ∀ c, (∀ a b, on (2 * j + off) = some a → on (2 * j + off + 1) = some b → c ≠ a ∧ c ≠ b) →
        ((s.decidePair home slot nch x hd b2 u off on j).chainAt home (slot + c)).pend = (s.chainAt home (slot + c)).pend := by
  unfold State.decidePair
  cases ha : on (2 * j + off) with
  | none => exact ⟨.refl, .refl, fun _ _ => rfl⟩
  | some ca =>
    cases hb : on (2 * j + off + 1) with
    | none => exact ⟨.refl, .refl, fun _ _ => rfl⟩
    | some cb =>
      dsimp only
      split
      · have ne : ca ≠ cb := fun e => Nat.succ_ne_self _ (apart _ _ _ hb (ha.trans (congrArg some e)))
        obtain ⟨cells, groups, others, -, -⟩ := swapPair_shows (nch := nch) (home := home) (slot := slot) raw hd s ne
        exact ⟨cells, groups, fun c free => others c (free ca cb rfl rfl).1 (free ca cb rfl rfl).2⟩
      · exact ⟨.refl, .refl, fun _ _ => rfl⟩

/-- All pairs, each decided once: the bytes stay, and a chain in no pair keeps its registers. -/
theorem decidePairs_shows (s : State) (js : List Nat) :
    SheetsKeep Sheet.cells s (s.forEach js (State.decidePair · home slot nch x hd b2 u off on)) ∧
      SheetsKeep Sheet.groups s (s.forEach js (State.decidePair · home slot nch x hd b2 u off on)) ∧
      ∀ c, (∀ j ∈ js, ∀ a b, on (2 * j + off) = some a → on (2 * j + off + 1) = some b → c ≠ a ∧ c ≠ b) →
        ((s.forEach js (State.decidePair · home slot nch x hd b2 u off on)).chainAt home (slot + c)).pend =
          (s.chainAt home (slot + c)).pend := by
  refine ⟨.forEach _ _ fun t j => (decidePair_shows raw hd b2 u off apart t j).1,
    .forEach _ _ fun t j => (decidePair_shows raw hd b2 u off apart t j).2.1, fun c free => ?_⟩
  induction js generalizing s with
  | nil => rfl
  | cons j js ih =>
    exact (ih _ fun i hi => free i (List.mem_cons_of_mem _ hi)).trans
      ((decidePair_shows raw hd b2 u off apart s j).2.2 c (free j List.mem_cons_self))

/-- A pair among those decided: its rule is asked of the registers that its chains had before any pair was decided. -/
theorem decidePairs_pair (s : State) {js : List Nat} (nodup : js.Nodup) {j a b : Nat} (hj : j ∈ js) (ha : on (2 * j + off) = some a)
    (hb : on (2 * j + off + 1) = some b) :
    let v := s.forEach js (State.decidePair · home slot nch x hd b2 u off on)
    let r (c : Nat) := (s.chainAt home (slot + c)).pend
    ((v.chainAt home (slot + a)).pend, (v.chainAt home (slot + b)).pend) =
      if exchSwaps (r a) (r b) b2 (u (2 * j + off)) then (s.reheated home x hd (r a) (r b).rung, s.reheated home x hd (r b) (r a).rung)
      else (r a, r b) := by
  refine forEach_visited (fun t : State => ((t.chainAt home (slot + a)).pend, (t.chainAt home (slot + b)).pend)) _
    (SheetsKeep Sheet.cells s) j (fun x' y => y = if exchSwaps x'.1 x'.2 b2 (u (2 * j + off)) then
      (s.reheated home x hd x'.1 x'.2.rung, s.reheated home x hd x'.2 x'.1.rung) else x') (fun t i ht => ?_) (fun t i ht ne => ?_)
    (fun t ht => ?_) js s nodup .refl hj
  · exact ht.trans (decidePair_shows raw hd b2 u off apart t i).1
  · obtain ⟨-, -, others⟩ := decidePair_shows (home := home) (slot := slot) (nch := nch) raw hd b2 u off apart t i
    have free {c : Nat} (hc : c = a ∨ c = b) (a' b' : Nat) (ha' : on (2 * i + off) = some a') (hb' : on (2 * i + off + 1) = some b') :
        c ≠ a' ∧ c ≠ b' := by
      constructor
      all_goals
        rintro rfl
        rcases hc with rfl | rfl
      · exact ne (by have := apart _ _ _ ha' ha; omega)
      · exact absurd (apart _ _ _ ha' hb) (by omega)
      · exact absurd (apart _ _ _ hb' ha) (by omega)
      · exact ne (by have := apart _ _ _ hb' hb; omega)
    exact Prod.ext (others a (free (.inl rfl))) (others b (free (.inr rfl)))
  · have ne : a ≠ b := fun e => Nat.succ_ne_self _ (apart _ _ _ hb (ha.trans (congrArg some e)))
    have step : t.decidePair home slot nch x hd b2 u off on j =
        if exchSwaps (t.chainAt home (slot + a)).pend (t.chainAt home (slot + b)).pend b2 (u (2 * j + off)) then
          t.swapPair home slot nch x hd a b else t := by
      unfold State.decidePair
      rw [ha, hb]
    dsimp only
    rw [step]
    obtain ⟨-, -, -, hereA, hereB⟩ := swapPair_shows (nch := nch) (home := home) (slot := slot) raw hd t ne
    split
    · rw [hereA, hereB]
      simp only [State.reheated, tempAt_of_dram (cells_sameMemories ht).1]
    · rfl

end

end Sys2Proof.Machine
end

section
/-! O38: the decision of a hub, and the statement (06 R205, R211). -/

namespace Sys2Proof.Machine

variable {s : State} {home slot : Nat} {g : HubGroup}

/-- The pairs of a group's parity. -/
def HubGroup.pairs (g : HubGroup) : List Nat := (List.range g.nch).filter fun j => decide (2 * j + 1 + b2n g.par < g.nch)

/-- The pairs of a group, decided one after another. -/
def State.decideAll (s : State) (home slot : Nat) (g : HubGroup) (x : Tensor) (hd : SchedHeader) (b2 : Bool) (u : Nat → Nat) : State :=
  s.forEach g.pairs (State.decidePair · home slot g.nch x hd b2 u (b2n g.par) (s.rungChain home slot g.nch))

theorem doExchDecide_waits (hg : (s.sheet home).exchGroup slot = some g)
    (waits : s.groupFull home slot g.exch = false ∨ (s.sheet home).energyGroup slot ≠ none) : s.doExchDecide home slot {} = s := by
  unfold State.doExchDecide
  rw [hg]
  dsimp only
  rcases waits with h | h
  · rw [h]; rfl
  · rw [Option.isSome_iff_ne_none.2 h, Bool.or_true]; rfl

/-- A hub that decides: its group closed, its schedule read, EXCHANGED clear in its chains, then every pair. -/
theorem doExchDecide_decides (hg : (s.sheet home).exchGroup slot = some g) (full : s.groupFull home slot g.exch = true)
    (closed : (s.sheet home).energyGroup slot = none) {x : Tensor} {hd : SchedHeader} {k : Nat × Nat}
    (hx : s.tensorAt home g.aux = some x)
    (hk : s.streamOn home { purpose := 7, slot := ((s.sheet home).slot slot).pend.gslot, tensor := ((s.sheet home).slot slot).pend.tensor } = some k)
    (raw : x.isSealed = false) (free : s.tensorStalls x = false) (parsed : parseSched (s.rawBytes x home 0 32) = some hd) :
    ∃ u, HubStill (s.modSheet home fun h => h.dropExch slot) u ∧ s.doExchDecide home slot {} =
      (u.readyToSwap home slot g.nch).decideAll home slot g x hd ((s.sheet home).slot slot).pend.base2
        fun a => uniform32 k ((s.sheet home).slot slot).pend.step.toNat a g.draw := by
  have course : SameCourse s (s.modSheet home fun h => h.dropExch slot) := .of_parts rfl rfl
  have cells : SheetsKeep Sheet.cells s (s.modSheet home fun h => h.dropExch slot) := .modSheet _ _ fun _ => rfl
  have slots : ((s.modSheet home fun h => h.dropExch slot).sheet home).slot slot = (s.sheet home).slot slot := by
    rw [sheet_modSheet_same]; rfl
  have stream (i : StreamId) : (s.modSheet home fun h => h.dropExch slot).streamOn home i = s.streamOn home i := by
    rw [State.streamOn, sheet_modSheet_same]; rfl
  obtain ⟨u, bad, still, read⟩ := schedRead_raw (s.modSheet home fun h => h.dropExch slot) home raw 0 32
  rw [rawBytes_of_dram (cells_sameMemories cells).1] at read
  refine ⟨u.poisonChains home slot g.nch bad, still.trans (.poisonChains _ _ _ _ _), ?_⟩
  unfold State.doExchDecide
  rw [hg]
  dsimp only
  rw [full, closed, auxStalls_plain hx free, hubResidue_none, course.tensorAt, hx, slots, stream, hk]
  dsimp only
  rw [read]
  dsimp only
  rw [parsed]
  rfl

/-! ### What the pairs leave -/

/-- Chains a and b are the j-th pair of a group's parity, on registers `r`. -/
def HubGroup.IsPair (g : HubGroup) (r : Nat → ChainRegs) (j a b : Nat) : Prop :=
  a < g.nch ∧ b < g.nch ∧ 2 * j + 1 + b2n g.par < g.nch ∧ (r a).rung.toNat = 2 * j + b2n g.par ∧ (r b).rung.toNat = 2 * j + 1 + b2n g.par

section
variable {w : State} {r : Nat → ChainRegs} (before : ∀ c, c < g.nch → (w.chainAt home (slot + c)).pend = (r c).unswapped)
  (distinct : ∀ c d, c < g.nch → d < g.nch → (r c).rung = (r d).rung → c = d)
include before

/-- Two chains found on neighbouring rungs are a pair. -/
theorem isPair_of_rungChain {j a b : Nat} (hj : j ∈ g.pairs) (ha : w.rungChain home slot g.nch (2 * j + b2n g.par) = some a)
    (hb : w.rungChain home slot g.nch (2 * j + b2n g.par + 1) = some b) : g.IsPair r j a b := by
  obtain ⟨inA, low⟩ := rungChain_some ha
  obtain ⟨inB, high⟩ := rungChain_some hb
  rw [before a inA] at low
  rw [before b inB] at high
  have high : (r b).rung.toNat = 2 * j + b2n g.par + 1 := high
  exact ⟨inA, inB, of_decide_eq_true (List.mem_filter.1 hj).2, low, by omega⟩

include distinct

/-- The chains of a pair are found on their rungs. -/
theorem rungChain_of_isPair {j a b : Nat} (hp : g.IsPair r j a b) : j ∈ g.pairs ∧
    w.rungChain home slot g.nch (2 * j + b2n g.par) = some a ∧ w.rungChain home slot g.nch (2 * j + b2n g.par + 1) = some b := by
  obtain ⟨ha, hb, top, low, high⟩ := hp
  have onRung (c : Nat) (hc : c < g.nch) : w.rungChain home slot g.nch (r c).rung.toNat = some c := by
    have found := rungChain_of (s := w) (home := home) (slot := slot) hc fun c d hc hd same => by
      rw [before c hc, before d hd] at same
      exact distinct c d hc hd same
    rwa [before c hc] at found
  refine ⟨List.mem_filter.2 ⟨List.mem_range.2 (by omega), decide_eq_true top⟩, low ▸ onRung a ha, ?_⟩
  rw [show 2 * j + b2n g.par + 1 = (r b).rung.toNat by omega]
  exact onRung b hb

variable {x : Tensor} (raw : x.isSealed = false) (hd : SchedHeader) (b2 : Bool) (u : Nat → Nat)
include raw

/-- A pair of a group, decided on the registers that its chains had before. -/
theorem decideAll_pair {j a b : Nat} (hp : g.IsPair r j a b) : let v := w.decideAll home slot g x hd b2 u
    ((v.chainAt home (slot + a)).pend, (v.chainAt home (slot + b)).pend) =
      if exchSwaps (r a) (r b) b2 (u (2 * j + b2n g.par)) then
        (w.reheated home x hd (r a).unswapped (r b).rung, w.reheated home x hd (r b).unswapped (r a).rung)
      else ((r a).unswapped, (r b).unswapped) := by
  obtain ⟨hj, ha, hb⟩ := rungChain_of_isPair before distinct hp
  have decided := decidePairs_pair (home := home) (slot := slot) (nch := g.nch) raw hd b2 u (b2n g.par)
    (fun _ _ _ ha hb => (rungChain_some ha).2.symm.trans (rungChain_some hb).2) w (List.nodup_range.filter _) hj ha hb
  simp only [before a hp.1, before b hp.2.1] at decided
  exact decided

/-- A chain of no pair that swaps has EXCHANGED clear, and is otherwise as it was. -/
theorem decideAll_stays {c : Nat} (hc : c < g.nch)
    (no : ∀ j a b, g.IsPair r j a b → exchSwaps (r a) (r b) b2 (u (2 * j + b2n g.par)) = true → c ≠ a ∧ c ≠ b) :
    ((w.decideAll home slot g x hd b2 u).chainAt home (slot + c)).pend = (r c).unswapped := by
  by_cases inPair : ∃ j a b, g.IsPair r j a b ∧ (c = a ∨ c = b)
  · obtain ⟨j, a, b, hp, member⟩ := inPair
    have refused : ¬exchSwaps (r a) (r b) b2 (u (2 * j + b2n g.par)) = true := fun hy => by
      obtain ⟨notA, notB⟩ := no j a b hp hy
      exact member.elim notA notB
    obtain ⟨ofA, ofB⟩ := Prod.mk.inj ((decideAll_pair before distinct raw hd b2 u hp).trans (if_neg refused))
    rcases member with rfl | rfl
    · exact ofA
    · exact ofB
  · obtain ⟨-, -, alone⟩ := decidePairs_shows (home := home) (slot := slot) (nch := g.nch) raw hd b2 u (b2n g.par)
      (fun _ _ _ ha hb => (rungChain_some ha).2.symm.trans (rungChain_some hb).2) w g.pairs
    refine (alone c fun j hj a b ha hb => ?_).trans (before c hc)
    have hp := isPair_of_rungChain before hj ha hb
    exact ⟨fun e => inPair ⟨j, a, b, hp, .inl e⟩, fun e => inPair ⟨j, a, b, hp, .inr e⟩⟩

end

end Sys2Proof.Machine

open Sys2Proof Sys2Proof.Machine

/-- Settles O38: a rung names one chain, so each chain is in at most one pair, and a pair is decided once, on untouched registers. -/
theorem rungsExchange : Obligations.RungsExchange := by
  refine ⟨?_, ?_⟩
  · intro e o s hs bound home none
    refine leads_starts hs rfl fun t x => ?_
    have run := doExchange_opens (s := t) (e := e) (o := o) (by rw [x.only.slotsOk]; exact bound)
      (by rw [x.only.homeOf, Sheet.exchGroup, x.only.groups]; exact none)
    rw [x.only.homeOf] at run
    rw [run]
    have drew {β : Type} {π : Sheet → β} (hπ : ∀ y l, π { y with slots := l } = π y) :=
      drewSlots_keeps hπ (t.putExch home o.slot.val (askedGroup e o)) e o.slot.val o.nch
    refine ⟨cells_sameMemories ((x.still.cells.trans (putExch_cells _ _ _ _)).trans (drew fun _ _ => rfl)), askedGroup e o, ?_, rfl, rfl, rfl,
      rfl, rfl⟩
    rw [Sheet.exchGroup, drew (π := Sheet.groups) (fun _ _ => rfl) home]
    exact putExch_group t home rfl rfl
  · intro h n s g hg sl r
    refine ⟨fun waits => congrArg Host.Outcome.next (doExchDecide_waits hg waits), fun x hd k full closed hx hk raw free parsed distinct => ?_⟩
    intro temp pair yes
    obtain ⟨u, still, run⟩ := doExchDecide_decides hg full closed hx hk raw free parsed
    let w := u.readyToSwap h.val n.val g.nch
    have dropped {β : Type} {π : Sheet → β} (hπ : ∀ y l, π { y with groups := l } = π y) :
        SheetsKeep π s (s.modSheet h.val fun y => y.dropExch n.val) := .modSheet _ _ fun y => hπ y _
    have cells : SheetsKeep Sheet.cells s w := ((dropped fun _ _ => rfl).trans still.cells).trans (readyToSwap_keeps cells_unchained _ _ _ _)
    have before (c : Nat) (hc : c < g.nch) : (w.chainAt h.val (n.val + c)).pend = (r c).unswapped := by
      rw [readyToSwap_pend _ _ _ hc, still.pend, pend_of_chainRegs (dropped fun _ _ => rfl)]
    obtain ⟨kept, groups, -⟩ := decidePairs_shows (home := h.val) (slot := n.val) (nch := g.nch) raw hd sl.base2
      (fun a => uniform32 k sl.step.toNat a g.draw) (b2n g.par) (fun _ _ _ ha hb => (rungChain_some ha).2.symm.trans (rungChain_some hb).2)
      w g.pairs
    refine leads_of (congrArg Host.Outcome.next run) ⟨cells_sameMemories (cells.trans kept), ?_, ?_⟩
    · have same := ((still.groups.trans (readyToSwap_keeps groups_unchained _ _ _ _)).trans groups) h.val
      refine Eq.trans (congrArg (List.find? _) same) ?_
      rw [sheet_modSheet_same]
      exact exchGroup_drop _ _
    · intro v
      have swaps (j a b : Nat) (hp : pair j a b) (hy : yes j a b = true) :
          v a = s.reheated h.val x hd (r a).unswapped (r b).rung ∧ v b = s.reheated h.val x hd (r b).unswapped (r a).rung := by
        have both := (decideAll_pair before distinct raw hd sl.base2 (fun a => uniform32 k sl.step.toNat a g.draw) hp).trans (if_pos hy)
        simp only [State.reheated, tempAt_of_dram (cells_sameMemories cells).1] at both
        exact Prod.mk.inj both
      have stays (c : Nat) (hc : c < g.nch) (no : ∀ j a b, pair j a b → yes j a b = true → c ≠ a ∧ c ≠ b) : v c = (r c).unswapped :=
        decideAll_stays before distinct raw hd sl.base2 (fun a => uniform32 k sl.step.toNat a g.draw) hc no
      refine ⟨fun c hc => ?_, fun j a b hp hy => ?_, fun c hc no => ?_⟩
      · by_cases swapped : ∃ j a b, pair j a b ∧ yes j a b = true ∧ (c = a ∨ c = b)
        · obtain ⟨j, a, b, hp, hy, rfl | rfl⟩ := swapped
          · rw [(swaps j c b hp hy).1]
            exact ⟨rfl, rfl, rfl⟩
          · rw [(swaps j a c hp hy).2]
            exact ⟨rfl, rfl, rfl⟩
        · rw [stays c hc fun j a b hp hy => ⟨fun e => swapped ⟨j, a, b, hp, hy, .inl e⟩, fun e => swapped ⟨j, a, b, hp, hy, .inr e⟩⟩]
          exact ⟨rfl, rfl, rfl⟩
      · obtain ⟨ofA, ofB⟩ := swaps j a b hp hy
        rw [ofA, ofB]
        exact ⟨rfl, rfl, rfl, rfl, getLsbD_movedTo (r a).unswapped (r b).rung, getLsbD_movedTo (r b).unswapped (r a).rung⟩
      · rw [stays c hc no]
        exact ⟨rfl, rfl, rfl, getLsbD_unswapped _⟩
end

section
/-! O39: where the report of a core's fault goes when the core's parcel is none of the sheet's (07 R228, R229; 13 R367). -/

namespace Sys2Proof.Machine

/-- Core 0 of parcel 0 of sheet 0. -/
def farId : CoreId := ⟨⟨0, 0⟩, 0⟩

/-- A core that runs in a parcel whose entry of the map names physical parcel 32. SOURCE has five bits for the parcel (13 R367): the
sixth lies in the field of the sheet. -/
def farCore : State :=
  { State.reset with sheets := [(0, { pmap := [32], engines := [(0, { cores := [(0, { inReset := false, machine := true })] })] })] }

theorem farCore_ready : farCore.coreReady farId := ⟨by decide, by decide, .inr ⟨by decide, by decide⟩⟩

/-- A read of OUT1 with nothing outstanding faults, and its report goes to the collector that SOURCE names: that of sheet 1. -/
theorem farCore_reports_elsewhere :
    let u := farCore.rowLoad { core := farId } 0x2001020 8 8 {}
    (u.sheet 0).wire = [] ∧ (u.sheet 1).wire.map (·.kind) = [0x242] := by decide +kernel

end Sys2Proof.Machine

open Sys2Proof Sys2Proof.Machine

/-- Refutes O39: its last clause on OUT1 lacks the premise, which O40 has, that the core's parcel is one of the 18 of a sheet. -/
theorem not_scribePortsAnswer : ¬ Obligations.ScribePortsAnswer := by
  intro h
  obtain ⟨-, -, -, -, -, -, out1⟩ := (h farId farCore).2.1 farCore_ready
  obtain ⟨u, run, -, ⟨m, gains, -, -⟩, -⟩ := (out1 (by decide)).2.2 (by decide) (by decide)
  have read : farCore.rowLoad { core := farId } 0x2001020 8 8 {} = u := Host.Outcome.next.inj run
  have none : (u.sheet 0).wire = [] := read ▸ farCore_reports_elsewhere.1
  exact List.append_ne_nil_of_right_ne_nil _ (List.cons_ne_nil m []) (gains.symm.trans none)
end

section
/-! SUPPORT. A change of one scribe core, and what else reads as before (07 R217, R222; 17 R453). -/

namespace Sys2Proof.Machine

variable {s t u : State} {c : CoreId} {k k' : Scribe}

/-! ### A change of one core -/

theorem modCore_becomes (s : State) (c : CoreId) (f : Scribe → Scribe) : CoreBecomes c (f (s.core c)) s (s.modCore c f) := by
  refine ⟨rfl, fun j hj => congrArg Sheet.uncounted (sheet_modSheet_ne s _ hj), ?_, fun g hg => eng_modEng_ne s _ hg, ?_, fun i => ?_⟩
  · rw [State.modCore, State.modEng, sheet_modSheet_same]
    rfl
  · rw [State.modCore, eng_modEng_same]
  · rw [State.modCore, eng_modEng_same]
    exact tget_tmod _ _ _ _ _

/-- Counting changes no core. -/
theorem Counts.coreBecomes (h : Counts s t) (c : CoreId) : CoreBecomes c (s.core c) s t := by
  have sheets (j : Nat) : (t.sheet j).uncounted = (s.sheet j).uncounted := by
    obtain ⟨b, pb, e⟩ := h.sheet j
    rw [e]
    rfl
  refine ⟨?_, fun j _ => sheets j, congrArg (fun x : Sheet => { x with engines := [] }) (sheets _), fun g _ => h.engine g, ?_, fun i => ?_⟩
  · obtain ⟨o, mp, sh, b, pb, rfl⟩ := h.whole
    rfl
  · rw [h.engine]
  · rw [h.engine]
    split
    · next e => rw [e]; rfl
    · rfl

theorem CoreBecomes.trans (h : CoreBecomes c k s t) (g : CoreBecomes c k' t u) : CoreBecomes c k' s u := by
  obtain ⟨whole, others, here, engines, engine, cores⟩ := h
  obtain ⟨whole', others', here', engines', engine', cores'⟩ := g
  refine ⟨whole'.trans whole, fun j hj => (others' j hj).trans (others j hj), here'.trans here, engines.trans engines',
    engine'.trans engine, fun i => ?_⟩
  rw [cores' i]
  split
  · rfl
  · next e => rw [cores i, if_neg e]

theorem CoreBecomes.core (h : CoreBecomes c k s u) : u.core c = k := by
  obtain ⟨-, -, -, -, -, cores⟩ := h
  exact (cores c.core.val).trans (if_pos rfl)

/-- A core that changes once more. -/
theorem CoreBecomes.modCore (h : CoreBecomes c k s t) (f : Scribe → Scribe) : CoreBecomes c (f k) s (t.modCore c f) :=
  h.trans (h.core ▸ modCore_becomes t c f)

theorem CoreBecomes.counts (h : CoreBecomes c k s t) (g : Counts t u) : CoreBecomes c k s u := h.trans (h.core ▸ g.coreBecomes c)

/-! ### What the rest shows -/

section
variable (h : CoreBecomes c k s u)
include h

/-- A projection that sees neither engines nor counters reads as before. -/
theorem CoreBecomes.keeps {β : Type} (π : Sheet → β) (hπ : ∀ x : Sheet, π { x.uncounted with engines := [] } = π x) : SheetsKeep π s u := by
  obtain ⟨-, others, here, -, -, -⟩ := h
  intro i
  rw [← hπ, ← hπ (s.sheet i)]
  by_cases e : i = c.eng.sheet.val
  · rw [e, here]
  · rw [others i e]

theorem CoreBecomes.outer {β : Type} (π : State → β) (hπ : ∀ x : State, π x.uncounted = π x) : π u = π s := by
  obtain ⟨whole, -, -, -, -, -⟩ := h
  rw [← hπ, whole, hπ]

theorem CoreBecomes.cells : SheetsKeep Sheet.cells s u := h.keeps Sheet.cells fun _ => rfl
theorem CoreBecomes.wire : SheetsKeep Sheet.wire s u := h.keeps Sheet.wire fun _ => rfl
theorem CoreBecomes.mem : SheetsKeep Sheet.mem s u := h.keeps Sheet.mem fun _ => rfl
theorem CoreBecomes.phys (i l : Nat) : (u.sheet i).phys l = (s.sheet i).phys l := cells_phys h.cells i l

theorem CoreBecomes.tensorAt (i : Nat) (n : BitVec 16) : u.tensorAt i n = s.tensorAt i n :=
  (SameCourse.of_parts (h.outer State.parts fun _ => rfl) (h.outer State.ctxs fun _ => rfl)).tensorAt i n

theorem CoreBecomes.stalls (i a n : Nat) : u.stalls i a n = s.stalls i a n := by simp only [State.stalls, h.mem i]

theorem CoreBecomes.rangePoison (x : Tensor) (i a n : Nat) : u.rangePoison x i a n = s.rangePoison x i a n := by
  simp only [State.rangePoison, h.mem i]

end

/-- Where an access through a window lies depends on the core's windows and the plan alone. -/
theorem CoreBecomes.windowAddr (h : CoreBecomes c (s.core c) s u) (w a n : Nat) : u.windowAddr c w a n = s.windowAddr c w a n := by
  simp only [State.windowAddr, h.core, h.tensorAt]

theorem CoreBecomes.coreLive (h : CoreBecomes c (s.core c) s u) : u.coreLive c = s.coreLive c := by
  simp only [State.coreLive, h.core, h.phys]

/-! ### A core that is ready -/

/-- Nothing wakes or interrupts a core that waits for nothing and has no interrupt to take (R222). -/
theorem Scribe.poll_quiet {now : Nat} (awake : k.wfi = false) (quiet : k.quiet now) : k.poll now = k := by
  have stays : k.mip now &&& k.csr 0x304 = 0 ∨ (k.machine && !bit (k.csr 0x300) 3) = true := by
    simpa only [Scribe.quiet, Bool.and_eq_true, Bool.not_eq_true'] using quiet
  simp only [Scribe.poll, awake, Bool.false_and, Bool.false_eq_true, if_false, if_pos stays]

/-- `t` is `s` once core `c` has met its interrupts and taken none. -/
structure Polled (c : CoreId) (s t : State) : Prop where
  same : CoreBecomes c (s.core c) s t
  out : t.out = s.out

theorem pollCore_polled (awake : (s.core c).wfi = false) (quiet : (s.core c).quiet s.now) : Polled c s (s.pollCore c) := by
  refine ⟨?_, rfl⟩
  have met := modCore_becomes s c fun k => k.poll s.now
  rwa [Scribe.poll_quiet awake quiet] at met

/-- A ready core comes to its access. -/
theorem runCode_ready (ready : s.coreReady c) (d : Disturb) : s.runCode c d [] = (s.pollCore c, true) := by
  obtain ⟨live, awake, quiet⟩ := ready
  have same := (pollCore_polled awake quiet).same
  have runs : (s.pollCore c).coreRuns c = true := by rw [State.coreRuns, same.coreLive, same.core, live, awake]; rfl
  simp only [State.runCode, live, runs, Bool.not_true, Bool.false_eq_true, if_false]

/-- A core that does not run comes to no access. -/
theorem runCode_dead (dead : s.coreLive c = false) (d : Disturb) : s.runCode c d [] = (s, false) := by
  simp only [State.runCode, dead, Bool.not_false, if_true]

theorem runCode_cons {i : CoreInstr} {r : List CoreInstr} {d : Disturb} (goes : (s.coreInstr c i d).2 = true) :
    s.runCode c d (i :: r) = (s.coreInstr c i d).1.runCode c {} r := by
  simp only [State.runCode, goes, if_true]

section
variable {i : Instr} {P : State → Prop} (ready : s.coreReady c)
include ready

theorem leads_ready {g : State × Bool → State} (run : exec i s = .next (g (s.runCode c {} []))) (hp : ∀ t, Polled c s t → P (g (t, true))) :
    Leads i s P :=
  leads_of (run.trans (congrArg (Host.Outcome.next ∘ g) (runCode_ready ready {}))) (hp _ (pollCore_polled ready.2.1 ready.2.2))

theorem leads_rowLoad {a n ew : Nat} {d : Disturb} (run : exec i s = .next (s.rowLoad { core := c } a n ew d))
    (hp : ∀ t, Polled c s t → P (t.endAccess c true a (t.coreLoad c a n ew d))) : Leads i s P :=
  leads_ready ready (g := fun x => if x.2 then x.1.endAccess c true a (x.1.coreLoad c a n ew d) else x.1) run hp

theorem leads_rowStore {a ew : Nat} {b : List Byte} {d : Disturb} (run : exec i s = .next (s.rowStore { core := c } a ew b d))
    (hp : ∀ t, Polled c s t → P (t.endAccess c false a (t.coreStore c a ew b d))) : Leads i s P :=
  leads_ready ready (g := fun x => if x.2 then x.1.endAccess c false a (x.1.coreStore c a ew b d) else x.1) run hp

theorem leads_rowPorts {l : List (Nat × Nat)} (run : exec i s = .next (s.rowPorts { core := c } l))
    (hp : ∀ t, Polled c s t → P (t.storePorts c l)) : Leads i s P :=
  leads_ready ready (g := fun x => if x.2 then x.1.storePorts c l else x.1) run hp

end

/-! ### Rows that carry code -/

/-- A row whose core runs the code that it carries, then makes an access; one that does not run makes none. -/
def RunsCode (row : CoreWork → Instr) : Prop :=
  ∃ g : CoreId → State × Bool → State, (∀ w s, exec (row w) s = .next (g w.core (s.runCode w.core w.d w.code))) ∧
    ∀ c s, s.coreLive c = false → g c (s, false) = s

theorem runsCode_ports {row : CoreWork → Instr} (l : List (Nat × Nat)) (run : ∀ w s, exec (row w) s = .next (s.rowPorts w l)) : RunsCode row :=
  ⟨fun c x => if x.2 then x.1.storePorts c l else x.1, run, fun _ _ _ => rfl⟩

theorem runsCode_load {row : CoreWork → Instr} (a n ew : Nat) (d : Disturb) (run : ∀ w s, exec (row w) s = .next (s.rowLoad w a n ew d)) :
    RunsCode row :=
  ⟨fun c x => if x.2 then x.1.endAccess c true a (x.1.coreLoad c a n ew d) else x.1, run, fun _ _ _ => rfl⟩

theorem runsCode_store {row : CoreWork → Instr} (a ew : Nat) (b : List Byte) (d : Disturb)
    (run : ∀ w s, exec (row w) s = .next (s.rowStore w a ew b d)) : RunsCode row :=
  ⟨fun c x => if x.2 then x.1.endAccess c false a (x.1.coreStore c a ew b d) else x.1, run, fun _ _ _ => rfl⟩

theorem runsCode_exception (cause : Word) : RunsCode (.scribeException · cause) :=
  ⟨fun c x => if x.2 then x.1.scribeHalt c cause.toNat 0 else x.1, fun _ _ => rfl, fun _ _ _ => rfl⟩

theorem runsCode_parity : RunsCode .scribeParityError :=
  ⟨fun c x => if x.1.coreLive c then x.1.scribeFault c 0x241 0 0 false 0 else x.1, fun _ _ => rfl,
    fun _ _ dead => if_neg (by rw [dead]; exact Bool.false_ne_true)⟩

theorem RunsCode.holds {row : CoreWork → Instr} (h : RunsCode row) (dead : s.coreLive c = false) : Holds (row { core := c }) s := by
  obtain ⟨g, run, still⟩ := h
  rw [Holds, run, runCode_dead dead, still c s dead]

theorem RunsCode.cons {row : CoreWork → Instr} (h : RunsCode row) {i : CoreInstr} {d : Disturb} (r : List CoreInstr)
    (goes : (s.coreInstr c i d).2 = true) : exec (row ⟨c, i :: r, d⟩) s = exec (row ⟨c, r, {}⟩) (s.coreInstr c i d).1 := by
  obtain ⟨g, run, -⟩ := h
  rw [run, run, runCode_cons goes]

end Sys2Proof.Machine
end

section
/-! SUPPORT. The accesses of a scribe core by the map of R217, what the register blocks and the windows make of them, and what the
core reports (07 R217, R223, R224, R229, R230). -/

namespace Sys2Proof.Machine

variable {s t u : State} {c : CoreId} {k k' : Scribe}

/-! ### What a core reports -/

/-- The path of the core's sheet to its collector gains the messages `l` and the core reads `k`; no byte of the memories moves. -/
structure Tells (c : CoreId) (l : List FaultMsg) (k : Scribe) (s u : State) : Prop where
  cells : SheetsKeep Sheet.cells s u
  wire : (u.sheet c.eng.sheet.val).wire = (s.sheet c.eng.sheet.val).wire ++ l
  core : u.core c = k

section
variable {l l' : List FaultMsg} {m : FaultMsg}

theorem CoreBecomes.tells (h : CoreBecomes c k s u) : Tells c [] k s u := ⟨h.cells, (h.wire _).trans (List.append_nil _).symm, h.core⟩

theorem Tells.trans (h : Tells c l k s t) (g : Tells c l' k' t u) : Tells c (l ++ l') k' s u :=
  ⟨h.cells.trans g.cells, by rw [g.wire, h.wire, List.append_assoc], g.core⟩

/-- A change of the core after its reports, or before them. -/
theorem Tells.becomes (h : Tells c l k s t) (g : CoreBecomes c k' t u) : Tells c l k' s u := List.append_nil l ▸ h.trans g.tells
theorem CoreBecomes.thenTells (h : CoreBecomes c k s t) (g : Tells c l k' t u) : Tells c l k' s u := h.tells.trans g

theorem Tells.reads (h : Tells c l k s u) (e : k = k') : Tells c l k' s u := e ▸ h

theorem Tells.modCore (h : Tells c l k s t) (f : Scribe → Scribe) : Tells c l (f k) s (t.modCore c f) :=
  h.becomes (h.core ▸ modCore_becomes t c f)

theorem Tells.counts (h : Tells c l k s t) (g : Counts t u) : Tells c l k s u := h.becomes (h.core ▸ g.coreBecomes c)

theorem Tells.same (h : Tells c l k s u) : SameMemories s u := cells_sameMemories h.cells

theorem Tells.gains {kinds : List (BitVec 12)} (h : Tells c l k s u) (e : l.map (·.kind) = kinds) :
    GainsKinds c.eng.sheet.val kinds s u := ⟨l, h.wire, e⟩

theorem Tells.raises {kind : BitVec 12} {a : Word} (h : Tells c [m] k s u) (hk : m.kind = kind) (ha : m.address = a) :
    Raises c.eng.sheet.val kind a s u := ⟨m, h.wire, hk, ha⟩

end

/-- A message whose SOURCE names the core's sheet. -/
theorem sendFault_tells (s : State) (c : CoreId) {f : FaultInfo} (level : srcLevel f.source ≤ 4) (sheet : srcSheet f.source = c.eng.sheet.val)
    (hk : f.kind.toNat / 0x100 ≠ 6) : ∃ m : FaultMsg, m.kind = f.kind ∧ m.address = f.address ∧ Tells c [m] (s.core c) s (s.sendFault f) := by
  obtain ⟨m, t, counts, sheets, kind, address⟩ := sendFault_wire s f level hk
  refine ⟨m, kind, address, (sendFault_reports s f).still.cells, ?_, by rw [State.core, (sendFault_reports s f).engine, State.core]⟩
  rw [counts.sheetWire, sheet, sheet_modSheet_same, State.sheet, sheets]
  rfl

/-- The core's parcel is one of the 18 of its sheet, so that SOURCE names it and its sheet (13 R367). -/
def InParcel (c : CoreId) (s : State) : Prop := ∃ p, (s.sheet c.eng.sheet.val).phys c.eng.parcel.val = some p ∧ p < 18

theorem InParcel.of_cells (h : InParcel c s) (k : SheetsKeep Sheet.cells s t) : InParcel c t := by
  obtain ⟨p, phys, small⟩ := h
  exact ⟨p, (cells_phys k _ _).trans phys, small⟩

theorem InParcel.source (h : InParcel c s) :
    srcLevel (sourceId 3 c.eng.sheet.val (((s.sheet c.eng.sheet.val).phys c.eng.parcel.val).getD 0x1F) (4 + c.core.val)) ≤ 4 ∧
    srcSheet (sourceId 3 c.eng.sheet.val (((s.sheet c.eng.sheet.val).phys c.eng.parcel.val).getD 0x1F) (4 + c.core.val)) =
      c.eng.sheet.val := by
  obtain ⟨p, phys, small⟩ := h
  obtain ⟨level, sheet⟩ := sourceId_level (l := 3) (h := c.eng.sheet.val) (p := p) (u := 4 + c.core.val) (by decide) c.eng.sheet.isLt
    (by omega) (by omega)
  rw [phys, Option.getD_some]
  exact ⟨by rw [level]; decide, sheet⟩

theorem scribeFault_tells (h : InParcel c s) (kind : BitVec 12) (op : BitVec 16) (a : Word) (sent : Bool) (sev : BitVec 4)
    (hk : kind.toNat / 0x100 ≠ 6) :
    ∃ m : FaultMsg, m.kind = kind ∧ m.address = a ∧ Tells c [m] (s.core c) s (s.scribeFault c kind op a sent sev) := by
  obtain ⟨level, sheet⟩ := h.source
  obtain ⟨m, hkind, ha, tells⟩ := sendFault_tells s c
    (f := { source := sourceId 3 c.eng.sheet.val (((s.sheet c.eng.sheet.val).phys c.eng.parcel.val).getD 0x1F) (4 + c.core.val)
            kind := kind, ctx := s.curCtx c.eng.sheet.val, scribe := sent, scribeSev := sev, op := op, address := a }) level sheet hk
  refine ⟨m, hkind, ha, ?_⟩
  unfold State.scribeFault State.engFault
  dsimp only
  split
  · have noted (v : State) (p : Option Nat) (src : BitVec 16) : (v.noteStepFault c.eng.sheet.val p kind src a).sheets = v.sheets :=
      noteStepFault_sheets _ _ _ _ _ _
    exact ⟨tells.cells.trans (.of_sheets (noted _ _ _)), by rw [State.sheet, noted]; exact tells.wire,
      by rw [State.core, eng_of_engines (.of_sheets (noted _ _ _))]; exact tells.core⟩
  · exact tells

theorem portFault_tells (h : InParcel c s) (kind : BitVec 12) (hk : kind.toNat / 0x100 ≠ 6) :
    ∃ m : FaultMsg, m.kind = kind ∧ Tells c [m] (s.core c) s (s.portFault c kind) := by
  obtain ⟨level, sheet⟩ := h.source
  obtain ⟨m, hkind, -, tells⟩ := sendFault_tells s c
    (f := { source := sourceId 3 c.eng.sheet.val (((s.sheet c.eng.sheet.val).phys c.eng.parcel.val).getD 0x1F) (4 + c.core.val)
            kind := kind, ctx := s.curCtx c.eng.sheet.val, op := 9 }) level sheet hk
  exact ⟨m, hkind, tells⟩

/-- A core that halts has trapped, and reports kind 0x242 (R230). -/
theorem scribeHalt_tells (h : InParcel c s) (cause tval : Nat) :
    ∃ m : FaultMsg, m.kind = 0x242 ∧ m.address = 0 ∧
      Tells c [m] { (s.core c).trap false cause tval with halted := true } s (s.scribeHalt c cause tval) := by
  obtain ⟨m, kind, address, tells⟩ := scribeFault_tells h 0x242 0 0 false 0 (by decide)
  exact ⟨m, kind, address, tells.modCore fun k => { k.trap false cause tval with halted := true }⟩

/-! ### Where an access goes (R217) -/

/-- A store of a word into the register blocks that PMP lets through. -/
theorem coreStore_port {o v : Nat} (may : (s.core c).pmpOk 1 (0x2000000 + o) 8 = true) (aligned : o % 8 = 0) (inside : o + 8 ≤ 0x5000) :
    s.coreStore c (0x2000000 + o) 8 (leBytes 8 v) {} = s.portWrite c o (BitVec.ofNat 64 v) := by
  have word : BitVec.ofNat 64 (leNat (leBytes 8 v)) = BitVec.ofNat 64 v :=
    BitVec.eq_of_toNat_eq (by rw [leNat_leBytes, BitVec.toNat_ofNat, BitVec.toNat_ofNat, show (256 : Nat) ^ 8 = 2 ^ 64 from rfl, Nat.mod_mod])
  unfold State.coreStore
  dsimp only
  rw [leBytes_length, may, if_neg (by decide), if_neg (by unfold storeBytes; omega), if_neg (by omega), if_pos (by omega), if_pos (by omega),
    word, Nat.add_sub_cancel_left]

section
variable (w : Fin 16) (a : BitVec 28)

/-- An address in window `w`. -/
def inWindow : Nat := winBase + w.val * 0x10000000 + a.toNat

theorem inWindow_offset : (inWindow w a - winBase) % 0x10000000 = a.toNat := by
  have small := a.isLt
  unfold inWindow
  omega

theorem inWindow_window : (inWindow w a - winBase) / 0x10000000 = w.val := by
  have small := a.isLt
  unfold inWindow
  omega

/-- An access lies in the windows if it does not leave its own. -/
theorem inWindow_region (n : Nat) : (winBase ≤ inWindow w a ∧ inWindow w a + n ≤ winBase + 0x100000000 ∧
    a.toNat + n ≤ 0x10000000) ↔ a.toNat + n ≤ 2 ^ 28 := by
  have few := w.isLt
  unfold inWindow
  omega

/-- No window lies in the parcel store, in accumulator memory or in the register blocks. -/
theorem inWindow_high : 0x2005000 < inWindow w a := by
  unfold inWindow winBase
  omega

variable {w a}

/-- A load through a window that PMP lets through; one that leaves its window faults. -/
theorem coreLoad_window {n : Nat} {d : Disturb} (may : (s.core c).pmpOk 0 (inWindow w a) n = true) :
    s.coreLoad c (inWindow w a) n 1 d = if a.toNat + n ≤ 2 ^ 28 then s.windowLoad c w.val a.toNat n d else .fault 5 := by
  have high := inWindow_high w a
  unfold State.coreLoad
  rw [may, if_neg (by decide), if_neg (by unfold storeBytes; omega), if_neg (by omega), if_neg (by omega)]
  simp only [inWindow_offset, inWindow_window, inWindow_region, Nat.mod_one, ne_eq, not_true_eq_false, if_false]

theorem coreStore_window {b : List Byte} {d : Disturb} (may : (s.core c).pmpOk 1 (inWindow w a) b.length = true) :
    s.coreStore c (inWindow w a) 1 b d = if a.toNat + b.length ≤ 2 ^ 28 then s.windowStore c w.val a.toNat b d else .fault 7 := by
  have high := inWindow_high w a
  unfold State.coreStore
  dsimp only
  rw [may, if_neg (by decide), if_neg (by unfold storeBytes; omega), if_neg (by omega), if_neg (by omega)]
  simp only [inWindow_offset, inWindow_window, inWindow_region, Nat.mod_one, ne_eq, not_true_eq_false, if_false]

end

/-- An access fault halts the core (R230). -/
theorem endAccess_fault (load : Bool) (a : Nat) {cause : Nat} (fatal : cause = 5 ∨ cause = 7) :
    s.endAccess c load a (.fault cause) = s.scribeHalt c cause a := by
  rcases fatal with rfl | rfl <;> rfl

/-! ### Stores into the register blocks -/

/-- The blocks from 0x2000 on are closed to user mode alone (R217). -/
theorem port_open {o : Nat} (may : o < 0x2000 ∨ (s.core c).dataMachine = true) : ¬(0x2000 ≤ o ∧ (!(s.core c).dataMachine) = true) := by
  rintro ⟨high, closed⟩
  rcases may with low | machine
  · omega
  · rw [machine] at closed
    exact Bool.false_ne_true closed

/-- A store of a word that its register takes: bits that are reserved are left out, and reported where one was written 1 (00 R10). -/
theorem portWrite_done {o : Nat} {v : Word} {b : List Byte} (may : o < 0x2000 ∨ (s.core c).dataMachine = true)
    (legal : ¬(o = 0x2008 ∧ 8 ≤ v.toNat % 16)) (put : s.portPut c o (v &&& ~~~(BitVec.ofNat 64 (scribeReserved o))) = .done t b) :
    s.portWrite c o v = .done (if v.toNat &&& scribeReserved o = 0 then t else t.portFault c 0x406) b := by
  unfold State.portWrite
  dsimp only
  rw [if_neg (port_open may), if_neg legal, put]

theorem portWrite_wait {o : Nat} {v : Word} (may : o < 0x2000 ∨ (s.core c).dataMachine = true)
    (legal : ¬(o = 0x2008 ∧ 8 ≤ v.toNat % 16)) (put : s.portPut c o (v &&& ~~~(BitVec.ofNat 64 (scribeReserved o))) = .wait) :
    s.portWrite c o v = .wait := by
  unfold State.portWrite
  dsimp only
  rw [if_neg (port_open may), if_neg legal, put]

section
variable {o v : Nat} (may : (s.core c).pmpOk 1 (0x2000000 + o) 8 = true) (aligned : o % 8 = 0) (inside : o + 8 ≤ 0x5000)
include may aligned inside

theorem storePorts_done {b : List Byte} (r : List (Nat × Nat)) (wrote : s.portWrite c o (BitVec.ofNat 64 v) = .done t b) :
    s.storePorts c ((o, v) :: r) = (t.retired c).storePorts c r := by
  rw [State.storePorts, coreStore_port may aligned inside, wrote]

theorem storePorts_word {v : Word} {b : List Byte} (r : List (Nat × Nat)) (wrote : s.portWrite c o v = .done t b) :
    s.storePorts c ((o, v.toNat) :: r) = (t.retired c).storePorts c r :=
  storePorts_done may aligned inside r (by rw [BitVec.ofNat_toNat, BitVec.setWidth_eq]; exact wrote)

theorem storePorts_wait (r : List (Nat × Nat)) (waits : s.portWrite c o (BitVec.ofNat 64 v) = .wait) : s.storePorts c ((o, v) :: r) = s := by
  rw [State.storePorts, coreStore_port may aligned inside, waits]

end

theorem coreEvent_counts (s : State) (c : CoreId) (ev : CntEvent) : Counts s (s.coreEvent c ev) := by
  unfold State.coreEvent
  exact parcelEvent_counts _ _ _ _

theorem retired_counts (s : State) (c : CoreId) : Counts s (s.retired c) := coreEvent_counts s c _

end Sys2Proof.Machine
end

section
/-! SUPPORT. Loads and stores through the DRAM windows (07 R223, R224, R226; 08 R253): the bytes that move, the taint, and that
neither counting nor reporting is a load of a core. -/

namespace Sys2Proof.Machine

variable {s t u : State} {c : CoreId} {k : Scribe}

/-! ### What the cores have loaded -/

@[simp] theorem setBank_loads (s : State) (b : BankId) (v : Bank) : (s.setBank b v).loads = s.loads := by cases b <;> rfl

theorem emit_loads {o : Out} (h : o.isLoad = false) (s : State) : (s.emit o).loads = s.loads := by
  simp only [State.loads, State.emit, List.filter_append, List.filter_cons, List.filter_nil, h, Bool.false_eq_true, if_false, List.append_nil]

theorem scribeData_loads (s : State) (c : CoreId) (b : List Byte) : (s.scribeData c b).loads = s.loads ++ [.scribeData c b] :=
  List.filter_append _ _

@[simp] theorem msixOut_loads (s : State) (f : BitVec 4) (v : BitVec 12) : (s.msixOut f v).loads = s.loads := by
  unfold State.msixOut
  split
  · rfl
  · exact emit_loads rfl s

@[simp] theorem counterWrap_loads (s : State) (b : BankId) (i pc : Nat) (n : Option Nat) : (s.counterWrap b i pc n).loads = s.loads := by
  unfold State.counterWrap
  dsimp only
  split
  · exact (msixOut_loads _ _ _).trans (setBank_loads _ _ _)
  · exact setBank_loads _ _ _

@[simp] theorem counterAdd_loads (s : State) (b : BankId) (i n pc : Nat) (x : Option Nat) : (s.counterAdd b i n pc x).loads = s.loads := by
  unfold State.counterAdd
  dsimp only
  split
  · exact setBank_loads _ _ _
  · split
    · split
      · exact setBank_loads _ _ _
      · split
        · simp only [setBank_loads]
        · simp only [counterWrap_loads, setBank_loads]
    · simp only [counterWrap_loads, setBank_loads]

/-- Counting an event is no load. -/
@[simp] theorem bankEvent_loads (s : State) (b : BankId) (e : CntEvent) (pc : Nat) (n : Option Nat) : (s.bankEvent b e pc n).loads = s.loads := by
  unfold State.bankEvent
  split
  · rfl
  · refine forEach_keeps State.loads _ (fun t i => ?_) _ s
    split
    · exact counterAdd_loads _ _ _ _ _ _
    · rfl

@[simp] theorem sheetEvent_loads (s : State) (i : Nat) (ev : CntEvent) : (s.sheetEvent i ev).loads = s.loads := bankEvent_loads _ _ _ _ _

@[simp] theorem coreEvent_loads (s : State) (c : CoreId) (ev : CntEvent) : (s.coreEvent c ev).loads = s.loads := by
  unfold State.coreEvent State.parcelEvent
  dsimp only
  split
  · exact (bankEvent_loads _ _ _ _ _).trans (bankEvent_loads _ _ _ _ _)
  · rfl

@[simp] theorem retired_loads (s : State) (c : CoreId) : (s.retired c).loads = s.loads := coreEvent_loads _ _ _

/-- Sending a message is no load. -/
@[simp] theorem sendFault_loads (s : State) (f : FaultInfo) : (s.sendFault f).loads = s.loads := by
  have sent (v : State) (m : FaultMsg) (sev : BitVec 4) : State.loads
      (if srcLevel f.source ≤ 4 then
        if 2 ≤ sev.toNat then
          (v.modSheet (srcSheet f.source) fun h => { h with wire := h.wire ++ [m] }).sheetEvent (srcSheet f.source)
            { cls := 6, code := 0x10, priv := privSource f.source, ctx := f.ctx.map (·.val) }
        else v.modSheet (srcSheet f.source) fun h => { h with wire := h.wire ++ [m] }
      else { v with devWire := v.devWire ++ [m] }) = v.loads := by
    split
    · split
      · exact sheetEvent_loads _ _ _
      · rfl
    · rfl
  have ibi (v : State) : (if f.kind.toNat / 0x100 = 6 then v.emit (.ibi f.kind) else v).loads = v.loads := by
    split
    · exact emit_loads rfl v
    · rfl
  exact (sent _ _ _).trans (ibi _)

@[simp] theorem sheetFault_loads (s : State) (i n : Nat) (k : BitVec 12) (op : BitVec 16) (a : Word) : (s.sheetFault i n k op a).loads = s.loads := by
  have noted (v : State) (src : BitVec 16) : (v.noteStepFault i none k src a).loads = v.loads := by
    unfold State.noteStepFault
    split <;> rfl
  unfold State.sheetFault
  dsimp only
  split
  · exact (noted _ _).trans (sendFault_loads _ _)
  · exact sendFault_loads _ _

/-! ### What a window access leaves -/

/-- Bytes, engines and what the cores have loaded read as before: only messages, marks and counts moved. -/
structure Overlooked (s t : State) : Prop where
  cells : SheetsKeep Sheet.cells s t
  engines : SheetsKeep Sheet.engines s t
  loads : t.loads = s.loads

theorem Overlooked.refl : Overlooked s s := ⟨.refl, .refl, rfl⟩
theorem Overlooked.trans (h : Overlooked s t) (g : Overlooked t u) : Overlooked s u :=
  ⟨h.cells.trans g.cells, h.engines.trans g.engines, g.loads.trans h.loads⟩
theorem Overlooked.forEach {α : Type} (l : List α) (f : State → α → State) (h : ∀ s a, Overlooked s (f s a)) (s : State) :
    Overlooked s (s.forEach l f) := List.foldlRecOn l f .refl fun _ ht a _ => ht.trans (h _ a)

theorem Overlooked.of_reports (h : Reports s t) (loads : t.loads = s.loads) : Overlooked s t :=
  ⟨h.still.cells, h.sheetsKeep fun _ _ _ _ => rfl, loads⟩

theorem Overlooked.core (h : Overlooked s t) (c : CoreId) : t.core c = s.core c := by
  rw [State.core, eng_of_engines h.engines, State.core]

theorem Overlooked.of_same (sheets : t.sheets = s.sheets) (out : t.out = s.out) : Overlooked s t :=
  ⟨.of_sheets sheets, .of_sheets sheets, by rw [State.loads, out, State.loads]⟩

theorem Overlooked.modMem (i : Nat) (f : MemPath → MemPath) (hd : ∀ m, (f m).dram = m.dram) (ha : ∀ m, (f m).adds = m.adds) :
    Overlooked s (s.modMem i f) := ⟨(Still.modMem i f hd ha).cells, .modSheet i _ fun _ => rfl, rfl⟩

theorem sheetEvent_overlooked (s : State) (i : Nat) (ev : CntEvent) : Overlooked s (s.sheetEvent i ev) :=
  .of_reports (sheetEvent_counts s i ev).reports (sheetEvent_loads s i ev)

theorem coreEvent_overlooked (s : State) (c : CoreId) (ev : CntEvent) : Overlooked s (s.coreEvent c ev) :=
  .of_reports (coreEvent_counts s c ev).reports (coreEvent_loads s c ev)

theorem upset_none_overlooked (s : State) (i : Nat) : Overlooked s (s.upset i {}) :=
  ⟨(upset_none_still s i).cells, upset_keeps (fun _ _ _ _ => rfl) (fun _ _ => rfl) s i {}, rfl⟩

theorem lookPages_overlooked (s : State) (i : Nat) (l : List Nat) (op : BitVec 16) : Overlooked s (s.lookPages i l op) :=
  .forEach _ _ (fun t _ => (Overlooked.of_reports (sheetFault_reports t i 3 0x106 op _) (sheetFault_loads _ _ _ _ _ _)).trans
    (.modMem i _ (by intro _; rfl) (by intro _; rfl))) s

theorem noteRead_overlooked (s : State) (i : Nat) (x : Tensor) : Overlooked s (s.noteRead i x) := by
  refine .of_same (noteRead_sheets s i x) ?_
  unfold State.noteRead State.modRun
  split
  · rfl
  · split <;> rfl

/-- Raw bytes written change no engine. -/
theorem writeRaw_engines (s : State) (i a : Nat) (bytes : List Byte) (p one : Bool) (lo hi : Nat) (op : BitVec 16) :
    SheetsKeep Sheet.engines s (s.writeRaw i a bytes p one lo hi op) := by
  have mem (v : State) (f : MemPath → MemPath) : SheetsKeep Sheet.engines v (v.modMem i f) := .modSheet i _ fun _ => rfl
  have marked (v : State) (f : MemPath → MemPath) : SheetsKeep Sheet.engines v (v.poisonMem i f) :=
    (mem v f).trans (.of_sheets (poisonMem_sheets v i f))
  have noted : SheetsKeep Sheet.engines s (s.forEach (pagesOf a bytes.length) fun s p => s.noteGranule i (2 * p + 1)) :=
    .forEach _ _ fun t _ => .of_sheets (noteGranule_sheets t i _)
  unfold State.writeRaw State.storeRaw
  dsimp only
  refine ((noted.trans (lookPages_overlooked _ _ _ _).engines).trans (mem _ _)).trans (.forEach _ _ fun t g => ?_)
  split
  · exact .refl
  · split
    · exact marked _ _
    · split
      · exact mem _ _
      · exact .refl

/-! ### The accesses -/

theorem taintIf_becomes (s : State) (c : CoreId) (bad : Bool) :
    CoreBecomes c { s.core c with tainted := (s.core c).tainted || bad } s (s.taintIf c bad) := by
  cases bad with
  | true =>
    rw [Bool.or_true]
    exact modCore_becomes s c _
  | false =>
    rw [Bool.or_false]
    exact (Counts.refl s).coreBecomes c

@[simp] theorem taintIf_loads (s : State) (c : CoreId) (bad : Bool) : (s.taintIf c bad).loads = s.loads := by cases bad <;> rfl

section
variable {w a n b : Nat} {x : Tensor}

/-- A load through a window that reaches a tensor whose slices are free. -/
theorem windowLoad_reads (reach : s.windowAddr c w a n = some (x, b)) (free : s.stalls c.eng.sheet.val b n = false) :
    ∃ u, s.windowLoad c w a n {} = .done u (mread (s.sheet c.eng.sheet.val).mem.dram b n) ∧ SheetsKeep Sheet.cells s u ∧
      u.core c = { s.core c with tainted := (s.core c).tainted || s.rangePoison x c.eng.sheet.val b n } ∧ u.loads = s.loads := by
  have poison : (s.upset c.eng.sheet.val {}).rangePoison x c.eng.sheet.val b n = s.rangePoison x c.eng.sheet.val b n := by
    simp only [State.rangePoison, upset_none_mem]
  unfold State.windowLoad
  rw [reach]
  dsimp only
  rw [free, if_neg Bool.false_ne_true, poison]
  have looked := (((upset_none_overlooked s c.eng.sheet.val).trans (lookPages_overlooked _ c.eng.sheet.val (pagesOf b n) 0x0A)).trans
    (noteRead_overlooked _ c.eng.sheet.val x))
  have read (e f : CntEvent) := (looked.trans (sheetEvent_overlooked _ c.eng.sheet.val e)).trans (coreEvent_overlooked _ c f)
  have tainted (v : State) := taintIf_becomes v c (s.rangePoison x c.eng.sheet.val b n)
  rw [cells_dram (read _ _).cells]
  exact ⟨_, rfl, (read _ _).cells.trans (tainted _).cells, by rw [(tainted _).core, (read _ _).core],
    (taintIf_loads _ _ _).trans (read _ _).loads⟩

theorem windowLoad_waits (reach : s.windowAddr c w a n = some (x, b)) (busy : s.stalls c.eng.sheet.val b n = true) (d : Disturb) :
    s.windowLoad c w a n d = .wait := by
  unfold State.windowLoad
  rw [reach]
  dsimp only
  rw [busy, if_pos rfl]

theorem windowLoad_fault (reach : s.windowAddr c w a n = none) (d : Disturb) : s.windowLoad c w a n d = .fault 5 := by
  unfold State.windowLoad
  rw [reach]

variable {l : List Byte}

/-- A window whose WEN is 1 opens a raw tensor to stores (R224). -/
def Scribe.opensTo (k : Scribe) (w : Nat) (x : Tensor) : Prop := (tget 0 k.dwin w).getLsbD 0 = true ∧ x.isSealed = false

theorem opensTo_iff (k : Scribe) (w : Nat) (x : Tensor) : k.opensTo w x ↔ (!(tget 0 k.dwin w).getLsbD 0 || x.isSealed) = false := by
  rw [Bool.or_eq_false_iff, Bool.not_eq_false', Scribe.opensTo]

/-- A store through a window that is open to its tensor and whose slices are free. -/
theorem windowStore_writes (reach : s.windowAddr c w a l.length = some (x, b)) (opens : (s.core c).opensTo w x)
    (free : s.stalls c.eng.sheet.val b l.length = false) :
    ∃ u, s.windowStore c w a l {} = .done u [] ∧ PutsDram c.eng.sheet.val b l s u ∧ u.core c = s.core c := by
  unfold State.windowStore
  rw [reach]
  dsimp only
  rw [(opensTo_iff _ _ _).1 opens, if_neg Bool.false_ne_true, free, if_neg Bool.false_ne_true]
  have noted (v : State) : Overlooked v (v.noteTensor c.eng.sheet.val x.number) := by
    refine .of_same (noteTensor_sheets _ _ _) ?_
    unfold State.noteTensor
    split
    · rfl
    · split <;> rfl
  have before (e : CntEvent) := ((upset_none_overlooked s c.eng.sheet.val).trans (noted _)).trans (sheetEvent_overlooked _ c.eng.sheet.val e)
  refine ⟨_, rfl, (writeRaw_puts _ _ _ _ _ _ _ _ _).before (before _).cells, ?_⟩
  rw [State.core, eng_of_engines (writeRaw_engines _ _ _ _ _ _ _ _ _)]
  exact (before _).core c

theorem windowStore_waits (reach : s.windowAddr c w a l.length = some (x, b)) (opens : (s.core c).opensTo w x)
    (busy : s.stalls c.eng.sheet.val b l.length = true) (d : Disturb) : s.windowStore c w a l d = .wait := by
  unfold State.windowStore
  rw [reach]
  dsimp only
  rw [(opensTo_iff _ _ _).1 opens, if_neg Bool.false_ne_true, busy, if_pos rfl]

/-- A store that reaches no tensor that its window opens to it. -/
theorem windowStore_fault (shut : ∀ x b, s.windowAddr c w a l.length = some (x, b) → ¬(s.core c).opensTo w x) (d : Disturb) :
    s.windowStore c w a l d = .fault 7 := by
  unfold State.windowStore
  split
  · rfl
  · next x b reach =>
    have closed := shut x b reach
    rw [opensTo_iff, Bool.not_eq_false] at closed
    rw [closed, if_pos rfl]

end

/-! ### An access that completes -/

theorem endAccess_counts (s u : State) (c : CoreId) (load : Bool) (a : Nat) (b : List Byte) :
    Counts u (s.endAccess c load a (.done u b)) := by
  cases load with
  | true => exact (emit_counts u (.scribeData c b)).trans (retired_counts _ c)
  | false => exact retired_counts u c

theorem endAccess_loads (s u : State) (c : CoreId) (a : Nat) (b : List Byte) :
    (s.endAccess c true a (.done u b)).loads = u.loads ++ [.scribeData c b] :=
  (retired_loads _ c).trans (scribeData_loads u c b)

end Sys2Proof.Machine
end

section
/-! SUPPORT. The window registers and the fault port of a scribe core (07 R224, R229). -/

namespace Sys2Proof.Machine

variable {s t u : State} {c : CoreId} {k : Scribe}

/-! ### Words and masks -/

/-- Masking out bits that are 0 changes nothing. -/
theorem and_not_of_and_eq_zero {n : Nat} {v m : BitVec n} (h : v &&& m = 0) : v &&& ~~~m = v := by
  have whole : v &&& (m ||| ~~~m) = v := by rw [BitVec.or_not_self, BitVec.and_allOnes]
  rwa [BitVec.and_or_distrib_left, h, BitVec.ofNat_eq_ofNat, BitVec.zero_or] at whole

theorem winHandle_eq (v : Word) : winHandle v = (v >>> 48).setWidth 16 := by
  refine BitVec.eq_of_toNat_eq ?_
  simp [winHandle, bits]

/-- The reserved bits of a window register lie below its handle and beside WEN. -/
theorem winHandle_unreserved (v : Word) : winHandle (v &&& ~~~0xFFFFE) = winHandle v := by
  rw [winHandle_eq, winHandle_eq, BitVec.ushiftRight_and_distrib, BitVec.setWidth_and,
    show ((~~~0xFFFFE : Word) >>> 48).setWidth 16 = BitVec.allOnes 16 from rfl, BitVec.and_allOnes]

theorem getLsbD_unreserved (v : Word) : (v &&& ~~~0xFFFFE).getLsbD 0 = v.getLsbD 0 := by
  rw [BitVec.getLsbD_and, show (~~~0xFFFFE : Word).getLsbD 0 = true from rfl, Bool.and_true]

/-! ### SCR_DWIN (R224) -/

/-- A word for a window register that sets WEN for a sealed tensor of the running plan. -/
def State.refusesWen (s : State) (h : Nat) (v : Word) : Bool :=
  v.getLsbD 0 && (match s.tensorAt h (winHandle v) with | some t => t.isSealed | none => false)

theorem refusesWen_unreserved (s : State) (h : Nat) (v : Word) : s.refusesWen h (v &&& ~~~0xFFFFE) = s.refusesWen h v := by
  simp only [State.refusesWen, getLsbD_unreserved, winHandle_unreserved]

theorem CoreBecomes.refusesWen (h : CoreBecomes c k s u) (i : Nat) (v : Word) : u.refusesWen i v = s.refusesWen i v := by
  simp only [State.refusesWen, h.tensorAt]

theorem dwinWrite_refused {w : Nat} {v : Word} (refused : s.refusesWen c.eng.sheet.val v = true) : s.dwinWrite c w v = s.portFault c 0x40C :=
  if_pos refused

theorem dwinWrite_kept {w : Nat} {v : Word} (kept : s.refusesWen c.eng.sheet.val v = false) :
    s.dwinWrite c w v = s.modCore c fun k => { k with dwin := tset 0 k.dwin w (v &&& 0xFFFFFFFFFFF00001) } :=
  if_neg fun refused => Bool.false_ne_true (kept.symm.trans refused)

theorem scribeReserved_dwin (w : Fin 16) : scribeReserved (0x3000 + 8 * w.val) = 0xFFFFE := by
  revert w
  decide

theorem portPut_dwin (w : Fin 16) (v : Word) : s.portPut c (0x3000 + 8 * w.val) v = .done (s.dwinWrite c w.val v) [] := by
  have window : (0x3000 + 8 * w.val - 0x3000) / 8 = w.val := by omega
  unfold State.portPut
  dsimp only
  rw [if_neg (by omega), if_neg (by omega), if_neg (by omega), if_neg (by omega), if_neg (by omega), if_neg (by omega), if_pos (by omega), window]

/-- A store of a window register: what the register takes, and 0x406 where a reserved bit was written 1. -/
theorem portWrite_dwin (machine : (s.core c).dataMachine = true) (w : Fin 16) (v : Word) :
    s.portWrite c (0x3000 + 8 * w.val) v =
      .done (if v &&& 0xFFFFE = 0 then s.dwinWrite c w.val (v &&& ~~~0xFFFFE)
        else (s.dwinWrite c w.val (v &&& ~~~0xFFFFE)).portFault c 0x406) [] := by
  have mask : v.toNat &&& 0xFFFFE = 0 ↔ v &&& 0xFFFFE = 0 := by
    rw [← BitVec.toNat_inj, BitVec.toNat_and]
    rfl
  have put := portPut_dwin (s := s) (c := c) w (v &&& ~~~(BitVec.ofNat 64 (scribeReserved (0x3000 + 8 * w.val))))
  rw [portWrite_done (.inr machine) (by omega) put, scribeReserved_dwin]
  simp only [mask]
  rfl

/-! ### The fault port (R229) -/

theorem portPut_faddr (v : Word) : s.portPut c 0x2000 v = .done (s.modCore c fun k => { k with fltAddr := v }) [] := rfl

theorem portWrite_faddr (machine : (s.core c).dataMachine = true) (v : Word) :
    s.portWrite c 0x2000 v = .done (s.modCore c fun k => { k with fltAddr := v }) [] := by
  rw [portWrite_done (.inr machine) (fun h => absurd h.1 (by decide)) (portPut_faddr _), show scribeReserved 0x2000 = 0 from rfl, Nat.and_zero, if_pos rfl,
    show (v &&& ~~~(BitVec.ofNat 64 0)) = v from and_not_of_and_eq_zero BitVec.and_zero]

/-- The word that sends a message of a kind and a severity. -/
def sendWord (kind : BitVec 12) (sev : BitVec 4) : Nat := 2 ^ 63 + kind.toNat * 2 ^ 16 + sev.toNat

section
variable (kind : BitVec 12) (sev : BitVec 4)

theorem sendWord_lt : sendWord kind sev < 2 ^ 64 := by
  unfold sendWord
  omega

theorem sendWord_sev : BitVec.ofNat 4 (sendWord kind sev) = sev :=
  BitVec.eq_of_toNat_eq (by rw [BitVec.toNat_ofNat, sendWord]; omega)

theorem sendWord_kind : BitVec.ofNat 12 (bits (sendWord kind sev) 27 16) = kind :=
  BitVec.eq_of_toNat_eq (by rw [BitVec.toNat_ofNat, bits, Nat.shiftRight_eq_div_pow, sendWord]; omega)

theorem sendWord_go : bit (sendWord kind sev) 63 = true := by
  rw [bit, Nat.testBit_eq_decide_div_mod_eq, sendWord]
  exact decide_eq_true (by omega)

theorem testBit_sendWord (j : Nat) : (sendWord kind sev).testBit j =
    if j < 16 then sev.toNat.testBit j else if j - 16 < 12 then kind.toNat.testBit (j - 16) else (2 ^ 35).testBit (j - 16 - 12) := by
  have split : sendWord kind sev = 2 ^ 16 * (2 ^ 12 * 2 ^ 35 + kind.toNat) + sev.toNat := by
    unfold sendWord
    omega
  rw [split, Nat.testBit_two_pow_mul_add _ (by omega), Nat.testBit_two_pow_mul_add _ kind.isLt]

/-- Kind and severity, bit 63 apart, lie in none of the reserved bits of SCR.SEND. -/
theorem sendWord_unreserved : sendWord kind sev &&& scribeReserved 0x2008 = 0 := by
  have inside (j : Nat) (hj : j < 64) : (scribeReserved 0x2008).testBit j = true → (4 ≤ j ∧ j < 16) ∨ (28 ≤ j ∧ j < 63) := by
    revert j
    decide
  refine Nat.eq_of_testBit_eq fun j => ?_
  rw [Nat.testBit_and, Nat.zero_testBit, Bool.and_eq_false_iff, or_iff_not_imp_right, Bool.not_eq_false]
  intro reserved
  have low : j < 64 := Nat.lt_of_not_le fun high => Bool.false_ne_true <| reserved ▸
    (Nat.testBit_lt_two_pow (lt_of_lt_of_le (by decide) (Nat.pow_le_pow_right (n := 2) (by decide) high))).symm
  rw [testBit_sendWord]
  rcases inside j low reserved with ⟨above, below⟩ | ⟨above, below⟩
  · rw [if_pos below, Nat.testBit_lt_two_pow (sev.isLt.trans_le (Nat.pow_le_pow_right (by decide) above))]
  · rw [if_neg (by omega), if_neg (by omega), Nat.testBit_two_pow_of_ne (by omega)]

end

/-- The kinds that a core may send. -/
def sendable (kind : BitVec 12) : Prop := kind.toNat = 0x101 ∨ 0x2F0 ≤ kind.toNat ∧ kind.toNat ≤ 0x2FF

theorem scribeSend_waits (busy : (s.core c).fltBusy = true) (kind : BitVec 12) (sev : BitVec 4) : s.scribeSend c true kind sev = .wait :=
  if_pos busy

theorem poisonMem_keeps {β : Type} {π : Sheet → β} (hπ : ∀ x m, π { x with mem := m } = π x) (s : State) (i : Nat) (f : MemPath → MemPath) :
    SheetsKeep π s (s.poisonMem i f) :=
  (SheetsKeep.modSheet i _ fun x => hπ x _).trans (.of_sheets (poisonMem_sheets s i _))

theorem poisonRecord_tells (s : State) (c : CoreId) (i n : Nat) : Tells c [] (s.core c) s (s.poisonMem i fun m => m.poisonRecord n) := by
  have still : Still s (s.poisonMem i fun m => m.poisonRecord n) := poisonMem_still i _ (fun _ => rfl) fun _ => rfl
  have wire := poisonMem_keeps (π := Sheet.wire) (fun _ _ => rfl) s i (fun m => m.poisonRecord n) c.eng.sheet.val
  have engines := eng_of_engines (poisonMem_keeps (π := Sheet.engines) (fun _ _ => rfl) s i fun m => m.poisonRecord n) c.eng
  exact ⟨still.cells, wire.trans (List.append_nil _).symm, by rw [State.core, engines, State.core]⟩

/-- The core once it has taken kind and severity. -/
def State.takeSend (s : State) (c : CoreId) (kind : BitVec 12) (sev : BitVec 4) : State :=
  s.modCore c fun k => { k with fltKind := kind, fltSev := sev }

/-- The core once its message has left, before the memory path marks a tile. -/
def State.sendLeaves (s : State) (c : CoreId) (kind : BitVec 12) (sev : BitVec 4) : State :=
  ((s.takeSend c kind sev).scribeFault c kind 0 ((s.takeSend c kind sev).core c).fltAddr true sev).modCore c fun k => { k with fltBusy := true }

/-- SEND of a kind that a core may send; kind 0x101 marks the tile at its address. -/
theorem scribeSend_done (idle : (s.core c).fltBusy = false) {kind : BitVec 12} (may : sendable kind) (sev : BitVec 4) :
    s.scribeSend c true kind sev = .done (s.sendLeaves c kind sev) [] ∨
    ∃ l : TileLoc, s.scribeSend c true kind sev = .done ((s.sendLeaves c kind sev).poisonMem l.sheet fun m => m.poisonRecord l.sealIx) [] := by
  have go : s.scribeSend c true kind sev = .done (if kind.toNat = 0x101 then
      match (s.sendLeaves c kind sev).tileAtAddr c.eng.sheet.val ((s.takeSend c kind sev).core c).fltAddr.toNat with
      | some l => (s.sendLeaves c kind sev).poisonMem l.sheet fun m => m.poisonRecord l.sealIx
      | none => s.sendLeaves c kind sev
    else s.sendLeaves c kind sev) [] :=
    (if_neg (by rw [idle]; exact Bool.false_ne_true)).trans (if_pos may)
  rw [go]
  split
  · split
    · next l _ => exact .inr ⟨l, rfl⟩
    · exact .inl rfl
  · exact .inl rfl

theorem scribeSend_dropped (idle : (s.core c).fltBusy = false) {kind : BitVec 12} (no : ¬sendable kind) (sev : BitVec 4) :
    s.scribeSend c true kind sev = .done ((s.takeSend c kind sev).scribeFault c 0x242 0 0 false 0) [] :=
  (if_neg (by rw [idle]; exact Bool.false_ne_true)).trans (if_neg no)

theorem takeSend_becomes (s : State) (c : CoreId) (kind : BitVec 12) (sev : BitVec 4) :
    CoreBecomes c { s.core c with fltKind := kind, fltSev := sev } s (s.takeSend c kind sev) := modCore_becomes s c _

/-- The message of a SEND; the port is busy until it has left. -/
theorem scribeSend_sends (h : InParcel c s) (idle : (s.core c).fltBusy = false) {kind : BitVec 12} (may : sendable kind) (sev : BitVec 4) :
    ∃ (u : State) (m : FaultMsg), s.scribeSend c true kind sev = .done u [] ∧ m.kind = kind ∧ m.address = (s.core c).fltAddr ∧
      Tells c [m] { s.core c with fltKind := kind, fltSev := sev, fltBusy := true } s u := by
  have taken := takeSend_becomes s c kind sev
  obtain ⟨m, hkind, address, tells⟩ := scribeFault_tells (h.of_cells taken.cells) kind 0
    ((s.takeSend c kind sev).core c).fltAddr true sev (by rcases may with e | ⟨low, high⟩ <;> omega)
  have left : Tells c [m] _ s (s.sendLeaves c kind sev) := (taken.thenTells tells).modCore fun k => { k with fltBusy := true }
  rw [taken.core] at address
  have left := left.reads (congrArg (fun k : Scribe => { k with fltBusy := true }) taken.core)
  rcases scribeSend_done idle may sev with e | ⟨l, e⟩
  · exact ⟨_, m, e, hkind, address, left⟩
  · have marked := poisonRecord_tells (s.sendLeaves c kind sev) c l.sheet l.sealIx
    rw [left.core] at marked
    exact ⟨_, m, e, hkind, address, left.trans marked⟩

/-- SEND of any other kind is dropped with kind 0x242. -/
theorem scribeSend_drops (h : InParcel c s) (idle : (s.core c).fltBusy = false) {kind : BitVec 12} (no : ¬sendable kind) (sev : BitVec 4) :
    ∃ (u : State) (m : FaultMsg), s.scribeSend c true kind sev = .done u [] ∧ m.kind = 0x242 ∧ m.address = 0 ∧
      Tells c [m] { s.core c with fltKind := kind, fltSev := sev } s u := by
  have taken := takeSend_becomes s c kind sev
  obtain ⟨m, hkind, address, tells⟩ := scribeFault_tells (h.of_cells taken.cells) 0x242 0 0 false 0 (by decide)
  rw [taken.core] at tells
  exact ⟨_, m, scribeSend_dropped idle no sev, hkind, address, taken.thenTells tells⟩

section
variable {kind : BitVec 12} {sev : BitVec 4}

/-- The stored word of SCR.SEND. -/
theorem sendWord_toNat (kind : BitVec 12) (sev : BitVec 4) : (BitVec.ofNat 64 (sendWord kind sev)).toNat = sendWord kind sev :=
  Nat.mod_eq_of_lt (sendWord_lt kind sev)

theorem sendWord_severity (kind : BitVec 12) (sev : BitVec 4) : sendWord kind sev % 16 = sev.toNat := by
  unfold sendWord
  omega

/-- A reserved severity drops the write (00 R10). -/
theorem portWrite_reserved (machine : (s.core c).dataMachine = true) (reserved : 8 ≤ sev.toNat) :
    s.portWrite c 0x2008 (BitVec.ofNat 64 (sendWord kind sev)) = .done (s.portFault c 0x406) [] := by
  unfold State.portWrite
  rw [machine, if_neg (by simp), if_pos ⟨rfl, by rw [sendWord_toNat, sendWord_severity]; exact reserved⟩]

theorem portPut_send : s.portPut c 0x2008 (BitVec.ofNat 64 (sendWord kind sev) &&& ~~~(BitVec.ofNat 64 (scribeReserved 0x2008))) =
    s.scribeSend c true kind sev := by
  have free : BitVec.ofNat 64 (sendWord kind sev) &&& BitVec.ofNat 64 (scribeReserved 0x2008) = 0 := by
    rw [← BitVec.toNat_inj, BitVec.toNat_and, sendWord_toNat]
    exact sendWord_unreserved kind sev
  have port (v : Word) : s.portPut c 0x2008 v =
    s.scribeSend c (bit v.toNat 63) (BitVec.ofNat 12 (bits v.toNat 27 16)) (BitVec.ofNat 4 v.toNat) := rfl
  rw [and_not_of_and_eq_zero free, port, sendWord_toNat, sendWord_go, sendWord_kind, sendWord_sev]

theorem portWrite_sends {b : List Byte} (machine : (s.core c).dataMachine = true) (legal : sev.toNat < 8)
    (send : s.scribeSend c true kind sev = .done t b) : s.portWrite c 0x2008 (BitVec.ofNat 64 (sendWord kind sev)) = .done t b := by
  rw [portWrite_done (.inr machine) (fun h => absurd h.2 (by rw [sendWord_toNat, sendWord_severity]; omega)) (portPut_send.trans send),
    sendWord_toNat, sendWord_unreserved, if_pos rfl]

theorem portWrite_busy (machine : (s.core c).dataMachine = true) (legal : sev.toNat < 8) (busy : (s.core c).fltBusy = true) :
    s.portWrite c 0x2008 (BitVec.ofNat 64 (sendWord kind sev)) = .wait :=
  portWrite_wait (.inr machine) (fun h => absurd h.2 (by rw [sendWord_toNat, sendWord_severity]; omega))
    (portPut_send.trans (scribeSend_waits busy kind sev))

end

end Sys2Proof.Machine
end

section
/-! O40: the rows of the windows and of the fault port (07 R223, R224, R226, R229, R230), each from the access that it makes. -/

namespace Sys2Proof.Machine

variable {s t u : State} {c : CoreId} {k : Scribe}

/-- What a core that halts shows (R230). -/
theorem Polled.halts (h : Polled c s t) (inParcel : InParcel c s) (cause tval : Nat) :
    SameMemories s (t.scribeHalt c cause tval) ∧ Raises c.eng.sheet.val 0x242 0 s (t.scribeHalt c cause tval) ∧
      (t.scribeHalt c cause tval).core c = { (s.core c).trap false cause tval with halted := true } := by
  obtain ⟨m, kind, address, tells⟩ := scribeHalt_tells (inParcel.of_cells h.same.cells) cause tval
  rw [h.same.core] at tells
  have all := h.same.thenTells tells
  exact ⟨all.same, all.raises kind address, all.core⟩

/-! ### SCR_DWIN_WRITE -/

/-- The kinds that the reserved bits of a word for a window register report. -/
def reservedKinds (v : Word) : List (BitVec 12) := if v &&& 0xFFFFE = 0 then [] else [0x406]

theorem Tells.reserved {l : List FaultMsg} (h : Tells c l k s t) (inParcel : InParcel c s) (v : Word) :
    ∃ x : List FaultMsg, x.map (·.kind) = l.map (·.kind) ++ reservedKinds v ∧
      Tells c x k s (if v &&& 0xFFFFE = 0 then t else t.portFault c 0x406) := by
  unfold reservedKinds
  split
  · exact ⟨l, (List.append_nil _).symm, h⟩
  · obtain ⟨m, kind, tells⟩ := portFault_tells (inParcel.of_cells h.cells) 0x406 (by decide)
    exact ⟨l ++ [m], by rw [List.map_append, List.map_singleton, kind], h.trans (h.core ▸ tells)⟩

section
variable (ready : s.coreReady c) (inParcel : InParcel c s) {w : Fin 16} {val : Word} (machine : (s.core c).dataMachine = true)
  (may : (s.core c).pmpOk 1 (0x2003000 + 8 * w.val) 8 = true)
include ready machine may

theorem leads_dwinWrite {P : State → Prop} (hp : ∀ t, Polled c s t → P ((if val &&& 0xFFFFE = 0 then t.dwinWrite c w.val (val &&& ~~~0xFFFFE)
    else (t.dwinWrite c w.val (val &&& ~~~0xFFFFE)).portFault c 0x406).retired c)) : Leads (.scrDwinWrite { core := c } w val) s P := by
  refine leads_rowPorts ready (l := [(0x3000 + 8 * w.val, val.toNat)]) rfl fun t polled => ?_
  have wrote := portWrite_dwin (s := t) (c := c) (by rw [polled.same.core]; exact machine) w val
  rw [storePorts_word (by rw [polled.same.core, ← Nat.add_assoc]; exact may) (by omega) (by omega) [] wrote]
  exact hp t polled

include inParcel

/-- A write that the register takes (R224). -/
theorem scrDwinWrite_kept (kept : s.refusesWen c.eng.sheet.val val = false) : Leads (.scrDwinWrite { core := c } w val) s fun u =>
    SameMemories s u ∧ GainsKinds c.eng.sheet.val (reservedKinds val) s u ∧
      u.core c = { s.core c with dwin := tset 0 (s.core c).dwin w.val (val &&& 0xFFFFFFFFFFF00001) } := by
  refine leads_dwinWrite ready machine may fun t polled => ?_
  have bits : val &&& ~~~0xFFFFE &&& 0xFFFFFFFFFFF00001 = val &&& 0xFFFFFFFFFFF00001 := BitVec.and_assoc _ _ _
  rw [dwinWrite_kept (by rw [refusesWen_unreserved, polled.same.refusesWen]; exact kept), bits]
  have wrote := polled.same.modCore fun k => { k with dwin := tset 0 k.dwin w.val (val &&& 0xFFFFFFFFFFF00001) }
  obtain ⟨x, kinds, tells⟩ := wrote.tells.reserved inParcel val
  have all := tells.counts (retired_counts _ c)
  exact ⟨all.same, all.gains kinds, all.core⟩

/-- A write that would open a sealed tensor to stores is dropped (R224). -/
theorem scrDwinWrite_refused (refused : s.refusesWen c.eng.sheet.val val = true) : Leads (.scrDwinWrite { core := c } w val) s fun u =>
    u.core c = s.core c ∧ SameMemories s u ∧ GainsKinds c.eng.sheet.val (0x40C :: reservedKinds val) s u := by
  refine leads_dwinWrite ready machine may fun t polled => ?_
  rw [dwinWrite_refused (by rw [refusesWen_unreserved, polled.same.refusesWen]; exact refused)]
  obtain ⟨m, kind, tells⟩ := portFault_tells (inParcel.of_cells polled.same.cells) 0x40C (by decide)
  rw [polled.same.core] at tells
  obtain ⟨x, kinds, more⟩ := (polled.same.thenTells tells).reserved inParcel val
  have all := more.counts (retired_counts _ c)
  exact ⟨all.core, all.same, all.gains (by rw [kinds, List.map_singleton, kind]; rfl)⟩

end

/-! ### SCR_FAULT_SEND -/

/-- A core that has stored the address of a message. -/
def Scribe.addressing (k : Scribe) (addr : Word) : Scribe := { k with fltAddr := addr }

section
variable (ready : s.coreReady c) (inParcel : InParcel c s) {addr : Word} {kind : BitVec 12} {sev : BitVec 4}
  (machine : (s.core c).dataMachine = true) (mayAddr : (s.core c).pmpOk 1 0x2002000 8 = true) (maySend : (s.core c).pmpOk 1 0x2002008 8 = true)

include ready machine mayAddr

/-- The core has stored the address, and comes to SCR.SEND. -/
theorem leads_faultSend {P : State → Prop}
    (hp : ∀ t, CoreBecomes c ((s.core c).addressing addr) s t → P (t.storePorts c [(0x2008, sendWord kind sev)])) :
    Leads (.scrFaultSend { core := c } addr kind sev) s P := by
  refine leads_rowPorts ready (l := [(0x2000, addr.toNat), (0x2008, sendWord kind sev)]) rfl fun t polled => ?_
  have wrote := portWrite_faddr (s := t) (c := c) (by rw [polled.same.core]; exact machine) addr
  rw [storePorts_word (by rw [polled.same.core]; exact mayAddr) (by decide) (by decide) _ wrote]
  exact hp _ ((polled.same.modCore fun k => k.addressing addr).counts (retired_counts _ c))

include maySend

theorem scrFaultSend_waits (legal : sev.toNat < 8) (busy : (s.core c).fltBusy = true) :
    Leads (.scrFaultSend { core := c } addr kind sev) s (CoreBecomes c ((s.core c).addressing addr) s) := by
  refine leads_faultSend ready machine mayAddr fun t same => ?_
  rw [storePorts_wait (by rw [same.core]; exact maySend) (by decide) (by decide) [] (portWrite_busy (by rw [same.core]; exact machine) legal
    (by rw [same.core]; exact busy))]
  exact same

/-- What the store of SCR.SEND leaves, where it completes. -/
theorem leads_faultSend_done {P : State → Prop} (hp : ∀ t, CoreBecomes c ((s.core c).addressing addr) s t →
      ∃ u b, t.portWrite c 0x2008 (BitVec.ofNat 64 (sendWord kind sev)) = .done u b ∧ P (u.retired c)) :
    Leads (.scrFaultSend { core := c } addr kind sev) s P := by
  refine leads_faultSend ready machine mayAddr fun t same => ?_
  obtain ⟨u, b, wrote, hu⟩ := hp t same
  rw [storePorts_done (by rw [same.core]; exact maySend) (by decide) (by decide) [] wrote]
  exact hu

include inParcel

theorem scrFaultSend_reserved (reserved : 8 ≤ sev.toNat) : Leads (.scrFaultSend { core := c } addr kind sev) s fun u =>
    SameMemories s u ∧ GainsKinds c.eng.sheet.val [0x406] s u ∧ u.core c = (s.core c).addressing addr := by
  refine leads_faultSend_done ready machine mayAddr maySend fun t same => ?_
  obtain ⟨m, kind, tells⟩ := portFault_tells (inParcel.of_cells same.cells) 0x406 (by decide)
  rw [same.core] at tells
  have all := (same.thenTells tells).counts (retired_counts _ c)
  exact ⟨_, _, portWrite_reserved (by rw [same.core]; exact machine) reserved, all.same, all.gains (congrArg (· :: []) kind), all.core⟩

theorem scrFaultSend_sends (legal : sev.toNat < 8) (idle : (s.core c).fltBusy = false) (sends : sendable kind) :
    Leads (.scrFaultSend { core := c } addr kind sev) s fun u => SameMemories s u ∧ Raises c.eng.sheet.val kind addr s u ∧
      u.core c = { (s.core c).addressing addr with fltKind := kind, fltSev := sev, fltBusy := true } := by
  refine leads_faultSend_done ready machine mayAddr maySend fun t same => ?_
  obtain ⟨u, m, sent, kind, address, tells⟩ := scribeSend_sends (inParcel.of_cells same.cells) (by rw [same.core]; exact idle) sends sev
  rw [same.core] at address tells
  have all := (same.thenTells tells).counts (retired_counts _ c)
  exact ⟨u, [], portWrite_sends (by rw [same.core]; exact machine) legal sent, all.same, all.raises kind address, all.core⟩

theorem scrFaultSend_drops (legal : sev.toNat < 8) (idle : (s.core c).fltBusy = false) (no : ¬sendable kind) :
    Leads (.scrFaultSend { core := c } addr kind sev) s fun u => SameMemories s u ∧ Raises c.eng.sheet.val 0x242 0 s u := by
  refine leads_faultSend_done ready machine mayAddr maySend fun t same => ?_
  obtain ⟨u, m, sent, kind, address, tells⟩ := scribeSend_drops (inParcel.of_cells same.cells) (by rw [same.core]; exact idle) no sev
  have all := (same.thenTells tells).counts (retired_counts _ c)
  exact ⟨u, [], portWrite_sends (by rw [same.core]; exact machine) legal sent, all.same, all.raises kind address⟩

end

/-! ### SCRIBE_WINDOW_LOAD -/

section
variable (ready : s.coreReady c) {w : Fin 16} {a : BitVec 28} {n : Nat} (may : (s.core c).pmpOk 0 (inWindow w a) n = true)
include ready may

theorem leads_windowLoad {P : State → Prop} (hp : ∀ t, Polled c s t → P (t.endAccess c true (inWindow w a)
      (if a.toNat + n ≤ 2 ^ 28 then t.windowLoad c w.val a.toNat n {} else .fault 5))) :
    Leads (.scribeWindowLoad { core := c } w a n {}) s P := by
  refine leads_rowLoad ready (a := inWindow w a) (n := n) (ew := 1) (d := {}) rfl fun t polled => ?_
  rw [coreLoad_window (by rw [polled.same.core]; exact may)]
  exact hp t polled

/-- A load that leaves its window or reaches no tensor (R223). -/
theorem scribeWindowLoad_faults (inParcel : InParcel c s) (out : 2 ^ 28 < a.toNat + n ∨ s.windowAddr c w.val a.toNat n = none) :
    Leads (.scribeWindowLoad { core := c } w a n {}) s fun u => SameMemories s u ∧ Raises c.eng.sheet.val 0x242 0 s u ∧
      u.core c = { (s.core c).trap false 5 (inWindow w a) with halted := true } := by
  refine leads_windowLoad ready may fun t polled => ?_
  have fault : (if a.toNat + n ≤ 2 ^ 28 then t.windowLoad c w.val a.toNat n {} else .fault 5) = CoreAcc.fault 5 := by
    split
    case isFalse => rfl
    case isTrue inside =>
      exact windowLoad_fault ((polled.same.windowAddr _ _ _).trans (out.resolve_left (Nat.not_lt.2 inside))) {}
  rw [fault, endAccess_fault true _ (.inl rfl)]
  exact polled.halts inParcel 5 _

variable {x : Tensor} {b : Nat} (inside : a.toNat + n ≤ 2 ^ 28) (reach : s.windowAddr c w.val a.toNat n = some (x, b))
include inside reach

theorem scribeWindowLoad_waits (busy : s.stalls c.eng.sheet.val b n = true) :
    Leads (.scribeWindowLoad { core := c } w a n {}) s fun u => CoreBecomes c (s.core c) s u ∧ u.out = s.out := by
  refine leads_windowLoad ready may fun t polled => ?_
  rw [if_pos inside, windowLoad_waits ((polled.same.windowAddr _ _ _).trans reach) ((polled.same.stalls _ _ _).trans busy)]
  exact ⟨polled.same, polled.out⟩

/-- A load returns the bytes of DRAM and taints the core where they hold poison (R223, R226). -/
theorem scribeWindowLoad_loads (free : s.stalls c.eng.sheet.val b n = false) :
    Leads (.scribeWindowLoad { core := c } w a n {}) s fun u => SameMemories s u ∧
      u.loads = s.loads ++ [.scribeData c (mread (s.sheet c.eng.sheet.val).mem.dram b n)] ∧
      u.core c = { s.core c with tainted := (s.core c).tainted || s.rangePoison x c.eng.sheet.val b n } := by
  refine leads_windowLoad ready may fun t polled => ?_
  obtain ⟨u, read, cells, core, loads⟩ :=
    windowLoad_reads ((polled.same.windowAddr _ _ _).trans reach) ((polled.same.stalls _ _ _).trans free)
  have counts := endAccess_counts t u c true (inWindow w a) (mread (t.sheet c.eng.sheet.val).mem.dram b n)
  have before : t.loads = s.loads := by rw [State.loads, polled.out, State.loads]
  rw [if_pos inside, read]
  refine ⟨cells_sameMemories ((polled.same.cells.trans cells).trans counts.still.cells), ?_, ?_⟩
  · rw [endAccess_loads, loads, before, polled.same.mem]
  · rw [(counts.coreBecomes c).core, core, polled.same.core, polled.same.rangePoison]

end

/-! ### SCRIBE_WINDOW_STORE -/

section
variable (ready : s.coreReady c) {w : Fin 16} {a : BitVec 28} {l : List Byte} (may : (s.core c).pmpOk 1 (inWindow w a) l.length = true)
include ready may

theorem leads_windowStore {P : State → Prop} (hp : ∀ t, Polled c s t → P (t.endAccess c false (inWindow w a)
      (if a.toNat + l.length ≤ 2 ^ 28 then t.windowStore c w.val a.toNat l {} else .fault 7))) :
    Leads (.scribeWindowStore { core := c } w a l {}) s P := by
  refine leads_rowStore ready (a := inWindow w a) (ew := 1) (b := l) (d := {}) rfl fun t polled => ?_
  rw [coreStore_window (by rw [polled.same.core]; exact may)]
  exact hp t polled

/-- A store that leaves its window, or that its window is not open to (R224). -/
theorem scribeWindowStore_faults (inParcel : InParcel c s)
    (out : 2 ^ 28 < a.toNat + l.length ∨ ∀ x b, s.windowAddr c w.val a.toNat l.length = some (x, b) → ¬(s.core c).opensTo w.val x) :
    Leads (.scribeWindowStore { core := c } w a l {}) s fun u => SameMemories s u ∧ Raises c.eng.sheet.val 0x242 0 s u ∧
      u.core c = { (s.core c).trap false 7 (inWindow w a) with halted := true } := by
  refine leads_windowStore ready may fun t polled => ?_
  have fault : (if a.toNat + l.length ≤ 2 ^ 28 then t.windowStore c w.val a.toNat l {} else .fault 7) = CoreAcc.fault 7 := by
    split
    case isFalse => rfl
    case isTrue inside =>
      refine windowStore_fault (fun x b reach => ?_) {}
      rw [polled.same.core]
      exact out.resolve_left (Nat.not_lt.2 inside) x b ((polled.same.windowAddr _ _ _).symm.trans reach)
  rw [fault, endAccess_fault false _ (.inr rfl)]
  exact polled.halts inParcel 7 _

variable {x : Tensor} {b : Nat} (inside : a.toNat + l.length ≤ 2 ^ 28) (reach : s.windowAddr c w.val a.toNat l.length = some (x, b))
  (opens : (s.core c).opensTo w.val x)
include inside reach opens

theorem scribeWindowStore_waits (busy : s.stalls c.eng.sheet.val b l.length = true) :
    Leads (.scribeWindowStore { core := c } w a l {}) s fun u => CoreBecomes c (s.core c) s u ∧ u.out = s.out := by
  refine leads_windowStore ready may fun t polled => ?_
  rw [if_pos inside, windowStore_waits ((polled.same.windowAddr _ _ _).trans reach) (by rw [polled.same.core]; exact opens)
    ((polled.same.stalls _ _ _).trans busy)]
  exact ⟨polled.same, polled.out⟩

/-- A store writes its bytes into DRAM, and no other byte (R224). -/
theorem scribeWindowStore_stores (free : s.stalls c.eng.sheet.val b l.length = false) :
    Leads (.scribeWindowStore { core := c } w a l {}) s fun u => SameStores s u ∧ SameAccs s u ∧
      DramTakes c.eng.sheet.val b l.length (fun i => l.getD i 0) s u ∧ u.core c = s.core c := by
  refine leads_windowStore ready may fun t polled => ?_
  obtain ⟨u, wrote, puts, core⟩ := windowStore_writes ((polled.same.windowAddr _ _ _).trans reach) (by rw [polled.same.core]; exact opens)
    ((polled.same.stalls _ _ _).trans free)
  have counts := endAccess_counts t u c false (inWindow w a) []
  have all := (puts.before polled.same.cells).after counts.still.cells
  rw [if_pos inside, wrote]
  exact ⟨all.stores, all.accs, all.takes, by rw [(counts.coreBecomes c).core, core, polled.same.core]⟩

end

/-! ### SCRIBE_EXCEPTION and SCRIBE_PARITY_ERROR -/

section
variable (ready : s.coreReady c) (inParcel : InParcel c s)
include ready inParcel

theorem scribeException_halts (cause : Word) : Leads (.scribeException { core := c } cause) s fun u => SameMemories s u ∧
    Raises c.eng.sheet.val 0x242 0 s u ∧ u.core c = { (s.core c).trap false cause.toNat 0 with halted := true } :=
  leads_ready ready (g := fun x => if x.2 then x.1.scribeHalt c cause.toNat 0 else x.1) rfl fun _ polled => polled.halts inParcel _ _

theorem scribeParityError_reports : Leads (.scribeParityError { core := c }) s fun u => SameMemories s u ∧
    Raises c.eng.sheet.val 0x241 0 s u ∧ u.core c = s.core c := by
  refine leads_ready ready (g := fun x => if x.1.coreLive c then x.1.scribeFault c 0x241 0 0 false 0 else x.1) rfl fun t polled => ?_
  obtain ⟨m, kind, address, tells⟩ := scribeFault_tells (inParcel.of_cells polled.same.cells) 0x241 0 0 false 0 (by decide)
  rw [polled.same.core] at tells
  have all := polled.same.thenTells tells
  rw [if_pos (polled.same.coreLive.trans ready.1)]
  exact ⟨all.same, all.raises kind address, all.core⟩

end

end Sys2Proof.Machine

open Sys2Proof Sys2Proof.Machine

/-- Settles O40: each row comes to one access of its core, and the access is a store of a register, a window access or a fault. -/
theorem scribeWindowsAndFaults : Obligations.ScribeWindowsAndFaults := by
  intro c s p phys small cw h k may waits halts at_
  have inParcel : InParcel c s := ⟨p, phys, small⟩
  refine ⟨fun w val a n b addr kind sev cause row hrow => ?_, fun ready => ⟨fun machine => ⟨fun w val may => ?_, fun addr kind sev mayAddr maySend => ?_⟩,
    fun w a n may => ?_, fun w a l may => ?_, scribeException_halts ready inParcel, scribeParityError_reports ready inParcel⟩⟩
  · have runs : RunsCode row := by
      simp only [List.mem_cons, List.not_mem_nil, or_false] at hrow
      rcases hrow with rfl | rfl | rfl | rfl | rfl | rfl
      · exact runsCode_ports _ fun _ _ => rfl
      · exact runsCode_load _ _ _ _ fun _ _ => rfl
      · exact runsCode_store _ _ _ _ fun _ _ => rfl
      · exact runsCode_ports _ fun _ _ => rfl
      · exact runsCode_exception cause
      · exact runsCode_parity
    exact ⟨runs.holds, fun _ r _ => runs.cons r⟩
  · refine ⟨fun kept => ?_, scrDwinWrite_refused ready inParcel machine may⟩
    obtain ⟨u, run, same, gains, core⟩ := scrDwinWrite_kept ready inParcel machine may kept
    refine leads_of run ⟨same, gains, fun i => ?_, by rw [core]⟩
    rw [core]
    exact tget_tset _ _ _ _ _
  · exact ⟨scrFaultSend_reserved ready inParcel machine mayAddr maySend, scrFaultSend_waits ready machine mayAddr maySend,
      scrFaultSend_sends ready inParcel machine mayAddr maySend, scrFaultSend_drops ready inParcel machine mayAddr maySend⟩
  · exact ⟨scribeWindowLoad_faults ready may inParcel, fun x b inside reach =>
      ⟨scribeWindowLoad_waits ready may inside reach, scribeWindowLoad_loads ready may inside reach⟩⟩
  · exact ⟨fun x b inside reach opens => ⟨scribeWindowStore_waits ready may inside reach opens, scribeWindowStore_stores ready may inside reach opens⟩,
      scribeWindowStore_faults ready may inParcel⟩
end

section
/-! SUPPORT. What a host's access answers and reports: replies, messages of device-level units, and that counting is neither (09 R261,
17 R453). -/

namespace Sys2Proof.Machine

variable {s t u : State}

/-! ### Counting puts out interrupts alone -/

section
variable {p : Out → Bool} (silent : ∀ f v, p (.msix f v) = false)

@[simp] theorem setBank_out (s : State) (b : BankId) (v : Bank) : (s.setBank b v).out = s.out := by cases b <;> rfl

theorem emit_filter {o : Out} (h : p o = false) (s : State) : (s.emit o).out.filter p = s.out.filter p := by
  simp [State.emit, List.filter_append, h]

include silent

theorem msixOut_filter (s : State) (f : BitVec 4) (v : BitVec 12) : (s.msixOut f v).out.filter p = s.out.filter p := by
  unfold State.msixOut
  split
  · rfl
  · exact emit_filter (silent f v) s

theorem counterWrap_filter (s : State) (b : BankId) (i pc : Nat) (n : Option Nat) :
    (s.counterWrap b i pc n).out.filter p = s.out.filter p := by
  unfold State.counterWrap
  dsimp only
  split
  · rw [msixOut_filter silent, setBank_out]
  · rw [setBank_out]

theorem counterAdd_filter (s : State) (b : BankId) (i n pc : Nat) (x : Option Nat) :
    (s.counterAdd b i n pc x).out.filter p = s.out.filter p := by
  unfold State.counterAdd
  dsimp only
  repeat' split
  all_goals simp only [counterWrap_filter silent, setBank_out]

/-- What an event puts out beside interrupts is nothing (17 R454). -/
theorem bankEvent_filter (s : State) (b : BankId) (e : CntEvent) (pc : Nat) (n : Option Nat) :
    (s.bankEvent b e pc n).out.filter p = s.out.filter p := by
  unfold State.bankEvent
  split
  · rfl
  · refine forEach_keeps (fun t => t.out.filter p) _ (fun t i => ?_) _ s
    split
    · exact counterAdd_filter silent _ _ _ _ _ _
    · rfl

end

/-! ### Answers and reports -/

/-- The host is answered `l` and the device collector is told `m`; no byte of the memories moves. -/
structure Answers (l : List Out) (m : List FaultMsg) (s u : State) : Prop where
  cells : SheetsKeep Sheet.cells s u
  replies : u.replies = s.replies ++ l
  wire : u.devWire = s.devWire ++ m

section
variable {l l' : List Out} {m m' : List FaultMsg}

theorem Answers.trans (h : Answers l m s t) (g : Answers l' m' t u) : Answers (l ++ l') (m ++ m') s u :=
  ⟨h.cells.trans g.cells, by rw [g.replies, h.replies, List.append_assoc], by rw [g.wire, h.wire, List.append_assoc]⟩

/-- What a state in which nothing was answered and reported leads to. -/
theorem Answers.after (h : Answers [] [] s t) (g : Answers l m t u) : Answers l m s u := h.trans g

theorem Answers.same (h : Answers l m s u) : SameMemories s u := cells_sameMemories h.cells

theorem Answers.raisesDev {x : FaultMsg} {k : BitVec 12} (h : Answers l [x] s u) (kind : x.kind = k) : RaisesDev k s u :=
  ⟨x, h.wire, kind⟩

theorem Answers.of_same (sheets : t.sheets = s.sheets) (out : t.out = s.out) (wire : t.devWire = s.devWire) : Answers [] [] s t :=
  ⟨.of_sheets sheets, by rw [State.replies, out, List.append_nil, State.replies], by rw [wire, List.append_nil]⟩

end

theorem Answers.refl (s : State) : Answers [] [] s s := .of_same rfl rfl rfl

theorem sheetEvent_answers (s : State) (i : Nat) (ev : CntEvent) : Answers [] [] s (s.sheetEvent i ev) := by
  have counts := sheetEvent_counts s i ev
  refine ⟨counts.still.cells, (bankEvent_filter (fun _ _ => rfl) s _ _ _ _).trans (List.append_nil _).symm, ?_⟩
  obtain ⟨o, mp, sh, b, pb, whole⟩ := counts.whole
  rw [whole, List.append_nil]

theorem emit_answers (s : State) {o : Out} (h : o.isReply = true) : Answers [o] [] s (s.emit o) :=
  ⟨.of_sheets rfl, by simp [State.replies, State.emit, List.filter_append, h], (List.append_nil _).symm⟩

/-- A message of a unit above the sheets, of no kind that interrupts I3C, is one on the way to the device collector (13 R365). -/
theorem sendFault_answers (s : State) {f : FaultInfo} (level : 4 < srcLevel f.source) (hk : f.kind.toNat / 0x100 ≠ 6) :
    ∃ m : FaultMsg, m.kind = f.kind ∧ Answers [] [m] s (s.sendFault f) := by
  unfold State.sendFault
  dsimp only
  rw [if_neg (Nat.not_le.2 level), if_neg hk]
  exact ⟨_, rfl, .of_sheets rfl, (List.append_nil _).symm, rfl⟩

theorem hostFault_answers (s : State) {k : BitVec 12} (op : BitVec 16) (hk : k.toNat / 0x100 ≠ 6) :
    ∃ m : FaultMsg, m.kind = k ∧ Answers [] [m] s (s.hostFault k op) :=
  sendFault_answers s (f := { source := devSource 0, kind := k, op := op }) (by decide : 4 < srcLevel (devSource 0)) hk

theorem ecbFault_answers (s : State) {k : BitVec 12} (hk : k.toNat / 0x100 ≠ 6) : ∃ m, Answers [] m s (s.ecbFault k) := by
  obtain ⟨m, -, told⟩ := sendFault_answers s (f := { source := svcSource 1, kind := k }) (by decide : 4 < srcLevel (svcSource 1)) hk
  exact ⟨[m], told⟩

theorem modEcb_answers (s : State) (f : Ecb → Ecb) : Answers [] [] s (s.modEcb f) := .of_same rfl rfl rfl

end Sys2Proof.Machine
end

section
/-! SUPPORT. WIN_4 (08 R239, R240, R253; 09 R260): where an access goes, and what it answers, writes or refuses there. -/

namespace Sys2Proof.Machine

variable {s t u : State} {o a n h p x : Nat} {l : List Byte}

/-! ### The pages of an access -/

theorem lookPages_agree (s : State) {i : Nat} {pages : List Nat} (op : BitVec 16)
    (agree : ∀ g ∈ pages, (s.sheet i).mem.differs g = false) : s.lookPages i pages op = s := by
  unfold State.lookPages
  rw [List.filter_eq_nil_iff.2 fun g hg => by rw [agree g hg]; exact Bool.false_ne_true]
  rfl

/-- Pages that WIN_4 reaches agree in their copies (R240). -/
theorem win4Pages_agree {m : MemPath} {pages : List Nat} (open_ : m.win4Pages pages = true) : ∀ g ∈ pages, m.differs g = false := by
  intro g hg
  have page := List.all_eq_true.1 open_ g hg
  simp only [Bool.and_eq_true, Bool.not_eq_true'] at page
  exact page.1.1

theorem upset_none_answers (s : State) (i : Nat) : Answers [] [] s (s.upset i {}) :=
  ⟨(upset_none_still s i).cells, (List.append_nil _).symm, (List.append_nil _).symm⟩

/-- An undisturbed look at pages that agree finds the sheet's memory path as it is and reports nothing. -/
theorem upset_lookPages_agree {pages : List Nat} (op : BitVec 16) (agree : ∀ g ∈ pages, (s.sheet h).mem.differs g = false) :
    (s.upset h {}).lookPages h pages op = s.upset h {} :=
  lookPages_agree _ op fun g hg => by rw [upset_none_mem]; exact agree g hg

/-! ### Refusals -/

/-- An access that R240 refuses: no byte moves, and it is answered with Unsupported Request and reported. -/
def Refuses (s u : State) : Prop := SameMemories s u ∧ u.replies = s.replies ++ [.unsupportedRequest] ∧ RaisesDev 0x407 s u

theorem Answers.refuses (before : Answers [] [] s t) (wr : Bool) : Refuses s (t.win4Refused wr) := by
  obtain ⟨m, kind, told⟩ := hostFault_answers (k := 0x407) (t.emit .unsupportedRequest) (if wr then 8 else 7) (by decide)
  have all := before.after ((emit_answers t (o := .unsupportedRequest) rfl).trans told)
  exact ⟨all.same, all.replies, all.raisesDev kind⟩

/-! ### Reads and writes, region by region -/

theorem win4Read_dram (region : regionOf a n = .dram h x) (open_ : (s.sheet h).mem.win4Pages (pagesOf x n) = true) :
    Answers [.readReply (mread (s.sheet h).mem.dram x n)] [] s (s.win4Read a n {}) := by
  unfold State.win4Read
  rw [region]
  dsimp only
  rw [upset_lookPages_agree 1 (win4Pages_agree open_), upset_none_mem, open_, Bool.not_true, if_neg Bool.false_ne_true]
  have counted (ev : CntEvent) := (upset_none_answers s h).trans (sheetEvent_answers _ h ev)
  rw [cells_dram (counted _).cells]
  exact (counted _).after (emit_answers _ rfl)

theorem win4Read_dram_refuses (region : regionOf a n = .dram h x) (closed : (s.sheet h).mem.win4Pages (pagesOf x n) = false)
    (agree : ∀ g ∈ pagesOf x n, (s.sheet h).mem.differs g = false) : Refuses s (s.win4Read a n {}) := by
  unfold State.win4Read
  rw [region]
  dsimp only
  rw [upset_lookPages_agree 1 agree, upset_none_mem, closed, Bool.not_false, if_pos rfl]
  exact (upset_none_answers s h).refuses false

theorem win4Write_dram (region : regionOf a l.length = .dram h x) (open_ : (s.sheet h).mem.win4Pages (pagesOf x l.length) = true) :
    PutsDram h x l s (s.win4Write a l {}) := by
  unfold State.win4Write
  rw [region]
  dsimp only
  rw [upset_lookPages_agree 2 (win4Pages_agree open_), upset_none_mem, open_, Bool.not_true, if_neg Bool.false_ne_true]
  exact (modMem_puts (by intro _; rfl) (by intro _; rfl)).before ((upset_none_answers s h).trans (sheetEvent_answers _ h _)).cells

theorem win4Write_dram_refuses (region : regionOf a l.length = .dram h x) (closed : (s.sheet h).mem.win4Pages (pagesOf x l.length) = false)
    (agree : ∀ g ∈ pagesOf x l.length, (s.sheet h).mem.differs g = false) : Refuses s (s.win4Write a l {}) := by
  unfold State.win4Write
  rw [region]
  dsimp only
  rw [upset_lookPages_agree 2 agree, upset_none_mem, closed, Bool.not_false, if_pos rfl]
  exact (upset_none_answers s h).refuses true

/-- A change of one parcel's memories by its physical index. -/
theorem modParcel_lands (s : State) (h p : Nat) (f : ParcelMem → ParcelMem) :
    Lands h p (f ((s.sheet h).parcel p)).cells s (s.modSheet h fun y => y.modParcel p f) := by
  refine ⟨SheetsKeep.modSheet (π := fun y => y.mem.dram) h _ fun _ => rfl, fun i q => ?_⟩
  rw [sheet_modSheet]
  by_cases hi : i = h
  · subst hi
    rw [if_pos rfl, parcel_modParcel]
    by_cases hq : q = p
    · subst hq
      rw [if_pos rfl, if_pos ⟨rfl, rfl⟩]
    · rw [if_neg hq, if_neg fun k => hq k.2]
  · rw [if_neg hi, if_neg fun k => hi k.1]

/-- The sheet whose SRAM a region is. -/
def DevRegion.sram : DevRegion → Option Nat
  | .store h _ _ => some h
  | .acc h _ _ => some h
  | .staging h _ => some h
  | _ => none

/-- The bytes that stand in a region of SRAM. -/
def State.sramBytes (s : State) (n : Nat) : DevRegion → List Byte
  | .store h p x => mread ((s.sheet h).parcel p).store x n
  | .acc h p x => mread ((s.sheet h).parcel p).acc x n
  | .staging h x => mread (s.sheet h).staging x n
  | _ => []

theorem DevRegion.sram_cases {r : DevRegion} (sheet : r.sram = some h) :
    (∃ p x, r = .store h p x) ∨ (∃ p x, r = .acc h p x) ∨ ∃ x, r = .staging h x := by
  cases r
  case store i p x => exact .inl ⟨p, x, by rw [Option.some.inj sheet]⟩
  case acc i p x => exact .inr (.inl ⟨p, x, by rw [Option.some.inj sheet]⟩)
  case staging i x => exact .inr (.inr ⟨x, by rw [Option.some.inj sheet]⟩)
  all_goals cases sheet

theorem win4Read_sram (region : (regionOf a n).sram = some h) (open_ : (s.sheet h).win4Sram = true) :
    Answers [.readReply (s.sramBytes n (regionOf a n))] [] s (s.win4Read a n {}) := by
  rcases DevRegion.sram_cases region with ⟨p, x, e⟩ | ⟨p, x, e⟩ | ⟨x, e⟩
  all_goals
    rw [State.win4Read, e]
    dsimp only
    rw [open_, Bool.not_true, if_neg Bool.false_ne_true]
    exact emit_answers s rfl

theorem win4Read_sram_refuses (region : (regionOf a n).sram = some h) (closed : (s.sheet h).win4Sram = false) :
    Refuses s (s.win4Read a n {}) := by
  have refused : s.win4Read a n {} = s.win4Refused false := by
    rcases DevRegion.sram_cases region with ⟨p, x, e⟩ | ⟨p, x, e⟩ | ⟨x, e⟩
    all_goals simp only [State.win4Read, e, closed, Bool.not_false, if_true]
  rw [refused]
  exact (Answers.refl s).refuses false

theorem win4Write_sram_refuses (region : (regionOf a l.length).sram = some h) (closed : (s.sheet h).win4Sram = false) :
    Refuses s (s.win4Write a l {}) := by
  have refused : s.win4Write a l {} = s.win4Refused true := by
    rcases DevRegion.sram_cases region with ⟨p, x, e⟩ | ⟨p, x, e⟩ | ⟨x, e⟩
    all_goals simp only [State.win4Write, e, closed, Bool.not_false, if_true]
  rw [refused]
  exact (Answers.refl s).refuses true

theorem win4Write_store (region : regionOf a l.length = .store h p x) (open_ : (s.sheet h).win4Sram = true) :
    s.win4Write a l {} = s.modSheet h fun y => y.modParcel p fun m => { m with store := mwrite m.store x l } := by
  simp only [State.win4Write, region, open_, Bool.not_true, Bool.false_eq_true, if_false]

theorem win4Write_acc (region : regionOf a l.length = .acc h p x) (open_ : (s.sheet h).win4Sram = true) :
    s.win4Write a l {} = s.modSheet h fun y => y.modParcel p fun m => { m with acc := mwrite m.acc x l } := by
  simp only [State.win4Write, region, open_, Bool.not_true, Bool.false_eq_true, if_false]

theorem win4Write_staging (region : regionOf a l.length = .staging h x) (open_ : (s.sheet h).win4Sram = true) :
    s.win4Write a l {} = s.modSheet h fun y => { y with staging := mwrite y.staging x l } := by
  simp only [State.win4Write, region, open_, Bool.not_true, Bool.false_eq_true, if_false]

theorem win4Read_reserved_refuses (region : regionOf a n = .reserved) : Refuses s (s.win4Read a n {}) := by
  rw [State.win4Read, region]
  exact (Answers.refl s).refuses false

theorem win4Write_reserved_refuses (region : regionOf a l.length = .reserved) : Refuses s (s.win4Write a l {}) := by
  rw [State.win4Write, region]
  exact (Answers.refl s).refuses true

/-- Bytes written into an accumulator memory. -/
theorem Lands.accTakes {m : Mem × Mem} (k : Lands h p m s u) (hm : m.2 = mwrite ((s.sheet h).parcel p).acc x l) (i q b : Nat) :
    u.accAt i q b = if i = h ∧ q = p ∧ x ≤ b ∧ b < x + l.length then l.getD (b - x) 0 else s.accAt i q b := by
  have c := congrArg Prod.snd (k.parcel i q)
  by_cases e : i = h ∧ q = p
  · obtain ⟨rfl, rfl⟩ := e
    rw [if_pos ⟨rfl, rfl⟩] at c
    have byte : u.accAt i q b = mget (mwrite ((s.sheet i).parcel q).acc x l) b := congrArg (mget · b) (c.trans hm)
    rw [byte, mget_mwrite]
    simp only [true_and]
    rfl
  · rw [if_neg e] at c
    rw [if_neg fun y => e ⟨y.1, y.2.1⟩]
    exact congrArg (mget · b) c

/-- Bytes written into the staging SRAM of a sheet. -/
theorem mget_staging_written (s : State) (h x i b : Nat) (l : List Byte) :
    mget ((s.modSheet h fun y => { y with staging := mwrite y.staging x l }).sheet i).staging b =
      if i = h ∧ x ≤ b ∧ b < x + l.length then l.getD (b - x) 0 else mget (s.sheet i).staging b := by
  rw [sheet_modSheet]
  by_cases e : i = h
  · subst e
    rw [if_pos rfl]
    simp only [mget_mwrite, true_and]
  · rw [if_neg e, if_neg fun y => e y.1]

/-! ### The row -/

theorem win4Waits_dram (s : State) (region : regionOf a n = .dram h x) : s.win4Waits a n = s.stalls h x n := by
  rw [State.win4Waits, region]

/-- An access to SRAM waits for no refresh. -/
theorem win4Waits_sram (s : State) (region : (regionOf a n).sram = some h) : s.win4Waits a n = false := by
  unfold State.win4Waits
  split
  · next e => rw [e] at region; cases region
  · rfl

theorem win4Waits_reserved (s : State) (region : regionOf a n = .reserved) : s.win4Waits a n = false := by
  rw [State.win4Waits, region]

section
variable {P : State → Prop} (live : s.dstate ≠ .safe)
include live

theorem leads_win4Read (free : s.win4Waits (s.win4Addr o) n = false) (hp : P (s.win4Read (s.win4Addr o) n {})) :
    Leads (.win4Access o none n {}) s P := by
  refine leads_of (congrArg Host.Outcome.next ?_) hp
  show s.doWin4 o none n {} = _
  simp [State.doWin4, live, free]

theorem leads_win4Write (free : s.win4Waits (s.win4Addr o) l.length = false) (hp : P (s.win4Write (s.win4Addr o) l {})) (k : Nat) :
    Leads (.win4Access o (some l) k {}) s P := by
  refine leads_of (congrArg Host.Outcome.next ?_) hp
  show s.doWin4 o (some l) k {} = _
  simp [State.doWin4, live, free]

/-- An access that waits for nothing and that R240 refuses, whether it reads or writes. -/
theorem win4Access_refuses (free : s.win4Waits (s.win4Addr o) n = false) (read : Refuses s (s.win4Read (s.win4Addr o) n {}))
    (write : ∀ l, l.length = n → Refuses s (s.win4Write (s.win4Addr o) l {})) :
    Leads (.win4Access o none n {}) s (Refuses s) ∧
      ∀ (b : List Byte) (k : Nat), b.length = n → Leads (.win4Access o (some b) k {}) s (Refuses s) :=
  ⟨leads_win4Read live free read, fun b k hb => leads_win4Write live (by rw [hb]; exact free) (write b hb) k⟩

/-- SRAM of a sheet in SERVICE or OFF is refused (R240; log 35). -/
theorem win4Access_sram_refuses (region : (regionOf (s.win4Addr o) n).sram = some h) (closed : (s.sheet h).win4Sram = false) :
    Leads (.win4Access o none n {}) s (Refuses s) ∧
      ∀ (b : List Byte) (k : Nat), b.length = n → Leads (.win4Access o (some b) k {}) s (Refuses s) :=
  win4Access_refuses live (win4Waits_sram s region) (win4Read_sram_refuses region closed) fun _ hb =>
    win4Write_sram_refuses (by rw [hb]; exact region) closed

/-- SRAM of another sheet answers a read with its bytes. -/
theorem win4Access_sram_reads (region : (regionOf (s.win4Addr o) n).sram = some h) (open_ : (s.sheet h).win4Sram = true) :
    Leads (.win4Access o none n {}) s fun u => SameMemories s u ∧
      u.replies = s.replies ++ [.readReply (s.sramBytes n (regionOf (s.win4Addr o) n))] :=
  leads_win4Read live (win4Waits_sram s region) ⟨(win4Read_sram region open_).same, (win4Read_sram region open_).replies⟩

end

end Sys2Proof.Machine
end

section
/-! SUPPORT. WIN_0 (00 R10; 09 R261, R262): refused accesses, accepted reads and what a read does to its register. -/

namespace Sys2Proof.Machine

variable {s : State}

/-! ### What a read does to its register (16 R429, R432) -/

/-- A request to the DRBG reports and answers nothing, and moves no byte of the memories (16 R428). -/
theorem drbgDraw_answers (s : State) (n : Nat) (fresh : Bool) (src : BitVec 16) (c q : Nat) :
    ∃ m, Answers [] m s (s.drbgDraw n fresh src c q).1 := by
  have prepared : ∃ m, Answers [] m s (s.drbgPrepare fresh) := by
    unfold State.drbgPrepare
    dsimp only
    split
    · exact ⟨_, modEcb_answers s _⟩
    · split
      · obtain ⟨m, told⟩ := ecbFault_answers (s.modEcb fun e => { e with stretch := true }) (k := 0x510) (by decide)
        exact ⟨m, (modEcb_answers s _).after told⟩
      · exact ⟨_, .refl s⟩
  have limit (t : State) : ∃ m, Answers [] m t (if t.ecb.reqs.toNat = reqsMax then t.ecbFault 0x511 else t) := by
    split
    · exact ecbFault_answers t (by decide)
    · exact ⟨_, .refl t⟩
  unfold State.drbgDraw
  dsimp only
  split
  · exact ⟨_, .refl s⟩
  · obtain ⟨m, first⟩ := prepared
    split
    · exact ⟨m, first⟩
    · obtain ⟨m', last⟩ := limit ((s.drbgPrepare fresh).modEcb fun e =>
        { e with drbg := (Config.drbgGenerate (s.drbgPrepare fresh).ecb.drbg ((s.drbgPrepare fresh).drbgExtra src c q) n).2, reqs := e.reqs + 1 })
      exact ⟨m ++ m', first.trans ((modEcb_answers _ _).after last)⟩

theorem refillHost_answers (s : State) : ∃ m, Answers [] m s s.refillHost := by
  obtain ⟨m, drawn⟩ := drbgDraw_answers s 2048 false (svcSource 1) 0 0
  unfold State.refillHost
  dsimp only
  split
  · exact ⟨_, .refl s⟩
  · split
    · exact ⟨m ++ [], drawn.trans (modEcb_answers _ _)⟩
    · exact ⟨m, drawn⟩

theorem consumeRng_answers (s : State) : ∃ m, Answers [] m s s.consumeRng := by
  unfold State.consumeRng
  split
  · exact ⟨_, modEcb_answers s _⟩
  · obtain ⟨m, told⟩ := refillHost_answers (s.modEcb fun e => { e with hostBuf := e.hostBuf.drop 8 })
    exact ⟨m, (modEcb_answers s _).after told⟩

theorem consumeRaw_answers (s : State) : Answers [] [] s s.consumeRaw := by
  unfold State.consumeRaw
  split
  · exact .of_same rfl rfl rfl
  · exact .refl s

/-- What a read does to its register answers nothing more and moves no byte of the memories. -/
theorem readEffect_answers (s : State) (a : BadAccess) : ∃ m, Answers [] m s (s.readEffect a) := by
  unfold State.readEffect
  split
  · exact ⟨_, .refl s⟩
  · split
    · exact consumeRng_answers s
    · exact ⟨_, consumeRaw_answers s⟩
    · exact ⟨_, .refl s⟩

/-! ### Accesses -/

/-- An unaligned write is dropped and reported (09 R261). -/
theorem registerWrite_unaligned (live : s.dstate ≠ .safe) {o : Nat} (odd : o % 8 ≠ 0) (v : Word) :
    Leads (.registerWrite o v) s fun u => SameMemories s u ∧ RaisesDev 0x406 s u := by
  obtain ⟨m, kind, told⟩ := hostFault_answers (k := 0x406) s 9 (by decide)
  refine leads_of (t := s.hostFault 0x406) (congrArg Host.Outcome.next ?_) ⟨told.same, told.raisesDev kind⟩
  show s.doRegisterWrite o v = _
  simp [State.doRegisterWrite, odd, live]

/-- A write at an offset at which no register lies changes nothing (00 R8). -/
theorem registerWrite_unmapped {o : Nat} (aligned : o % 8 = 0) (none_ : regOf o = none) (v : Word) : Holds (.registerWrite o v) s := by
  refine congrArg Host.Outcome.next (?_ : s.doRegisterWrite o v = s)
  simp only [State.doRegisterWrite, aligned, none_, ne_eq, not_true_eq_false, if_false]

/-- The kind of an access that is not accepted (09 R261, R262). -/
def refusalKind (a : BadAccess) : BitVec 12 := if a.page.isSome then 0x401 else 0x406

theorem refusal_answers (t : State) (a : BadAccess) : ∃ m : FaultMsg, m.kind = refusalKind a ∧
    Answers [] [m] t (if a.page.isSome then t.hostFault 0x401 8 else t.hostFault 0x406) := by
  unfold refusalKind
  split
  · exact hostFault_answers t 8 (by decide)
  · exact hostFault_answers t 9 (by decide)

theorem win0Access_refused (live : s.dstate ≠ .safe) {a : BadAccess} (bad : accessAccepted a = false) :
    Leads (.win0AccessRefused a) s fun u => SameMemories s u ∧ RaisesDev (refusalKind a) s u ∧
      u.replies = s.replies ++ (if a.write then [] else [.readReply (List.replicate a.width 0)]) := by
  have answered : Answers (if a.write then [] else [.readReply (List.replicate a.width 0)]) [] s
      (if a.write then s else s.emit (.readReply (List.replicate a.width 0))) := by
    split
    · exact .refl s
    · exact emit_answers s rfl
  have still : (if a.write then s else s.emit (.readReply (List.replicate a.width 0))).dstate = s.dstate := by split <;> rfl
  obtain ⟨m, kind, told⟩ := refusal_answers (if a.write then s else s.emit (.readReply (List.replicate a.width 0))) a
  have all := answered.trans told
  rw [List.append_nil, List.nil_append] at all
  refine leads_of (congrArg Host.Outcome.next (?_ : s.doBadAccess a = _)) ⟨all.same, all.raisesDev kind, all.replies⟩
  rw [State.doBadAccess, if_neg (by rw [bad]; exact Bool.false_ne_true)]
  exact if_neg (by rw [still, beq_iff_eq]; exact live)

/-- An accepted read returns its bytes. -/
theorem win0Access_reads {a : BadAccess} (good : accessAccepted a = true) (read : a.write = false) :
    Leads (.win0AccessRefused a) s fun u => SameMemories s u ∧ u.replies = s.replies ++ [.readReply (s.readBytes a)] := by
  obtain ⟨m, after⟩ := readEffect_answers (s.emit (.readReply (s.readBytes a))) a
  have all := (emit_answers s rfl).trans after
  refine leads_of (congrArg Host.Outcome.next (?_ : s.doBadAccess a = _)) ⟨all.same, all.replies⟩
  simp [State.doBadAccess, good, read]

/-- An accepted write acts by rows of its own (log 60). -/
theorem win0Access_write_holds {a : BadAccess} (good : accessAccepted a = true) (write : a.write = true) :
    Holds (.win0AccessRefused a) s := by
  refine congrArg Host.Outcome.next (?_ : s.doBadAccess a = s)
  simp only [State.doBadAccess, good, write, if_true]

end Sys2Proof.Machine
end

section
/-! O41: the host's accesses and the refresh of the stacks (08 R239, R240, R253; 09 R260 to R262), and the statement. -/

namespace Sys2Proof.Machine

variable {s : State}

/-! ### Refresh stalls (R253) -/

theorem length_sinsert {l : List Nat} {x : Nat} (h : x ∉ l) : (sinsert l x).length = l.length + 1 := by
  induction l with
  | nil => rfl
  | cons y l ih =>
    obtain ⟨hxy, hl⟩ := not_or.1 fun m => h (List.mem_cons.2 m)
    unfold sinsert
    split
    · rfl
    · rw [List.length_cons, ih hl, List.length_cons]

theorem mem_sremove {l : List Nat} {x k : Nat} : k ∈ sremove l x ↔ k ≠ x ∧ k ∈ l := by
  rw [sremove, List.mem_filter, bne_iff_ne, and_comm]

/-- The time a row comes at moves no sheet. -/
theorem reach_sheet (s : State) (n i : Nat) : (s.reach n).sheet i = s.sheet i := by
  unfold State.reach
  split <;> rfl

theorem modStalled_stalled (s : State) (h : Nat) (f : List Nat → List Nat) :
    ((s.modMem h fun m => { m with stalled := f m.stalled }).sheet h).mem.stalled = f (s.sheet h).mem.stalled := by
  rw [sheet_modMem, if_pos rfl]

theorem modStalled_cells (s : State) (h : Nat) (f : List Nat → List Nat) :
    SheetsKeep Sheet.cells s (s.modMem h fun m => { m with stalled := f m.stalled }) :=
  (Still.modMem h _ (by intro _; rfl) (by intro _; rfl)).cells

section
variable (h : SheetId) (i : Fin 64)

theorem refreshStart_holds (no : (s.sheet h.val).mem.selfRefresh = true ∨ i.val ∈ (s.sheet h.val).mem.stalled ∨
    2 ≤ (s.sheet h.val).mem.stalled.length) : Holds (.refreshStallStart h i) s := by
  refine congrArg Host.Outcome.next (?_ : s.doRefreshStart h.val i.val = s)
  simp only [State.doRefreshStart, Bool.or_eq_true, List.contains_iff_mem, decide_eq_true_eq, or_assoc, if_pos no]

theorem refreshStart_stalls (awake : (s.sheet h.val).mem.selfRefresh = false) (new : i.val ∉ (s.sheet h.val).mem.stalled)
    (few : (s.sheet h.val).mem.stalled.length < 2) :
    Leads (.refreshStallStart h i) s fun u => SameMemories s u ∧
      (∀ k, k ∈ (u.sheet h.val).mem.stalled ↔ k = i.val ∨ k ∈ (s.sheet h.val).mem.stalled) ∧
      (u.sheet h.val).mem.stalled.length = (s.sheet h.val).mem.stalled.length + 1 := by
  refine leads_of (t := (s.reach (nextRefresh s.now (s.sheet h.val).mem.refreshInterval i.val)).modMem h.val
    fun m => { m with stalled := sinsert m.stalled i.val }) (congrArg Host.Outcome.next (?_ : s.doRefreshStart h.val i.val = _)) ?_
  · simp [State.doRefreshStart, awake, new, few]
  · have reached (n : Nat) : SheetsKeep Sheet.cells s (s.reach n) := fun j => congrArg Sheet.cells (reach_sheet s n j)
    rw [modStalled_stalled _ _ (sinsert · i.val), reach_sheet]
    exact ⟨cells_sameMemories ((reached _).trans (modStalled_cells _ _ (sinsert · i.val))), fun k => mem_sinsert _, length_sinsert new⟩

theorem refreshEnd_holds (no : i.val ∉ (s.sheet h.val).mem.stalled) : Holds (.refreshStallEnd h i) s := by
  refine congrArg Host.Outcome.next (?_ : s.doRefreshEnd h.val i.val = s)
  simp [State.doRefreshEnd, no]

theorem refreshEnd_frees (stalls : i.val ∈ (s.sheet h.val).mem.stalled) :
    Leads (.refreshStallEnd h i) s fun u => SameMemories s u ∧
      ∀ k, k ∈ (u.sheet h.val).mem.stalled ↔ k ≠ i.val ∧ k ∈ (s.sheet h.val).mem.stalled := by
  have counted (t : State) (ev : CntEvent) := (sheetEvent_counts t h.val ev).reports
  have run : s.doRefreshEnd h.val i.val = (({ s with free := s.free + 1 } : State).modMem h.val fun m =>
      { m with stalled := sremove m.stalled i.val }).sheetEvent h.val
        { cls := 3, code := 0x12, inc := Config.freeValue s.free % ((s.sheet h.val).mem.refreshStall + 1) } := by
    simp [State.doRefreshEnd, stalls]
  refine leads_of (congrArg Host.Outcome.next run) ?_
  rw [(counted _ _).mem, modStalled_stalled _ _ (sremove · i.val)]
  exact ⟨cells_sameMemories (((SheetsKeep.of_sheets rfl).trans (modStalled_cells _ _ (sremove · i.val))).trans (counted _ _).still.cells),
    fun k => mem_sremove⟩

end

/-! ### WIN_4, region by region -/

section
variable {o n h p a : Nat} (live : s.dstate ≠ .safe)
include live

theorem win4Access_dram (region : regionOf (s.win4Addr o) n = .dram h a) (free : s.stalls h a n = false)
    (open_ : (s.sheet h).mem.win4Pages (pagesOf a n) = true) :
    (Leads (.win4Access o none n {}) s fun u => SameMemories s u ∧
      u.replies = s.replies ++ [.readReply (mread (s.sheet h).mem.dram a n)]) ∧
    ∀ (b : List Byte) (k : Nat), b.length = n → Leads (.win4Access o (some b) k {}) s fun u =>
      DramTakes h a n (fun i => b.getD i 0) s u ∧ SameStores s u ∧ SameAccs s u := by
  have ready := (win4Waits_dram s region).trans free
  refine ⟨leads_win4Read live ready ⟨(win4Read_dram region open_).same, (win4Read_dram region open_).replies⟩, ?_⟩
  rintro b k rfl
  have puts := win4Write_dram region open_
  exact leads_win4Write live ready ⟨puts.takes, puts.stores, puts.accs⟩ k

theorem win4Access_dram_refuses (region : regionOf (s.win4Addr o) n = .dram h a) (free : s.stalls h a n = false)
    (closed : (s.sheet h).mem.win4Pages (pagesOf a n) = false) (agree : ∀ g ∈ pagesOf a n, (s.sheet h).mem.differs g = false) :
    Leads (.win4Access o none n {}) s (Refuses s) ∧
      ∀ (b : List Byte) (k : Nat), b.length = n → Leads (.win4Access o (some b) k {}) s (Refuses s) := by
  refine win4Access_refuses live ((win4Waits_dram s region).trans free) (win4Read_dram_refuses region closed agree) ?_
  rintro b rfl
  exact win4Write_dram_refuses region closed agree

theorem win4Access_store_writes (region : regionOf (s.win4Addr o) n = .store h p a) (open_ : (s.sheet h).win4Sram = true)
    {b : List Byte} (k : Nat) (hb : b.length = n) : Leads (.win4Access o (some b) k {}) s fun u =>
      StoreTakes h p a n (fun i => b.getD i 0) s u ∧ SameDram s u ∧ SameAccs s u := by
  subst hb
  refine leads_win4Write live (win4Waits_sram s (congrArg DevRegion.sram region)) ?_ k
  rw [win4Write_store region open_]
  have lands := modParcel_lands s h p fun m => { m with store := mwrite m.store a b }
  exact ⟨lands.storeTakes rfl, lands.sameDram, lands.sameAccs rfl⟩

theorem win4Access_acc_writes (region : regionOf (s.win4Addr o) n = .acc h p a) (open_ : (s.sheet h).win4Sram = true)
    {b : List Byte} (k : Nat) (hb : b.length = n) : Leads (.win4Access o (some b) k {}) s fun u => SameDram s u ∧ SameStores s u ∧
      ∀ i q x, u.accAt i q x = if i = h ∧ q = p ∧ a ≤ x ∧ x < a + n then b.getD (x - a) 0 else s.accAt i q x := by
  subst hb
  refine leads_win4Write live (win4Waits_sram s (congrArg DevRegion.sram region)) ?_ k
  rw [win4Write_acc region open_]
  have lands := modParcel_lands s h p fun m => { m with acc := mwrite m.acc a b }
  exact ⟨lands.sameDram, lands.sameStores rfl, lands.accTakes rfl⟩

theorem win4Access_staging_writes (region : regionOf (s.win4Addr o) n = .staging h a) (open_ : (s.sheet h).win4Sram = true)
    {b : List Byte} (k : Nat) (hb : b.length = n) : Leads (.win4Access o (some b) k {}) s fun u => SameMemories s u ∧
      ∀ i x, mget (u.sheet i).staging x =
        if i = h ∧ a ≤ x ∧ x < a + n then b.getD (x - a) 0 else mget (s.sheet i).staging x := by
  subst hb
  refine leads_win4Write live (win4Waits_sram s (congrArg DevRegion.sram region)) ?_ k
  rw [win4Write_staging region open_]
  exact ⟨cells_sameMemories (.modSheet h _ fun _ => rfl), fun i x => mget_staging_written s h a i x b⟩

theorem win4Access_reserved_refuses (region : regionOf (s.win4Addr o) n = .reserved) :
    Leads (.win4Access o none n {}) s (Refuses s) ∧
      ∀ (b : List Byte) (k : Nat), b.length = n → Leads (.win4Access o (some b) k {}) s (Refuses s) := by
  refine win4Access_refuses live (win4Waits_reserved s region) (win4Read_reserved_refuses region) ?_
  rintro b rfl
  exact win4Write_reserved_refuses region

end

/-- In the safe state a read returns zeros, and a write does nothing (14 R399). -/
theorem win4Access_safe (safe : s.dstate = .safe) (o : Nat) :
    (∀ n, Leads (.win4Access o none n {}) s fun u => SameMemories s u ∧
      u.replies = s.replies ++ [.readReply (List.replicate n 0)]) ∧
    ∀ b n, Holds (.win4Access o (some b) n {}) s := by
  refine ⟨fun n => ?_, fun b n => congrArg Host.Outcome.next (?_ : s.doWin4 o (some b) n {} = s)⟩
  · have answered := emit_answers s (o := .readReply (List.replicate n 0)) rfl
    refine leads_of (congrArg Host.Outcome.next (?_ : s.doWin4 o none n {} = _)) ⟨answered.same, answered.replies⟩
    simp [State.doWin4, safe]
  · simp [State.doWin4, safe]

end Sys2Proof.Machine

open Sys2Proof Sys2Proof.Machine

/-- Settles O41: a WIN_4 access goes by the region it reaches, a WIN_0 access by whether it is accepted, a stall by the slices stalled. -/
theorem hostAccessesMemory : Obligations.HostAccessesMemory := by
  refine ⟨fun o s => ?_, fun s => ?_, fun h i s => ?_⟩
  · refine ⟨fun safe => win4Access_safe safe o, fun live => ⟨fun n h a region free => ?_, fun n h p a region => ?_, fun n h p a region => ?_,
      fun n h a region => ?_, fun n region => win4Access_reserved_refuses live region⟩⟩
    · exact ⟨win4Access_dram live region free, win4Access_dram_refuses live region free⟩
    all_goals
      have sram := congrArg DevRegion.sram region
      have reads := win4Access_sram_reads live sram
      rw [region] at reads
      refine ⟨fun open_ => ⟨reads open_, ?_⟩, win4Access_sram_refuses live sram⟩
    · exact fun b k => win4Access_store_writes live region open_ k
    · exact fun b k => win4Access_acc_writes live region open_ k
    · exact fun b k => win4Access_staging_writes live region open_ k
  · exact ⟨fun o v aligned none_ => registerWrite_unmapped aligned none_ v,
      fun live => ⟨fun o v odd => registerWrite_unaligned live odd v, fun a bad => win0Access_refused live bad⟩,
      fun a good => ⟨win0Access_write_holds good, win0Access_reads good⟩⟩
  · exact ⟨refreshStart_holds h i, refreshStart_stalls h i, refreshEnd_holds h i, fun stalls _ => refreshEnd_frees h i stalls⟩
end

section
/-! SUPPORT. What the queue unit's shared operations leave, and what they make of one queue and of its front descriptor (09 R262 to
R292; 13 R365). -/

namespace Sys2Proof.Machine

variable {s t u : State} {q : Nat} {k : BitVec 12}

theorem sheets_sameMemories (h : t.sheets = s.sheets) : SameMemories s t := cells_sameMemories (.of_sheets h)

theorem queue_of_queues (h : t.queues = s.queues) (r : Nat) : t.queue r = s.queue r := by simp only [State.queue, h]

/-! ### Messages of units above the sheets -/

/-- A message of kind `k` goes to the device collector; its source's number and the next free value apart, nothing else moves. -/
def TellsDev (k : BitVec 12) (s u : State) : Prop :=
  ∃ (m : FaultMsg) (n : Table (BitVec 32)), m.kind = k ∧ u = { s with mseq := n, free := s.free + 1, devWire := s.devWire ++ [m] }

section
variable (h : TellsDev k s u)
include h

/-- What sees no message on its way to the device collector reads as before. -/
theorem TellsDev.keeps {β : Type} (π : State → β)
    (hπ : ∀ (x : State) n fr w, π { x with mseq := n, free := fr, devWire := w } = π x) : π u = π s := by
  obtain ⟨m, n, -, rfl⟩ := h
  exact hπ _ _ _ _

theorem TellsDev.raises : RaisesDev k s u := by
  obtain ⟨m, n, kind, rfl⟩ := h
  exact ⟨m, rfl, kind⟩

theorem TellsDev.same : SameMemories s u := sheets_sameMemories (h.keeps State.sheets fun _ _ _ _ => rfl)
theorem TellsDev.queues : u.queues = s.queues := h.keeps State.queues fun _ _ _ _ => rfl

end

/-- A message of a unit above the sheets, of no kind that interrupts I3C (13 R365). -/
theorem sendFault_tells_dev (s : State) {f : FaultInfo} (level : 4 < srcLevel f.source) (hk : f.kind.toNat / 0x100 ≠ 6) :
    TellsDev f.kind s (s.sendFault f) := by
  unfold State.sendFault
  dsimp only
  rw [if_neg (Nat.not_le.2 level), if_neg hk]
  exact ⟨_, _, rfl, rfl⟩

theorem hostFault_tells (s : State) {k : BitVec 12} (op : BitVec 16) (hk : k.toNat / 0x100 ≠ 6) : TellsDev k s (s.hostFault k op) :=
  sendFault_tells_dev s (f := { source := devSource 0, kind := k, op := op }) (by decide : 4 < srcLevel (devSource 0)) hk

/-! ### Host writes -/

/-- In READY a unit takes a host's write (18 R474). -/
theorem unitWrite_ready (ready : s.dstate = .ready) (k : BitVec 12) (f : State → State) : s.unitWrite k f = f s := by
  simp [State.unitWrite, State.hostWrite, ready]

/-! ### One queue -/

theorem queue_modQueue_ne {r : Nat} (f : Queue → Queue) (h : r ≠ q) : (s.modQueue q f).queue r = s.queue r := by
  rw [queue_modQueue, if_neg h]

/-- A change of one queue leaves the other queues and everything else. -/
theorem modQueue_rest (s : State) (q : Nat) (f : Queue → Queue) :
    (∀ k, k ≠ q → (s.modQueue q f).queue k = s.queue k) ∧ { s.modQueue q f with queues := [] } = { s with queues := [] } :=
  ⟨fun _ => queue_modQueue_ne f, rfl⟩

end Sys2Proof.Machine
end

section
/-! O44: the commands, the draining and the doorbells of a queue (09 R262, R265, R269, R279, R293). -/

namespace Sys2Proof.Machine

variable {s t u : State} {q : Nat} {val : Word}

/-! ### Commands -/

/-- The configuration of a queue is valid (R279). -/
def Queue.valid (x : Queue) : Bool := logOk x.sqlog && logOk x.cqlog && x.sqbase != 0 && x.cqbase != 0

theorem doQEnable_enables (ready : s.dstate = .ready) (off : (s.queue q).st = .disabled) (valid : (s.queue q).valid = true) :
    s.doQEnable q = s.modQueue q fun x =>
      { x with st := .active, sqhead := 0, sqtail := 0, cqtail := 0, cqhead := 0, phase := true, bells := [], drainFetch := false } := by
  simp only [Queue.valid, Bool.and_eq_true] at valid
  obtain ⟨⟨⟨sq, cq⟩, sqb⟩, cqb⟩ := valid
  refine if_pos ?_
  rw [off, ready, sq, cq, sqb, cqb]
  rfl

theorem doQEnable_refused (no : ¬((s.queue q).st = .disabled ∧ (s.queue q).valid = true)) : s.doQEnable q = s.hostFault 0x40B := by
  refine if_neg fun cond => no ?_
  simp only [Bool.and_eq_true, beq_iff_eq] at cond
  obtain ⟨⟨⟨⟨⟨off, sq⟩, cq⟩, sqb⟩, cqb⟩, -⟩ := cond
  exact ⟨off, by rw [Queue.valid, sq, cq, sqb, cqb]; rfl⟩

theorem doQueueDrained_waits (no : (s.queue q).st ≠ .draining ∨ (s.queue q).fetched ≠ []) : s.doQueueDrained q = s := by
  refine if_neg fun cond => ?_
  simp only [Bool.and_eq_true, beq_iff_eq, List.isEmpty_iff] at cond
  obtain ⟨⟨draining, empty⟩, -⟩ := cond
  exact no.elim (· draining) (· empty)

theorem doQueueDrained_ends (draining : (s.queue q).st = .draining) (empty : (s.queue q).fetched = [])
    (done : (s.queue q).drainFetch = false) : s.doQueueDrained q = s.modQueue q fun x => { x with st := .disabled, drainFetch := false } :=
  if_pos (by simp [draining, empty, done])

/-! ### Doorbells -/

/-- Bytes read as before, and so does every queue but `q`. -/
def OthersStay (q : Nat) (s u : State) : Prop := SameMemories s u ∧ ∀ k, k ≠ q → u.queue k = s.queue k

/-- A doorbell is dropped and reported. -/
def DropsBell (q : Nat) (s u : State) : Prop := OthersStay q s u ∧ u.queue q = s.queue q ∧ RaisesDev 0x401 s u

/-- A doorbell puts its queue in ERROR with a cause, and leaves its pointers. -/
def FailsQueue (q : Nat) (cause : BitVec 8) (s u : State) : Prop :=
  OthersStay q s u ∧ RaisesDev 0x401 s u ∧ (u.queue q).st = .error ∧ (u.queue q).err = cause ∧
    (u.queue q).cqhead = (s.queue q).cqhead ∧ (u.queue q).sqtail = (s.queue q).sqtail

theorem hostFault_drops (s : State) (q : Nat) : DropsBell q s (s.hostFault 0x401 8) := by
  have told := hostFault_tells s (k := 0x401) 8 (by decide)
  exact ⟨⟨told.same, fun k _ => queue_of_queues told.queues k⟩, queue_of_queues told.queues q, told.raises⟩

theorem fail_fails (s : State) (q : Nat) (cause : BitVec 8) :
    FailsQueue q cause s ((s.modQueue q fun x => x.fail cause).hostFault 0x401 8) := by
  have told := hostFault_tells (s.modQueue q fun x => x.fail cause) (k := 0x401) 8 (by decide)
  have queue := queue_of_queues told.queues
  refine ⟨⟨told.same, fun k ne => ?_⟩, told.raises, ?_⟩
  · rw [queue, queue_modQueue_ne _ ne]
  · rw [queue, queue_modQueue_same]
    exact ⟨rfl, rfl, rfl, rfl⟩

/-- A doorbell that is accepted is counted, and changes its queue alone. -/
theorem bellTaken_puts (s : State) (q : Nat) (f : Queue → Queue) :
    OthersStay q s (s.modQueue q f).bellTaken ∧ (s.modQueue q f).bellTaken.queue q = f (s.queue q) := by
  have counts : ∃ t : State, t.sheets = s.sheets ∧ t.queues = (s.modQueue q f).queues ∧ Counts t (s.modQueue q f).bellTaken := by
    refine ⟨{ s.modQueue q f with bellStamp := _, bellAt := _ }, ?_, ?_, deviceEvent_counts _ _⟩ <;> rfl
  obtain ⟨t, sheets, queues, counts⟩ := counts
  have queue := queue_of_queues (counts.reports.queues.trans queues)
  refine ⟨⟨cells_sameMemories ((SheetsKeep.of_sheets sheets).trans counts.still.cells), fun k ne => ?_⟩, ?_⟩
  · rw [queue, queue_modQueue_ne _ ne]
  · rw [queue, queue_modQueue_same]

section
variable {f : Nat} (live : s.dstate ≠ .safe)
include live

/-- A doorbell of another function, or with bits 63:16 set (log 39), is dropped. -/
theorem doorbell_bad (bad : (s.queue q).func.toNat ≠ f ∨ 65536 ≤ val.toNat) :
    s.doSqTail f q val = s.hostFault 0x401 8 ∧ s.doCqHead f q val = s.hostFault 0x401 8 := by
  have cond : s.bellBad f q val = true := by simpa [State.bellBad] using bad
  simp [State.doSqTail, State.doCqHead, live, cond]

section
variable (good : s.bellBad f q val = false)
include good

theorem doorbell_draining (st : (s.queue q).st = .draining) : s.doSqTail f q val = s ∧ s.doCqHead f q val = s := by
  simp [State.doSqTail, State.doCqHead, live, good, st]

theorem doorbell_closed (st : (s.queue q).st = .disabled ∨ (s.queue q).st = .error) :
    s.doSqTail f q val = s.hostFault 0x401 8 ∧ s.doCqHead f q val = s.hostFault 0x401 8 := by
  obtain st | st := st <;> simp [State.doSqTail, State.doCqHead, live, good, st]

section
variable (active : (s.queue q).st = .active)
include active

theorem doSqTail_beyond (beyond : (s.queue q).sqSize ≤ val.toNat) :
    s.doSqTail f q val = (s.modQueue q fun x => x.fail 1).hostFault 0x401 8 := by
  simp [State.doSqTail, live, good, active, beyond]

theorem doSqTail_taken (inside : val.toNat < (s.queue q).sqSize) :
    ∃ bells, s.doSqTail f q val = (s.modQueue q fun x => { x with sqtail := val.setWidth 16, bells := bells }).bellTaken := by
  simp only [State.doSqTail, beq_iff_eq, live, good, active, Nat.not_le.2 inside, if_false, Bool.false_eq_true]
  exact ⟨_, rfl⟩

/-- Where a pointer of the completion ring lies in ring order from its head. -/
def Queue.cqRing (x : Queue) (n : Nat) : Nat := (n + x.cqSize - x.cqhead.toNat) % x.cqSize

theorem doCqHead_beyond (beyond : (s.queue q).cqSize ≤ val.toNat ∨
    (s.queue q).cqRing (s.queue q).cqtail.toNat < (s.queue q).cqRing val.toNat) :
    s.doCqHead f q val = (s.modQueue q fun x => x.fail 5).hostFault 0x401 8 := by
  simp only [State.doCqHead, beq_iff_eq, live, good, active, if_false, Bool.false_eq_true]
  exact if_pos beyond

theorem doCqHead_taken (inside : val.toNat < (s.queue q).cqSize)
    (upTo : (s.queue q).cqRing val.toNat ≤ (s.queue q).cqRing (s.queue q).cqtail.toNat) :
    s.doCqHead f q val = (s.modQueue q fun x => { x with cqhead := val.setWidth 16 }).bellTaken := by
  simp only [State.doCqHead, beq_iff_eq, live, good, active, if_false, Bool.false_eq_true]
  exact if_neg fun beyond => beyond.elim (Nat.not_le.2 inside) (Nat.not_lt.2 upTo)

end
end
end

end Sys2Proof.Machine

open Sys2Proof Sys2Proof.Machine

/-- Settles O44: each command and doorbell is one change of its queue or one message. -/
theorem queuesFollowTheirCommands : Obligations.QueuesFollowTheirCommands := by
  refine ⟨fun q s ready => ?_, fun f q v s live => ?_⟩
  · intro x valid put refused
    have run {c : Instr} {g : State → State} (rows : exec c s = .next (s.unitWrite 0x40B g)) : exec c s = .next (g s) := by
      rw [rows, unitWrite_ready ready]
    have refuses {c : Instr} {g : State → State} (rows : exec c s = .next (s.unitWrite 0x40B g)) (does : g s = s.hostFault 0x40B) :
        refused c := by
      have told := hostFault_tells s (k := 0x40B) 9 (by decide)
      exact leads_of (run rows) (does ▸ ⟨told.queues, told.same, told.raises⟩)
    refine ⟨fun yes => leads_of (run rfl) ?_, fun no => refuses rfl (doQEnable_refused no), fun st => leads_of (run rfl) ?_,
      fun st => refuses rfl (if_neg (by simpa using st)), fun st => leads_of (run rfl) ?_,
      fun st => refuses rfl (if_neg (by simpa using st)), fun st empty done => leads_of rfl ?_,
      fun no => congrArg Host.Outcome.next (doQueueDrained_waits no)⟩
    · rw [doQEnable_enables ready yes.1 yes.2]
      exact ⟨by rw [queue_modQueue_same]; exact ⟨rfl, rfl, rfl, rfl, rfl, rfl, rfl, rfl, rfl⟩, modQueue_rest s q.val _⟩
    · rw [State.doQDisable, if_pos (by simpa using st)]
      exact ⟨by rw [queue_modQueue_same], modQueue_rest s q.val _⟩
    · rw [State.doQClear, if_pos (by simpa using st)]
      exact ⟨by rw [queue_modQueue_same], modQueue_rest s q.val _⟩
    · rw [doQueueDrained_ends st empty done]
      exact ⟨by rw [queue_modQueue_same, ← done], modQueue_rest s q.val _⟩
  · have tail {P : State → Prop} (hp : P (s.doSqTail f.val q.val v)) : Leads (.sqTailDoorbell f q v) s P := leads_of rfl hp
    have head {P : State → Prop} (hp : P (s.doCqHead f.val q.val v)) : Leads (.cqHeadDoorbell f q v) s P := leads_of rfl hp
    have drops (x : State) (h : x = s.hostFault 0x401 8) : DropsBell q.val s x := h ▸ hostFault_drops s q.val
    refine ⟨fun bad => ?_, fun own small => ?_⟩
    · obtain ⟨ht, hh⟩ := doorbell_bad live bad
      exact ⟨tail (drops _ ht), head (drops _ hh)⟩
    have good : s.bellBad f.val q.val v = false := by simp [State.bellBad, own, small]
    refine ⟨fun st => ?_, fun st => ?_, fun st => ⟨fun inside => ?_, fun beyond => ?_, fun inside upTo => ?_, fun beyond => ?_⟩⟩
    · obtain ⟨ht, hh⟩ := doorbell_draining live good st
      exact ⟨congrArg Host.Outcome.next ht, congrArg Host.Outcome.next hh⟩
    · obtain ⟨ht, hh⟩ := doorbell_closed live good st
      exact ⟨tail (drops _ ht), head (drops _ hh)⟩
    · obtain ⟨bells, taken⟩ := doSqTail_taken live good st inside
      obtain ⟨others, queue⟩ := bellTaken_puts s q.val fun x => { x with sqtail := v.setWidth 16, bells := bells }
      exact tail (by rw [taken]; exact ⟨others, by rw [queue]⟩)
    · exact tail (by rw [doSqTail_beyond live good st beyond]; exact fail_fails s q.val 1)
    · obtain ⟨others, queue⟩ := bellTaken_puts s q.val fun x => { x with cqhead := v.setWidth 16 }
      exact head (by rw [doCqHead_taken live good st inside upTo]; exact ⟨others, queue⟩)
    · exact head (by rw [doCqHead_beyond live good st beyond]; exact fail_fails s q.val 5)
end

section
/-! O43: the configuration registers of queues and of contexts (00 R10; 09 R278, R283). -/

namespace Sys2Proof.Machine

variable {s : State} {q c r n : Nat} {v : Word}

/-! ### Where the registers lie -/

theorem regOf_queue (hq : q < 32768) (hr : r < 7) : regOf (0x100000 + 64 * q + 8 * r) = some (.queue q r) := by
  unfold regOf
  rw [if_neg (by omega), if_pos (by omega), if_neg (by omega), show (0x100000 + 64 * q + 8 * r - 0x100000) / 0x40 = q by omega,
    show (0x100000 + 64 * q + 8 * r) % 0x40 / 8 = r by omega]

theorem regOf_ctx (hc : c < 4096) (hr : r < 4) : regOf (0x900000 + 64 * c + 8 * r) = some (.ctx c r) := by
  unfold regOf
  rw [if_neg (by omega), if_neg (by omega), if_neg (by omega), if_pos (by omega), if_pos (by omega),
    show (0x900000 + 64 * c + 8 * r - 0x900000) / 0x40 = c by omega, show (0x900000 + 64 * c + 8 * r) % 0x40 / 8 = r by omega]

/-! ### Writes that the rules of R10 pass -/

/-- A write with no reserved encoding and no reserved bit is what it does to the defined fields. -/
theorem checkedWrite_passes {x : Reg} (legal : x.illegal n = false) (fits : n &&& x.reserved = 0) :
    s.checkedWrite x n = s.writeReg x n := by
  simp [State.checkedWrite, legal, fits]

theorem queue_reserved (q r : Nat) : (Reg.queue q r).reserved = queueReserved r :=
  show queueReserved r ||| 0 ||| 0 ||| 0 = _ by simp

theorem ctx_reserved (c r : Nat) : (Reg.ctx c r).reserved = ownerReserved (.ctx c r) :=
  show ownerReserved (.ctx c r) ||| 0 ||| 0 ||| 0 = _ by simp

section
variable (live : s.dstate ≠ .safe) (up : s.dstate ≠ .startUp)
include live up

theorem doRegisterWrite_queue (hq : q < 32768) (hr : r < 7) (legal : (Reg.queue q r).illegal v.toNat = false)
    (fits : v.toNat &&& queueReserved r = 0) : s.doRegisterWrite (0x100000 + 64 * q + 8 * r) v = s.writeQueue q r v.toNat := by
  have passes := checkedWrite_passes (s := s) legal ((queue_reserved q r).symm ▸ fits)
  have aligned : (0x100000 + 64 * q + 8 * r) % 8 = 0 := by omega
  simp only [State.doRegisterWrite, regOf_queue hq hr, aligned, ne_eq, not_true_eq_false, if_false]
  simp only [State.regWrite, beq_iff_eq, live, up, Bool.and_eq_true, false_and, if_false, passes]
  rfl

theorem doRegisterWrite_ctx (hc : c < 4096) (hr : r < 4) (fits : v.toNat &&& ownerReserved (.ctx c r) = 0) :
    s.doRegisterWrite (0x900000 + 64 * c + 8 * r) v = s.writeCtx c r v.toNat := by
  have passes := checkedWrite_passes (s := s) (x := .ctx c r) rfl ((ctx_reserved c r).symm ▸ fits)
  have aligned : (0x900000 + 64 * c + 8 * r) % 8 = 0 := by omega
  simp only [State.doRegisterWrite, regOf_ctx hc hr, aligned, ne_eq, not_true_eq_false, if_false]
  simp only [State.regWrite, beq_iff_eq, live, up, Bool.and_eq_true, false_and, if_false, passes]
  rfl

end

/-! ### What they do -/

/-- Q_SQBASE, Q_CQBASE, Q_CFG and Q_SEQ are closed while the queue is not DISABLED (R278). -/
theorem writeQueue_closed (hr : r < 4) (st : (s.queue q).st ≠ .disabled) : s.writeQueue q r n = s.hostFault 0x40B := by
  unfold State.writeQueue
  rw [if_neg (by omega), if_neg (by omega), if_neg (by omega), if_pos (by simpa using st)]

/-- What a write of `n` to one of these registers makes of a DISABLED queue. -/
def Queue.configured (x : Queue) (r n : Nat) : Queue :=
  match r with
  | 0 => { x with sqbase := BitVec.ofNat 52 (n / 4096) }
  | 1 => { x with cqbase := BitVec.ofNat 52 (n / 4096) }
  | 2 =>
    { x with
      sqlog := BitVec.ofNat 5 (bits n 60 56), cqlog := BitVec.ofNat 5 (bits n 52 48), func := BitVec.ofNat 4 (bits n 47 44)
      prio := BitVec.ofNat 3 (bits n 40 38), vector := BitVec.ofNat 12 (bits n 31 20), irqen := bit n 16 }
  | _ => { x with nextSeq := BitVec.ofNat 32 n }

theorem writeQueue_opens (hr : r < 4) (st : (s.queue q).st = .disabled) :
    s.writeQueue q r n = s.modQueue q fun x => x.configured r n := by
  unfold State.writeQueue
  rw [if_neg (by omega), if_neg (by omega), if_neg (by omega), if_neg (by simp [st])]
  match r, hr with
  | 0, _ | 1, _ | 2, _ | 3, _ => rfl

/-- An encoding from 4 to 16 is one of a ring size (R278). -/
theorem logOk_ofNat (lo : 4 ≤ n) (hi : n ≤ 16) : logOk (BitVec.ofNat 5 n) = true := by
  have small : n % 2 ^ 5 = n := Nat.mod_eq_of_lt (by omega)
  simp only [logOk, BitVec.toNat_ofNat, small, decide_eq_true_eq]
  exact ⟨lo, hi⟩

/-- A nonzero value whose high half is reserved has a nonzero low half. -/
theorem low_half_ne_zero (v : Word) (fits : v.toNat &&& 0xFFFFFFFF00000000 = 0) (ne : v.toNat ≠ 0) : bits v.toNat 31 0 ≠ 0 := by
  intro low
  refine ne (Nat.eq_of_testBit_eq fun i => ?_)
  rw [Nat.zero_testBit]
  have lowBit := congrArg (Nat.testBit · i) (show v.toNat % 2 ^ 32 = 0 from low)
  have highBit := congrArg (Nat.testBit · i) fits
  have mask : (0xFFFFFFFF00000000 : Nat) = (2 ^ 32 - 1) <<< 32 := rfl
  simp only [Nat.testBit_mod_two_pow, Nat.testBit_and, mask, Nat.testBit_shiftLeft, Nat.testBit_two_pow_sub_one,
    Nat.zero_testBit] at lowBit highBit
  by_cases h : i < 32
  · simpa [h] using lowBit
  · by_cases h' : i < 64
    · have out : 32 ≤ i ∧ i - 32 < 32 := by omega
      simpa [out] using highBit
    · exact Nat.testBit_lt_two_pow (Nat.lt_of_lt_of_le v.isLt (Nat.pow_le_pow_right (by decide) (by omega)))

theorem ctx_modCtx_ne {k : Nat} (f : Ctx → Ctx) (h : k ≠ c) : (s.modCtx c f).ctx k = s.ctx k := by rw [ctx_modCtx, if_neg h]

theorem Ctx.idle_iff {x : Ctx} : x.idle = true ↔ x.st = .free ∨ x.st = .killed := by simp [Ctx.idle]

theorem ctxRefused_refuses (s : State) : s.ctxRefused.ctxs = s.ctxs ∧ SameMemories s s.ctxRefused ∧ RaisesDev 0x40A s s.ctxRefused := by
  have told := hostFault_tells s (k := 0x40A) 9 (by decide)
  exact ⟨told.keeps State.ctxs fun _ _ _ _ => rfl, told.same, told.raises⟩

end Sys2Proof.Machine

open Sys2Proof Sys2Proof.Machine

/-- Settles O43: a write that R10 passes is one change of its register's unit, or one message where the unit's state closes it. -/
theorem queueConfigurationWrites : Obligations.QueueConfigurationWrites := by
  refine ⟨fun c v s live up => ?_, fun q v s live up => ?_⟩
  · intro x n fits
    have does := doRegisterWrite_ctx live up (r := 0) c.isLt (by decide) fits
    refine ⟨fun idle => ?_, fun nf nk => ?_⟩
    · refine leads_of (congrArg Host.Outcome.next (does.trans (if_pos (Ctx.idle_iff.2 idle)))) ?_
      exact ⟨ctx_modCtx_same _ _ _, fun k => ctx_modCtx_ne _, rfl⟩
    · have busy : ¬x.idle = true := fun h => (Ctx.idle_iff.1 h).elim nf nk
      exact leads_of (congrArg Host.Outcome.next (does.trans (if_neg busy))) (ctxRefused_refuses s)
  · intro base x n fits sets
    have row {r : Nat} {t : State} (hr : r < 7) (legal : (Reg.queue q.val r).illegal n = false) (free : fits r)
        (does : s.writeQueue q.val r n = t) : exec (.registerWrite (base + 8 * r) v) s = .next t :=
      congrArg Host.Outcome.next ((doRegisterWrite_queue live up q.isLt hr legal free).trans does)
    have cfg {r : Nat} (hr : r < 4) (legal : (Reg.queue q.val r).illegal n = false) (free : fits r) : sets (8 * r) (x.configured r n) := by
      refine ⟨fun st => ?_, fun st => ?_⟩
      · exact leads_of (row (by omega) legal free (writeQueue_opens hr st)) ⟨queue_modQueue_same _ _ _, modQueue_rest s q.val _⟩
      · have told := hostFault_tells s (k := 0x40B) 9 (by decide)
        exact leads_of (row (by omega) legal free (writeQueue_closed hr st)) ⟨told.queues, told.same, told.raises⟩
    refine ⟨cfg (r := 0) (by decide) rfl, cfg (r := 1) (by decide) rfl, fun free sq sq' cq cq' => cfg (r := 2) (by decide) ?_ free,
      cfg (r := 3) (by decide) rfl, fun free ne => ?_⟩
    · show (!logOk (BitVec.ofNat 5 (bits n 60 56)) || !logOk (BitVec.ofNat 5 (bits n 52 48))) = false
      rw [logOk_ofNat sq sq', logOk_ofNat cq cq']
      rfl
    · have legal : (Reg.queue q.val 5).illegal n = false := beq_eq_false_iff_ne.2 (low_half_ne_zero v free ne)
      exact leads_of (row (r := 5) (by decide) legal free rfl) ⟨queue_modQueue_same _ _ _, modQueue_rest s q.val _⟩
end

section
/-! SUPPORT. The front descriptor of a queue (09 R268, R274): what changing it and deciding its status leave, and DMA (17 R453). -/

namespace Sys2Proof.Machine

variable {s t u : State} {q : Nat} {d : Desc}

/-! ### Changing it -/

theorem modHead_head (h : s.head q = some d) (f : Desc → Desc) : (s.modHead q f).head q = some (f d) := by
  unfold State.head at h
  obtain ⟨rest, hl⟩ := List.head?_eq_some_iff.1 h
  simp only [State.head, State.modHead, queue_modQueue_same, hl, List.head?_cons]

theorem head_of_queues (h : t.queues = s.queues) (q : Nat) : t.head q = s.head q := by rw [State.head, queue_of_queues h, State.head]

@[simp] theorem modHead_out (s : State) (q : Nat) (f : Desc → Desc) : (s.modHead q f).out = s.out := rfl
@[simp] theorem modHead_ecb (s : State) (q : Nat) (f : Desc → Desc) : (s.modHead q f).ecb = s.ecb := rfl

/-! ### Deciding its status -/

/-- The front descriptor has a status and INFO, with the bytes of `d`. -/
def Ends (q : Nat) (d : Desc) (st : Byte) (info : Nat) (u : State) : Prop :=
  ∃ e, u.head q = some e ∧ e.bytes = d.bytes ∧ e.status = some st ∧ e.info = BitVec.ofNat 32 info

section
variable (st : Byte) (kind : BitVec 12) (info : Nat) (flags : Byte) (digest : Nat)

@[simp] theorem decideHead_ctxs (s : State) (q : Nat) : (s.decideHead q st kind info flags digest).ctxs = s.ctxs := rfl
@[simp] theorem decideHead_out (s : State) (q : Nat) : (s.decideHead q st kind info flags digest).out = s.out := rfl

/-- A status is decided once (R277): here it was not. -/
theorem decideHead_decides (h : s.head q = some d) (open_ : d.status = none) :
    ∃ e, (s.decideHead q st kind info flags digest).head q = some e ∧ e.bytes = d.bytes ∧ e.status = some st ∧ e.kind = kind ∧
      e.info = BitVec.ofNat 32 info := by
  have decided := modHead_head h (settleDesc s.now st kind info flags digest)
  rw [settleDesc, if_pos (by simp [open_])] at decided
  exact ⟨_, decided, rfl, rfl, rfl, rfl⟩

theorem decideHead_ends (h : s.head q = some d) (open_ : d.status = none) :
    Ends q d st info (s.decideHead q st kind info flags digest) := by
  obtain ⟨e, head, bytes, status, -, info⟩ := decideHead_decides st kind info flags digest h open_
  exact ⟨e, head, bytes, status, info⟩

end

/-! ### DMA -/

theorem Counts.out {s t : State} (h : Counts s t) : ∃ o, t.out = s.out ++ o := by
  obtain ⟨o, mp, sh, b, pb, rfl⟩ := h.whole
  exact ⟨o, rfl⟩

theorem Counts.queues {s t : State} (h : Counts s t) : t.queues = s.queues := h.reports.queues
theorem Counts.same {s t : State} (h : Counts s t) : SameMemories s t := cells_sameMemories h.still.cells

theorem dmaRead_counts (s : State) (a n : Nat) : Counts s (s.dmaRead a n) := deviceEvent_counts _ _

/-- A write to host memory leaves the device; the rest is counting. -/
theorem dmaWrite_counts (s : State) (a : Nat) (b : List Byte) :
    Counts (s.emit (.dmaWrite (BitVec.ofNat 64 a) b)) (s.dmaWrite a b) := deviceEvent_counts _ _

end Sys2Proof.Machine
end

section
/-! O46: completions (09 R268, R269) and the progress timer (09 R281; 14 R390). -/

namespace Sys2Proof.Machine

variable {s : State} {q : Nat} {d : Desc} {ok : Bool}

/-! ### COMPLETION_WRITE -/

theorem doCompletion_empty (h : s.head q = none) : s.doCompletion q ok = s := by simp only [State.doCompletion, h]

theorem doCompletion_waits (h : s.head q = some d) (no : d.checked = false ∨ d.status = none ∨ (s.queue q).cqRoom = false) :
    s.doCompletion q ok = s := by
  have cond : (!d.checked || d.status.isNone || !(s.queue q).cqRoom || s.dstate == .safe) = true := by
    obtain h | h | h := no <;> simp [h]
  simp only [State.doCompletion, h, cond, if_true]

/-- The queue once its front descriptor's completion is written (R268, R269). -/
def Queue.completed (x : Queue) : Queue :=
  { x.pop with
    cqtail := BitVec.ofNat 16 ((x.cqtail.toNat + 1) % x.cqSize)
    phase := if (x.cqtail.toNat + 1) % x.cqSize = 0 then !x.phase else x.phase }

/-- A completion goes out: the write to its ring entry first, then what counting and its interrupt put out, and its queue moves on. -/
structure Completes (q : Nat) (o : Out) (s u : State) : Prop where
  same : SameMemories s u
  out : ∃ more, u.out = s.out ++ o :: more
  queue : u.queue q = (s.queue q).completed

/-- What follows the write of a completion: its queue moves on, and counting. -/
theorem completes_after {w y : State} {a : Nat} {b : List Byte} {f : Queue → Queue}
    (wrote : Counts (s.emit (.dmaWrite (BitVec.ofNat 64 a) b)) w) (counts : Counts (w.modQueue q f) y)
    (moves : f (s.queue q) = (s.queue q).completed) (c : CtxId) :
    Completes q (.dmaWrite (BitVec.ofNat 64 a) b) s (y.closeRunWindows c) := by
  obtain ⟨o, ho⟩ := wrote.out
  obtain ⟨o', ho'⟩ := counts.out
  refine ⟨cells_sameMemories (wrote.still.cells.trans counts.still.cells), ⟨o ++ o', ?_⟩, ?_⟩
  · refine ho'.trans ?_
    rw [modQueue_out, ho]
    simp [State.emit]
  · refine (queue_of_queues counts.queues q).trans ?_
    rw [queue_modQueue_same, queue_of_queues wrote.queues q]
    exact moves

section
variable (h : s.head q = some d) (checked : d.checked = true) (decided : d.status ≠ none) (room : (s.queue q).cqRoom = true)
  (live : s.dstate ≠ .safe)
include checked decided room live

theorem completion_goes : (!d.checked || d.status.isNone || !(s.queue q).cqRoom || s.dstate == .safe) = false := by
  have isNone : d.status.isNone = false := by rwa [Option.isNone_eq_false_iff, Option.isSome_iff_ne_none]
  simp [checked, room, live, isNone]

include h

theorem doCompletion_writes : Completes q (.dmaWrite (BitVec.ofNat 64 ((s.queue q).cqbase.toNat * 4096 + 32 * (s.queue q).cqtail.toNat))
    (completionBytes q (s.queue q).phase d)) s (s.doCompletion q true) := by
  simp only [State.doCompletion, h, completion_goes checked decided room live, Bool.false_eq_true, if_false, Bool.not_true]
  split
  · exact completes_after (dmaWrite_counts s _ _) ((deviceEvent_counts _ _).trans (msix_counts _ _ _)) (by rfl) (dCtx d)
  · exact completes_after (dmaWrite_counts s _ _) (deviceEvent_counts _ _) (by rfl) (dCtx d)

/-- A write that PCI Express fails puts the queue in ERROR (R280). -/
theorem doCompletion_fails : s.doCompletion q false =
    ((s.modQueue q fun x => x.pop.fail 3).hostFault 0x404 8).closeRunWindows (dCtx d) := by
  simp only [State.doCompletion, h, completion_goes checked decided room live, Bool.false_eq_true, if_false, Bool.not_false, if_true]

end

/-! ### PROGRESS_TIMER_EXPIRY -/

theorem doProgressTimer_rests (no : (s.queue q).st = .disabled ∨ (s.queue q).ringPending = 0 ∧ (s.queue q).fetched = []) :
    s.doProgressTimer q = s := by
  refine if_pos ?_
  obtain h | ⟨h, h'⟩ := no
  · simp [h]
  · simp [h, h']

/-- A descriptor that has not started ends as a suspect (14 R390). -/
theorem hangDescriptor_waiting {t : State} (idle : d.started = false) : t.hangDescriptor q d =
    ({ t with ecb := { t.ecb with seedWait := t.ecb.seedWait.filter (· != q) } } : State).decideHead q stHang 0x710 := by
  simp only [State.hangDescriptor, idle, Bool.false_and, Bool.false_eq_true, if_false]

theorem doProgressTimer_reports (h : s.head q = some d) (on : (s.queue q).st ≠ .disabled) (open_ : d.status = none) :
    ∃ t, TellsDev 0x710 s t ∧ s.doProgressTimer q = t.hangDescriptor q d := by
  have pending : ((s.queue q).st == .disabled || ((s.queue q).ringPending == 0 && (s.queue q).fetched.isEmpty)) = false := by
    obtain ⟨rest, hl⟩ := List.head?_eq_some_iff.1 h
    simp [on, hl]
  have told := sendFault_tells_dev s
    (f := { source := devSource 0, kind := 0x710, ctx := if d.bytes.length = 64 then some (dCtx d) else none, op := 0x0F })
    (by decide : 4 < srcLevel (devSource 0)) (by decide : (0x710 : BitVec 12).toNat / 0x100 ≠ 6)
  refine ⟨_, told, ?_⟩
  simp only [State.doProgressTimer, pending, h, Bool.false_eq_true, if_false, head_of_queues told.queues q, open_, Option.isSome_none]

end Sys2Proof.Machine

open Sys2Proof Sys2Proof.Machine

/-- Settles O46: a completion is one write and one move of its ring, a timer one message and one status. -/
theorem completionsInTheirRing : Obligations.CompletionsInTheirRing := by
  intro q s
  refine ⟨fun ok h => congrArg Host.Outcome.next (doCompletion_empty h),
    fun d ok h no => congrArg Host.Outcome.next (doCompletion_waits h no),
    fun d h checked decided room live => ⟨leads_of rfl ?_, leads_of rfl ?_⟩,
    fun no => congrArg Host.Outcome.next (doProgressTimer_rests no), fun d h on idle open_ => leads_of rfl ?_⟩
  · obtain ⟨same, out, queue⟩ := doCompletion_writes h checked decided room live
    refine ⟨same, out, ?_⟩
    rw [queue]
    exact ⟨rfl, rfl, rfl, rfl⟩
  · rw [doCompletion_fails h checked decided room live]
    have told := hostFault_tells (s.modQueue q.val fun x => x.pop.fail 3) (k := 0x404) 8 (by decide)
    obtain ⟨m, wire, kind⟩ := told.raises
    refine ⟨told.same, ?_⟩
    have queue : (((s.modQueue q.val fun x => x.pop.fail 3).hostFault 0x404 8).closeRunWindows (dCtx d)).queue q.val =
        (s.queue q.val).pop.fail 3 := (queue_of_queues told.queues q.val).trans (queue_modQueue_same _ _ _)
    rw [queue]
    exact ⟨rfl, rfl, rfl, m, wire ▸ List.mem_append_right _ (List.mem_singleton_self m), kind⟩
  · obtain ⟨t, told, does⟩ := doProgressTimer_reports h on open_
    rw [does, hangDescriptor_waiting idle]
    obtain ⟨e, head, bytes, status, kind, -⟩ := decideHead_decides
      (s := { t with ecb := { t.ecb with seedWait := t.ecb.seedWait.filter (· != q.val) } })
      stHang 0x710 0 0 0 ((head_of_queues told.queues q.val).trans h) open_
    exact ⟨told.same, told.raises, e, head, status, kind, bytes⟩
end

section
/-! O45: fetching descriptors in ring order, and validating the front one (09 R265, R267, R276; 05 R169). -/

namespace Sys2Proof.Machine

variable {s t u : State} {q : Nat} {d : Desc}

/-! ### Fetching -/

/-- Residues by a power of two and by 2^16, in either order, are those by the smaller one. -/
theorem mod_two_pow_mod_two_pow (x k j : Nat) : x % 2 ^ k % 2 ^ j = x % 2 ^ min k j := by
  obtain h | h := Nat.le_total k j
  · rw [Nat.min_eq_left h, Nat.mod_eq_of_lt (Nat.lt_of_lt_of_le (Nat.mod_lt _ (Nat.two_pow_pos k)) (Nat.pow_le_pow_right (by decide) h))]
  · rw [Nat.min_eq_right h, Nat.mod_mod_of_dvd _ (Nat.pow_dvd_pow 2 h)]

/-- A ring pointer of 16 bits that moves on by one, then by `m`, has moved by `m + 1`. -/
theorem ring_moves (h k m : Nat) :
    (BitVec.ofNat 16 (((BitVec.ofNat 16 ((h + 1) % 2 ^ k)).toNat + m) % 2 ^ k)) = BitVec.ofNat 16 ((h + (m + 1)) % 2 ^ k) := by
  refine BitVec.eq_of_toNat_eq ?_
  simp only [BitVec.toNat_ofNat, mod_two_pow_mod_two_pow]
  rw [Nat.mod_add_mod, show h + 1 + m = h + (m + 1) by omega]

/-- What a fetch of entries makes of its queue. -/
structure Takes (data : List (List Byte)) (x y : Queue) : Prop where
  bytes : y.fetched.map (fun d => d.bytes) = x.fetched.map (fun d => d.bytes) ++ data
  rests : data = [] → y.sqhead = x.sqhead
  moves : data ≠ [] → y.sqhead = BitVec.ofNat 16 ((x.sqhead.toNat + data.length) % x.sqSize)
  st : y.st = x.st

theorem take_takes (x : Queue) (b : List Byte) : Takes [b] x (x.take b 0) :=
  ⟨by simp [Queue.take], fun h => (List.cons_ne_nil _ _ h).elim, fun _ => rfl, rfl⟩

theorem Takes.cons {x z : Queue} {b : List Byte} {data : List (List Byte)} (h : Takes data (x.take b 0) z) : Takes (b :: data) x z := by
  have first := take_takes x b
  refine ⟨by rw [h.bytes, first.bytes, List.append_assoc]; rfl, fun h => (List.cons_ne_nil _ _ h).elim, fun _ => ?_, h.st⟩
  cases data with
  | nil => exact (h.rests rfl).trans (first.moves (List.cons_ne_nil _ _))
  | cons a data =>
    rw [h.moves (List.cons_ne_nil _ _), first.moves (List.cons_ne_nil _ _)]
    exact ring_moves _ _ _

/-- Entries read are taken one after another; counting apart, only their queue changes. -/
theorem fetchAll_takes (data : List (List Byte)) : (∀ b ∈ data, b.length = 64) → ∀ s : State,
    SheetsKeep Sheet.cells s (s.fetchAll q (data.map some)) ∧ (∀ k, k ≠ q → (s.fetchAll q (data.map some)).queue k = s.queue k) ∧
      Takes data (s.queue q) ((s.fetchAll q (data.map some)).queue q) := by
  induction data with
  | nil => exact fun _ s => ⟨.refl, fun _ _ => rfl, ⟨(List.append_nil _).symm, fun _ => rfl, fun h => (h rfl).elim, rfl⟩⟩
  | cons b data ih =>
    intro whole s
    have entry : (b ++ List.replicate 64 0).take 64 = b := by
      rw [List.take_append_of_le_length (whole b List.mem_cons_self).ge, List.take_of_length_le (whole b List.mem_cons_self).le]
    have step : s.fetchAll q ((b :: data).map some) =
        ((s.modQueue q fun x => x.take b 0).deviceEvent { cls := 8, code := 2, queue := some q }).fetchAll q (data.map some) := by
      rw [List.map_cons, State.fetchAll]
      simp only [entry]
    have counts := deviceEvent_counts (s.modQueue q fun x => x.take b 0) { cls := 8, code := 2, queue := some q }
    have queue := (queue_of_queues counts.queues q).trans (queue_modQueue_same _ _ _)
    obtain ⟨cells, others, takes⟩ := ih (fun c h => whole c (List.mem_cons_of_mem _ h)) _
    rw [step]
    refine ⟨(SheetsKeep.of_sheets rfl |>.trans counts.still.cells).trans cells, fun k ne => ?_, (queue ▸ takes).cons⟩
    rw [others k ne, queue_of_queues counts.queues, queue_modQueue_ne _ ne]

theorem doFetch_waits (h : s.fetchNext q = false) (data : List HostRead) : s.doFetch q data = s :=
  if_pos (by rw [h]; rfl)

/-- A fetch that comes next takes every entry read. -/
theorem doFetch_takes {data : List (List Byte)} (next : s.fetchNext q = true) (some_ : 0 < data.length) (most : data.length ≤ 8)
    (pending : data.length ≤ (s.queue q).ringPending) (whole : ∀ b ∈ data, b.length = 64) :
    OthersStay q s (s.doFetch q (data.map some)) ∧ Takes data (s.queue q) ((s.doFetch q (data.map some)).queue q) := by
  have all : (data.map some).take (min 8 (s.queue q).ringPending) = data.map some :=
    List.take_of_length_le (by rw [List.length_map]; omega)
  have isEmpty : (data.map some).isEmpty = false := by
    cases data with
    | nil => exact absurd some_ (Nat.lt_irrefl 0)
    | cons b data => rfl
  simp only [State.doFetch, all, next, isEmpty, Bool.not_true, Bool.or_false, Bool.false_eq_true, if_false]
  have counts := dmaRead_counts { s with fetchTurn := tput s.fetchTurn (s.queue q).prio.toNat q }
    ((s.queue q).sqbase.toNat * 4096 + 64 * (s.queue q).sqhead.toNat) (64 * (data.map some).length)
  have cellsRead : SheetsKeep Sheet.cells s _ := counts.still.cells
  have queue := queue_of_queues (s := s) counts.queues
  obtain ⟨cells, others, takes⟩ := fetchAll_takes (q := q) data whole (State.dmaRead _ _ _)
  rw [queue q] at takes
  exact ⟨⟨cells_sameMemories (cellsRead.trans cells), fun k ne => (others k ne).trans (queue k)⟩, takes⟩

/-! ### Validation -/

/-- The checks of R267 in order, as conditions: the status of the first that fails. -/
theorem validate_eq (s : State) (q : Nat) (d : Desc) : s.validate q d =
    let x := s.queue q
    let c := s.ctx (dCtx d).val
    let tear := dOp d == 11
    if d.seq ≠ x.nextSeq then some stBad
    else if descWellFormed d = false then some stBad
    else if c.func ≠ x.func then some stBad
    else if tear = false ∧ c.st = .free then some stTorn
    else if tear = false ∧ (c.st = .killed ∨ (c.st = .tearing ∧ c.killing = true)) then some stKilled
    else if tear = false ∧ c.st = .tearing then some stTorn
    else if tear = false ∧ dGen d ≠ c.gen then some stTorn
    else if descArgs d c.plans = false then some stBad
    else none := by
  simp only [State.validate, bne_iff_ne, Bool.not_eq_true', Bool.and_eq_true, Bool.or_eq_true, beq_iff_eq]

/-- The front descriptor once it is checked, before the outcome takes effect. -/
def State.checkedAt (s : State) (q : Nat) (d : Desc) : State :=
  (({ s with checkTurn := tput s.checkTurn (s.queue q).prio.toNat q } : State).modQueue q fun x =>
    { x with nextSeq := d.seq + 1 }).modHead q fun d => { d with checked := true }

section
variable (h : s.head q = some d) (next : s.validateNext q = true) (whole : d.bytes.length = 64) (open_ : d.status = none)
include h next whole open_

theorem doArrive_fails {st : Byte} (v : s.validate q d = some st) : s.doArrive q = (s.checkedAt q d).decideHead q st := by
  have v' : State.validate { s with checkTurn := tput s.checkTurn (s.queue q).prio.toNat q } q d = some st := v
  simp only [State.doArrive, h, next, whole, open_, v', Bool.not_true, Bool.false_eq_true, if_false, ne_eq, not_true_eq_false]
  rfl

theorem doArrive_passes (v : s.validate q d = none) : s.doArrive q = (s.checkedAt q d).requestSeed q d := by
  have v' : State.validate { s with checkTurn := tput s.checkTurn (s.queue q).prio.toNat q } q d = none := v
  simp only [State.doArrive, h, next, whole, open_, v', Bool.not_true, Bool.false_eq_true, if_false, ne_eq, not_true_eq_false]
  rfl

end

theorem checkedAt_head (h : s.head q = some d) : (s.checkedAt q d).head q = some { d with checked := true } := by
  refine modHead_head (d := d) ?_ _
  rw [State.head, queue_modQueue_same]
  exact h

theorem checkedAt_nextSeq : ((s.checkedAt q d).queue q).nextSeq = d.seq + 1 := by
  rw [State.checkedAt, State.modHead, queue_modQueue_same, queue_modQueue_same]

theorem modHead_nextSeq (f : Desc → Desc) : ((s.modHead q f).queue q).nextSeq = (s.queue q).nextSeq := by
  rw [State.modHead, queue_modQueue_same]

/-- What the check of the front descriptor leaves and sets, whatever its outcome. -/
def Checked (q : Nat) (d : Desc) (s u : State) : Prop := SameMemories s u ∧ (u.queue q).nextSeq = d.seq + 1

theorem checkedAt_checked : Checked q d s (s.checkedAt q d) := ⟨cells_sameMemories (.of_sheets rfl), checkedAt_nextSeq⟩

theorem checkedAt_decides (st : Byte) (h : s.head q = some d) (open_ : d.status = none) :
    Checked q d s ((s.checkedAt q d).decideHead q st) ∧
      ∃ e, ((s.checkedAt q d).decideHead q st).head q = some e ∧ e.status = some st ∧ e.bytes = d.bytes := by
  obtain ⟨e, head, bytes, status, -⟩ := decideHead_decides st 0 0 0 0 (checkedAt_head h) open_
  exact ⟨⟨cells_sameMemories (.of_sheets rfl), (modHead_nextSeq _).trans checkedAt_nextSeq⟩, e, head, status, bytes⟩

/-! ### Device seeds -/

theorem requestSeed_none (t : State) (no : ¬((dOp d = 2 ∨ dOp d = 4) ∧ dSeedSel d = 2)) : t.requestSeed q d = t :=
  if_pos (by simpa only [Bool.not_eq_true', Bool.and_eq_false_iff, Bool.or_eq_false_iff, beq_eq_false_iff_ne, not_and_or, not_or] using no)

section
variable (op : dOp d = 2 ∨ dOp d = 4) (sel : dSeedSel d = 2)
include op sel

theorem requestSeed_asks : (!((dOp d == 2 || dOp d == 4) && dSeedSel d == 2)) = false := by
  obtain op | op := op <;> simp [op, sel]

theorem requestSeed_halted {t : State} (halted : t.ecb.tst = .halted) : t.requestSeed q d = t.decideHead q stRngFailed := by
  simp only [State.requestSeed, requestSeed_asks op sel, halted, beq_self_eq_true, Bool.false_eq_true, if_false, if_true]

theorem requestSeed_quick {t : State} (live : t.ecb.tst ≠ .halted) (quick : (t.ecb.notrdy && dFailFast d) = true) :
    t.requestSeed q d = t.decideHead q stRngNotReady := by
  simp only [State.requestSeed, requestSeed_asks op sel, beq_iff_eq, live, quick, Bool.false_eq_true, if_false, if_true]

theorem requestSeed_waits {t : State} (live : t.ecb.tst ≠ .halted) (slow : (t.ecb.notrdy && dFailFast d) = false) :
    t.requestSeed q d =
      ({ t with ecb := { t.ecb with seedWait := t.ecb.seedWait ++ [q] } } : State).modHead q fun d => { d with wants := 1 } := by
  simp only [State.requestSeed, requestSeed_asks op sel, beq_iff_eq, live, slow, Bool.false_eq_true, if_false]

end

end Sys2Proof.Machine

open Sys2Proof Sys2Proof.Machine

/-- Settles O45: a fetch entry by entry, a validation by its first failing check, and the device seed by the state of the TRNG. -/
theorem descriptorsFetchedAndChecked : Obligations.DescriptorsFetchedAndChecked := by
  refine ⟨fun q data s => ⟨fun wait => congrArg Host.Outcome.next (doFetch_waits wait _),
      fun next some_ most pending whole => leads_of rfl ?_⟩,
    fun q d s h next whole open_ => ?_⟩
  · obtain ⟨⟨same, others⟩, takes⟩ := doFetch_takes next some_ most pending whole
    exact ⟨same, others, takes.bytes, takes.moves (List.length_pos_iff.1 some_), takes.st⟩
  · have checked := checkedAt_head h
    refine ⟨fun st first => leads_of (congrArg Host.Outcome.next (doArrive_fails h next whole open_ ((validate_eq s q d).trans first))) ?_,
      fun first no => ?_, fun first op sel => ?_⟩
    · exact and_assoc.1 (checkedAt_decides st h open_)
    · have passes := doArrive_passes h next whole open_ ((validate_eq s q d).trans first)
      rw [requestSeed_none _ no] at passes
      exact leads_of (congrArg Host.Outcome.next passes) (and_assoc.1 ⟨checkedAt_checked, checked⟩)
    · have passes := doArrive_passes h next whole open_ ((validate_eq s q d).trans first)
      refine ⟨fun halted => ?_, fun live quick => ?_, fun live slow => ?_⟩
      · rw [requestSeed_halted (t := s.checkedAt q d) op sel halted] at passes
        exact leads_of (congrArg Host.Outcome.next passes) (and_assoc.1 (checkedAt_decides stRngFailed h open_))
      · rw [requestSeed_quick (t := s.checkedAt q d) op sel live quick] at passes
        exact leads_of (congrArg Host.Outcome.next passes) (and_assoc.1 (checkedAt_decides stRngNotReady h open_))
      · rw [requestSeed_waits (t := s.checkedAt q d) op sel live slow] at passes
        exact leads_of (congrArg Host.Outcome.next passes)
          ⟨cells_sameMemories (.of_sheets rfl), (modHead_nextSeq _).trans checkedAt_nextSeq, modHead_head checked _, rfl⟩
end

section
/-! SUPPORT. The standing of contexts, partitions and queues (09 R279, R282, R286): what the control of steps, RUNs and epochs leaves
of them, and what the start of a teardown makes of them (R289, R290). -/

namespace Sys2Proof.Machine

/-- The states of contexts (and whether a kill runs), of partitions, and of queues, with whether anything is fetched. -/
def State.standing (s : State) : (Nat → CtxState × Bool) × (Nat → PartState) × (Nat → QState × BitVec 8 × Bool) :=
  (fun c => ((s.ctx c).st, (s.ctx c).killing), fun p => (s.part p).st,
    fun q => ((s.queue q).st, (s.queue q).err, (s.queue q).fetched.isEmpty))

variable {s t : State}

theorem standing_ctx (h : t.standing = s.standing) (c : Nat) : (t.ctx c).st = (s.ctx c).st ∧ (t.ctx c).killing = (s.ctx c).killing :=
  Prod.ext_iff.1 (congrFun (congrArg Prod.fst h) c)
theorem standing_part (h : t.standing = s.standing) (p : Nat) : (t.part p).st = (s.part p).st := congrFun (congrArg (·.2.1) h) p

/-! ### The state's operations -/

theorem Reports.standing (h : Reports s t) : t.standing = s.standing := by
  have part (p : Nat) : (t.part p).st = (s.part p).st := by
    obtain ⟨fs, e⟩ := h.part p
    rw [e]
  simp only [State.standing, State.ctx, State.queue, h.ctxs, h.queues, part]

theorem Counts.standing (h : Counts s t) : t.standing = s.standing := h.reports.standing

theorem modPart_standing (s : State) (p : Nat) (f : Part → Part) (h : ∀ x, (f x).st = x.st := by intro _; rfl) :
    (s.modPart p f).standing = s.standing := by
  have part (k : Nat) : ((s.modPart p f).part k).st = (s.part k).st := by
    rw [part_modPart]
    split
    · rename_i e; rw [h, e]
    · rfl
  simp only [State.standing, part]
  rfl

/-- Two changes of a context that agree on its state and kill. -/
theorem modCtx_standing_congr (s : State) (c : Nat) (f g : Ctx → Ctx) (h : ∀ x, ((f x).st, (f x).killing) = ((g x).st, (g x).killing)) :
    (s.modCtx c f).standing = (s.modCtx c g).standing := by
  have ctx (k : Nat) : (((s.modCtx c f).ctx k).st, ((s.modCtx c f).ctx k).killing) =
      (((s.modCtx c g).ctx k).st, ((s.modCtx c g).ctx k).killing) := by
    rw [ctx_modCtx, ctx_modCtx]
    split
    · exact h _
    · rfl
  exact Prod.ext (funext ctx) rfl

theorem modCtx_standing (s : State) (c : Nat) (f : Ctx → Ctx) (h : ∀ x, ((f x).st, (f x).killing) = (x.st, x.killing) := by intro _; rfl) :
    (s.modCtx c f).standing = s.standing := by
  have ctx (k : Nat) : (((s.modCtx c f).ctx k).st, ((s.modCtx c f).ctx k).killing) = ((s.ctx k).st, (s.ctx k).killing) := by
    rw [ctx_modCtx]
    split
    · rename_i e; rw [h, e]
    · rfl
  simp only [State.standing, ctx]
  rfl

theorem modQueue_standing (s : State) (q : Nat) (f : Queue → Queue)
    (h : ∀ x, ((f x).st, (f x).err, (f x).fetched.isEmpty) = (x.st, x.err, x.fetched.isEmpty)) :
    (s.modQueue q f).standing = s.standing := by
  have queue (k : Nat) : (((s.modQueue q f).queue k).st, ((s.modQueue q f).queue k).err, ((s.modQueue q f).queue k).fetched.isEmpty) =
      ((s.queue k).st, (s.queue k).err, (s.queue k).fetched.isEmpty) := by
    rw [queue_modQueue]
    split
    · rename_i e; rw [h, e]
    · rfl
  simp only [State.standing, queue]
  rfl

theorem forEach_standing {α : Type} (l : List α) (f : State → α → State) (h : ∀ t a, (f t a).standing = t.standing) (s : State) :
    (s.forEach l f).standing = s.standing := forEach_keeps State.standing f h l s

section
variable (s)

@[simp] theorem modSheet_standing (i : Nat) (f : Sheet → Sheet) : (s.modSheet i f).standing = s.standing := rfl
@[simp] theorem modMem_standing (i : Nat) (f : MemPath → MemPath) : (s.modMem i f).standing = s.standing := rfl
@[simp] theorem modEng_standing (e : EngId) (f : Engine → Engine) : (s.modEng e f).standing = s.standing := rfl
@[simp] theorem modPmem_standing (e : EngId) (f : ParcelMem → ParcelMem) : (s.modPmem e f).standing = s.standing := rfl
@[simp] theorem modPort_standing (n : Nat) (f : Port → Port) : (s.modPort n f).standing = s.standing := rfl
@[simp] theorem modEpoch_standing (c : Nat) (f : Epoch → Epoch) : (s.modEpoch c f).standing = s.standing := rfl
@[simp] theorem sendFault_standing (f : FaultInfo) : (s.sendFault f).standing = s.standing := (sendFault_reports s f).standing

@[simp] theorem noteSat_standing {n : Nat} (v : BitVec n) (g : Nat) : (s.noteSat v g).standing = s.standing := by
  unfold State.noteSat
  split <;> rfl

@[simp] theorem modRunOf_standing (p : Nat) (c : CtxId) (f : RunState → RunState) : (s.modRunOf p c f).standing = s.standing :=
  modPart_standing s p _

/-! ### Descriptors and RUNs that end -/

@[simp] theorem endDescs_standing (c : CtxId) (st fl : Byte) (p : Nat → Desc → Bool) : (s.endDescs c st fl p).standing = s.standing :=
  forEach_standing _ _ (fun t q => modQueue_standing t q _ fun x => by simp only [List.isEmpty_map]) s

@[simp] theorem finishRun_standing (p : Nat) (c : CtxId) (st : Byte) (k : BitVec 12) (fl : Byte) :
    (s.finishRun p c st k fl).standing = s.standing := by
  cases h : (s.part p).runOf c with
  | none => rw [finishRun_none s p c st k fl h]
  | some r =>
    simp only [State.finishRun, h]
    refine (modQueue_standing _ _ _ fun x => by simp only [List.isEmpty_map]).trans ((modCtx_standing _ _ _).trans ?_)
    exact (modPart_standing _ _ _).trans (discardLedgers_counts r.ledgers s).standing

@[simp] theorem finishIfDone_standing (p : Nat) (c : CtxId) : (s.finishIfDone p c).standing = s.standing := by
  unfold State.finishIfDone
  split
  · split
    · exact finishRun_standing s _ _ _ _ _
    · rfl
  · rfl

/-! ### Steps that end -/

@[simp] theorem dropUnsent_standing (p : Nat) (c : CtxId) : (s.dropUnsent p c).standing = s.standing :=
  forEach_standing _ _ (fun t n => modPort_standing t n _) s

theorem loseLedgers_standing (l : List Nat) : (s.loseLedgers l).standing = s.standing := by
  obtain ⟨t, counts, e⟩ := loseLedgers_counts s l
  rw [e]
  exact (forEach_standing _ _ (fun t i => modSheet_standing t i _) t).trans counts.standing

theorem restoreEngine_standing (e : EngId) : (s.restoreEngine e false).standing = s.standing := by
  obtain ⟨-, h⟩ | ⟨j, -, h⟩ := restoreEngine_sound s e <;> rw [h]
  rw [modEng_standing, modPmem_standing]

theorem dropEngines_standing (p : Nat) : (s.dropEngines p).standing = s.standing :=
  (forEach_standing _ _ (fun t e => (modEng_standing _ e _).trans (restoreEngine_standing t e)) _).trans (loseLedgers_standing s _)

theorem discardStep_standing (p : Nat) : (s.discardStep p).standing = s.standing := by
  have slots (c : CtxId) : (s.forEach (s.part p).sheetList fun s h => s.modSheet h fun x => x.discard c).standing = s.standing :=
    forEach_standing _ _ (fun t i => modSheet_standing t i _) s
  unfold State.discardStep
  split
  · rfl
  · dsimp only
    split
    · exact (dropUnsent_standing _ _ _).trans (slots _)
    · exact slots _

@[simp] theorem abandonStep_standing (p : Nat) : (s.abandonStep p []).standing = s.standing := by
  rw [abandonStep_sound]
  refine (modPart_standing _ _ _).trans ((discardStep_standing _ p).trans ?_)
  exact (forEach_standing _ _ (fun t i => modSheet_standing t i _) _).trans (dropEngines_standing s p)

@[simp] theorem stopStep_standing (p : Nat) : (s.stopStep p).standing = s.standing :=
  (modPart_standing _ _ _).trans (abandonStep_standing s p)

@[simp] theorem haltPartition_standing (p : Nat) : (s.haltPartition p []).standing = s.standing := by
  refine (modPart_standing _ _ _).trans ((abandonStep_standing _ _).trans ?_)
  exact forEach_standing _ _ (fun t e => modEng_standing t e _) s

@[simp] theorem commitSteps_standing (p : Nat) (c : CtxId) (n : Nat) : (s.commitSteps p c n).standing = s.standing := by
  obtain ⟨t, f, counts, -, e⟩ := commitSteps_eq s p c n
  have sheets : (t.commitSheets p c).standing = t.standing := forEach_standing _ _ (fun t i => modSheet_standing t i _) t
  have stepped : (((t.commitSheets p c).modCtx c.val fun x => { x with step := x.step + BitVec.ofNat 64 n }).modRunOf p c f).standing =
      s.standing :=
    (modRunOf_standing _ _ _ _).trans ((modCtx_standing _ _ _).trans (sheets.trans counts.standing))
  rw [e]
  split
  · exact (modPart_standing _ _ _).trans stepped
  · exact stepped

/-! ### Epochs that fail -/

@[simp] theorem treeMsg_standing (c : CtxId) (x : SpanTree) (ty : Byte) (w : Word) (n : PortId) :
    (s.treeMsg c x ty w n).standing = s.standing := rfl

@[simp] theorem treeDown_standing (c : CtxId) (x : SpanTree) (ty : Byte) (w : Word) : (s.treeDown c x ty w).standing = s.standing :=
  forEach_standing _ _ (fun t n => treeMsg_standing t c x ty w n) s

@[simp] theorem commitEpoch_standing (c : CtxId) (fl : Bool) : (s.commitEpoch c fl).standing = s.standing := by
  unfold State.commitEpoch
  dsimp only
  split
  · rfl
  · rw [finishIfDone_standing, modEpoch_standing, commitSteps_standing, modRunOf_standing]

@[simp] theorem rollbackEpoch_standing (c : CtxId) : (s.rollbackEpoch c).standing = s.standing := by
  have told (b : Bool) (f : FaultInfo) : (if b then s else s.sendFault f).standing = s.standing := by
    split
    · rfl
    · exact sendFault_standing s f
  have stopped (u : State) (b : Bool) (p : Nat) : (if b then u.stopStep p else u).standing = u.standing := by
    split
    · exact stopStep_standing u p
    · rfl
  unfold State.rollbackEpoch
  dsimp only
  rw [modEpoch_standing, noteSat_standing, dropUnsent_standing, stopped, told]

@[simp] theorem applyRelease_standing (c : CtxId) (n : Nat) : (s.applyRelease c n).standing = s.standing := by
  unfold State.applyRelease
  dsimp only
  split
  · split
    · exact rollbackEpoch_standing s c
    · rfl
  · split
    · exact commitEpoch_standing s c _
    · rfl

@[simp] theorem settleVotes_standing (c : CtxId) : (s.settleVotes c).standing = s.standing := by
  unfold State.settleVotes
  dsimp only
  split
  · rfl
  · split
    · rfl
    · split
      · rw [treeMsg_standing, modEpoch_standing]
      · rw [State.releaseEpoch, applyRelease_standing, treeDown_standing, modEpoch_standing]

@[simp] theorem castVote_standing (c : CtxId) (who : Option PortId) (w : Word) : (s.castVote c who w).standing = s.standing := by
  unfold State.castVote
  dsimp only
  split
  · rfl
  · rw [settleVotes_standing, modEpoch_standing]
    split
    · exact sendFault_standing s _
    · rfl

@[simp] theorem failEpoch_standing (c : CtxId) (k : BitVec 12) (poison : Bool) : (s.failEpoch c k poison).standing = s.standing := by
  unfold State.failEpoch
  split
  · rfl
  · unfold State.arriveEpoch
    dsimp only
    split
    · rfl
    · rw [castVote_standing, modEpoch_standing, modEpoch_standing]

/-! ### Teardown -/

@[simp] theorem launchPacket_standing (pk : Packet) (n : Nat) : (s.launchPacket pk n).standing = s.standing := by
  unfold State.launchPacket State.sendPacket
  split
  · split <;> rfl
  · exact sendFault_standing s _

@[simp] theorem controlPacket_standing (dev : DevId) (c : CtxId) (g : Byte) : (s.controlPacket dev c g).standing = s.standing :=
  launchPacket_standing _ _ _

@[simp] theorem tearPhase2_standing (c : CtxId) : (s.tearPhase2 c).standing = s.standing := by
  have counted (l : List Nat) (u : State) : (l.foldl (fun s _ => s.noteSat (s.ctx c.val).drops 4 |>.modCtx c.val fun x =>
      { x with drops := satInc x.drops }) u).standing = u.standing :=
    foldl_keeps State.standing _ (fun t _ => (modCtx_standing _ _ _).trans (noteSat_standing t _ _)) l u
  unfold State.tearPhase2
  dsimp only
  refine (forEach_standing _ _ (fun t d => controlPacket_standing t d c _) _).trans ((modCtx_standing _ _ _).trans ?_)
  rw [endDescs_standing, counted]
  refine (forEach_standing _ _ (fun t h => modMem_standing t h _) _).trans ((modCtx_standing _ _ _).trans ?_)
  exact finishRun_standing s _ _ _ _ _

@[simp] theorem haltTeardown_standing (c : CtxId) : (s.haltTeardown c).standing = s.standing := by
  unfold State.haltTeardown
  dsimp only
  split
  · rw [tearPhase2_standing, stopStep_standing, haltPartition_standing]
  · rfl

end

/-! ### Its start -/

section
variable {c : CtxId} {kill flr : Bool} {cause : Byte} {waiter : Option Nat}

/-- Of an OPEN context it makes a TEARING one, whatever becomes of its step (R289). -/
theorem startTeardown_opened (h : (s.ctx c.val).st = .opened) : (s.startTeardown c kill flr cause waiter).standing =
    (s.modCtx c.val fun x => { x with st := .tearing, killing := kill }).standing := by
  have begun : (s.modCtx c.val fun x =>
      { x with st := .tearing, tphase := 1, killing := kill, pendCause := cause, timedOut := false, byFlr := flr, drops := 0
               acks := [], waiter := waiter }).standing = (s.modCtx c.val fun x => { x with st := .tearing, killing := kill }).standing :=
    modCtx_standing_congr _ _ _ _ fun _ => rfl
  refine Eq.trans ?_ begun
  simp only [State.startTeardown, h]
  split
  · rw [tearPhase2_standing, failEpoch_standing, endDescs_standing]
  · split
    · refine (modPart_standing _ _ _).trans ?_
      rw [failEpoch_standing, endDescs_standing]
    · split
      · rw [haltTeardown_standing, failEpoch_standing, endDescs_standing]
      · rw [tearPhase2_standing, stopStep_standing, failEpoch_standing, endDescs_standing]

/-- A kill joins a teardown that runs (R290). -/
theorem startTeardown_tearing (h : (s.ctx c.val).st = .tearing) : (s.startTeardown c kill flr cause waiter).standing =
    (s.modCtx c.val fun x => { x with killing := x.killing || kill }).standing := by
  have joined : (s.modCtx c.val fun x =>
      { x with
        killing := x.killing || kill, pendCause := if kill && !x.killing then cause else x.pendCause
        byFlr := x.byFlr || flr }).standing = (s.modCtx c.val fun x => { x with killing := x.killing || kill }).standing :=
    modCtx_standing_congr _ _ _ _ fun _ => rfl
  refine Eq.trans ?_ joined
  simp only [State.startTeardown, h]
  split
  · exact haltTeardown_standing _ _
  · rfl

/-- Of a FREE or KILLED context nothing. -/
theorem startTeardown_idle (h : (s.ctx c.val).st = .free ∨ (s.ctx c.val).st = .killed) : s.startTeardown c kill flr cause waiter = s := by
  obtain h | h := h <;> simp only [State.startTeardown, h]

end

end Sys2Proof.Machine
end

section
/-! SUPPORT. Teardowns that start one after another: those of a partition reset (09 R282) and of a function level reset (R291). -/

namespace Sys2Proof.Machine

variable {s t u : State} {c d : CtxId}

/-- A context with a table entry of its own stands in the table. -/
theorem mem_of_tget_ne {α : Type} {x : α} : ∀ {l : Table α} {k : Nat}, tget x l k ≠ x → (k, tget x l k) ∈ l
  | [], _, h => (h rfl).elim
  | (a, b) :: l, k, h => by
    unfold tget at h ⊢
    split
    · rename_i e
      exact e ▸ List.mem_cons_self
    · rename_i e
      rw [if_neg e] at h
      exact List.mem_cons_of_mem _ (mem_of_tget_ne h)

/-- The contexts that `p` selects, by number, hold each context selected that is not FREE. -/
theorem ctx_mem_selected {p : Ctx → Bool} (live : (s.ctx c.val).st ≠ .free) (h : p (s.ctx c.val) = true) :
    c.val ∈ (s.ctxs.filter fun x => p x.2).map Prod.fst := by
  have entry : (c.val, s.ctx c.val) ∈ s.ctxs := mem_of_tget_ne (x := ({} : Ctx)) fun e => live (congrArg Ctx.st e)
  exact List.mem_map_of_mem (List.mem_filter.2 ⟨entry, h⟩)

/-- OPEN or TEARING. -/
def State.stands (s : State) (c : CtxId) : Prop := (s.ctx c.val).st = .opened ∨ (s.ctx c.val).st = .tearing
/-- TEARING by a kill. -/
def State.dying (s : State) (c : CtxId) : Prop := (s.ctx c.val).st = .tearing ∧ (s.ctx c.val).killing = true

section
variable (s c d) (flr : Bool) (cause : Byte) (waiter : Option Nat)

/-- A start of a teardown leaves partitions and queues. -/
theorem startTeardown_elsewhere (kill : Bool) : (s.startTeardown d kill flr cause waiter).standing.2 = s.standing.2 := by
  cases h : (s.ctx d.val).st with
  | free => rw [startTeardown_idle (.inl h)]
  | killed => rw [startTeardown_idle (.inr h)]
  | opened => rw [startTeardown_opened h]; rfl
  | tearing => rw [startTeardown_tearing h]; rfl

/-- A kill of another context leaves a context; a kill of its own leaves it dying where it was OPEN or TEARING. -/
theorem startTeardown_kills (stands : s.stands c) :
    (s.startTeardown d true flr cause waiter).stands c ∧
      (c = d ∨ s.dying c → (s.startTeardown d true flr cause waiter).dying c) := by
  have becomes (f : Ctx → Ctx) (same : (s.startTeardown d true flr cause waiter).standing = (s.modCtx d.val f).standing)
      (torn : (f (s.ctx d.val)).st = .tearing) (kill : (f (s.ctx d.val)).killing = true) :
      (s.startTeardown d true flr cause waiter).stands c ∧ (c = d ∨ s.dying c → (s.startTeardown d true flr cause waiter).dying c) := by
    obtain ⟨hst, hkill⟩ := standing_ctx same c.val
    simp only [State.stands, State.dying, hst, hkill, ctx_modCtx]
    by_cases own : c = d
    · rw [if_pos (congrArg Fin.val own), torn, kill]
      exact ⟨.inr rfl, fun _ => ⟨rfl, rfl⟩⟩
    · rw [if_neg (Fin.val_ne_of_ne own)]
      exact ⟨stands, fun h => h.resolve_left own⟩
  cases h : (s.ctx d.val).st with
  | opened => exact becomes _ (startTeardown_opened h) rfl rfl
  | tearing => exact becomes _ (startTeardown_tearing h) h (Bool.or_true _)
  | free | killed =>
    rw [startTeardown_idle (by simp [h])]
    refine ⟨stands, fun own => own.resolve_left fun e => ?_⟩
    rw [State.stands, e, h] at stands
    simp at stands

end

/-- Contexts killed one after another: each of them that was OPEN or TEARING is dying, and no other one leaves these states. -/
theorem kills_dying (flr : Bool) (cause : Byte) (l : List Nat) : ∀ {s : State}, s.stands c → c.val ∈ l ∨ s.dying c →
    (s.forEach l fun s c => s.startTeardown (Fin.ofNat 4096 c) true flr cause none).dying c := by
  induction l with
  | nil => exact fun _ h => h.resolve_left List.not_mem_nil
  | cons k l ih =>
    intro s stands h
    obtain ⟨stands', dying⟩ := startTeardown_kills s c (Fin.ofNat 4096 k) flr cause none stands
    refine ih stands' ?_
    obtain h | h := h
    · obtain e | h := List.mem_cons.1 h
      · refine .inr (dying (.inl (Fin.ext ?_)))
        rw [← e]
        exact (Nat.mod_eq_of_lt c.isLt).symm
      · exact .inl h
    · exact .inr (dying (.inr h))

/-- What they leave of partitions and queues. -/
theorem kills_elsewhere (flr : Bool) (cause : Byte) (l : List Nat) (s : State) :
    (s.forEach l fun s c => s.startTeardown (Fin.ofNat 4096 c) true flr cause none).standing.2 = s.standing.2 :=
  forEach_keeps (fun s => s.standing.2) _ (fun t c => startTeardown_elsewhere t (Fin.ofNat 4096 c) flr cause none true) l s

/-! ### What follows them -/

theorem beginSheetResets_standing (s : State) (p : Nat) : (s.beginSheetResets p).standing = s.standing := by
  unfold State.beginSheetResets
  split
  · exact (modPart_standing _ _ _).trans (forEach_standing _ _ (fun t h => modSheet_standing t h _) s)
  · rfl

theorem beginSheetResets_cells (s : State) (p : Nat) : SheetsKeep Sheet.cells s (s.beginSheetResets p) := by
  unfold State.beginSheetResets
  split
  · have reset (t : State) (i : Nat) : SheetsKeep Sheet.cells t (t.modSheet i fun x => { x with mode := .recovery }) :=
      .modSheet i _ fun _ => rfl
    exact (SheetsKeep.forEach _ _ reset).trans (.of_sheets rfl)
  · exact .refl

theorem settleFlr_standing (s : State) (f : BitVec 4) : (s.settleFlr f).standing = s.standing := by
  unfold State.settleFlr
  split <;> rfl

theorem dying_of_standing (h : t.standing = s.standing) (dying : s.dying c) : t.dying c := by
  obtain ⟨hst, hkill⟩ := standing_ctx h c.val
  exact ⟨hst.trans dying.1, hkill.trans dying.2⟩

/-! ### Partition reset -/

theorem startPartReset_resets {p : Nat} (h : (s.part p).st = .running ∨ (s.part p).st = .setup) :
    ((s.startPartReset p).part p).st = .resetting ∧
      ∀ c : CtxId, (s.ctx c.val).part.toNat = p → (s.ctx c.val).st = .opened → (s.startPartReset p).dying c := by
  have goes : ((s.part p).st == .resetting || (s.part p).st == .unused) = false := by obtain h | h := h <;> rw [h] <;> rfl
  simp only [State.startPartReset, goes, Bool.false_eq_true, if_false]
  refine ⟨?_, fun c home opened => dying_of_standing (beginSheetResets_standing _ p) (kills_dying false stKilled _ (.inl opened) (.inl ?_))⟩
  · rw [standing_part (beginSheetResets_standing _ p)]
    refine (congrFun (congrArg Prod.fst (kills_elsewhere false stKilled _ _)) p).trans ?_
    exact congrArg Part.st (part_modPart_same s p _)
  · refine ctx_mem_selected (s := s) (p := fun x => x.part.toNat == p && x.st == .opened) (by rw [opened]; decide) ?_
    simp [home, opened]

/-! ### Function level reset -/

/-- A table made of a function's values at some keys. -/
theorem tget_filterMap {α : Type} [DecidableEq α] (d : α) (f : Nat → α) (k : Nat) (l : List Nat) :
    tget d (l.filterMap fun k => let v := f k; if v = d then none else some (k, v)) k = if k ∈ l then f k else d := by
  induction l with
  | nil => rfl
  | cons a l ih =>
    by_cases own : a = k
    · subst own
      by_cases v : f a = d
      · simp [v] at ih ⊢
        exact ih
      · simp [v, tget]
    · by_cases v : f a = d <;> simpa [v, tget, own, Ne.symm own] using ih

theorem tget_tmap {α : Type} [DecidableEq α] (d : α) {n : Nat} (f : Nat → α → α) (t : Table α) {k : Nat} (h : k < n) :
    tget d (tmap d n f t) k = f k (tget d t k) := by
  rw [tmap, tget_filterMap d (fun k => f k (tget d t k)), if_pos (List.mem_range.2 h)]

/-- The device after a function level reset has taken the function's queues. -/
def State.resetQueues (s : State) (f : BitVec 4) : State :=
  { s with flr := s.flr ++ [f]
           queues := tmap {} 32768 (fun _ (x : Queue) => if x.func == f then { x.fail 4 with fetched := [] } else x) s.queues }

theorem resetQueues_queue {f : BitVec 4} (q : QueueId) (own : (s.queue q.val).func = f) :
    (s.resetQueues f).queue q.val = { (s.queue q.val).fail 4 with fetched := [] } := by
  unfold State.queue at own ⊢
  simp only [State.resetQueues, tget_tmap _ _ _ q.isLt, own, beq_self_eq_true, if_true]

/-- The kills of a function level reset, and its end. -/
def State.killFunction (s : State) (f : BitVec 4) : State :=
  (s.forEach ((s.ctxs.filter fun x => x.2.func == f && (x.2.st == .opened || x.2.st == .tearing)).map Prod.fst)
    fun s c => s.startTeardown (Fin.ofNat 4096 c) true true stKilled none).settleFlr f

theorem killFunction_elsewhere (s : State) (f : BitVec 4) : (s.killFunction f).standing.2 = s.standing.2 :=
  (congrArg Prod.snd (settleFlr_standing _ f)).trans (kills_elsewhere true stKilled _ _)

theorem killFunction_kills {f : BitVec 4} (own : (s.ctx c.val).func = f) (stands : s.stands c) : (s.killFunction f).dying c := by
  refine dying_of_standing (settleFlr_standing _ f) (kills_dying true stKilled _ stands (.inl ?_))
  refine ctx_mem_selected (p := fun x => x.func == f && (x.st == .opened || x.st == .tearing)) ?_ ?_
  · obtain h | h := stands <;> rw [h] <;> decide
  · obtain h | h := stands <;> simp [own, h]

theorem doFlr_repeats {f : BitVec 4} (h : s.flr.contains f = true) : s.doFlr f = s := if_pos h

theorem doFlr_resets {f : BitVec 4} (h : s.flr.contains f = false) : s.doFlr f = (s.resetQueues f).killFunction f := by
  simp only [State.doFlr, h, Bool.false_eq_true, if_false]
  unfold State.resetQueues State.killFunction
  with_reducible rfl

theorem doFlr_queue {f : BitVec 4} (h : s.flr.contains f = false) (q : QueueId) (own : (s.queue q.val).func = f) :
    ((s.doFlr f).queue q.val).st = .error ∧ ((s.doFlr f).queue q.val).err = 4 ∧ ((s.doFlr f).queue q.val).fetched = [] := by
  have same := congrFun (congrArg Prod.snd (killFunction_elsewhere (s.resetQueues f) f)) q.val
  simp only [State.standing, Prod.mk.injEq, resetQueues_queue q own, List.isEmpty_nil, List.isEmpty_iff] at same
  rw [doFlr_resets h]
  exact same

theorem doFlr_kills {f : BitVec 4} (h : s.flr.contains f = false) (own : (s.ctx c.val).func = f) (stands : s.stands c) :
    (s.doFlr f).dying c := by
  have same : (s.resetQueues f).ctx c.val = s.ctx c.val := by unfold State.ctx State.resetQueues; with_reducible rfl
  rw [doFlr_resets h]
  refine killFunction_kills (by rw [same]; exact own) ?_
  rw [State.stands, same]
  exact stands

end Sys2Proof.Machine
end

section
/-! SUPPORT. The release of a context (09 R289 phase 5): its slots are unbound on every sheet and it becomes FREE or KILLED; and the
pages that wait to be zeroed. -/

namespace Sys2Proof.Machine

variable {s t u : State} {c : CtxId}

/-! ### What a release leaves of contexts and slots -/

/-- The contexts and the slots of every sheet read as before. -/
structure SlotsStill (s t : State) : Prop where
  ctxs : t.ctxs = s.ctxs
  slots : SheetsKeep Sheet.slots s t

theorem SlotsStill.refl : SlotsStill s s := ⟨rfl, .refl⟩
theorem SlotsStill.trans (h : SlotsStill s t) (k : SlotsStill t u) : SlotsStill s u := ⟨k.ctxs.trans h.ctxs, h.slots.trans k.slots⟩
theorem SlotsStill.of_same (hc : t.ctxs = s.ctxs) (hs : t.sheets = s.sheets) : SlotsStill s t := ⟨hc, .of_sheets hs⟩

theorem SlotsStill.forEach {α : Type} (l : List α) (f : State → α → State) (h : ∀ s a, SlotsStill s (f s a)) (s : State) :
    SlotsStill s (s.forEach l f) :=
  ⟨forEach_keeps State.ctxs f (fun t a => (h t a).ctxs) l s, .forEach l f fun t a => (h t a).slots⟩

theorem SlotsStill.modSheet (s : State) (i : Nat) (f : Sheet → Sheet) (h : ∀ x, (f x).slots = x.slots) : SlotsStill s (s.modSheet i f) :=
  ⟨rfl, .modSheet i f h⟩
theorem SlotsStill.modMem (s : State) (i : Nat) (f : MemPath → MemPath) : SlotsStill s (s.modMem i f) := .modSheet s i _ fun _ => rfl
theorem SlotsStill.modEng (s : State) (e : EngId) (f : Engine → Engine) : SlotsStill s (s.modEng e f) := .modSheet s _ _ fun _ => rfl
theorem SlotsStill.modPmem (s : State) (e : EngId) (f : ParcelMem → ParcelMem) : SlotsStill s (s.modPmem e f) :=
  .modSheet s _ _ fun x => by split <;> rfl

theorem Reports.slotsStill (h : Reports s t) : SlotsStill s t := ⟨h.ctxs, h.sheetsKeep fun _ _ _ _ => rfl⟩

theorem upset_slotsStill (s : State) (i : Nat) (d : Disturb) : SlotsStill s (s.upset i d) :=
  (SlotsStill.modMem s i _).trans (upset_counts s i d).reports.slotsStill

theorem lookPages_slotsStill (s : State) (i : Nat) (l : List Nat) (op : BitVec 16) : SlotsStill s (s.lookPages i l op) :=
  .forEach _ _ (fun t _ => (sheetFault_reports t i 3 0x106 op _).slotsStill.trans (.modMem _ i _)) s

theorem releaseTensor_slotsStill (s : State) (x : Tensor) (zero hold : Bool) (op : BitVec 16) :
    SlotsStill s (s.releaseTensor x zero hold op) := by
  have dropped : SlotsStill s (if x.isSealed then s.forEach x.parts fun s y => s.modMem y.sheet.val fun m => m.dropRecords y else s) := by
    split
    · exact .forEach _ _ (fun t y => .modMem t _ _) s
    · exact .refl
  refine dropped.trans (.forEach _ _ (fun t g => ?_) _)
  exact (lookPages_slotsStill t g.1 [g.2] op).trans (.modMem _ _ _)

theorem clearDie_slotsStill (s : State) (c : CtxId) : SlotsStill s (s.clearDie c) := by
  have cleared (t : State) (e : EngId) (f : ParcelMem → ParcelMem) (g : Engine → Engine) : SlotsStill t ((t.modPmem e f).modEng e g) :=
    (SlotsStill.modPmem t e _).trans (.modEng _ e _)
  unfold State.clearDie
  dsimp only
  split
  · exact .forEach _ _ (fun t e => by exact cleared t e _ _) s
  · exact (SlotsStill.forEach _ _ (fun t e => by exact cleared t e _ _) s).trans (.forEach _ _ (fun t y => by exact cleared t _ _ _) _)

/-! ### Unbinding -/

/-- A slot that no context holds any more. -/
def Slot.unbound (x : Slot) : Slot :=
  { x with reg := { x.reg with bound := false }, pend := { x.reg with bound := false }
           start := { x.reg with bound := false }, shadow := none, phase := .idle
           drew := false, started := false, poison := false, cfgPoison := false, ctx := none, sheets := []
           home := none, homeDev := none, far := [] }

theorem slot_unbind {x : Sheet} {n : Nat} (h : (x.slot n).ctx = some c) : (x.unbind c).slot n = (x.slot n).unbound := by
  have walk (l : List Nat) : ∀ y : Sheet, (l.foldl (fun h n => (h.modSlot n Slot.unbound).modChain n fun x =>
      { x with pend := x.reg, start := x.reg, poison := false }) y).slot n = if n ∈ l then (y.slot n).unbound else y.slot n := by
    induction l with
    | nil => exact fun y => rfl
    | cons k l ih =>
      intro y
      rw [List.foldl_cons, ih]
      have step : ((y.modSlot k Slot.unbound).modChain k fun x => { x with pend := x.reg, start := x.reg, poison := false }).slot n =
          if n = k then (y.slot k).unbound else y.slot n := slot_modSlot y n k Slot.unbound
      rw [step]
      by_cases e : n = k
      · subst e
        by_cases h : n ∈ l <;> simp [h, Slot.unbound]
      · simp [e]
  exact (walk _ x).trans (if_pos (slot_mem_own h))

/-! ### The release -/

/-- A context once its release is over. -/
def Ctx.released (x : Ctx) : Ctx :=
  { x with st := if x.killing then .killed else .free, tphase := 0, cause := if x.killing then x.pendCause else 0
           seed := none, plans := [], records := [], acks := [], waiter := none, killing := false, restored := false
           byFlr := false, timedOut := false }

/-- The release is over: the context is FREE or KILLED, and no slot of it is left on a sheet. -/
structure Releases (c : CtxId) (s u : State) : Prop where
  ctx : u.ctx c.val = (s.ctx c.val).released
  slots : ∀ h n, h < 16 → ((s.sheet h).slot n).ctx = some c → (u.sheet h).slot n = ((s.sheet h).slot n).unbound

theorem Releases.before (h : SlotsStill s t) (k : Releases c t u) : Releases c s u := by
  have slot (i n : Nat) : (t.sheet i).slot n = (s.sheet i).slot n := by simp only [Sheet.slot, h.slots i]
  refine ⟨by rw [k.ctx, ctx_of_ctxs h.ctxs], fun i n hi own => ?_⟩
  rw [k.slots i n hi (by rw [slot]; exact own), slot]

theorem Releases.after (k : Releases c s t) (h : SlotsStill t u) : Releases c s u := by
  refine ⟨by rw [ctx_of_ctxs h.ctxs, k.ctx], fun i n hi own => ?_⟩
  rw [← k.slots i n hi own, Sheet.slot, Sheet.slot, h.slots i]

/-- A sheet that a context leaves. -/
def Sheet.leave (c : CtxId) (y : Sheet) : Sheet := { y.unbind c with key := y.key.forget c }

theorem slot_leave {x : Sheet} {n : Nat} (h : (x.slot n).ctx = some c) : (x.leave c).slot n = (x.slot n).unbound := by
  have slots : (x.leave c).slots = (x.unbind c).slots := by unfold Sheet.leave; with_reducible rfl
  rw [Sheet.slot, slots]
  exact slot_unbind h

/-- A context leaves every sheet, and is released. -/
def State.leaveSheets (s : State) (c : CtxId) : State :=
  (s.forEach sheetIdx fun s h => s.modSheet h (Sheet.leave c)).modCtx c.val Ctx.released

theorem leaveSheets_releases (s : State) (c : CtxId) : Releases c s (s.leaveSheets c) := by
  have sheet (i : Nat) : (s.leaveSheets c).sheet i = if i ∈ sheetIdx then (s.sheet i).leave c else s.sheet i := by
    rw [State.leaveSheets, State.sheet, modCtx_sheets]
    exact sheet_forEach_modSheet (fun _ => Sheet.leave c) sheetIdx s List.nodup_range i
  refine ⟨?_, fun i n hi own => ?_⟩
  · rw [State.leaveSheets, ctx_modCtx_same, ctx_of_ctxs (forEach_modSheet_ctxs (fun _ _ => Sheet.leave c) _ s)]
  · rw [(sheet i).trans (if_pos (List.mem_range.2 hi))]
    exact slot_leave own

/-- The TEARDOWN that waited for the release completes with OK. -/
def State.answerWaiter (s : State) (c : CtxId) (x : Ctx) : State :=
  match x.waiter with
  | some q => s.modQueue q fun y =>
      { y with fetched := y.fetched.map fun (d : Desc) =>
          if d.started && dOp d == 11 && dCtx d == c then settleDesc s.now stOk 0 x.drops.toNat 0 0 d else d }
  | none => s

theorem answerWaiter_slotsStill (s : State) (c : CtxId) (x : Ctx) : SlotsStill s (s.answerWaiter c x) := by
  unfold State.answerWaiter
  split
  · exact .of_same rfl rfl
  · exact .refl

theorem beginSheetResets_slotsStill (s : State) (p : Nat) : SlotsStill s (s.beginSheetResets p) := by
  unfold State.beginSheetResets
  split
  · exact (SlotsStill.forEach _ _ (fun t i => .modSheet t i (fun x => { x with mode := .recovery }) fun _ => rfl) s).trans
      (.of_same rfl rfl)
  · exact .refl

theorem settleFlr_slotsStill (s : State) (f : BitVec 4) : SlotsStill s (s.settleFlr f) := by
  unfold State.settleFlr
  split
  · exact .of_same rfl rfl
  · exact .refl

/-- The memories that a context leaves (R289 phase 5). -/
def State.clearMemories (s : State) (c : CtxId) : State :=
  (s.forEach (s.ctx c.val).tensors fun t x =>
    t.releaseTensor x (s.ctx c.val).scrub ((s.ctx c.val).byFlr && (s.ctx c.val).scrub) 9).clearDie c

theorem clearMemories_slotsStill (s : State) (c : CtxId) : SlotsStill s (s.clearMemories c) :=
  (SlotsStill.forEach _ _ (fun t x => releaseTensor_slotsStill t x _ _ 9) s).trans (clearDie_slotsStill _ c)

theorem releaseCtx_eq (s : State) (c : CtxId) : s.releaseCtx c = (((((s.clearMemories c).leaveSheets c).answerWaiter c
    (s.ctx c.val)).closeCtxWindows c).settleFlr (s.ctx c.val).func).beginSheetResets (s.ctx c.val).part.toNat := rfl

theorem releaseCtx_releases (s : State) (c : CtxId) : Releases c s (s.releaseCtx c) := by
  have left := Releases.before (clearMemories_slotsStill s c) (leaveSheets_releases _ c)
  have closed (t : State) : SlotsStill t (t.closeCtxWindows c) := .of_same rfl rfl
  rw [releaseCtx_eq]
  exact (((left.after (answerWaiter_slotsStill _ c _)).after (closed _)).after (settleFlr_slotsStill _ _)).after
    (beginSheetResets_slotsStill _ _)

theorem doReleaseDone_waits (no : (s.ctx c.val).st ≠ .tearing ∨ (s.ctx c.val).tphase ≠ 5) (d : Disturb) : s.doReleaseDone c d = s := by
  refine if_neg fun cond => ?_
  simp only [Bool.and_eq_true, beq_iff_eq] at cond
  exact no.elim (· cond.1) (· cond.2)

theorem doReleaseDone_releases (st : (s.ctx c.val).st = .tearing) (phase : (s.ctx c.val).tphase = 5) (d : Disturb) :
    Releases c s (s.doReleaseDone c d) := by
  have does : s.doReleaseDone c d = (s.upset ((s.part (s.ctx c.val).part.toNat).sheetList.headD 0) d).releaseCtx c :=
    if_pos (by simp [st, phase])
  rw [does]
  exact .before (upset_slotsStill s _ d) (releaseCtx_releases _ c)

/-! ### Pages that wait to be zeroed -/

/-- Pages set free and zeroed, one after another. -/
theorem freePages (l : List Nat) : ∀ m : MemPath,
    (∀ g, (l.foldl (fun m g => m.freePage true g) m).attr g = if g ∈ l then (0, 0) else m.attr g) ∧
      ∀ a, mget (l.foldl (fun m g => m.freePage true g) m).dram a = if a / 4096 ∈ l then 0 else mget m.dram a := by
  induction l with
  | nil => exact fun m => ⟨fun _ => rfl, fun _ => rfl⟩
  | cons k l ih =>
    intro m
    obtain ⟨attr, dram⟩ := ih (m.freePage true k)
    have one (g : Nat) : (m.freePage true k).attr g = if g = k then (0, 0) else m.attr g := by
      simp only [MemPath.freePage, MemPath.setAttr, MemPath.attr, if_true, tget_tset]
      split <;> rfl
    have zero (a : Nat) : mget (m.freePage true k).dram a = if a / 4096 = k then 0 else mget m.dram a := by
      refine (mget_mzero _ _ _ a).trans (if_congr ?_ rfl rfl)
      omega
    refine ⟨fun g => ?_, fun a => ?_⟩
    · rw [List.foldl_cons, attr, one]
      by_cases h : g ∈ l <;> by_cases e : g = k <;> simp [h, e]
    · rw [List.foldl_cons, dram, zero]
      by_cases h : a / 4096 ∈ l <;> by_cases e : a / 4096 = k <;> simp [h, e]

/-- The pages of a sheet that wait to be zeroed. -/
def MemPath.waiting (m : MemPath) : List Nat := m.lockedOrphans ++ if m.zeroOrphans then m.orphans else []

/-- A sheet once they are. -/
def MemPath.zeroed (m : MemPath) : MemPath :=
  let z := m.waiting.foldl (fun m g => m.freePage true g) m
  { z with lockedOrphans := [], orphans := if z.zeroOrphans then [] else z.orphans, zeroOrphans := false }

theorem doOrphansZeroed_mem {h : Nat} (hh : h < 16) : (s.doOrphansZeroed.sheet h).mem = (s.sheet h).mem.zeroed := by
  have sheet := sheet_forEach_modSheet (fun _ x => { x with mem := x.mem.zeroed }) sheetIdx s List.nodup_range h
  exact congrArg Sheet.mem (sheet.trans (if_pos (List.mem_range.2 hh)))

theorem doOrphansZeroed_parcels : SheetsKeep Sheet.parcels s s.doOrphansZeroed :=
  .forEach _ _ fun _ i => .modSheet i _ fun _ => rfl

/-- The pages that waited on a sheet are free and hold zeros; every other byte reads as before (R289). -/
theorem doOrphansZeroed_zeroes {h : Nat} (hh : h < 16) :
    (s.doOrphansZeroed.sheet h).mem.lockedOrphans = [] ∧
      (∀ g ∈ (s.sheet h).mem.waiting, (s.doOrphansZeroed.sheet h).mem.attr g = (0, 0) ∧
        ∀ i, i < 4096 → s.doOrphansZeroed.dramAt h (4096 * g + i) = 0) ∧
      ∀ a, a / 4096 ∉ (s.sheet h).mem.waiting → s.doOrphansZeroed.dramAt h a = s.dramAt h a := by
  obtain ⟨attr, dram⟩ := freePages (s.sheet h).mem.waiting (s.sheet h).mem
  have mem := doOrphansZeroed_mem (s := s) hh
  have bytes (a : Nat) : s.doOrphansZeroed.dramAt h a = if a / 4096 ∈ (s.sheet h).mem.waiting then 0 else s.dramAt h a := by
    rw [State.dramAt, mem]
    exact dram a
  refine ⟨by rw [mem]; rfl, fun g waits => ⟨?_, fun i hi => ?_⟩, fun a away => (bytes a).trans (if_neg away)⟩
  · rw [mem]
    exact (attr g).trans (if_pos waits)
  · exact (bytes _).trans (if_pos (by rw [show (4096 * g + i) / 4096 = g by omega]; exact waits))

end Sys2Proof.Machine
end

section
/-! O42: partition and context commands, and teardown from its start to its release (09 R257, R278, R282 to R291, R398). -/

namespace Sys2Proof.Machine

variable {s t u : State} {p q : Nat} {c : CtxId} {d : Desc} {dev : DevId}

/-! ### Partition commands -/

theorem part_modPart_ne {k : Nat} (f : Part → Part) (h : k ≠ p) : (s.modPart p f).part k = s.part k := by rw [part_modPart, if_neg h]

/-- A change of one partition. -/
def PutsPart (p : Nat) (y : Part) (s u : State) : Prop :=
  u.part p = y ∧ (∀ k, k ≠ p → u.part k = s.part k) ∧ { u with parts := [] } = { s with parts := [] }

theorem modPart_puts (s : State) (p : Nat) (f : Part → Part) : PutsPart p (f (s.part p)) s (s.modPart p f) :=
  ⟨part_modPart_same _ _ _, fun _ => part_modPart_ne f, rfl⟩

/-- A partition command that is refused. -/
def RefusesPart (k : BitVec 12) (s u : State) : Prop := u.parts = s.parts ∧ SameMemories s u ∧ RaisesDev k s u

theorem hostFault_refusesPart (s : State) {k : BitVec 12} (hk : k.toNat / 0x100 ≠ 6) : RefusesPart k s (s.hostFault k) := by
  have told := hostFault_tells s 9 hk
  exact ⟨told.keeps State.parts fun _ _ _ _ => rfl, told.same, told.raises⟩

/-- The condition of PART.GO (R282). -/
def State.mayGo (s : State) (p : Nat) : Prop :=
  (s.part p).st = .setup ∧ (s.part p).sheets ≠ 0 ∧ (s.part p).ports ≠ 0 ∧ s.partShares p = false ∧
    s.transitOk p (s.part p).sheets = true ∧ s.holdsOff (s.part p) = false

theorem doPartGo_goes (go : s.mayGo p) : s.doPartGo p = s.modPart p fun x => { x with st := .running } := by
  obtain ⟨st, sheets, ports, shares, transit, off⟩ := go
  exact if_pos (by simpa [st, shares, transit, off] using And.intro sheets ports)

theorem doPartGo_refused (no : ¬s.mayGo p) : s.doPartGo p = s.partRefused := by
  refine if_neg fun cond => no ?_
  simpa [State.mayGo, and_assoc] using cond

theorem doPartStop_stops (idle : (s.part p).st = .running ∧ s.partIdle p = true) :
    s.doPartStop p = s.modPart p fun x => { x with st := .setup } := if_pos (by simp [idle.1, idle.2])

theorem doPartStop_refused (no : ¬((s.part p).st = .running ∧ s.partIdle p = true)) : s.doPartStop p = s.partRefused :=
  if_neg fun cond => no (by simpa using cond)

theorem partCfg_undefined {v : Word} (fits : v &&& 0xFFFF0000FFFFFFFC = 0) (s : State) :
    (if v &&& 0xFFFF0000FFFFFFFC != 0 then s.hostFault 0x406 else s) = s := by
  rw [fits]
  rfl

/-! ### Context commands -/

/-- A change of one context. -/
def PutsCtx (c : Nat) (y : Ctx) (s u : State) : Prop :=
  u.ctx c = y ∧ (∀ k, k ≠ c → u.ctx k = s.ctx k) ∧ { u with ctxs := [] } = { s with ctxs := [] }

theorem modCtx_puts (s : State) (c : Nat) (f : Ctx → Ctx) : PutsCtx c (f (s.ctx c)) s (s.modCtx c f) :=
  ⟨ctx_modCtx_same _ _ _, fun _ => ctx_modCtx_ne f, rfl⟩

/-- The condition of CTX.OPEN (R287). -/
def State.mayOpen (s : State) (c : Nat) : Prop :=
  ((s.ctx c).st = .free ∨ (s.ctx c).st = .killed) ∧ (s.part (s.ctx c).part.toNat).st ≠ .unused ∧
    (s.part (s.ctx c).part.toNat).st ≠ .resetting ∧ s.slotRangeOk c = true

theorem doCtxOpen_opens {c : Nat} (h : s.mayOpen c) : s.doCtxOpen c =
    (s.modCtx c fun x => { x with st := .opened, cause := 0 }).modEpoch c fun e => { e with drops := 0, rbcnt := 0 } := by
  obtain ⟨idle, used, live, slots⟩ := h
  exact if_pos (by simp [Ctx.idle_iff.2 idle, used, live, slots])

theorem doCtxOpen_refused {c : Nat} (no : ¬s.mayOpen c) : s.doCtxOpen c = s.ctxRefused := by
  refine if_neg fun cond => no ?_
  simpa [State.mayOpen, Ctx.idle_iff, and_assoc] using cond

/-- The condition of CTX.SETGEN (R288). -/
def Ctx.takesGen (x : Ctx) (g : Byte) : Prop := (x.st = .free ∨ x.st = .killed) ∧ g ≠ x.gen ∧ g ≠ x.gen - 1

theorem doCtxSetgen_sets {c : Nat} {g : Byte} (h : (s.ctx c).takesGen g) : s.doCtxSetgen c g = s.modCtx c fun x => { x with gen := g } := by
  obtain ⟨idle, new, fresh⟩ := h
  exact if_pos (by simpa [Ctx.idle_iff.2 idle, new] using fresh)

theorem doCtxSetgen_refused {c : Nat} {g : Byte} (no : ¬(s.ctx c).takesGen g) : s.doCtxSetgen c g = s.ctxRefused := by
  refine if_neg fun cond => no ?_
  simpa [Ctx.takesGen, Ctx.idle_iff, and_assoc] using cond

/-- A kill that joins a teardown leaves its phase and its generation (R290). -/
theorem doCtxKill_joins (h : (s.ctx c.val).st = .tearing) : let y := (s.doCtxKill c).ctx c.val
    y.st = .tearing ∧ y.killing = true ∧ y.tphase = (s.ctx c.val).tphase ∧ y.gen = (s.ctx c.val).gen := by
  simp only [State.doCtxKill, State.startTeardown, h, Bool.false_eq_true, if_false, ctx_modCtx_same, Bool.or_true, and_self]

/-! ### TEARDOWN -/

/-- What a descriptor that is ready to start is (R270). -/
theorem headReady_some {op : Nat} (h : s.headReady q op = some d) :
    s.head q = some d ∧ d.checked = true ∧ d.started = false ∧ d.status = none ∧ dOp d = op := by
  unfold State.headReady at h
  split at h
  · rename_i e head
    split at h
    · rename_i cond
      obtain rfl := Option.some.inj h
      simp only [Bool.and_eq_true, Bool.not_eq_true', beq_iff_eq] at cond
      obtain ⟨⟨⟨checked, idle⟩, open_⟩, op⟩ := cond
      exact ⟨head, checked, idle, open_, op⟩
    · cases h
  · cases h

theorem doTeardown_tearing (h : s.headReady q 11 = some d) (st : (s.ctx (dCtx d).val).st = .tearing) :
    s.doTeardown q = s.decideHead q stTorn := by simp only [State.doTeardown, h, st]

theorem doTeardown_idle (h : s.headReady q 11 = some d) (st : (s.ctx (dCtx d).val).st = .free ∨ (s.ctx (dCtx d).val).st = .killed) :
    s.doTeardown q = s.decideHead q stOk 0 (s.ctx (dCtx d).val).drops.toNat := by
  obtain st | st := st <;> simp only [State.doTeardown, h, st]

/-! ### Quiesce -/

theorem doQuiesceAck_takes (h : (s.ctx c.val).st = .tearing ∧ (s.ctx c.val).tphase = 4 ∧ dev ∈ (s.ctx c.val).acks) :
    s.doQuiesceAck c dev = s.modCtx c.val fun x =>
      { x with acks := (s.ctx c.val).acks.filter (· != dev)
               tphase := if ((s.ctx c.val).acks.filter (· != dev)).isEmpty then 5 else 4 } := by
  obtain ⟨st, phase, waits⟩ := h
  exact if_pos (by simp [st, phase, waits])

theorem doQuiesceAck_waits (no : ¬((s.ctx c.val).st = .tearing ∧ (s.ctx c.val).tphase = 4 ∧ dev ∈ (s.ctx c.val).acks)) :
    s.doQuiesceAck c dev = s := by
  refine if_neg fun cond => no ?_
  simpa [and_assoc] using cond

theorem doQuiesceTimeout_waits (no : (s.ctx c.val).st ≠ .tearing ∨ (s.ctx c.val).tphase ≠ 4 ∨ (s.ctx c.val).acks = [] ∨
    (s.ctx c.val).timedOut = true) : s.doQuiesceTimeout c = s := by
  refine if_neg fun cond => ?_
  simp only [Bool.and_eq_true, beq_iff_eq, Bool.not_eq_true', List.isEmpty_eq_false_iff] at cond
  obtain ⟨⟨⟨st, phase⟩, acks⟩, late⟩ := cond
  simp [st, phase, acks, late] at no

theorem doQuiesceTimeout_raises (st : (s.ctx c.val).st = .tearing) (phase : (s.ctx c.val).tphase = 4) (acks : (s.ctx c.val).acks ≠ [])
    (new : (s.ctx c.val).timedOut = false) : ∃ t, TellsDev 0x403 s t ∧ s.doQuiesceTimeout c =
      ((t.modCtx c.val fun x => { x with timedOut := true }).settleFlr (s.ctx c.val).func).beginSheetResets (s.ctx c.val).part.toNat := by
  have told := sendFault_tells_dev s (f := { source := devSource 0, kind := 0x403, ctx := some c, op := 0x0F })
    (by decide : 4 < srcLevel (devSource 0)) (by decide : (0x403 : BitVec 12).toNat / 0x100 ≠ 6)
  exact ⟨_, told, if_pos (by simp [st, phase, acks, new])⟩

theorem beginSheetResets_devWire (s : State) (p : Nat) : (s.beginSheetResets p).devWire = s.devWire := by
  unfold State.beginSheetResets
  split
  · exact forEach_keeps State.devWire _ (fun t i => modSheet_devWire (s := t) i _) _ s
  · rfl

theorem settleFlr_devWire (s : State) (f : BitVec 4) : (s.settleFlr f).devWire = s.devWire := by
  unfold State.settleFlr
  split <;> rfl

theorem settleFlr_sheets (s : State) (f : BitVec 4) : (s.settleFlr f).sheets = s.sheets := by
  unfold State.settleFlr
  split <;> rfl

/-- A quiesce that times out is reported once. -/
theorem doQuiesceTimeout_times (st : (s.ctx c.val).st = .tearing) (phase : (s.ctx c.val).tphase = 4) (acks : (s.ctx c.val).acks ≠ [])
    (new : (s.ctx c.val).timedOut = false) : SameMemories s (s.doQuiesceTimeout c) ∧ RaisesDev 0x403 s (s.doQuiesceTimeout c) ∧
      (s.doQuiesceTimeout c).ctx c.val = { s.ctx c.val with timedOut := true } := by
  obtain ⟨t, told, does⟩ := doQuiesceTimeout_raises st phase acks new
  let v := (t.modCtx c.val fun x => { x with timedOut := true }).settleFlr (s.ctx c.val).func
  have ctxs := (settleFlr_slotsStill (t.modCtx c.val fun x => { x with timedOut := true }) (s.ctx c.val).func).ctxs
  have sheets : v.sheets = s.sheets := (settleFlr_sheets _ _).trans (told.keeps State.sheets fun _ _ _ _ => rfl)
  have wire : (v.beginSheetResets (s.ctx c.val).part.toNat).devWire = t.devWire :=
    (beginSheetResets_devWire v _).trans (settleFlr_devWire _ _)
  rw [does]
  refine ⟨cells_sameMemories ((SheetsKeep.of_sheets sheets).trans (beginSheetResets_cells v _)), ?_, ?_⟩
  · obtain ⟨m, hm, kind⟩ := told.raises
    exact ⟨m, wire.trans hm, kind⟩
  · rw [ctx_of_ctxs ((beginSheetResets_slotsStill v _).ctxs.trans ctxs), ctx_modCtx_same,
      told.keeps (State.ctx · c.val) fun _ _ _ _ => rfl]

theorem launchPacket_ctxs (s : State) (pk : Packet) (n : Nat) : (s.launchPacket pk n).ctxs = s.ctxs := by
  unfold State.launchPacket State.sendPacket
  split
  · split <;> rfl
  · exact (sendFault_reports s _).ctxs

theorem controlPacket_still (s : State) (c : CtxId) (g : Byte) :
    SameMemories s (s.controlPacket dev c g) ∧ (s.controlPacket dev c g).ctxs = s.ctxs := by
  have launched := launchPacket_still { s with free := s.free + 1 }
    { ptype := 5, poison := false, prov := false, enc := false, src := s.chart.reg.devId, dst := BitVec.ofNat 12 dev.val
      ctx := BitVec.ofNat 12 c.val, gen := g, dsheet := 0, route := 0, tspec := 0, body := [BitVec.ofNat 8 (Config.freeValue s.free)] } 0
  exact ⟨cells_sameMemories launched.cells, launchPacket_ctxs _ _ _⟩

/-! ### PCI Express -/

theorem doTlpFail_none (off : s.ecb.ideKeys = none) (x : Option QueueId) : s.doTlpFail x = s := if_pos (by rw [off]; rfl)

theorem doTlpFail_ends {q : QueueId} (on : s.ecb.ideKeys ≠ none) (h : s.head q.val = some d) (checked : d.checked = true)
    (open_ : d.status = none) (runs : ((s.part (s.ctxPart (dCtx d))).runs.any fun r => r.queue == q.val) = false) :
    ∃ t, TellsDev 0x402 (s.emit .aer) t ∧ s.doTlpFail (some q) = t.decideHead q.val stBad 0x402 := by
  have told := sendFault_tells_dev (s.emit .aer) (f := { source := devSource 0, kind := 0x402, ctx := some (dCtx d), op := 7 })
    (by decide : 4 < srcLevel (devSource 0)) (by decide : (0x402 : BitVec 12).toNat / 0x100 ≠ 6)
  have head : (s.emit .aer).head q.val = some d := h
  have part : ((s.emit .aer).part ((s.emit .aer).ctxPart (dCtx d))).runs = (s.part (s.ctxPart (dCtx d))).runs := rfl
  refine ⟨_, told, ?_⟩
  simp only [State.doTlpFail, Option.isNone_eq_false_iff.2 (Option.isSome_iff_ne_none.2 on), head, checked, open_, part, runs,
    State.hostReadFailed, Bool.false_eq_true, if_false]
  rfl

end Sys2Proof.Machine

open Sys2Proof Sys2Proof.Machine

/-- Settles O42: each command by its condition, each teardown by what it leaves of the states of contexts, partitions and queues. -/
theorem contextsFollowTheirCommands : Obligations.ContextsFollowTheirCommands := by
  have next {a b : State} (e : a = b) : (Host.Outcome.next a : Res) = .next b := congrArg Host.Outcome.next e
  refine ⟨fun p v s ready => ?_, fun c s => ⟨?_, ?_, ?_, ?_, ?_, ?_, ?_, ?_⟩, fun f s => ⟨?_, ?_⟩, ?_, ?_, ?_, fun s => ?_⟩
  -- the partition's commands
  · have does (f : State → State) : s.unitWrite 0x409 f = f s := unitWrite_ready ready 0x409 f
    have refuses (k : BitVec 12) (hk : k.toNat / 0x100 ≠ 6) : RefusesPart k s (s.hostFault k) := hostFault_refusesPart s hk
    refine ⟨fun fits => ?_, fun go => leads_of (next ((does _).trans (doPartGo_goes go))) (modPart_puts _ _ _),
      fun no => leads_of (next ((does _).trans (doPartGo_refused no))) (refuses _ (by decide)),
      fun idle => leads_of (next ((does _).trans (doPartStop_stops idle))) (modPart_puts _ _ _),
      fun no => leads_of (next ((does _).trans (doPartStop_refused no))) (refuses _ (by decide)),
      fun h => leads_of (next ((does _).trans (if_pos (by simp [h])))) (startPartReset_resets h),
      fun nr ns => leads_of (next ((does _).trans (if_neg (by simp [nr, ns])))) (refuses _ (by decide))⟩
    have cfg : exec (.partCfgWrite p v) s = .next (s.doPartCfg p.val v) :=
      next ((does _).trans (congrArg (State.doPartCfg · p.val v) (partCfg_undefined fits s)))
    exact ⟨fun free => leads_of (cfg.trans (next (if_neg (by simp [free])))) (modPart_puts _ _ _),
      fun locked => leads_of (cfg.trans (next (if_pos locked))) (refuses _ (by decide))⟩
  -- the context's commands
  · intro ready
    have does (f : State → State) : s.unitWrite 0x40A f = f s := unitWrite_ready ready 0x40A f
    refine ⟨fun opens => leads_of (next ((does _).trans (doCtxOpen_opens opens))) ?_,
      fun no => leads_of (next ((does _).trans (doCtxOpen_refused no))) (ctxRefused_refuses s),
      fun g => ⟨fun takes => leads_of (next ((does _).trans (doCtxSetgen_sets takes))) (modCtx_puts _ _ _),
        fun no => leads_of (next ((does _).trans (doCtxSetgen_refused no))) (ctxRefused_refuses s)⟩,
      fun opened => leads_of (next (does _)) ((startTeardown_kills s c c false stKilled none (.inl opened)).2 (.inl rfl)),
      fun tearing => leads_of (next (does _)) (doCtxKill_joins tearing), fun idle => next ((does _).trans (startTeardown_idle idle))⟩
    exact ⟨(ctx_of_ctxs (modEpoch_ctxs _ _ _) _).trans (ctx_modCtx_same _ _ _),
      fun k ne => (ctx_of_ctxs (modEpoch_ctxs _ _ _) _).trans (ctx_modCtx_ne _ ne), epoch_modEpoch_same _ _ _,
      cells_sameMemories (.of_sheets rfl), rfl⟩
  -- TEARDOWN of a TEARING or an idle context
  · intro q d h own
    subst own
    obtain ⟨head, -, -, open_, -⟩ := headReady_some h
    have ends (st : Byte) (info : Nat) : (s.decideHead q st 0 info).ctxs = s.ctxs ∧ (s.decideHead q st 0 info).parts = s.parts ∧
        SameMemories s (s.decideHead q st 0 info) ∧
        ∃ e, (s.decideHead q st 0 info).head q = some e ∧ e.bytes = d.bytes ∧ e.status = some st := by
      obtain ⟨e, he, bytes, status, -⟩ := decideHead_decides st 0 info 0 0 head open_
      exact ⟨rfl, rfl, cells_sameMemories (.of_sheets rfl), e, he, bytes, status⟩
    exact ⟨fun tearing => leads_of (next (doTeardown_tearing h tearing)) (ends stTorn 0),
      fun idle => leads_of (next (doTeardown_idle h idle)) (ends stOk _)⟩
  -- quiesce
  · exact fun dev => ⟨fun h => leads_of (next (doQuiesceAck_takes h)) (modCtx_puts _ _ _), fun no => next (doQuiesceAck_waits no)⟩
  · exact fun st phase acks new => leads_of rfl (doQuiesceTimeout_times st phase acks new)
  · exact fun no => next (doQuiesceTimeout_waits no)
  · exact fun n dev gen => ⟨fun owes => next (if_pos owes),
      fun owes => leads_of (next (if_neg (by simp [owes]))) (controlPacket_still s c gen)⟩
  -- the release
  · exact fun no => next (doReleaseDone_waits no {})
  · intro st phase
    have releases := doReleaseDone_releases st phase {}
    refine leads_of rfl ?_
    rw [releases.ctx]
    refine ⟨rfl, rfl, rfl, rfl, rfl, rfl, fun h n hh own => ?_⟩
    rw [releases.slots h n hh own]
    exact ⟨rfl, rfl⟩
  -- function level reset
  · exact fun h => next (doFlr_repeats h)
  · intro h
    have own {x : BitVec 4} (e : x.toNat = f.val) : x = BitVec.ofNat 4 f.val := by rw [← e, BitVec.ofNat_toNat, BitVec.setWidth_eq]
    exact leads_of rfl ⟨fun q e => doFlr_queue h q (own e), fun c e stands => doFlr_kills h (own e) stands⟩
  -- PCI Express
  · exact fun q s off => next (doTlpFail_none off q)
  · exact fun s on => leads_of (next (if_neg (by simpa using on))) rfl
  · intro q d s on h checked open_ runs
    obtain ⟨t, told, does⟩ := doTlpFail_ends on h checked open_ runs
    obtain ⟨e, he, bytes, status, -⟩ := decideHead_decides stBad 0x402 0 0 0
      ((head_of_queues (s := s.emit .aer) told.queues q.val).trans h) open_
    refine leads_of (next does) ⟨told.same, told.raises, ?_, e, he, status, bytes⟩
    rw [decideHead_out]
    exact told.keeps State.out fun _ _ _ _ => rfl
  -- pages that wait to be zeroed
  · have parcels := doOrphansZeroed_parcels (s := s)
    exact leads_of rfl ⟨parcels.sameStores, parcels.sameAccs, fun h hh => doOrphansZeroed_zeroes hh⟩
end

section
/-! SUPPORT. What the reads, the looks and the reports of a descriptor leave: the memories, the contexts, the queues and what has gone to
host memory (09 R270, R292; 17 R453). -/

namespace Sys2Proof.Machine

variable {s t u : State} {q : Nat} {d : Desc} {c : CtxId}

/-- No byte of the memories, no context, no queue and no write to host memory. -/
structure Aside (s t : State) : Prop where
  cells : SheetsKeep Sheet.cells s t
  dmas : t.dmas = s.dmas
  queues : t.queues = s.queues
  ctxs : t.ctxs = s.ctxs

theorem Aside.refl : Aside s s := ⟨.refl, rfl, rfl, rfl⟩
theorem Aside.trans (h : Aside s t) (k : Aside t u) : Aside s u :=
  ⟨h.cells.trans k.cells, k.dmas.trans h.dmas, k.queues.trans h.queues, k.ctxs.trans h.ctxs⟩

theorem Aside.of_same (hs : t.sheets = s.sheets) (ho : t.out = s.out) (hq : t.queues = s.queues) (hc : t.ctxs = s.ctxs) : Aside s t :=
  ⟨.of_sheets hs, congrArg (List.filter Out.isDma) ho, hq, hc⟩

theorem Aside.forEach {α : Type} (l : List α) (f : State → α → State) (h : ∀ s a, Aside s (f s a)) (s : State) : Aside s (s.forEach l f) :=
  List.foldlRecOn l f .refl fun t ht a _ => ht.trans (h t a)

theorem Aside.same (h : Aside s t) : SameMemories s t := cells_sameMemories h.cells

theorem Aside.of_reports (h : Reports s t) (dmas : t.dmas = s.dmas) : Aside s t := ⟨h.still.cells, dmas, h.queues, h.ctxs⟩

theorem Aside.modMem (s : State) (i : Nat) (f : MemPath → MemPath) (hd : ∀ m, (f m).dram = m.dram := by intro _; rfl)
    (ha : ∀ m, (f m).adds = m.adds := by intro _; rfl) : Aside s (s.modMem i f) := ⟨(Still.modMem i f hd ha).cells, rfl, rfl, rfl⟩

theorem Aside.modPart (s : State) (p : Nat) (f : Part → Part) : Aside s (s.modPart p f) := .of_same rfl rfl rfl rfl

/-! ### Counting and reporting -/

section
variable (s)

/-- What counting puts out is no write to host memory. -/
theorem bankEvent_aside (b : BankId) (e : CntEvent) (pc : Nat) (n : Option Nat) : Aside s (s.bankEvent b e pc n) :=
  .of_reports (bankEvent_counts s b e pc n).reports (bankEvent_filter (fun _ _ => rfl) s b e pc n)

theorem sheetEvent_aside (i : Nat) (e : CntEvent) : Aside s (s.sheetEvent i e) := bankEvent_aside s _ _ _ _
theorem dmaRead_aside (a n : Nat) : Aside s (s.dmaRead a n) := bankEvent_aside s _ _ _ _

/-- A write to host memory is one. -/
theorem dmaWrite_dmas (a : Nat) (b : List Byte) : (s.dmaWrite a b).dmas = s.dmas ++ [.dmaWrite (BitVec.ofNat 64 a) b] := by
  have counted := (bankEvent_aside (s.emit (.dmaWrite (BitVec.ofNat 64 a) b)) .device
    { cls := 8, code := 5, inc := (b.length + 63) / 64, addr := some a } 0 none).dmas
  refine counted.trans ?_
  rw [State.dmas, State.emit, List.filter_append]
  rfl

theorem sendFault_dmas (f : FaultInfo) : (s.sendFault f).dmas = s.dmas := by
  have sent (v : State) (m : FaultMsg) (sev : BitVec 4) : State.dmas
      (if srcLevel f.source ≤ 4 then
        if 2 ≤ sev.toNat then
          (v.modSheet (srcSheet f.source) fun h => { h with wire := h.wire ++ [m] }).sheetEvent (srcSheet f.source)
            { cls := 6, code := 0x10, priv := privSource f.source, ctx := f.ctx.map (·.val) }
        else v.modSheet (srcSheet f.source) fun h => { h with wire := h.wire ++ [m] }
      else { v with devWire := v.devWire ++ [m] }) = v.dmas := by
    split
    · split
      · exact (sheetEvent_aside _ _ _).dmas
      · rfl
    · rfl
  have ibi (v : State) : (if f.kind.toNat / 0x100 = 6 then v.emit (.ibi f.kind) else v).dmas = v.dmas := by
    split
    · exact emit_filter rfl v
    · rfl
  exact (sent _ _ _).trans (ibi _)

theorem sheetFault_aside (i n : Nat) (k : BitVec 12) (op : BitVec 16) (a : Word) : Aside s (s.sheetFault i n k op a) := by
  have noted (v : State) (src : BitVec 16) : (v.noteStepFault i none k src a).dmas = v.dmas := by
    unfold State.noteStepFault
    split <;> rfl
  refine .of_reports (sheetFault_reports s i n k op a) ?_
  unfold State.sheetFault
  dsimp only
  split
  · exact (noted _ _).trans (sendFault_dmas s _)
  · exact sendFault_dmas s _

theorem noteSat_aside {n : Nat} (v : BitVec n) (g : Nat) : Aside s (s.noteSat v g) := by
  unfold State.noteSat
  split
  · exact .refl
  · exact .of_same rfl rfl rfl rfl

/-! ### The memory path -/

theorem poisonMem_aside (i : Nat) (f : MemPath → MemPath) (hd : ∀ m, (f m).dram = m.dram) (ha : ∀ m, (f m).adds = m.adds) :
    Aside s (s.poisonMem i f) := by
  refine (Aside.modMem s i f hd ha).trans ?_
  unfold State.poisonMem
  dsimp only
  split
  · exact .of_same rfl rfl rfl rfl
  · exact .refl

theorem lookPages_aside (i : Nat) (l : List Nat) (op : BitVec 16) : Aside s (s.lookPages i l op) := by
  refine .forEach _ _ (fun t _ => ?_) s
  exact (sheetFault_aside t i 3 0x106 op _).trans (.modMem _ i _)

theorem sealFailed_aside (i : Nat) (k : BitVec 12) (a : Nat) (r : Option Nat) (op : BitVec 16) : Aside s (s.sealFailed i k a r op) := by
  unfold State.sealFailed
  refine ((sheetFault_aside _ _ _ _ _ _).trans (noteSat_aside _ _ _)).trans (poisonMem_aside _ i _ (fun m => ?_) fun m => ?_)
  all_goals cases r <;> rfl

theorem upset_none_aside (i : Nat) : Aside s (s.upset i {}) := ⟨(upset_none_still s i).cells, rfl, rfl, rfl⟩

theorem readTile_aside (x : Tensor) (l : TileLoc) (n : Nat) (f : Option (BitVec 4 × Bool)) (op : BitVec 16) :
    Aside s (s.readTile x l n f op {}).1 := by
  unfold State.readTile
  dsimp only
  refine (upset_none_aside s l.sheet).trans ?_
  generalize s.upset l.sheet {} = s
  have looked := (lookPages_aside s l.sheet (pagesOf l.addr (tileBytes x.fmt x.mx)) op).trans
    (sheetEvent_aside _ l.sheet
      { cls := 3, code := 0x10, inc := (tileBytes x.fmt x.mx + 63) / 64, addr := some (dramDevAddr l.sheet l.addr) })
  split
  · have checked := looked.trans (sheetEvent_aside _ l.sheet { cls := 3, code := 0x14, addr := some (dramDevAddr l.sheet l.addr) })
    split
    · dsimp only
      exact checked.trans (sealFailed_aside _ _ _ _ _ _)
    · dsimp only
      exact checked
  · dsimp only
    exact looked

/-- A raw write leaves contexts and queues. -/
theorem storeRaw_queues (h a : Nat) (b : List Byte) (poison one : Bool) (lo hi : Nat) (op : BitVec 16) :
    (s.storeRaw h a b poison one lo hi op).queues = s.queues := by
  unfold State.storeRaw
  dsimp only
  refine (forEach_keeps State.queues _ (fun t p => ?_) _ _).trans (lookPages_aside s h _ op).queues
  split
  · rfl
  · split
    · exact (poisonMem_aside t h _ (by intro _; rfl) (by intro _; rfl)).queues
    · split <;> rfl

end

/-! ### Transfers that start -/

theorem noteTransfer_aside (s : State) (c : CtxId) : Aside s (s.noteTransfer c) := .modPart _ _ _

theorem stagingErrors_none (s : State) (h : Nat) : s.stagingErrors h {} = s := rfl

theorem noteMarked_rest (s : State) (c : CtxId) (t : Tensor) : (s.noteMarked c t).sheets = s.sheets ∧ (s.noteMarked c t).queues = s.queues ∧
    (s.noteMarked c t).out = s.out := by
  unfold State.noteMarked State.markBroken
  dsimp only
  repeat' split
  all_goals exact ⟨rfl, rfl, rfl⟩

/-! ### Its end -/

/-- A descriptor ends without a change of the memories. -/
def EndsBare (q : Nat) (d : Desc) (st : Byte) (info : Nat) (s u : State) : Prop := SameMemories s u ∧ Ends q d st info u

section
variable (h : s.head q = some d) (open_ : d.status = none)
include h open_

theorem Ends.after (queues : t.queues = s.queues) (st : Byte) (kind : BitVec 12) (info : Nat) (flags : Byte) (digest : Nat) :
    Ends q d st info (t.decideHead q st kind info flags digest) :=
  decideHead_ends st kind info flags digest ((head_of_queues queues q).trans h) open_

theorem Aside.ends (k : Aside s t) (st : Byte) (kind : BitVec 12) (info : Nat) (flags : Byte) (digest : Nat) :
    EndsBare q d st info s (t.decideHead q st kind info flags digest) :=
  ⟨k.same, Ends.after h open_ k.queues st kind info flags digest⟩

/-- Bytes go to host memory, and it ends. -/
theorem Aside.sends (k : Aside s t) (a : Nat) (b : List Byte) (st : Byte) (kind : BitVec 12) (info : Nat) (flags : Byte) (digest : Nat) :
    let u := (t.dmaWrite a b).decideHead q st kind info flags digest
    SameMemories s u ∧ u.dmas = s.dmas ++ [.dmaWrite (BitVec.ofNat 64 a) b] ∧ Ends q d st info u := by
  have wrote := dmaWrite_counts t a b
  refine ⟨cells_sameMemories ((k.cells.trans wrote.still.cells).trans (.of_sheets rfl)), ?_,
    Ends.after h open_ (wrote.queues.trans k.queues) st kind info flags digest⟩
  exact (dmaWrite_dmas t a b).trans (by rw [k.dmas])

/-- A host access that failed ends it with BAD_DESCRIPTOR and kind 0x402 (R292). -/
theorem Aside.noHost (k : Aside s t) (wire : t.devWire = s.devWire) :
    SameMemories s (t.hostReadFailed q) ∧ Ends q d stBad 0 (t.hostReadFailed q) ∧ RaisesDev 0x402 s (t.hostReadFailed q) := by
  have told (x : Option CtxId) := sendFault_tells_dev t (f := { source := devSource 0, kind := 0x402, ctx := x, op := 7 })
    (by decide : 4 < srcLevel (devSource 0)) (by decide : (0x402 : BitVec 12).toNat / 0x100 ≠ 6)
  unfold State.hostReadFailed
  dsimp only
  have reported := told (match t.head q with | some d => some (dCtx d) | none => none)
  refine ⟨cells_sameMemories (k.cells.trans ?_), Ends.after h open_ (reported.queues.trans k.queues) _ _ _ _ _, ?_⟩
  · exact .of_sheets (reported.keeps State.sheets fun _ _ _ _ => rfl)
  · obtain ⟨m, hm, kind⟩ := reported.raises
    exact ⟨m, wire ▸ hm, kind⟩

end

theorem Counts.devWire (h : Counts s t) : t.devWire = s.devWire := by
  obtain ⟨o, mp, sh, b, pb, rfl⟩ := h.whole
  rfl

end Sys2Proof.Machine
end

section
/-! SUPPORT. RUN, FENCE, SEED and COPY (09 R270, R271, R274, R275; 05 R153; 08 R249, R253). -/

namespace Sys2Proof.Machine

variable {s t u : State} {q : Nat} {d : Desc}

/-! ### RUN and FENCE -/

theorem modHead_start (h : s.head q = some d) (f : Desc → Desc) : SameMemories s (s.modHead q f) ∧ (s.modHead q f).head q = some (f d) :=
  ⟨sheets_sameMemories rfl, modHead_head h f⟩

theorem doRun_starts (h : s.headReady q 2 = some d) (may : s.mayDispatch (dCtx d) = true) :
    s.doRun q = s.modHead q fun d => { d with started := true } := by simp only [State.doRun, h, may, if_true]

theorem doFence_starts (h : s.headReady q 5 = some d) : s.doFence q = s.modHead q fun d => { d with started := true } := by
  simp only [State.doFence, h]

/-- What a FENCE waits for is over (R275). -/
def State.fenceClear (s : State) (d : Desc) : Prop := ∀ y ∈ s.queues, (∀ b ∈ y.2.bells, d.doorbell ≤ b.2) ∧
  ∀ e ∈ y.2.fetched, dCtx e = dCtx d → e.bytes.length = 64 → d.doorbell ≤ e.doorbell

theorem fenceHeld_iff : s.fenceHeld d = false ↔ s.fenceClear d := by
  simp only [State.fenceHeld, State.fenceClear, List.any_eq_false, Bool.not_eq_true, Bool.or_eq_false_iff, Bool.and_eq_false_iff,
    decide_eq_false_iff_not, Nat.not_lt, beq_eq_false_iff_ne]
  refine forall₂_congr fun y hy => and_congr_right fun _ => forall₂_congr fun e he => ?_
  tauto

theorem doFenceComplete_ends (h : s.head q = some d) (started : d.started = true) (open_ : d.status = none) (op : dOp d = 5)
    (clear : s.fenceClear d) : s.doFenceComplete q = s.decideHead q stOk := by
  simp [State.doFenceComplete, h, started, open_, op, fenceHeld_iff.2 clear]

theorem doFenceComplete_waits (h : s.head q = some d) (no : ¬s.fenceClear d) : s.doFenceComplete q = s := by
  have held : s.fenceHeld d = true := by rwa [← fenceHeld_iff, Bool.not_eq_false] at no
  simp [State.doFenceComplete, h, held]

/-! ### SEED -/

section
variable (h : s.headReady q 4 = some d) (may : s.mayDispatch (dCtx d) = true)
include h may

theorem doSeed_noHost (sel : dSeedSel d = 1) : s.doSeed q none = (s.dmaRead (dSeedPtr d) 32).hostReadFailed q := by
  simp only [State.doSeed, h, may, sel, Bool.not_true, Bool.false_eq_true, if_false, if_true]

theorem doSeed_host (sel : dSeedSel d = 1) {b : List Byte} (whole : b.length = 32) :
    s.doSeed q (some b) = ((s.dmaRead (dSeedPtr d) 32).bindSeed (dCtx d) b false).decideHead q stOk := by
  have bytes : (b ++ List.replicate 32 0).take 32 = b := by
    rw [List.take_append_of_le_length whole.ge, List.take_of_length_le whole.le]
  simp only [State.doSeed, h, may, sel, bytes, Bool.not_true, Bool.false_eq_true, if_false, if_true]

theorem doSeed_waits (sel : dSeedSel d ≠ 1) (none_ : d.seedBytes = none) (x : HostRead) : s.doSeed q x = s := by
  simp only [State.doSeed, h, may, sel, none_, Bool.not_true, Bool.false_eq_true, if_false]

theorem doSeed_device (sel : dSeedSel d ≠ 1) {b : List Byte} (served : d.seedBytes = some b) (x : HostRead) :
    s.doSeed q x = (s.bindSeed (dCtx d) b true).decideHead q stOk := by
  simp only [State.doSeed, h, may, sel, served, Bool.not_true, Bool.false_eq_true, if_false]

end

/-- A seed bound, and the descriptor ends with OK: the step counter starts again. -/
theorem Aside.bindsSeed (k : Aside s t) (h : s.head q = some d) (open_ : d.status = none) (c : CtxId) (b : List Byte) (dev : Bool) :
    SameMemories s ((t.bindSeed c b dev).decideHead q stOk) ∧ Ends q d stOk 0 ((t.bindSeed c b dev).decideHead q stOk) ∧
      (((t.bindSeed c b dev).decideHead q stOk).ctx c.val).seed = some (b, dev) ∧
      (((t.bindSeed c b dev).decideHead q stOk).ctx c.val).step = 0 := by
  have ctx : ((t.bindSeed c b dev).decideHead q stOk).ctx c.val = { t.ctx c.val with seed := some (b, dev), step := 0 } :=
    (ctx_of_ctxs (decideHead_ctxs _ _ _ _ _ _ _) c.val).trans (ctx_modCtx_same t c.val _)
  exact ⟨cells_sameMemories (k.cells.trans (.of_sheets rfl)), Ends.after h open_ (t := t.bindSeed c b dev) k.queues _ _ _ _ _,
    by rw [ctx], by rw [ctx]⟩

/-! ### COPY -/

theorem stalls_congr (mem : SheetsKeep (fun x => x.mem) s t) (i a n : Nat) : t.stalls i a n = s.stalls i a n := by
  have same : (t.sheet i).mem = (s.sheet i).mem := mem i
  simp only [State.stalls, same]

theorem tileStalls_congr (mem : SheetsKeep (fun x => x.mem) s t) (x : Tensor) (i : Nat) : t.tileStalls x i = s.tileStalls x i := by
  simp only [State.tileStalls, stalls_congr mem]

theorem copyStalls_congr (mem : SheetsKeep (fun x => x.mem) s t) (x : Tensor) (off len : Nat) :
    t.copyStalls x off len = s.copyStalls x off len := by
  simp only [State.copyStalls, stalls_congr mem, tileStalls_congr mem]

theorem dmaRead_mem (s : State) (a n : Nat) : SheetsKeep (fun x => x.mem) s (s.dmaRead a n) :=
  (dmaRead_counts s a n).sheetsKeep fun _ _ _ _ => rfl

section
variable (h : s.headReady q 3 = some d) (may : s.mayDispatch (dCtx d) = true)
include h may

theorem doCopy_noHost (data : HostRead) (x : Disturb) : s.doCopy q none data x = (s.dmaRead (dArgPtr d) 32).hostReadFailed q := by
  simp only [State.doCopy, h, may, Bool.not_true, Bool.false_eq_true, if_false]

theorem doCopy_badBlock {b : List Byte} (bad : copyBlock b = none) (data : HostRead) (x : Disturb) :
    s.doCopy q (some b) data x = (s.dmaRead (dArgPtr d) 32).decideHead q stBad := by
  simp only [State.doCopy, h, may, bad, Bool.not_true, Bool.false_eq_true, if_false]

section
variable {b : List Byte} {off len dir : Nat} {handle : BitVec 16} {l : LoadedPlan} (block : copyBlock b = some (off, len, handle, dir))
  (plan : (s.ctx (dCtx d).val).planOf (dPlan d) = some l)
include block plan

theorem doCopy_noTensor (none_ : (l.plan.tensors.find? fun t => t.handle == handle) = none) (data : HostRead) (x : Disturb) :
    s.doCopy q (some b) data x = (s.dmaRead (dArgPtr d) 32).decideHead q stBad := by
  have plan' : ((s.dmaRead (dArgPtr d) 32).ctx (dCtx d).val).planOf (dPlan d) = some l := by
    rw [ctx_of_ctxs (dmaRead_aside s _ _).ctxs, plan]
  simp only [State.doCopy, h, may, block, plan', none_, Bool.not_true, Bool.false_eq_true, if_false]

variable {x : Tensor} (tensor : (l.plan.tensors.find? fun t => t.handle == handle) = some x)
include tensor

/-- A COPY whose block and tensor are good: its range, then the stalls, then the transfer. -/
theorem doCopy_tensor (data : HostRead) (z : Disturb) : s.doCopy q (some b) data z =
    if copyRangeOk x off len = false then (s.dmaRead (dArgPtr d) 32).decideHead q stBad
    else if s.copyStalls x off len = true then s
    else (s.dmaRead (dArgPtr d) 32).copyRun q d x off len dir data z := by
  have plan' : ((s.dmaRead (dArgPtr d) 32).ctx (dCtx d).val).planOf (dPlan d) = some l := by
    rw [ctx_of_ctxs (dmaRead_aside s _ _).ctxs, plan]
  simp only [State.doCopy, h, may, block, plan', tensor, copyStalls_congr (dmaRead_mem s _ _), Bool.not_true, Bool.false_eq_true,
    Bool.not_eq_true', if_false]

end
end

/-! ### COPY of a raw tensor in one part -/

section
variable {x : Tensor} {p : TensorPart} {off len : Nat} (raw : x.isSealed = false) (one : x.parts = [p])
  (range : copyRangeOk x off len = true)
include raw one range

theorem rawRuns_one : rawRuns x off len = if 0 < len then [(p.sheet.val, p.base + off, len, p.base, p.base + x.bytes)] else [] := by
  have all : partBytes x p = x.bytes := by simp [partBytes, raw, one]
  have fits : off + len ≤ x.bytes := by
    simp only [copyRangeOk, copyExtent, raw, Bool.and_eq_true, decide_eq_true_eq] at range
    exact range.1
  have lo : max off 0 = off := by omega
  have hi : min (off + len) (0 + x.bytes) = off + len := by omega
  simp only [rawRuns, one, List.foldl_cons, List.foldl_nil, all, lo, hi, List.nil_append, Nat.lt_add_right_iff_pos, Nat.sub_zero,
    Nat.add_sub_cancel_left]

/-- From the host: one write of DRAM. -/
theorem copyInRaw_writes {b : List Byte} (whole : b.length = len) (t : State) :
    ∃ v, PutsDram p.sheet.val (p.base + off) b t v ∧ v.queues = t.queues ∧ t.copyInRaw q x off len b false = v.decideHead q stOk 0 len := by
  by_cases some_ : 0 < len
  · have bytes : (b ++ List.replicate len 0).take len = b := by
      rw [List.take_append_of_le_length whole.ge, List.take_of_length_le whole.le]
    refine ⟨_, storeRaw_puts t _ _ b false true p.base (p.base + x.bytes) 2, storeRaw_queues _ _ _ _ _ _ _ _ _, ?_⟩
    simp only [State.copyInRaw, rawRuns_one raw one range, if_pos some_, List.foldl_cons, List.foldl_nil, bytes]
  · obtain rfl : b = [] := List.eq_nil_of_length_eq_zero (by omega)
    refine ⟨t, ⟨fun i => ?_, fun _ => rfl, fun _ _ => rfl⟩, rfl, ?_⟩
    · split
      · rename_i e; rw [e]; rfl
      · rfl
    · simp only [State.copyInRaw, rawRuns_one raw one range, if_neg some_, List.foldl_nil]

/-- To the host: the bytes of pages that agree and hold no poison. -/
theorem readRuns_clean (some_ : 0 < len) {t : State} (clean : ∀ g ∈ pagesOf (p.base + off) len,
    (t.sheet p.sheet.val).mem.differs g = false ∧ ((t.sheet p.sheet.val).mem.attr g).1 ≠ 2) :
    ∃ v, Aside t v ∧ t.readRuns false (rawRuns x off len) = (v, mread (t.sheet p.sheet.val).mem.dram (p.base + off) len, none) := by
  have agree := lookPages_agree t (i := p.sheet.val) 1 fun g hg => (clean g hg).1
  have none_ : ((pagesOf (p.base + off) len).find? fun g =>
      false || (t.sheet p.sheet.val).mem.differs g || ((t.sheet p.sheet.val).mem.attr g).1 == 2) = none :=
    List.find?_eq_none.2 fun g hg => by simpa [(clean g hg).1] using (clean g hg).2
  refine ⟨_, sheetEvent_aside t p.sheet.val
    { cls := 3, code := 0x10, inc := (len + 63) / 64, addr := some (dramDevAddr p.sheet.val (p.base + off)) }, ?_⟩
  simp only [rawRuns_one raw one range, if_pos some_, State.readRuns, agree, none_, List.append_nil]

/-- COPY from the host writes its bytes at their place. -/
theorem copyRun_in {b : List Byte} (whole : b.length = len) (h : s.head q = some d) (open_ : d.status = none) {t : State} (k : Aside s t) :
    Ends q d stOk len (t.copyRun q d x off len 0 (some b) {}) ∧
      PutsDram p.sheet.val (p.base + off) b s (t.copyRun q d x off len 0 (some b) {}) := by
  let w := (t.dmaRead (dArg0 d) len).noteTransfer (dCtx d)
  obtain ⟨sheets, queues, -⟩ := noteMarked_rest w (dCtx d) x
  have started : Aside s w := (k.trans (dmaRead_aside t _ _)).trans (noteTransfer_aside _ _)
  let y := (w.noteMarked (dCtx d) x).upset (match x.parts.head? with | some x => x.sheet.val | none => 0) {}
  have upset : Aside (w.noteMarked (dCtx d) x) y := upset_none_aside _ _
  obtain ⟨v, puts, same, does⟩ := copyInRaw_writes (q := q) raw one range whole y
  have run : t.copyRun q d x off len 0 (some b) {} = y.copyInRaw q x off len b false := by
    simp only [State.copyRun, raw, stagingErrors_none, if_true, Bool.false_eq_true, if_false, List.isEmpty_nil, Bool.not_true]
    rfl
  rw [run, does]
  refine ⟨Ends.after h open_ (same.trans (upset.queues.trans (queues.trans started.queues))) _ _ _ _ _, ?_⟩
  exact (puts.before (started.cells.trans ((SheetsKeep.of_sheets sheets).trans upset.cells))).after (.of_sheets rfl)

/-- COPY to the host sends the bytes in one transfer. -/
theorem copyRun_out (some_ : 0 < len) {dir : Nat} (out : dir ≠ 0) (h : s.head q = some d) (open_ : d.status = none) {t : State}
    (k : Aside s t) (mem : SheetsKeep (fun x => x.mem) s t) (clean : ∀ g ∈ pagesOf (p.base + off) len,
      (s.sheet p.sheet.val).mem.differs g = false ∧ ((s.sheet p.sheet.val).mem.attr g).1 ≠ 2) (data : HostRead) :
    let u := t.copyRun q d x off len dir data {}
    SameMemories s u ∧
      u.dmas = s.dmas ++ [.dmaWrite (BitVec.ofNat 64 (dArg0 d)) (mread (s.sheet p.sheet.val).mem.dram (p.base + off) len)] ∧
      Ends q d stOk len u := by
  let w := t.noteTransfer (dCtx d)
  let y := w.upset (match x.parts.head? with | some x => x.sheet.val | none => 0) {}
  have still : SheetsKeep (fun x => x.mem) s y := mem.trans fun i => upset_none_mem w _ i
  have same : (y.sheet p.sheet.val).mem = (s.sheet p.sheet.val).mem := still p.sheet.val
  obtain ⟨v, read, reads⟩ := readRuns_clean raw one range some_ (t := y) (by rw [same]; exact clean)
  have began : Aside s v := (k.trans ((noteTransfer_aside t _).trans (upset_none_aside w _))).trans read
  have bytes : (mread (s.sheet p.sheet.val).mem.dram (p.base + off) len).isEmpty = false := by
    rw [List.isEmpty_eq_false_iff, ← List.length_pos_iff, mread_length]
    exact some_
  have run : t.copyRun q d x off len dir data {} =
      (v.dmaWrite (dArg0 d) (mread (s.sheet p.sheet.val).mem.dram (p.base + off) len)).decideHead q stOk 0 len := by
    have parted : t.copyRun q d x off len dir data {} = (y.readRuns false (rawRuns x off len)).1.copyOut q d
        (y.readRuns false (rawRuns x off len)).2.1 (y.readRuns false (rawRuns x off len)).2.2 := by
      simp only [State.copyRun, raw, out, stagingErrors_none, Bool.false_eq_true, if_false, List.isEmpty_nil, Bool.not_true]
      rfl
    rw [parted, reads, same]
    simp only [State.copyOut, bytes, Bool.false_eq_true, if_false, mread_length]
  rw [run]
  exact began.sends h open_ (dArg0 d) _ stOk 0 len 0 0

end

end Sys2Proof.Machine
end

section
/-! SUPPORT. LOAD_PLAN, CHECKPOINT and RESTORE (09 R270; 05 R172, R173; 08 R236, R253). -/

namespace Sys2Proof.Machine

variable {s t u : State} {q : Nat} {d : Desc} {c : CtxId}

/-! ### What a transfer that starts leaves -/

/-- A transfer has started: what no check of a plan or an image sees has changed. -/
structure Starts (s t : State) : Prop where
  aside : Aside s t
  mem : SheetsKeep (fun x => x.mem) s t
  pmap : SheetsKeep Sheet.pmap s t
  part : ∀ p, ∃ a b, t.part p = { s.part p with activity := a, trialRan := b }
  chart : t.chart = s.chart
  devWire : t.devWire = s.devWire

/-- The state in which LOAD_PLAN and RESTORE look at what they have read. -/
def State.transfer (s : State) (c : CtxId) (a n : Nat) : State := (s.noteTransfer c).dmaRead a n

theorem transfer_starts (s : State) (c : CtxId) (a n : Nat) : Starts s (s.transfer c a n) := by
  have counts := dmaRead_counts (s.noteTransfer c) a n
  refine ⟨(noteTransfer_aside s c).trans (dmaRead_aside _ a n), dmaRead_mem _ a n, counts.sheetsKeep fun _ _ _ _ => rfl, fun p => ?_, ?_,
    counts.devWire⟩
  · have same : (s.transfer c a n).part p = (s.noteTransfer c).part p := part_of_parts counts.parts p
    rw [same, State.noteTransfer, part_modPart]
    split
    · rename_i e
      rw [e]
      exact ⟨_, _, rfl⟩
    · exact ⟨(s.part p).activity, (s.part p).trialRan, rfl⟩
  · obtain ⟨o, mp, sh, b, pb, e⟩ := counts.whole
    exact (congrArg State.chart e).trans rfl

section
variable (k : Starts s t)
include k

theorem Starts.ctx (c : Nat) : t.ctx c = s.ctx c := ctx_of_ctxs k.aside.ctxs c
theorem Starts.sheetsOf (p : Nat) : (t.part p).sheets = (s.part p).sheets := by
  obtain ⟨a, b, e⟩ := k.part p
  rw [e]
theorem Starts.portsOf (p : Nat) : (t.part p).ports = (s.part p).ports := by
  obtain ⟨a, b, e⟩ := k.part p
  rw [e]
theorem Starts.ctxPart (c : CtxId) : t.ctxPart c = s.ctxPart c := by simp only [State.ctxPart, k.ctx]

theorem Starts.planOk (c : CtxId) (p : Plan) : t.planOk c p = s.planOk c p := by
  simp only [State.planOk, k.ctx, k.sheetsOf, k.portsOf, State.planPorts, State.routePort, State.chartPlanOk, State.spanTree, k.chart]

theorem Starts.pagesFree (gone fresh : List Tensor) : t.pagesFree gone fresh = s.pagesFree gone fresh := by
  have mem (i : Nat) : (t.sheet i).mem = (s.sheet i).mem := k.mem i
  simp only [State.pagesFree, mem]

theorem Starts.imageFits (c : CtxId) (x : Checkpoint) : t.imageFits c x = s.imageFits c x := by
  simp only [State.imageFits, k.ctx, k.sheetsOf]

theorem Starts.imageStalls (c : CtxId) (x : Checkpoint) : t.imageStalls c x = s.imageStalls c x := by
  simp only [State.imageStalls, k.ctx, State.tensorStalls, tileStalls_congr k.mem, stalls_congr k.mem]

theorem Starts.divisionsHeld (c : CtxId) : t.divisionsHeld c = s.divisionsHeld c := by
  have pmap (i : Nat) : (t.sheet i).pmap = (s.sheet i).pmap := k.pmap i
  simp only [State.divisionsHeld, k.ctxPart, Part.sheetList, k.sheetsOf, k.ctx, pmap]

end

/-! ### LOAD_PLAN -/

section
variable (h : s.headReady q 1 = some d) (may : s.mayDispatch (dCtx d) = true)
include h may

theorem doLoadPlan_known (known : ((s.ctx (dCtx d).val).planOf (dPlan d)).isSome = true) (again : dArg1 d = 0)
    (i : HostRead) (x : Disturb) :
    s.doLoadPlan q i x = s.decideHead q stBad := by
  simp [State.doLoadPlan, h, may, known, again]

section
variable (new : ((s.ctx (dCtx d).val).planOf (dPlan d)).isSome = false)
include new

theorem doLoadPlan_full (full : 64 ≤ (s.ctx (dCtx d).val).plans.length) (i : HostRead) (x : Disturb) :
    s.doLoadPlan q i x = s.decideHead q stRejected := by
  simp [State.doLoadPlan, h, may, new, full]

variable (room : (s.ctx (dCtx d).val).plans.length < 64)
include room

theorem doLoadPlan_noHost (x : Disturb) : s.doLoadPlan q none x = (s.transfer (dCtx d) (dArgPtr d) (dArg0 d)).hostReadFailed q := by
  simp [State.doLoadPlan, h, may, new, Nat.not_le.2 room, State.transfer]

theorem doLoadPlan_loads {b : List Byte} (whole : b.length = dArg0 d) :
    s.doLoadPlan q (some b) {} = (s.transfer (dCtx d) (dArgPtr d) (dArg0 d)).loadImage q d b := by
  have all : b.take (dArg0 d) = b := List.take_of_length_le whole.le
  simp only [State.doLoadPlan, h, may, new, Nat.not_le.2 room, stagingErrors_none, all, Nat.not_lt.2 whole.ge, Bool.not_true,
    Bool.false_and, Bool.not_false, Bool.true_and, decide_false, Bool.false_eq_true, if_false, List.isEmpty_nil, State.transfer]

end
end

theorem createTensor_aside (s : State) (x : Tensor) : Aside s (s.createTensor x) := by
  have pages (v : BitVec 2) :
      Aside s (s.forEach (tensorPages x) fun s g => (s.lookPages g.1 [g.2] 2).modMem g.1 fun m => m.setAttr g.2 v) := by
    refine .forEach _ _ (fun t g => ?_) s
    exact (lookPages_aside t g.1 [g.2] 2).trans (.modMem _ _ _)
  unfold State.createTensor
  dsimp only
  split
  · refine (pages 3).trans (.forEach _ _ (fun t y => ?_) _)
    exact .modMem t _ _
  · exact pages 1

/-- A plan put in a context: the memories' bytes, the queues and the host stay, and the context finds the plan by its handle. -/
theorem installPlan_installs (s : State) (c : CtxId) (h : BitVec 32) (p : Plan) (hash : List Byte) (fresh : List Tensor) :
    SheetsKeep Sheet.cells s (s.installPlan c h p hash [] fresh) ∧ (s.installPlan c h p hash [] fresh).queues = s.queues ∧
      ((s.installPlan c h p hash [] fresh).ctx c.val).planOf h = some { handle := h, hash := hash, cls := planClass p, plan := p } := by
  have created : Aside s (s.forEach fresh State.createTensor) := .forEach _ _ createTensor_aside s
  have marked (t : State) : (if fresh.any fun t => t.input || t.result then t.markBroken c else t).sheets = t.sheets ∧
      (if fresh.any fun t => t.input || t.result then t.markBroken c else t).queues = t.queues := by
    unfold State.markBroken
    dsimp only
    repeat' split
    all_goals exact ⟨rfl, rfl⟩
  obtain ⟨sheets, queues⟩ := marked (s.forEach fresh State.createTensor)
  let y := if fresh.any fun t => t.input || t.result then (s.forEach fresh State.createTensor).markBroken c
    else s.forEach fresh State.createTensor
  let z := y.forEach (y.part (y.ctxPart c)).sheetList fun s i => s.modSheet i fun x => { x with stagingPoison := false }
  have cells : SheetsKeep Sheet.cells y z := .forEach _ _ fun t i => .modSheet i _ fun _ => rfl
  have same : z.queues = y.queues := forEach_keeps State.queues _ (fun t i => modSheet_queues (s := t) i _) _ y
  have does : s.installPlan c h p hash [] fresh = z.modCtx c.val fun x =>
      { x with plans := (x.plans.filter fun y => y.handle != h) ++ [{ handle := h, hash := hash, cls := planClass p, plan := p }]
               records := x.records.filter fun r => r.run.plan != h } := rfl
  rw [does]
  refine ⟨((created.cells.trans (.of_sheets sheets)).trans cells).trans (.of_sheets rfl), (same.trans queues).trans created.queues, ?_⟩
  rw [ctx_modCtx_same, Ctx.planOf, List.find?_append]
  have none_ : ((z.ctx c.val).plans.filter fun y => y.handle != h).find? (fun l => l.handle == h) = none :=
    List.find?_eq_none.2 fun l hl => by simpa using (List.mem_filter.1 hl).2
  rw [none_]
  simp

section
variable {b : List Byte} (new : ((s.ctx (dCtx d).val).planOf (dPlan d)).isSome = false)

theorem loadImage_unparsed (none_ : Config.parsePlan b = none) (t : State) : t.loadImage q d b = t.decideHead q stRejected := by
  simp only [State.loadImage, none_]

/-- The checks of a plan under a new handle. -/
def State.acceptsPlan (s : State) (c : CtxId) (p : Plan) : Bool :=
  s.planOk c p && quotaOk (s.ctx c.val) [] p.tensors && s.pagesFree [] p.tensors

include new

/-- An image that it has read, where the handle names no plan yet. -/
theorem loadImage_parsed {p : Plan} (parsed : Config.parsePlan b = some p) (k : Starts s t) : t.loadImage q d b =
    if s.acceptsPlan (dCtx d) p = false then t.decideHead q stRejected
    else (t.installPlan (dCtx d) (dPlan d) p (shake256 32 b) [] p.tensors).decideHead q stOk 0
      ((planClass p).toNat * 2 ^ 24 + p.tensors.length % 2 ^ 24) cfDigestV (leNat ((shake256 32 b).take 8)) := by
  have unknown : (t.ctx (dCtx d).val).planOf (dPlan d) = none := by rw [k.ctx]; simpa using new
  have all : (p.tensors.filter fun t => !(([] : List Tensor).any fun y => y.number == t.number && keeps [] p.tensors y)) = p.tensors :=
    List.filter_eq_self.2 fun _ _ => rfl
  have cond : (!t.planOk (dCtx d) p || !quotaOk (t.ctx (dCtx d).val) [] p.tensors || !t.pagesFree [] p.tensors) =
      !s.acceptsPlan (dCtx d) p := by rw [State.acceptsPlan, k.planOk, k.pagesFree, k.ctx, Bool.not_and, Bool.not_and]
  simp only [State.loadImage, parsed, unknown, List.filter_nil, all, cond, Bool.not_eq_true']

end

/-- What LOAD_PLAN makes of a plan that it accepts. -/
theorem Starts.installs (k : Starts s t) (h : s.head q = some d) (open_ : d.status = none) (p : Plan) (hash : List Byte) (info : Nat)
    (flags : Byte) (digest : Nat) :
    let u := (t.installPlan (dCtx d) (dPlan d) p hash [] p.tensors).decideHead q stOk 0 info flags digest
    SameMemories s u ∧ Ends q d stOk info u ∧ ∃ l, (u.ctx (dCtx d).val).planOf (dPlan d) = some l ∧ l.plan = p ∧ l.hash = hash := by
  obtain ⟨cells, queues, plan⟩ := installPlan_installs t (dCtx d) (dPlan d) p hash p.tensors
  exact ⟨cells_sameMemories ((k.aside.cells.trans cells).trans (.of_sheets rfl)),
    Ends.after h open_ (queues.trans k.aside.queues) stOk 0 info flags digest, _, plan, rfl, rfl⟩

/-! ### CHECKPOINT -/

theorem ckptTiles_aside (s : State) (l : List (Tensor × Nat)) (spoiled : Bool) : Aside s (s.ckptTiles l {} spoiled).1 := by
  refine List.foldlRecOn l _ (motive := fun a : State × List TileImage × Option (BitVec 12) => Aside s a.1) .refl fun a k x _ => ?_
  split
  · exact k
  · have read := readTile_aside a.1 x.1 ‹TileLoc› x.2 none 1
    dsimp only
    rw [ite_self]
    exact k.trans read

/-- The tiles that a CHECKPOINT of a context reads. -/
def Ctx.markedTiles (x : Ctx) : List (Tensor × Nat) :=
  (x.tensors.filter fun t => t.ckpt).flatMap fun t => (List.range (tileCount t)).map fun i => (t, i)

/-- The image of a context with some tiles. -/
def State.imageOf (s : State) (c : CtxId) (tiles : List TileImage) : List Byte :=
  Config.checkpointImage { seed := (s.ctx c.val).seed, step := (s.ctx c.val).step, slots := (s.ctxSlots c).map s.slotImage, tiles := tiles }

/-- The status of a CHECKPOINT by the first check that failed. -/
def checkStatus (bad : Option (BitVec 12)) : Byte := match bad with | some _ => stCheckFailed | none => stOk

theorem checkStatus_cases (bad : Option (BitVec 12)) : checkStatus bad = stOk ∨ checkStatus bad = stCheckFailed := by
  cases bad
  · exact .inl rfl
  · exact .inr rfl

section
variable (h : s.headReady q 6 = some d) (may : s.mayDispatch (dCtx d) = true)
include h may

theorem doCheckpoint_waits (waits : ((s.ctx (dCtx d).val).markedTiles.any fun y => s.tileStalls y.1 y.2) = true) (x : Disturb) :
    s.doCheckpoint q x = s := by
  unfold Ctx.markedTiles at waits
  simp only [State.doCheckpoint, h, may, waits, Bool.not_true, Bool.false_eq_true, if_false, if_true]

/-- The image goes to the host where the buffer holds it, with OK or with a failed check. -/
theorem doCheckpoint_writes (ready : ((s.ctx (dCtx d).val).markedTiles.any fun y => s.tileStalls y.1 y.2) = false) :
    ∃ tiles v bad dig, Aside s v ∧ s.doCheckpoint q {} =
      if dArg1 d < (s.imageOf (dCtx d) tiles).length then s.decideHead q stBad
      else (v.dmaWrite (dArg0 d) (s.imageOf (dCtx d) tiles)).decideHead q (checkStatus bad) (bad.getD 0)
        (((s.imageOf (dCtx d) tiles).length + 4095) / 4096) cfDigestV dig := by
  let r := (s.noteTransfer (dCtx d)).ckptTiles (s.ctx (dCtx d).val).markedTiles {} false
  refine ⟨r.2.1, r.1, r.2.2, leNat ((shake256 32 (s.imageOf (dCtx d) r.2.1)).take 8),
    (noteTransfer_aside s _).trans (ckptTiles_aside _ _ _), ?_⟩
  unfold Ctx.markedTiles at ready
  simp only [State.doCheckpoint, h, may, ready, stagingErrors_none, Bool.not_true, Bool.false_eq_true, if_false, List.isEmpty_nil]
  rfl

end

/-! ### RESTORE -/

section
variable (h : s.headReady q 7 = some d) (may : s.mayDispatch (dCtx d) = true)
include h may

theorem doRestore_noHost (x : Disturb) : s.doRestore q none x = (s.transfer (dCtx d) (dArg0 d) (dArg1 d)).hostReadFailed q := by
  simp only [State.doRestore, h, may, Bool.not_true, Bool.false_eq_true, if_false, State.transfer]

section
variable {b : List Byte} (whole : b.length = dArg1 d)
include whole

theorem doRestore_unparsed (none_ : Config.parseCheckpoint b = none) :
    s.doRestore q (some b) {} = (s.transfer (dCtx d) (dArg0 d) (dArg1 d)).decideHead q stBad := by
  have all : b.take (dArg1 d) = b := List.take_of_length_le whole.le
  simp only [State.doRestore, h, may, all, none_, stagingErrors_none, Bool.not_true, Bool.false_eq_true, if_false, State.transfer]

/-- An image that parses: whether it fits, then the stalls, then the divisions. -/
theorem doRestore_parsed {k : Checkpoint} (parsed : Config.parseCheckpoint b = some k) : s.doRestore q (some b) {} =
    if s.imageFits (dCtx d) k = false then (s.transfer (dCtx d) (dArg0 d) (dArg1 d)).decideHead q stBad
    else if s.imageStalls (dCtx d) k = true then s
    else if s.divisionsHeld (dCtx d) = false then (s.transfer (dCtx d) (dArg0 d) (dArg1 d)).decideHead q stRejected
    else (s.transfer (dCtx d) (dArg0 d) (dArg1 d)).restoreImage q d k b false := by
  have all : b.take (dArg1 d) = b := List.take_of_length_le whole.le
  have starts := transfer_starts s (dCtx d) (dArg0 d) (dArg1 d)
  unfold State.transfer at starts ⊢
  simp only [State.doRestore, h, may, all, parsed, stagingErrors_none, starts.imageFits, starts.imageStalls, starts.divisionsHeld,
    Bool.not_true, Bool.false_eq_true, if_false, Bool.not_eq_true', List.isEmpty_nil]

end
end

/-- What a restored slot sees of the state beside the sheets. -/
theorem restoreSlot_keeps {β : Type} (π : State → β) (hs : ∀ (t : State) i f, π (t.modSheet i f) = π t) (s : State) (c : CtxId)
    (x : SlotImage) : π (s.restoreSlot c x) = π s := by
  unfold State.restoreSlot
  refine (forEach_keeps π _ (fun t l => ?_) _ _).trans (hs _ _ _)
  split
  · rfl
  · split
    · rfl
    · exact hs _ _ _

/-- A RESTORE of an image without tiles binds its seed and its step counter. -/
theorem Starts.restores (k : Starts s t) (h : s.head q = some d) (open_ : d.status = none) {x : Checkpoint} (none_ : x.tiles = [])
    (b : List Byte) : let u := t.restoreImage q d x b false
    Ends q d stOk 0 u ∧ (u.ctx (dCtx d).val).seed = x.seed ∧ (u.ctx (dCtx d).val).step = x.step := by
  let w := t.modCtx (dCtx d).val fun y => { y with seed := x.seed, step := x.step, restored := true }
  let y := w.forEach (w.part (w.ctxPart (dCtx d))).sheetList fun s h => s.modSheet h fun z => { z with key := z.key.forget (dCtx d) }
  let v := y.forEach x.slots fun s z => s.restoreSlot (dCtx d) z
  have rest {β : Type} (π : State → β) (hs : ∀ (t : State) i f, π (t.modSheet i f) = π t) : π v = π w :=
    (forEach_keeps π _ (fun t z => restoreSlot_keeps π hs t _ z) _ y).trans (forEach_keeps π _ (fun t i => hs t i _) _ w)
  have ctx := (ctx_of_ctxs (rest State.ctxs fun _ _ _ => rfl) (dCtx d).val).trans (ctx_modCtx_same t (dCtx d).val _)
  have queues : v.queues = s.queues := (rest State.queues fun _ _ _ => rfl).trans k.aside.queues
  have does : t.restoreImage q d x b false = v.decideHead q stOk 0 0 cfDigestV (leNat ((shake256 32 b).take 8)) := by
    simp only [State.restoreImage, none_, List.foldl_nil]
    rfl
  simp only [does, State.ctx, decideHead_ctxs]
  exact ⟨Ends.after h open_ queues _ _ _ _ _, congrArg Ctx.seed ctx, congrArg Ctx.step ctx⟩

end Sys2Proof.Machine
end

section
/-! SUPPORT. SNAPSHOT, QUERY, SEAL_MANIFEST and the device seeds (09 R270; 12 R361; 16 R427, R438; 17 R459). -/

namespace Sys2Proof.Machine

variable {s t u : State} {q : Nat} {d : Desc}

/-! ### SNAPSHOT and QUERY -/

section
variable (h : s.headReady q 8 = some d) (may : s.mayDispatch (dCtx d) = true)
include h may

theorem doSnapshot_bad (bad : s.snapOk (dArg0 d) = false) : s.doSnapshot q = s.decideHead q stBad := by
  simp [State.doSnapshot, h, may, bad]

theorem doSnapshot_schedules (ok : s.snapOk (dArg0 d) = true) : s.doSnapshot q =
    (s.schedule (dArg0 d) (some q)).modHead q fun d => { d with started := true, wants := 3 } := by
  simp [State.doSnapshot, h, may, ok]

end

theorem doQuery_writes (h : s.headReady q 9 = some d) (may : s.mayDispatch (dCtx d) = true) : s.doQuery q =
    (s.dmaWrite (dArgPtr d) (s.queryBytes q d)).decideHead q stOk 0 (s.queryBytes q d).length := by
  simp [State.doQuery, h, may]

/-! ### SEAL_MANIFEST -/

section
variable (h : s.headReady q 10 = some d) (may : s.mayDispatch (dCtx d) = true) {l : LoadedPlan}
  (plan : (s.ctx (dCtx d).val).planOf (dPlan d) = some l)
include h may plan

theorem doSealManifest_uncovered (none_ : coverOf (BitVec.ofNat 64 (dArg0 d)) (BitVec.ofNat 64 (dArg1 d))
    ((s.ctx (dCtx d).val).records.filter fun r => r.run.plan == dPlan d) = none) : s.doSealManifest q = s.decideHead q stBad := by
  simp only [State.doSealManifest, h, may, plan, none_, Bool.not_true, Bool.false_eq_true, if_false]

theorem doSealManifest_asks {rs : List RunRecord} {a z : RunRecord} (cover : coverOf (BitVec.ofNat 64 (dArg0 d)) (BitVec.ofNat 64 (dArg1 d))
    ((s.ctx (dCtx d).val).records.filter fun r => r.run.plan == dPlan d) = some rs) (first : rs.head? = some a)
    (last : rs.getLast? = some z) : s.doSealManifest q = s.askSignature q d (s.manifestBody a z rs l.plan.span.length) := by
  simp only [State.doSealManifest, h, may, plan, cover, first, last, Bool.not_true, Bool.false_eq_true, if_false]

end

/-- A body takes its place among the requests that wait for a signature. -/
theorem askSignature_queues (live : s.ecb.st ≠ .error) (left : s.ecb.signext.toNat < sigEnd) (alone : ∀ r ∈ s.ecb.signing, r.queue ≠ some q)
    (room : s.ecb.signing.length < 64) (body : List Byte) : s.askSignature q d body =
      (s.modEcb fun e => { e.descService with
        signing := insertSign { queue := some q, addr := BitVec.ofNat 64 (dArgPtr d), body := body, came := s.now }
          s.ecb.signing }).modHead q fun d => { d with started := true, wants := 2 } := by
  have rest : (s.ecb.signing.filter fun r => r.queue != some q) = s.ecb.signing :=
    List.filter_eq_self.2 fun r hr => by simpa using alone r hr
  simp only [State.askSignature, live, rest, Nat.not_le.2 left, Nat.not_le.2 room, if_false]

/-! ### Device seeds -/

/-- A draw leaves the queues and the requests that wait for a device seed. -/
theorem drbgDraw_keeps {β : Type} (π : State → β) (he : ∀ (t : State) f, (∀ e, (f e).seedWait = e.seedWait) → π (t.modEcb f) = π t)
    (hf : ∀ (t : State) k, π (t.ecbFault k) = π t) (s : State) (n : Nat) (fresh : Bool) (src : BitVec 16) (c seq : Nat) :
    π (s.drbgDraw n fresh src c seq).1 = π s := by
  have prepared : π (s.drbgPrepare fresh) = π s := by
    unfold State.drbgPrepare
    dsimp only
    split
    · exact he s _ fun _ => rfl
    · split
      · exact (hf _ _).trans (he s _ fun _ => rfl)
      · rfl
  unfold State.drbgDraw
  dsimp only
  split
  · rfl
  · split
    · exact prepared
    · refine Eq.trans ?_ prepared
      dsimp only
      split
      · exact (hf _ _).trans (he _ _ fun _ => rfl)
      · exact he _ _ fun _ => rfl

theorem drbgDraw_queues (s : State) (n : Nat) (fresh : Bool) (src : BitVec 16) (c seq : Nat) :
    (s.drbgDraw n fresh src c seq).1.queues = s.queues :=
  drbgDraw_keeps State.queues (fun _ _ _ => rfl) (fun t _ => (sendFault_reports t _).queues) s n fresh src c seq

theorem drbgDraw_seedWait (s : State) (n : Nat) (fresh : Bool) (src : BitVec 16) (c seq : Nat) :
    (s.drbgDraw n fresh src c seq).1.ecb.seedWait = s.ecb.seedWait := by
  refine drbgDraw_keeps (fun t => t.ecb.seedWait) (fun t f h => h t.ecb) (fun t k => ?_) s n fresh src c seq
  obtain ⟨o, mp, sh, mq, fr, dw, b, pb, ps, e⟩ := (sendFault_reports t { source := svcSource 1, kind := k }).whole
  exact congrArg (fun t => t.ecb.seedWait) e

theorem doSeedServe_waits (no : s.ecb.seedWait.head? ≠ some q ∨ s.ecb.st ≠ .ready) : s.doSeedServe q = s := by
  refine if_pos ?_
  obtain no | no := no <;> simp [no]

theorem doSeedServe_serves (first : s.ecb.seedWait.head? = some q) (ready : s.ecb.st = .ready) (h : s.head q = some d) (wants : d.wants = 1)
    (open_ : d.status = none) {b : List Byte} (drawn : (s.drbgDraw 32 false (devSource 0) (dCtx d).val d.seq.toNat).2 = some b) :
    s.doSeedServe q = (((s.drbgDraw 32 false (devSource 0) (dCtx d).val d.seq.toNat).1.modEcb fun e =>
      { e.descService with seedWait := e.seedWait.drop 1 }).dmaWrite (dSeedPtr d) b).modHead q fun d =>
        { d with wants := 0, seedBytes := some b, cflags := d.cflags ||| cfSeedWr } := by
  simp [State.doSeedServe, first, ready, h, wants, open_, drawn]

/-- The seed goes to host memory and into the descriptor, and the request is gone. -/
theorem doSeedServe_sends {b : List Byte} (h : s.head q = some d) (does : s.doSeedServe q =
    (((s.drbgDraw 32 false (devSource 0) (dCtx d).val d.seq.toNat).1.modEcb fun e =>
      { e.descService with seedWait := e.seedWait.drop 1 }).dmaWrite (dSeedPtr d) b).modHead q fun d =>
        { d with wants := 0, seedBytes := some b, cflags := d.cflags ||| cfSeedWr }) :
    let u := s.doSeedServe q
    SameMemories s u ∧ u.ecb.seedWait = s.ecb.seedWait.drop 1 ∧ .dmaWrite (BitVec.ofNat 64 (dSeedPtr d)) b ∈ u.out ∧
      u.head q = some { d with wants := 0, seedBytes := some b, cflags := d.cflags ||| cfSeedWr } := by
  obtain ⟨m, answers⟩ := drbgDraw_answers s 32 false (devSource 0) (dCtx d).val d.seq.toNat
  have queues := drbgDraw_queues s 32 false (devSource 0) (dCtx d).val d.seq.toNat
  have waits := drbgDraw_seedWait s 32 false (devSource 0) (dCtx d).val d.seq.toNat
  rw [does]
  generalize (s.drbgDraw 32 false (devSource 0) (dCtx d).val d.seq.toNat).1 = v at answers queues waits
  have wrote := dmaWrite_counts (v.modEcb fun e => { e.descService with seedWait := e.seedWait.drop 1 }) (dSeedPtr d) b
  have sent := modHead_head ((head_of_queues (wrote.queues.trans queues) q).trans h)
  refine ⟨cells_sameMemories ((answers.cells.trans wrote.still.cells).trans (.of_sheets rfl)), ?_, ?_, sent _⟩
  · obtain ⟨o, mp, sh, bk, pb, e⟩ := wrote.whole
    rw [modHead_ecb, e, ← waits]
    rfl
  · obtain ⟨o, e⟩ := wrote.out
    rw [modHead_out, e]
    exact List.mem_append_left _ (List.mem_append_right _ (List.mem_singleton_self _))

/-! ### TEARDOWN of an OPEN context -/

theorem doTeardown_opened (h : s.headReady q 11 = some d) (opened : (s.ctx (dCtx d).val).st = .opened) :
    ((s.doTeardown q).ctx (dCtx d).val).st = .tearing := by
  have does : s.doTeardown q = (s.modHead q fun d => { d with started := true }).startTeardown (dCtx d) false false 0 (some q) := by
    simp only [State.doTeardown, h, opened]
  have torn := startTeardown_opened (s := s.modHead q fun d => { d with started := true }) (kill := false) (flr := false) (cause := 0)
    (waiter := some q) opened
  rw [does, (standing_ctx torn (dCtx d).val).1, ctx_modCtx_same]

end Sys2Proof.Machine
end

section
/-! O47: what each opcode does once its descriptor may start. -/

open Sys2Proof Sys2Proof.Machine

/-- Settles O47: each opcode by the branch its descriptor takes; what it leaves beside its effect is what counting and reporting leave. -/
theorem descriptorsRun : Obligations.DescriptorsRun := by
  intro q d s
  have next {a b : State} (e : a = b) : (Host.Outcome.next a : Res) = .next b := congrArg Host.Outcome.next e
  have start {op : Nat} (h : s.headReady q.val op = some d) : s.head q.val = some d ∧ d.status = none := by
    obtain ⟨head, -, -, open_, -⟩ := headReady_some h
    exact ⟨head, open_⟩
  have bare {op : Nat} (h : s.headReady q.val op = some d) (st : Byte) (info : Nat) :
      EndsBare q.val d st info s (s.decideHead q.val st 0 info) := Aside.refl.ends (start h).1 (start h).2 st 0 info 0 0
  refine ⟨?_, ?_, ?_, ?_, ?_, ?_, ?_, ?_, ?_, ?_, ?_, ?_, ?_, ?_, ?_⟩
  -- RUN, FENCE and FENCE_COMPLETE
  · exact fun ⟨h, may⟩ => leads_of (next (doRun_starts h may)) (modHead_start (start h).1 _)
  · exact fun ⟨h, _⟩ => leads_of (next (doFence_starts h)) (modHead_start (start h).1 _)
  · exact fun h started open_ op =>
      ⟨fun clear => leads_of (next (doFenceComplete_ends h started open_ op clear)) (Aside.refl.ends h open_ stOk 0 0 0 0),
        fun no => next (doFenceComplete_waits h no)⟩
  -- SEED
  · intro ⟨h, may⟩ sel
    obtain ⟨head, open_⟩ := start h
    have read := dmaRead_aside s (dSeedPtr d) 32
    exact ⟨leads_of (next (doSeed_noHost h may sel)) (read.noHost head open_ (dmaRead_counts s _ 32).devWire),
      fun b whole => leads_of (next (doSeed_host h may sel whole)) (read.bindsSeed head open_ (dCtx d) b false)⟩
  · intro ⟨h, may⟩ sel
    exact ⟨fun none_ => next (doSeed_waits h may sel none_ none), fun b served =>
      leads_of (next (doSeed_device h may sel served none)) (Aside.refl.bindsSeed (start h).1 (start h).2 (dCtx d) b true)⟩
  -- COPY
  · intro ⟨h, may⟩
    obtain ⟨head, open_⟩ := start h
    have read := dmaRead_aside s (dArgPtr d) 32
    have bad := read.ends head open_ stBad 0 0 0 0
    refine ⟨leads_of (next (doCopy_noHost h may none {})) (read.noHost head open_ (dmaRead_counts s _ 32).devWire),
      fun b data none_ => leads_of (next (doCopy_badBlock h may none_ data {})) bad, fun b data off len handle dir l block plan =>
        ⟨fun none_ => leads_of (next (doCopy_noTensor h may block plan none_ data {})) bad, fun t tensor => ?_⟩⟩
    have does (data : HostRead) := doCopy_tensor h may block plan tensor data {}
    refine ⟨fun out => leads_of (next ((does data).trans (if_pos out))) bad,
      fun range stalls => next ((does data).trans ((if_neg (by simp [range])).trans (if_pos stalls))), fun p range free raw one => ?_⟩
    have runs (data : HostRead) := (does data).trans ((if_neg (by simp [range])).trans (if_neg (by simp [free])))
    refine ⟨fun inward v whole => ?_, fun outward some_ clean => leads_of (next (runs data)) ?_⟩
    · subst inward
      obtain ⟨ends, puts⟩ := copyRun_in raw one range whole head open_ read
      exact leads_of (next (runs (some v))) ⟨ends, puts.stores, puts.accs, whole ▸ puts.takes⟩
    · obtain ⟨same, wrote, ends⟩ := copyRun_out raw one range some_ outward head open_ read (dmaRead_mem s _ 32) clean data
      exact ⟨ends, same, wrote⟩
  -- LOAD_PLAN
  · intro ⟨h, may⟩
    obtain ⟨head, open_⟩ := start h
    have starts := transfer_starts s (dCtx d) (dArgPtr d) (dArg0 d)
    have rejected := starts.aside.ends head open_ stRejected 0 0 0 0
    refine ⟨fun known again i => leads_of (next (doLoadPlan_known h may known again i {})) (bare h stBad 0),
      fun new full i => leads_of (next (doLoadPlan_full h may new full i {})) (bare h stRejected 0), fun new room =>
      ⟨leads_of (next (doLoadPlan_noHost h may new room {})) (starts.aside.noHost head open_ starts.devWire), fun b whole => ?_⟩⟩
    have does := doLoadPlan_loads h may new room whole
    refine ⟨fun none_ => leads_of (next (does.trans (loadImage_unparsed none_ _))) rejected, fun pl parsed => ?_⟩
    have loads := does.trans (loadImage_parsed new parsed starts)
    refine ⟨fun no => leads_of (next (loads.trans (if_pos no))) rejected, fun ok => leads_of (next (loads.trans (if_neg ?_))) ?_⟩
    · exact Bool.not_eq_false _ ▸ ok
    · exact starts.installs head open_ pl (shake256 32 b) _ _ _
  -- CHECKPOINT
  · exact fun ⟨h, may⟩ waits => next (doCheckpoint_waits h may waits {})
  · intro ⟨h, may⟩ ready
    obtain ⟨head, open_⟩ := start h
    obtain ⟨tiles, v, bad, dig, aside, does⟩ := doCheckpoint_writes h may ready
    have status := checkStatus_cases bad
    by_cases small : dArg1 d < (s.imageOf (dCtx d) tiles).length
    · refine leads_of (next (does.trans (if_pos small))) ⟨(bare h stBad 0).1, tiles, ?_⟩
      exact (if_pos small).symm ▸ ⟨(bare h stBad 0).2, rfl⟩
    · obtain ⟨same, wrote, ends⟩ := aside.sends head open_ (dArg0 d) (s.imageOf (dCtx d) tiles) (checkStatus bad) (bad.getD 0)
        (((s.imageOf (dCtx d) tiles).length + 4095) / 4096) cfDigestV dig
      refine leads_of (next (does.trans (if_neg small))) ⟨same, tiles, (if_neg small).symm ▸ ⟨wrote, ?_⟩⟩
      obtain st | st := status
      · exact .inl (st ▸ ends)
      · exact .inr (st ▸ ends)
  -- RESTORE
  · intro ⟨h, may⟩
    obtain ⟨head, open_⟩ := start h
    have starts := transfer_starts s (dCtx d) (dArg0 d) (dArg1 d)
    have bad := starts.aside.ends head open_ stBad 0 0 0 0
    refine ⟨leads_of (next (doRestore_noHost h may {})) (starts.aside.noHost head open_ starts.devWire), fun b whole =>
      ⟨fun none_ => leads_of (next (doRestore_unparsed h may whole none_)) bad, fun k parsed => ?_⟩⟩
    have does := doRestore_parsed h may whole parsed
    refine ⟨fun no => leads_of (next (does.trans (if_pos no))) bad,
      fun fits stalls => next (does.trans ((if_neg (by simp [fits])).trans (if_pos stalls))), fun fits free no => ?_,
      fun fits free held none_ => ?_⟩
    · exact leads_of (next (does.trans ((if_neg (by simp [fits])).trans ((if_neg (by simp [free])).trans (if_pos no)))))
        (starts.aside.ends head open_ stRejected 0 0 0 0)
    · exact leads_of (next (does.trans ((if_neg (by simp [fits])).trans ((if_neg (by simp [free])).trans (if_neg (by simp [held]))))))
        (starts.restores head open_ none_ b)
  -- SNAPSHOT and QUERY
  · intro ⟨h, may⟩
    refine ⟨fun bad => leads_of (next (doSnapshot_bad h may bad)) (bare h stBad 0), fun ok => ?_⟩
    have scheduled := modHead_head (s := s.schedule (dArg0 d) (some q.val)) (start h).1
    exact leads_of (next (doSnapshot_schedules h may ok)) ⟨sheets_sameMemories rfl, rfl, rfl, rfl, scheduled _⟩
  · exact fun ⟨h, may⟩ =>
      leads_of (next (doQuery_writes h may)) (Aside.refl.sends (start h).1 (start h).2 (dArgPtr d) _ stOk 0 _ 0 0)
  -- SEAL_MANIFEST
  · intro ⟨h, may⟩ l plan
    refine ⟨fun none_ => leads_of (next (doSealManifest_uncovered h may plan none_)) (bare h stBad 0),
      fun rs a z cover first last live left alone room => ?_⟩
    have asks := (doSealManifest_asks h may plan cover first last).trans (askSignature_queues live left alone room _)
    exact leads_of (next asks) ⟨sheets_sameMemories rfl, modHead_head (s := s.modEcb _) (start h).1 _, rfl⟩
  -- TEARDOWN
  · intro h
    obtain ⟨same, ends⟩ := bare h stOk (s.ctx (dCtx d).val).drops.toNat
    exact ⟨fun tearing => leads_of (next (doTeardown_tearing h tearing)) (bare h stTorn 0),
      fun idle => leads_of (next (doTeardown_idle h idle)) ⟨same, ends, rfl⟩, fun opened => leads_of rfl (doTeardown_opened h opened)⟩
  -- DEVICE_SEED_SERVE
  · exact ⟨fun no => next (doSeedServe_waits no), fun first ready h wants open_ b drawn =>
      leads_of rfl (doSeedServe_sends h (doSeedServe_serves first ready h wants open_ drawn))⟩
end
